-- ==== Sys2Proof/Word.lean ====
section
/-! DEFINITION. The word types of the model (R5, R7): bytes, 32-bit register words, 64-bit words of the fabric, the
mailboxes and the engine memories. -/

namespace Sys2Proof

/-- A byte (R5). -/
abbrev Byte := BitVec 8

/-- A 32-bit register or memory word (R12). -/
abbrev W32 := BitVec 32

/-- A 64-bit word of a packet, a mailbox message or an engine memory (R25, R366, R542). -/
abbrev W64 := BitVec 64

/-- A 72-bit accumulator or codeword (R334, R542). -/
abbrev W72 := BitVec 72

end Sys2Proof
end

