-- ==== Sys2Proof/Syntax.lean ====
section
/-! DEFINITION. The commands of the block (spec/opcode_table.json): one constructor per row, with the row's operands. What the
environment decides (pin levels, codes, frames, execution results) stands in the operands. -/

namespace Sys2Proof

/-- A request as the supervisor decides it (R366, R367): where it came from, its launch time, deadline, TARGET and payload. -/
structure Request where
  /-- Mailbox number m. -/
  mbx : Fin 16
  /-- SEQ of the request's brand. -/
  seq : BitVec 16
  /-- 1: the launch time is t_ref (R370). -/
  asap : Bool
  /-- Launch time in ns, from time word 1. -/
  launch : Nat
  /-- Launch fraction in 2^-16 ns, from time word 2 (R9). -/
  frac : BitVec 16
  /-- Deadline in µs after the launch time; 0 none. -/
  dl : Nat
  /-- TARGET: the unit code the command acts on (R27). -/
  target : BitVec 8
  /-- The payload words. -/
  payload : List W64
  deriving DecidableEq, Repr

/-- The addressing mode of a Shosto load or store with its offset field (R332, R339). -/
inductive MemMode where
  /-- MODE 0b00, [Xp + off]. -/
  | base (off : BitVec 13)
  /-- MODE 0b01, [Xp], +off. -/
  | post (off : BitVec 13)
  /-- MODE 0b10, [Xp]%CBc, +off. -/
  | circ (cb : BitVec 2) (off : BitVec 11)
  /-- MODE 0b11, [Xp + Xq]. -/
  | index (xq : BitVec 5)
  deriving DecidableEq, Repr

/-- A packet of the fabric, or a Ruori payload block (R25, R29): the brand and every word after it. -/
structure Packet where
  brand : W64
  words : List W64
  /-- Injected (R562). -/
  inj : Bool := false
  /-- Inverted codeword bits per word, brand first: (word index, 72-bit mask) (R542). -/
  errs : List (Nat × Nat) := []
  deriving DecidableEq, Repr

/-- What a boot reported when it completed (R580 to R582): slot, per-slot results, record state. -/
structure BootResult where
  slotB : Bool
  ares : BitVec 2
  bres : BitVec 2
  cfgbad : Bool
  eccc : BitVec 8
  btime : BitVec 8
  /-- FLT_SCRUB.PASS of the device configuration record. -/
  pass : BitVec 12
  deriving DecidableEq, Repr

/-- A CAN frame as it stands on the bus (R433): identifier, format bits and data. -/
structure CanFrame where
  ide : Bool
  fdf : Bool
  brs : Bool
  rtr : Bool
  esi : Bool
  id : BitVec 29
  dlc : BitVec 4
  data : List Byte
  deriving DecidableEq, Repr

/-- The bitstreams of a lane's three channels over a window (R112): the kernel-weighted counts of ones. -/
structure DsfWindow where
  u : Nat
  v : Nat
  w : Nat
  deriving DecidableEq, Repr
/-- What a converter of the SAR cluster measures (R126): the voltage of the channel and the one on VREF_SAR, in nV. -/
structure SarInput where
  v : Int
  vref : Nat
  deriving DecidableEq, Repr

/-- A frame of a serial encoder (R146 to R148): bit i of `bits` is frame bit i; whether the encoder answered in time, and
whether the data line was stuck for the whole frame. -/
structure SerialFrame where
  bits : Nat
  answered : Bool
  stuck : Bool
  deriving DecidableEq, Repr
/-- An Ethernet frame from its destination address to the byte before the FCS (R397); `bad`: FCS error, code-group error or truncation
(R395). -/
structure EthFrame where
  bytes : List Byte
  bad : Bool
  deriving DecidableEq, Repr
/-- A Sync with its Follow_Up, where two-step (R412 to R416): the frames, and the instants in 2^-16 ns at which the message timestamp
point of the Sync passed the ingress MAC interface and, forwarded, the egress one. -/
structure PtpSync where
  port : Fin 2
  sync : EthFrame
  follow : EthFrame
  ingress : Nat
  egress : Nat
  deriving DecidableEq, Repr
/-- A peer-delay message (R414) and the instant in 2^-16 ns at which it passed the MAC interface. -/
structure PdelayMsg where
  frame : EthFrame
  ingress : Nat
  deriving DecidableEq, Repr
abbrev RuoriBlock := Packet
/-- A bus error of a CAN channel (R446): kind 0 stuff, 1 form, 2 CRC, 3 bit, 4 ACK, 5 protocol exception, 6 an overload frame (R432); seen as
transmitter; `primary`: a receiver that ISO 11898-1 charges 8 instead of 1; `exempt`: an error that ISO 11898-1 does not count in TEC; `tdcv`:
the loop delay of an FD frame of the channel's own that had passed its res edge, in CAN clocks (R431). -/
structure CanErr where
  kind : Fin 7
  tx : Bool
  primary : Bool
  exempt : Bool
  tdcv : Option Nat := none
  deriving DecidableEq, Repr
/-- A heartbeat of the partner (R454): its payload word, and the link's measured delay in 2^-16 ns (R453). -/
structure Heartbeat where
  word : W64
  delay : Nat
  deriving DecidableEq, Repr
/-- A frame of the Pairs link without its CRC word: header and payload (R453). -/
structure LinkFrame where
  header : W64
  words : List W64
  deriving DecidableEq, Repr
abbrev MirrorRec := Packet
/-- What the safety unit meets in a cycle of 100 µs (R480, R483, R496): the four 25 µs samples of SI0 to SI7 in order, the levels of the
STO_Gg pins, and whether the sample stream, the code on every access and the program flow were in order. -/
structure SafetyIn where
  s0 : BitVec 8
  s1 : BitVec 8
  s2 : BitVec 8
  s3 : BitVec 8
  sto : BitVec 4
  field : Bool
  ram : Bool
  flow : Bool
  deriving DecidableEq, Repr
/-- What a frame brings from the field die (R506, R512, R513): levels of FIO00 to FIO31, currents below the wire-break limit of the
channel's mode, channels over temperature, the die itself over temperature. -/
structure FieldIn where
  levels : BitVec 32
  low : BitVec 32
  otemp : BitVec 32
  dieHot : Bool
  deriving DecidableEq, Repr

/-- The commands and events of the block, in the order of the opcode table. -/
inductive Instr where
  /-- SYS_CAPS (R586). -/
  | sysCaps (q : Request)
  /-- SYS_IDENT (R585). -/
  | sysIdent (q : Request)
  /-- SYS_STATUS (R382). -/
  | sysStatus (q : Request)
  /-- SYS_RUN (R40). -/
  | sysRun (q : Request)
  /-- SYS_STOP (R43). -/
  | sysStop (q : Request)
  /-- SYS_STANDBY (R570). -/
  | sysStandby (q : Request)
  /-- SYS_DOZE (R573). -/
  | sysDoze (q : Request)
  /-- SYS_RESET (R575). -/
  | sysReset (q : Request)
  /-- SYS_CLEAR (R40). -/
  | sysClear (q : Request)
  /-- SYS_RELEASE (R51). -/
  | sysRelease (q : Request)
  /-- SYS_RECLAIM (R51). -/
  | sysReclaim (q : Request)
  /-- SYS_MBX (R382). -/
  | sysMbx (q : Request)
  /-- LANE_CFG (R88). -/
  | laneCfg (q : Request)
  /-- LANE_ARM (R44). -/
  | laneArm (q : Request)
  /-- LANE_ENABLE (R190). -/
  | laneEnable (q : Request)
  /-- LANE_DISABLE (R44). -/
  | laneDisable (q : Request)
  /-- LANE_STOP (R254). -/
  | laneStop (q : Request)
  /-- LANE_CLEAR (R44). -/
  | laneClear (q : Request)
  /-- DCG_CFG (R382). -/
  | dcgCfg (q : Request)
  /-- DCG_CLEAR (R200). -/
  | dcgClear (q : Request)
  /-- FBK_CFG (R172). -/
  | fbkCfg (q : Request)
  /-- FBK_SET_POS (R157). -/
  | fbkSetPos (q : Request)
  /-- CONV_CFG (R382). -/
  | convCfg (q : Request)
  /-- STR_CFG (R168). -/
  | strCfg (q : Request)
  /-- CMDIN_CFG (R194). -/
  | cmdinCfg (q : Request)
  /-- MOVE_ABS (R239). -/
  | moveAbs (q : Request)
  /-- MOVE_REL (R236). -/
  | moveRel (q : Request)
  /-- MOVE_RETARGET (R236). -/
  | moveRetarget (q : Request)
  /-- MOVE_VEL (R242). -/
  | moveVel (q : Request)
  /-- MOVE_STOP (R254). -/
  | moveStop (q : Request)
  /-- AXIS_LIMITS (R243). -/
  | axisLimits (q : Request)
  /-- AXIS_CFG (R266). -/
  | axisCfg (q : Request)
  /-- GEAR_SET (R244). -/
  | gearSet (q : Request)
  /-- CAM_SET (R249). -/
  | camSet (q : Request)
  /-- CAM_LOAD (R247). -/
  | camLoad (q : Request)
  /-- LOOP_CFG (R287). -/
  | loopCfg (q : Request)
  /-- LOOP_MODE (R274). -/
  | loopMode (q : Request)
  /-- LOOP_SET (R277). -/
  | loopSet (q : Request)
  /-- TIME_CFG (R77). -/
  | timeCfg (q : Request)
  /-- TIME_ACCEPT_STEP (R64). -/
  | timeAcceptStep (q : Request)
  /-- HERDER_CFG (R296). -/
  | herderCfg (q : Request)
  /-- HERDER_TRACE (R321). -/
  | herderTrace (q : Request)
  /-- CAP_CFG (R539). -/
  | capCfg (q : Request)
  /-- CAP_ARM (R531). -/
  | capArm (q : Request)
  /-- CAP_STOP (R534). -/
  | capStop (q : Request)
  /-- IO_CFG (R517). -/
  | ioCfg (q : Request)
  /-- IO_SET (R510). -/
  | ioSet (q : Request)
  /-- IO_DIAG (R518). -/
  | ioDiag (q : Request)
  /-- SAFE_CFG (R498). -/
  | safeCfg (q : Request)
  /-- SAFE_STATUS (R498). -/
  | safeStatus (q : Request)
  /-- CHAIN_CFG (R408). -/
  | chainCfg (q : Request)
  /-- CHAIN_ENUM (R419). -/
  | chainEnum (q : Request)
  /-- CAN_CFG (R441). -/
  | canCfg (q : Request)
  /-- CAN_SEND (R437). -/
  | canSend (q : Request)
  /-- PAIR_JOIN (R472). -/
  | pairJoin (q : Request)
  /-- PAIR_LEAVE (R474). -/
  | pairLeave (q : Request)
  /-- PAIR_STATUS (R474). -/
  | pairStatus (q : Request)
  /-- EXT_LOAD (R352). -/
  | extLoad (q : Request)
  /-- REG_READ (R386). -/
  | regRead (q : Request)
  /-- REG_WRITE (R386). -/
  | regWrite (q : Request)
  /-- READ (R361). -/
  | read (addr : W32) (n : Nat)
  /-- WRITE (R362). -/
  | write (code : BitVec 8) (addr : W32) (ws : List W32) (cut : Bool)
  /-- STATUS (R363). -/
  | status
  /-- MAILBOX_DECISION (R370). -/
  | mailboxDecision (m : Fin 16)
  /-- RESPONSE_RELEASE (R376). -/
  | responseRelease (m : Fin 16)
  /-- BOOTED_READ (R378). -/
  | bootedRead
  /-- REGISTER_WRITE (R13). -/
  | registerWrite (addr v : W32)
  /-- TIME_NOW_LATCH (R7). -/
  | timeNowLatch
  /-- FBK_POS_LATCH (R154). -/
  | fbkPosLatch (n : Fin 24)
  /-- PROBE_TS_LATCH (R160). -/
  | probeTsLatch (p : Fin 8)
  /-- PROBE_FRAC_READ (R160). -/
  | probeFracRead (p : Fin 8)
  /-- DSF_RES_READ (R123). -/
  | dsfResRead (ch : Fin 72)
  /-- SAR_RES_READ (R131). -/
  | sarResRead (m : Fin 4) (ch : Fin 16)
  /-- LAUNCH_LATCH (R290). -/
  | launchLatch (j : Fin 1024)
  /-- TREF_LATCH (R370). -/
  | trefLatch (m : Fin 16)
  /-- SP_LATCH (R234). -/
  | spLatch (a : Fin 64)
  /-- SLACK_CLR (R98). -/
  | slackClr (l : Fin 24)
  /-- GATE_COMMIT (R68). -/
  | gateCommit (g : Fin 256)
  /-- PWM_COMMIT (R214). -/
  | pwmCommit (l : Fin 24)
  /-- COMMIT_PACKET (R217). -/
  | commitPacket (l : Fin 24) (brand sk : W64)
  /-- STEPPER_COMMIT (R227). -/
  | stepperCommit (s : Fin 8)
  /-- GROUP_COMMIT (R228). -/
  | groupCommit (g : Fin 4)
  /-- DSF_COMMIT (R115). -/
  | dsfCommit (l : Fin 24)
  /-- SAR_GROUP_COMMIT (R132). -/
  | sarGroupCommit (g : Fin 4)
  /-- SAR_SEQUENCE_COMMIT (R130). -/
  | sarSequenceCommit (m : Fin 4)
  /-- FBK_COMMIT (R172). -/
  | fbkCommit (n : Fin 24)
  /-- STRIDE_COMMIT (R168). -/
  | strideCommit (s : Fin 8)
  /-- TRJ_COMMIT (R266). -/
  | trjCommit (a : Fin 64)
  /-- LOOP_COMMIT (R287). -/
  | loopCommit (b : Fin 16)
  /-- CHAIN_COMMIT (R426). -/
  | chainCommit
  /-- CAN_COMMIT (R449). -/
  | canCommit (ch : Fin 8)
  /-- CAN_RECOVERY (R446). -/
  | canRecovery (ch : Fin 8)
  /-- PUSH (R437). -/
  | push (ch : Fin 8)
  /-- CAN_RX_RELEASE (R435). -/
  | canRxRelease (ch : Fin 8)
  /-- FIO_COMMIT (R517). -/
  | fioCommit (ch : Fin 32)
  /-- CAP_COMMIT (R539). -/
  | capCommit (r : Fin 8)
  /-- SEGMENT_RELEASE (R532). -/
  | segmentRelease (r : Fin 8)
  /-- FAULT_LOG_RELEASE (R552). -/
  | faultLogRelease
  /-- FLTINJ (R561). -/
  | fltinj (dr : BitVec 128)
  /-- FAULT_INJECTION (R562). -/
  | faultInjection
  /-- BOOTST (R583). -/
  | bootst
  /-- POWER_ON (R566). -/
  | powerOn
  /-- BROWN_OUT (R566). -/
  | brownOut
  /-- RESET_N_LOW (R576). -/
  | resetNLow (ns : Nat)
  /-- RESET_N_RISE (R575). -/
  | resetNRise
  /-- WATCHDOG_RESET (R577). -/
  | watchdogReset
  /-- SOFT_RESET (R575). -/
  | softReset
  /-- STANDBY_ENTRY (R570). -/
  | standbyEntry
  /-- WAKE_N (R571). -/
  | wakeN (ns : Nat)
  /-- HPI_CS_N_WAKE (R358). -/
  | hpiCsNWake (ns : Nat)
  /-- CAN_EDGE_WAKE (R444). -/
  | canEdgeWake (ch : Fin 6) (ns : Nat)
  /-- CAN_WAKE_FRAME (R445). -/
  | canWakeFrame (ch : Fin 6) (f : CanFrame)
  /-- OVER_TEMPERATURE (R590). -/
  | overTemperature (degC : Int)
  /-- COOL_DOWN (R590). -/
  | coolDown (degC : Int)
  /-- VIO_BANK_RISE (R565). -/
  | vioBankRise (bank : Fin 6)
  /-- BOOT_COMPLETE (R582). -/
  | bootComplete (b : BootResult)
  /-- BOOT_FAILURE (R583). -/
  | bootFailure (cause : BitVec 3)
  /-- REF_LOST (R55). -/
  | refLost
  /-- GATE_SAMPLE (R83). -/
  | gateSample (g : Fin 256)
  /-- GATE_LATCH (R159). -/
  | gateLatch (g : Fin 256)
  /-- RELOAD (R215). -/
  | reload (g : Fin 256)
  /-- STAGING_LOCK_END (R215). -/
  | stagingLockEnd (g : Fin 256)
  /-- GATE_MARK (R66). -/
  | gateMark (g : Fin 256)
  /-- GATE_FIELD (R509). -/
  | gateField (g : Fin 256)
  /-- GATE_FRAME (R405). -/
  | gateFrame (g : Fin 256)
  /-- GATE_CAPTURE (R531). -/
  | gateCapture (g : Fin 256)
  /-- HERDER_TICK (R295). -/
  | herderTick
  /-- DISPATCH (R299). -/
  | dispatch (e : Fin 31)
  /-- WITHDRAW (R301). -/
  | withdraw (j : Fin 1024)
  /-- JOB_OVERRUN (R315). -/
  | jobOverrun (e : Fin 31)
  /-- STATISTICS_WINDOW (R317). -/
  | statisticsWindow
  /-- ADD (R340). -/
  | shAdd (e : Fin 30) (xd xa xb : BitVec 5)
  /-- SUB (R340). -/
  | shSub (e : Fin 30) (xd xa xb : BitVec 5)
  /-- ADDS (R337). -/
  | shAdds (e : Fin 30) (xd xa xb : BitVec 5)
  /-- SUBS (R337). -/
  | shSubs (e : Fin 30) (xd xa xb : BitVec 5)
  /-- AND (R340). -/
  | shAnd (e : Fin 30) (xd xa xb : BitVec 5)
  /-- OR (R340). -/
  | shOr (e : Fin 30) (xd xa xb : BitVec 5)
  /-- XOR (R340). -/
  | shXor (e : Fin 30) (xd xa xb : BitVec 5)
  /-- SHL (R340). -/
  | shShl (e : Fin 30) (xd xa xb : BitVec 5)
  /-- SHR (R340). -/
  | shShr (e : Fin 30) (xd xa xb : BitVec 5)
  /-- SRA (R340). -/
  | shSra (e : Fin 30) (xd xa xb : BitVec 5)
  /-- MIN (R340). -/
  | shMin (e : Fin 30) (xd xa xb : BitVec 5)
  /-- MAX (R340). -/
  | shMax (e : Fin 30) (xd xa xb : BitVec 5)
  /-- ABSS (R337). -/
  | shAbss (e : Fin 30) (xd xa xb : BitVec 5)
  /-- NEGS (R337). -/
  | shNegs (e : Fin 30) (xd xa xb : BitVec 5)
  /-- NORM (R340). -/
  | shNorm (e : Fin 30) (xd xa xb : BitVec 5)
  /-- DIV (R337). -/
  | shDiv (e : Fin 30) (xd xa xb : BitVec 5)
  /-- DIVU (R337). -/
  | shDivu (e : Fin 30) (xd xa xb : BitVec 5)
  /-- SHLS (R337). -/
  | shShls (e : Fin 30) (xd xa xb : BitVec 5)
  /-- ADDI (R340). -/
  | shAddi (e : Fin 30) (xd xa : BitVec 5) (imm : BitVec 14)
  /-- ANDI (R340). -/
  | shAndi (e : Fin 30) (xd xa : BitVec 5) (imm : BitVec 14)
  /-- ORI (R340). -/
  | shOri (e : Fin 30) (xd xa : BitVec 5) (imm : BitVec 14)
  /-- XORI (R340). -/
  | shXori (e : Fin 30) (xd xa : BitVec 5) (imm : BitVec 14)
  /-- SHLI (R340). -/
  | shShli (e : Fin 30) (xd xa : BitVec 5) (imm : BitVec 14)
  /-- SHRI (R340). -/
  | shShri (e : Fin 30) (xd xa : BitVec 5) (imm : BitVec 14)
  /-- SRAI (R340). -/
  | shSrai (e : Fin 30) (xd xa : BitVec 5) (imm : BitVec 14)
  /-- MPY (R334). -/
  | shMpy (e : Fin 30) (ac : BitVec 1) (xa xb : BitVec 5) (md : BitVec 2)
  /-- MAC (R334). -/
  | shMac (e : Fin 30) (ac : BitVec 1) (xa xb : BitVec 5) (md : BitVec 2)
  /-- MSU (R334). -/
  | shMsu (e : Fin 30) (ac : BitVec 1) (xa xb : BitVec 5) (md : BitVec 2)
  /-- TAP (R343). -/
  | shTap (e : Fin 30) (ac : BitVec 1) (xs xh : BitVec 5) (cb : BitVec 2)
  /-- CLR (R340). -/
  | shClr (e : Fin 30) (ac : BitVec 1) (xd : BitVec 5) (sh : BitVec 6)
  /-- EXT (R335). -/
  | shExt (e : Fin 30) (ac : BitVec 1) (xd : BitVec 5) (sh : BitVec 6)
  /-- EXTU (R335). -/
  | shExtu (e : Fin 30) (ac : BitVec 1) (xd : BitVec 5) (sh : BitVec 6)
  /-- EXTL (R335). -/
  | shExtl (e : Fin 30) (ac : BitVec 1) (xd : BitVec 5) (sh : BitVec 6)
  /-- MVG (R340). -/
  | shMvg (e : Fin 30) (ac : BitVec 1) (xd : BitVec 5) (sh : BitVec 6)
  /-- LDAL (R340). -/
  | shLdal (e : Fin 30) (ac : BitVec 1) (xd : BitVec 5) (sh : BitVec 6)
  /-- LDAG (R340). -/
  | shLdag (e : Fin 30) (ac : BitVec 1) (xd : BitVec 5) (sh : BitVec 6)
  /-- ADDA (R340). -/
  | shAdda (e : Fin 30) (ac : BitVec 1) (xd : BitVec 5) (sh : BitVec 6)
  /-- MOVA (R340). -/
  | shMova (e : Fin 30) (ac : BitVec 1) (xd : BitVec 5) (sh : BitVec 6)
  /-- LD_W (R332). -/
  | shLdW (e : Fin 30) (m : MemMode) (xd xp : BitVec 5)
  /-- LD_L (R332). -/
  | shLdL (e : Fin 30) (m : MemMode) (xd xp : BitVec 5)
  /-- ST_W (R332). -/
  | shStW (e : Fin 30) (m : MemMode) (xd xp : BitVec 5)
  /-- ST_L (R332). -/
  | shStL (e : Fin 30) (m : MemMode) (xd xp : BitVec 5)
  /-- LDA (R336). -/
  | shLda (e : Fin 30) (m : MemMode) (xd xp : BitVec 5)
  /-- STA (R336). -/
  | shSta (e : Fin 30) (m : MemMode) (xd xp : BitVec 5)
  /-- BCC (R341). -/
  | shBcc (e : Fin 30) (cond : BitVec 4) (off : BitVec 24)
  /-- CALL (R341). -/
  | shCall (e : Fin 30) (off : BitVec 24)
  /-- RET (R341). -/
  | shRet (e : Fin 30)
  /-- NOP (R340). -/
  | shNop (e : Fin 30)
  /-- END (R345). -/
  | shEnd (e : Fin 30)
  /-- REP (R342). -/
  | shRep (e : Fin 30) (count : BitVec 12)
  /-- REPX (R342). -/
  | shRepx (e : Fin 30) (xa : BitVec 5)
  /-- LOOP (R342). -/
  | shLoop (e : Fin 30) (count len : BitVec 12)
  /-- MFS (R340). -/
  | shMfs (e : Fin 30) (xd s : BitVec 5) (n : BitVec 4)
  /-- MTS (R340). -/
  | shMts (e : Fin 30) (xd s : BitVec 5) (n : BitVec 4)
  /-- TIMR (R349). -/
  | shTimr (e : Fin 30) (xd s : BitVec 5) (n : BitVec 4)
  /-- SEND (R348). -/
  | shSend (e : Fin 30) (xd s : BitVec 5) (n : BitVec 4)
  /-- IOLD (R347). -/
  | shIold (e : Fin 30) (xd s : BitVec 5) (n : BitVec 4)
  /-- IOST (R347). -/
  | shIost (e : Fin 30) (xd s : BitVec 5) (n : BitVec 4)
  /-- BRK (R340). -/
  | shBrk (e : Fin 30) (xd s : BitVec 5) (n : BitVec 4)
  /-- LDI (R340). -/
  | shLdi (e : Fin 30) (xd xa : BitVec 5) (imm : W32)
  /-- ADDI32 (R340). -/
  | shAddi32 (e : Fin 30) (xd xa : BitVec 5) (imm : W32)
  /-- PACKET_DELIVERY (R329). -/
  | packetDelivery (i : Nat)
  /-- DSF_RESULT (R111). -/
  | dsfResult (l : Fin 24) (w : DsfWindow)
  /-- COMPARATOR_OUTPUT (R117). -/
  | comparatorOutput (ch : Fin 72) (a : BitVec 16)
  /-- MOD_STUCK (R124). -/
  | modStuck (ch : Fin 72) (level : Bool)
  /-- SAR_CONVERSION (R128). -/
  | sarConversion (m : Fin 4) (v : SarInput)
  /-- DC_LINK_SAMPLE (R133). -/
  | dcLinkSample (g : Fin 4) (a b : SarInput)
  /-- QUADRATURE_EDGE (R142). -/
  | quadratureEdge (n : Fin 24) (a b : Bool)
  /-- HALL_CHANGE (R143). -/
  | hallChange (n : Fin 24) (code : BitVec 3)
  /-- INDEX_EVENT (R155). -/
  | indexEvent (n : Fin 24)
  /-- ALARM_INPUT (R141). -/
  | alarmInput (n : Fin 24) (level : Bool)
  /-- SERIAL_FRAME (R148). -/
  | serialFrame (n : Fin 24) (f : SerialFrame)
  /-- PROBE_EVENT (R160). -/
  | probeEvent (p : Fin 8) (rising : Bool)
  /-- STRIDE_EDGE_FIXED (R165). -/
  | strideEdgeFixed (s : Fin 8)
  /-- STRIDE_EDGE (R164). -/
  | strideEdge (s : Fin 8)
  /-- STRIDE_PULSE_END (R164). -/
  | stridePulseEnd (s : Fin 8)
  /-- CMDIN_EDGE (R195). -/
  | cmdinEdge (c : Fin 8) (high : Nat)
  /-- CMDIN_CONVERSION (R195). -/
  | cmdinConversion (code : BitVec 16)
  /-- CMDIN_LOST (R196). -/
  | cmdinLost (c : Fin 8)
  /-- START_TIMEOUT (R193). -/
  | startTimeout (l : Fin 24)
  /-- FLT_N_ASSERTED (R223). -/
  | fltNAsserted (g : Fin 4)
  /-- CMPIN_TRIP (R261). -/
  | cmpinTrip (s : Fin 8) (bridgeB : Bool)
  /-- BLANKING_END (R261). -/
  | blankingEnd (s : Fin 8) (bridgeB : Bool)
  /-- OFF_TIME_END (R261). -/
  | offTimeEnd (s : Fin 8) (bridgeB : Bool)
  /-- HOLD_CURRENT (R259). -/
  | holdCurrent (s : Fin 8)
  /-- TRAJECTORY_INSTANT (R232). -/
  | trajectoryInstant (a : Fin 64)
  /-- LOOP_INSTANT (R268). -/
  | loopInstant (b : Fin 16)
  /-- LOOP_JOB_COMPLETE (R275). -/
  | loopJobComplete (b : Fin 16)
  /-- LOOP_OUTPUT (R280). -/
  | loopOutput (b : Fin 16)
  /-- SYNC_RECEIVED (R416). -/
  | syncReceived (m : PtpSync)
  /-- MASTER_LOST (R62). -/
  | masterLost
  /-- HOLDOVER_LIMIT (R63). -/
  | holdoverLimit
  /-- SLEW_COMPLETE (R64). -/
  | slewComplete
  /-- PDELAY_REQ (R414). -/
  | pdelayReq (p : Fin 2)
  /-- PDELAY_MESSAGE (R414). -/
  | pdelayMessage (p : Fin 2) (m : PdelayMsg)
  /-- ANNOUNCE (R417). -/
  | announce
  /-- LINK_DOWN (R392). -/
  | linkDown (p : Fin 2)
  /-- LINK_UP (R392). -/
  | linkUp (p : Fin 2)
  /-- FORWARD (R393). -/
  | forward (p : Fin 2) (f : EthFrame)
  /-- STORE_BUFFER_SEND (R396). -/
  | storeBufferSend (p : Fin 2)
  /-- RUORI_FRAME_RECEIVED (R402). -/
  | ruoriFrameReceived (p : Fin 2) (f : EthFrame)
  /-- REGISTER_READ (R411). -/
  | registerRead (b : RuoriBlock) (src : BitVec 8)
  /-- ENUMERATION_FRAME (R420). -/
  | enumerationFrame (p : Fin 2) (f : EthFrame)
  /-- IDENTITY (R423). -/
  | identity (b : RuoriBlock)
  /-- ENUM_TIMEOUT (R423). -/
  | enumTimeout
  /-- CAN_FRAME_RECEIVED (R432). -/
  | canFrameReceived (ch : Fin 8) (f : CanFrame) (sof : Nat)
  /-- CAN_TRANSMIT_START (R438). -/
  | canTransmitStart (ch : Fin 8)
  /-- CAN_TRANSMIT_END (R440). -/
  | canTransmitEnd (ch : Fin 8) (sof tdcv : Nat)
  /-- CAN_ENTRY_EXPIRY (R439). -/
  | canEntryExpiry (ch : Fin 8) (i : Nat)
  /-- CAN_BUS_ERROR (R446). -/
  | canBusError (ch : Fin 8) (k : CanErr)
  /-- BUS_OFF_RECOVERED (R446). -/
  | busOffRecovered (ch : Fin 8)
  /-- BUS_INTEGRATION (R441). -/
  | busIntegration (ch : Fin 8)
  /-- SLEEP_WAKE (R443). -/
  | sleepWake (ch : Fin 8) (ns : Nat)
  /-- PAIR_LINK_TRAINED (R453). -/
  | pairLinkTrained (same : Bool) (addr : BitVec 8)
  /-- HEARTBEAT_SEND (R454). -/
  | heartbeatSend
  /-- HEARTBEAT_RECEIVED (R455). -/
  | heartbeatReceived (h : Heartbeat)
  /-- HEARTBEAT_MISS (R454). -/
  | heartbeatMiss
  /-- PAIR_LINK_FRAME (R453). -/
  | pairLinkFrame (crc : W64) (f : LinkFrame)
  /-- MIRROR_RECORD (R458). -/
  | mirrorRecord (r : MirrorRec)
  /-- REQUEST_HOLD (R461). -/
  | requestHold (m : Fin 16) (ws : List W64)
  /-- HOLD_ACKNOWLEDGE (R461). -/
  | holdAcknowledge (m : Fin 16) (seq : BitVec 16)
  /-- DECISION (R461). -/
  | decision (m : Fin 16) (ws : List W64)
  /-- SNAPSHOT (R473). -/
  | snapshot (rs : List MirrorRec)
  /-- SAFE_NOTICE (R464). -/
  | safeNotice (code : BitVec 16)
  /-- READBACK_COMPARE (R465). -/
  | readbackCompare (levels : Nat)
  /-- PFORCE_N_LOW (R452). -/
  | pforceNLow
  /-- OWN_IN_FALL (R464). -/
  | ownInFall
  /-- JOIN_FAILED (R473). -/
  | joinFailed
  /-- DISPUTED_TIMEOUT (R558). -/
  | disputedTimeout (l : Fin 24)
  /-- SAFETY_CYCLE (R480). -/
  | safetyCycle (i : SafetyIn)
  /-- SS1_EXPIRY (R486). -/
  | ss1Expiry (g : Fin 4)
  /-- SLS_RAMP_END (R491). -/
  | slsRampEnd (g : Fin 4)
  /-- RESET_STUCK (R489). -/
  | resetStuck (i : Fin 8)
  /-- SUPSIL (R493). -/
  | supsil
  /-- OSC_CHECK (R496). -/
  | oscCheck (ok : Bool)
  /-- SAFETY_CRC_CHECK (R496). -/
  | safetyCrcCheck (rom cfg : Bool)
  /-- FIELD_FRAME (R506). -/
  | fieldFrame (i : FieldIn)
  /-- OUTPUT_OVERLOAD (R511). -/
  | outputOverload (ch : Fin 32)
  /-- FIELD_WATCHDOG (R515). -/
  | fieldWatchdog
  /-- DIAGNOSTIC_WINDOW_END (R512). -/
  | diagnosticWindowEnd
  /-- VFLD_LOW (R516). -/
  | vfldLow
  /-- FIELD_DIE_RESET (R516). -/
  | fieldDieReset
  /-- CAPTURE_SAMPLE (R526). -/
  | captureSample (r : Fin 8)
  /-- SCRUB_READ (R547). -/
  | scrubRead (addr : W32)
  /-- PAIR_LINK_LOST (R453). -/
  | pairLinkLost
  /-- VIO_BANK_FALL (R565). -/
  | vioBankFall (bank : Fin 6)
  /-- VFLD_RESTORED (R516). -/
  | vfldRestored
  /-- PFORCE_N_RELEASE (R452). -/
  | pforceNRelease
  /-- TEST_PULSE (R483). -/
  | testPulse (on : Bool) (src : Fin 8)
  /-- SWITCH_EDGE (R209). -/
  | switchEdge (l : Fin 24) (sw : Fin 6) (on : Bool)
  /-- INPUT_OVERLOAD (R511). -/
  | inputOverload (ch : Fin 32)
  deriving DecidableEq, Repr

end Sys2Proof
end

