-- ==== Sys2Proof/Config.lean ====
section
/-! DEFINITION. What one device fixes and the spec leaves open: fused identity, image contents, vendor code, and the free
values. Every constant here is opaque: no proof can see its value. -/

namespace Sys2Proof.Config

/-- The value a fused, image-given or firmware-set register word holds at its address (R584, R585, R319); log entry 3. -/
opaque fusedWord (addr : Nat) : W32

/-- A byte of the boot ROM or of the flash die at a host address (R364, R578); log entry 4. -/
opaque romByte (addr : Nat) : Byte

/-- A byte of vendor program or vendor data memory of an engine at a host address (R327, R328); log entry 4. -/
opaque vendorByte (addr : Nat) : Byte

/-- A free value: something results that the spec does not state. The index makes each use its own value; log entry 5. -/
opaque freeValue (n : Nat) : Int

/-- Program entry address of the vendor job of a Herder slot (R326, R345); log entry 4. -/
opaque vendorEntry (slot : Nat) : BitVec 16

/-- The root key digest index and the fused minimum firmware version of sys.ident words 8 (R585); log entry 3. -/
opaque rootKeyWord : W64

/-- Whether a duration that is no rational number ends past the whole number of nanoseconds that it lies less than 2^-128 s from (R241); log
entry 18. -/
opaque endLater (t : Rat) : Bool

/-- The inbox position that firmware assigns on a trajectory or packet engine to the samples of a master or the packets of a stream (R329); log
entry 95. -/
opaque inboxPos (eng key : Nat) : Fin 8

/-- Bytes of an Announce message that the spec leaves to the sender: UTC offset, clock accuracy and variance, time source (R417); log entry
29. -/
opaque announceOpen (n : Nat) : Byte

end Sys2Proof.Config
end

