-- ==== Sys2Proof/Machine/Arith.lean ====
section
/-! DEFINITION. The arithmetic the chapters share: signed views of fields (R6), clamping, convergent rounding (R335), exact
square roots, CRC-32C (R368) and the columns of the (72,64) code (R542). -/

namespace Sys2Proof.Machine

/-- The value of a `w`-bit two's-complement field (R6). -/
def sInt (w n : Nat) : Int := if n % 2 ^ w < 2 ^ (w - 1) then (n % 2 ^ w : Nat) else (n % 2 ^ w : Nat) - (2 ^ w : Nat)

/-- The `w`-bit two's-complement code of an integer, wrapping. -/
def uInt (w : Nat) (i : Int) : Nat := (i % (2 ^ w : Nat)).toNat

/-- Clamp to a closed range. -/
def clampI (lo hi x : Int) : Int := if x < lo then lo else if hi < x then hi else x

/-- Clamp to the range of a `w`-bit signed field. -/
def satS (w : Nat) (x : Int) : Int := clampI (-(2 ^ (w - 1) : Nat)) ((2 ^ (w - 1) : Nat) - 1) x

/-- Saturating count in a `w`-bit unsigned field. -/
def satU (w n : Nat) : Nat := min n (2 ^ w - 1)

/-- n / d rounded to the nearest integer, ties to even (convergent, R335). -/
def roundDiv (n : Int) (d : Nat) : Int :=
  let q := n / (d : Int)
  let r := n - q * (d : Int)
  if 2 * r > d ∨ (2 * r = d ∧ q % 2 = 1) then q + 1 else q

/-- A rational rounded to the nearest integer, ties to even. -/
def roundQ (r : Rat) : Int := roundDiv r.num r.den

/-- Integer square root, rounded down: `fuel` bits, from bit `fuel - 1` down. -/
def isqrtAux (n : Nat) : Nat → Nat → Nat
  | 0, acc => acc
  | k + 1, acc =>
    let c := acc + 2 ^ k
    if c * c ≤ n then isqrtAux n k c else isqrtAux n k acc

/-- The largest r with r² ≤ n, for n below 2^256. -/
def isqrt (n : Nat) : Nat := isqrtAux n 128 0

/-- One byte into a reflected CRC-32C register (R368). -/
def crc32cByte (crc : Nat) (b : Nat) : Nat :=
  (List.range 8).foldl (fun c _ => if c % 2 = 1 then (c / 2) ^^^ 0x82F63B78 else c / 2) (crc ^^^ b)

/-- CRC-32C of bytes in order: start 0xFFFF_FFFF, final XOR 0xFFFF_FFFF (R368). -/
def crc32c (bs : List Nat) : Nat := (bs.foldl crc32cByte 0xFFFFFFFF) ^^^ 0xFFFFFFFF

/-- The eight bytes of a 64-bit word, ascending address (R5). -/
def bytes64 (w : W64) : List Nat := (List.range 8).map fun i => w.toNat / 2 ^ (8 * i) % 256

/-- The CRC word of 64-bit words (R368). -/
def crcWords (ws : List W64) : Nat := crc32c (ws.flatMap bytes64)

/-- Number of bits set in the low `w` bits. -/
def popcount (w n : Nat) : Nat := ((List.range w).filter fun i => n.testBit i).length

/-- The column values h_0 to h_63 (R542). -/
def eccCols : List Nat :=
  (List.range 256).filter (fun b => popcount 8 b = 3) ++ ((List.range 256).filter (fun b => popcount 8 b = 5)).take 8

/-- The check byte of a data word (R542). -/
def eccCheck (w : Nat) : Nat :=
  (eccCols.zipIdx).foldl (fun s (p : Nat × Nat) => if w.testBit p.2 then s ^^^ p.1 else s) 0

/-- What a consumer makes of a codeword (R544): the data used, the syndrome, and whether the word was uncorrectable. -/
structure EccOut where
  data : Nat
  syn : Nat
  bad : Bool
  deriving DecidableEq, Repr

/-- Read of a word stored as `data` whose codeword has the bits of `mask` inverted (R544). -/
def eccRead (data mask : Nat) : EccOut :=
  if mask = 0 then ⟨data, 0, false⟩ else
  let got := (data ^^^ mask) % 2 ^ 64
  let syn := eccCheck (mask % 2 ^ 64) ^^^ (mask / 2 ^ 64 % 256)
  if syn = 0 then ⟨got, 0, false⟩
  else if popcount 8 syn = 1 then ⟨got, syn, false⟩
  else match eccCols.idxOf? syn with
    | some i => ⟨got ^^^ 2 ^ i, syn, false⟩
    | none => ⟨got, syn, true⟩

end Sys2Proof.Machine
end

