-- ==== Sys2Proof/Machine/RegMap.lean ====
section
/-! DEFINITION. The register map (R11, R12, R364): one row per register of the chapters' register tables, with its
access masks (R13) and reset value, and one `Field` per field, named REGISTER_FIELD as R11 names it; in a name
`_ACT_` marks the view of the value in force of a staged (RWS) field (R15). -/

namespace Sys2Proof.Machine

/-- One kind of register: its offset in its block, the counts and strides of its instances, the bits of each access code
of R13, the reset value, and the offset of its in-force view where it has one. -/
structure RegRow where
  off : Nat
  dims : List (Nat × Nat)
  rw : Nat
  rws : Nat
  w1c : Nat
  sc : Nat
  rl : Nat
  reset : Nat
  special : Nat := 0
  act : Option Nat := none
  deriving DecidableEq, Repr

/-- A field of a register: its address, its lowest bit and its width. -/
structure Field where
  addr : Nat
  lo : Nat
  width : Nat
  deriving DecidableEq, Repr

/-- Registers of block SYS. -/
def rowsSys : List RegRow := [
  /- SYS_MEMBER -/ { off := 0x0, dims := [], rw := 0x0, rws := 0x0, w1c := 0x0, sc := 0x0, rl := 0x0, reset := 0x24, special := 5 },
  /- SYS_FWVER -/ { off := 0x4, dims := [], rw := 0x0, rws := 0x0, w1c := 0x0, sc := 0x0, rl := 0x0, reset := 0x0, special := 1 },
  /- SYS_SERIAL_LO -/ { off := 0x8, dims := [], rw := 0x0, rws := 0x0, w1c := 0x0, sc := 0x0, rl := 0x0, reset := 0x0, special := 1 },
  /- SYS_SERIAL_HI -/ { off := 0xC, dims := [], rw := 0x0, rws := 0x0, w1c := 0x0, sc := 0x0, rl := 0x0, reset := 0x0, special := 1 },
  /- SYS_Dd_LOT_LO -/ { off := 0x20, dims := [(3, 0x10)], rw := 0x0, rws := 0x0, w1c := 0x0, sc := 0x0, rl := 0x0, reset := 0x0, special := 1 },
  /- SYS_Dd_LOT_HI -/ { off := 0x24, dims := [(3, 0x10)], rw := 0x0, rws := 0x0, w1c := 0x0, sc := 0x0, rl := 0x0, reset := 0x0, special := 1 },
  /- SYS_Dd_XY -/ { off := 0x28, dims := [(3, 0x10)], rw := 0x0, rws := 0x0, w1c := 0x0, sc := 0x0, rl := 0x0, reset := 0x0, special := 6 },
  /- SYS_RST -/ { off := 0x50, dims := [], rw := 0x0, rws := 0x0, w1c := 0x0, sc := 0x0, rl := 0x0, reset := 0x0 },
  /- SYS_BOOT -/ { off := 0x54, dims := [], rw := 0x0, rws := 0x0, w1c := 0x0, sc := 0x0, rl := 0x0, reset := 0x0 },
  /- SYS_WAKE -/ { off := 0x58, dims := [], rw := 0x0, rws := 0x0, w1c := 0x0, sc := 0x0, rl := 0x0, reset := 0x0 },
  /- SYS_CAP0 -/ { off := 0x100, dims := [], rw := 0x0, rws := 0x0, w1c := 0x0, sc := 0x0, rl := 0x0, reset := 0x20040818 },
  /- SYS_CAP1 -/ { off := 0x104, dims := [], rw := 0x0, rws := 0x0, w1c := 0x0, sc := 0x0, rl := 0x0, reset := 0x18040648 },
  /- SYS_CAP2 -/ { off := 0x108, dims := [], rw := 0x0, rws := 0x0, w1c := 0x0, sc := 0x0, rl := 0x0, reset := 0x20081008 },
  /- SYS_CAP3 -/ { off := 0x10C, dims := [], rw := 0x0, rws := 0x0, w1c := 0x0, sc := 0x0, rl := 0x0, reset := 0x8000840 },
  /- SYS_CAP4 -/ { off := 0x110, dims := [], rw := 0x0, rws := 0x0, w1c := 0x0, sc := 0x0, rl := 0x0, reset := 0x48846 },
  /- SYS_CAP5 -/ { off := 0x114, dims := [], rw := 0x0, rws := 0x0, w1c := 0x0, sc := 0x0, rl := 0x0, reset := 0x81000400 }]

/-- Registers of block HERDER, part 0. -/
def rowsHerder0 : List RegRow := [
  /- HERDER_CTRL -/ { off := 0x0, dims := [], rw := 0x3FF007F, rws := 0x0, w1c := 0x0, sc := 0x0, rl := 0x0, reset := 0x640004 },
  /- HERDER_CAP -/ { off := 0x4, dims := [], rw := 0xFFFFFF, rws := 0x0, w1c := 0x0, sc := 0x0, rl := 0x0, reset := 0x5A5A5A },
  /- HERDER_STAT -/ { off := 0x8, dims := [], rw := 0x0, rws := 0x0, w1c := 0x10000, sc := 0x0, rl := 0x0, reset := 0x300 },
  /- HERDER_XDEC -/ { off := 0xC, dims := [], rw := 0x0, rws := 0x0, w1c := 0x0, sc := 0x0, rl := 0x0, reset := 0x0 },
  /- HERDER_TR_BASE -/ { off := 0x10, dims := [], rw := 0x0, rws := 0x0, w1c := 0x0, sc := 0x0, rl := 0x0, reset := 0x0, special := 7 },
  /- HERDER_TR_WR -/ { off := 0x14, dims := [], rw := 0x0, rws := 0x0, w1c := 0x0, sc := 0x0, rl := 0x0, reset := 0x0 },
  /- HERDER_TR_CTL -/ { off := 0x18, dims := [], rw := 0xFFFFFFF, rws := 0x0, w1c := 0x0, sc := 0x0, rl := 0x0, reset := 0xFC },
  /- HERDER_TR_EMASK -/ { off := 0x1C, dims := [], rw := 0x7FFFFFFF, rws := 0x0, w1c := 0x0, sc := 0x0, rl := 0x0, reset := 0x7FFFFFFF },
  /- HERDER_ENGe_STAT -/ { off := 0x100, dims := [(31, 0x20)], rw := 0x0, rws := 0x0, w1c := 0x30000, sc := 0x0, rl := 0x0, reset := 0x0 },
  /- HERDER_ENGe_DMAX -/ { off := 0x104, dims := [(31, 0x20)], rw := 0x0, rws := 0x0, w1c := 0x0, sc := 0x0, rl := 0x0, reset := 0x0 },
  /- HERDER_ENGe_WMIN -/ { off := 0x108, dims := [(31, 0x20)], rw := 0x0, rws := 0x0, w1c := 0x0, sc := 0x0, rl := 0x0, reset := 0xFFFFFFFF },
  /- HERDER_ENGe_WMAX -/ { off := 0x10C, dims := [(31, 0x20)], rw := 0x0, rws := 0x0, w1c := 0x0, sc := 0x0, rl := 0x0, reset := 0x0 },
  /- HERDER_ENGe_WMEAN -/ { off := 0x110, dims := [(31, 0x20)], rw := 0x0, rws := 0x0, w1c := 0x0, sc := 0x0, rl := 0x0, reset := 0x0 },
  /- HERDER_ENGe_LOAD -/ { off := 0x114, dims := [(31, 0x20)], rw := 0x0, rws := 0x0, w1c := 0x0, sc := 0x0, rl := 0x0, reset := 0x0 },
  /- HERDER_ENGe_ADM -/ { off := 0x118, dims := [(31, 0x20)], rw := 0x0, rws := 0x0, w1c := 0x0, sc := 0x0, rl := 0x0, reset := 0x0 },
  /- HERDER_ENGe_DONE -/ { off := 0x11C, dims := [(31, 0x20)], rw := 0x0, rws := 0x0, w1c := 0x0, sc := 0x0, rl := 0x0, reset := 0x0 },
  /- HERDER_COSTc -/ { off := 0x800, dims := [(256, 0x4)], rw := 0x0, rws := 0x0, w1c := 0x0, sc := 0x0, rl := 0x0, reset := 0x0, special := 2 },
  /- HERDER_JOBj_CFG -/ { off := 0x4000, dims := [(1024, 0x20)], rw := 0x0, rws := 0x0, w1c := 0x0, sc := 0x0, rl := 0x0, reset := 0x0 },
  /- HERDER_JOBj_CNT -/ { off := 0x4004, dims := [(1024, 0x20)], rw := 0x0, rws := 0x0, w1c := 0x0, sc := 0x0, rl := 0x0, reset := 0x0 },
  /- HERDER_JOBj_LAUNCH_LO -/ { off := 0x4008, dims := [(1024, 0x20)], rw := 0x0, rws := 0x0, w1c := 0x0, sc := 0x0, rl := 0x0, reset := 0x0 },
  /- HERDER_JOBj_LAUNCH_HI -/ { off := 0x400C, dims := [(1024, 0x20)], rw := 0x0, rws := 0x0, w1c := 0x0, sc := 0x0, rl := 0x0, reset := 0x0 },
  /- HERDER_JOBj_DLREL -/ { off := 0x4010, dims := [(1024, 0x20)], rw := 0x0, rws := 0x0, w1c := 0x0, sc := 0x0, rl := 0x0, reset := 0x0 },
  /- HERDER_JOBj_SUCC0 -/ { off := 0x4014, dims := [(1024, 0x20)], rw := 0x0, rws := 0x0, w1c := 0x0, sc := 0x0, rl := 0x0, reset := 0x0 },
  /- HERDER_JOBj_SUCC1 -/ { off := 0x4018, dims := [(1024, 0x20)], rw := 0x0, rws := 0x0, w1c := 0x0, sc := 0x0, rl := 0x0, reset := 0x0 }]

/-- Registers of block HERDER, part 1. -/
def rowsHerder1 : List RegRow := [
  /- HERDER_JOBj_SUCC2 -/ { off := 0x401C, dims := [(1024, 0x20)], rw := 0x0, rws := 0x0, w1c := 0x0, sc := 0x0, rl := 0x0, reset := 0x0 }]

/-- Registers of block HERDER. -/
def rowsHerder : List RegRow := rowsHerder0 ++ rowsHerder1

/-- Registers of block TIME. -/
def rowsTime : List RegRow := [
  /- TIME_CTRL -/ { off := 0x0, dims := [], rw := 0x7, rws := 0x0, w1c := 0x0, sc := 0x0, rl := 0x0, reset := 0x0 },
  /- TIME_STAT -/ { off := 0x4, dims := [], rw := 0x0, rws := 0x0, w1c := 0xD8, sc := 0x0, rl := 0x0, reset := 0x0 },
  /- TIME_NOW_LO -/ { off := 0x8, dims := [], rw := 0x0, rws := 0x0, w1c := 0x0, sc := 0x0, rl := 0x0, reset := 0x0 },
  /- TIME_NOW_HI -/ { off := 0xC, dims := [], rw := 0x0, rws := 0x0, w1c := 0x0, sc := 0x0, rl := 0x0, reset := 0x0 },
  /- TIME_NOW_FRAC -/ { off := 0x10, dims := [], rw := 0x0, rws := 0x0, w1c := 0x0, sc := 0x0, rl := 0x0, reset := 0x0 },
  /- TIME_RATE -/ { off := 0x14, dims := [], rw := 0x0, rws := 0x0, w1c := 0x0, sc := 0x0, rl := 0x0, reset := 0x0 },
  /- TIME_GAIN -/ { off := 0x18, dims := [], rw := 0xFFFFFFFF, rws := 0x0, w1c := 0x0, sc := 0x0, rl := 0x0, reset := 0x800800 },
  /- TIME_LIM -/ { off := 0x1C, dims := [], rw := 0xFFFFFFFF, rws := 0x0, w1c := 0x0, sc := 0x0, rl := 0x0, reset := 0x640064 },
  /- TIME_HOLD -/ { off := 0x20, dims := [], rw := 0xFFFFFFFF, rws := 0x0, w1c := 0x0, sc := 0x0, rl := 0x0, reset := 0x642710 },
  /- TIME_PEND_LO -/ { off := 0x24, dims := [], rw := 0x0, rws := 0x0, w1c := 0x0, sc := 0x0, rl := 0x0, reset := 0x0 },
  /- TIME_PEND_HI -/ { off := 0x28, dims := [], rw := 0x0, rws := 0x0, w1c := 0x0, sc := 0x0, rl := 0x0, reset := 0x0 }]

/-- Registers of block GATE. -/
def rowsGate : List RegRow := [
  /- GATE_MARGIN -/ { off := 0x0, dims := [], rw := 0x3FF, rws := 0x0, w1c := 0x0, sc := 0x0, rl := 0x0, reset := 0x20 },
  /- GATE_LATE_CNT -/ { off := 0x4, dims := [], rw := 0x0, rws := 0x0, w1c := 0x0, sc := 0x0, rl := 0x0, reset := 0x0 },
  /- GATE_GTnnn_CFG -/ { off := 0x100, dims := [(256, 0x40)], rw := 0x0, rws := 0xFFFFF1, w1c := 0x0, sc := 0x0, rl := 0x0, reset := 0x0, act := some 0x110 },
  /- GATE_GTnnn_PER -/ { off := 0x104, dims := [(256, 0x40)], rw := 0x0, rws := 0xFFFFFFFF, w1c := 0x0, sc := 0x0, rl := 0x0, reset := 0x0, act := some 0x114 },
  /- GATE_GTnnn_CMP_LO -/ { off := 0x108, dims := [(256, 0x40)], rw := 0x0, rws := 0xFFFFFFFF, w1c := 0x0, sc := 0x0, rl := 0x0, reset := 0x0 },
  /- GATE_GTnnn_CMP_HI -/ { off := 0x10C, dims := [(256, 0x40)], rw := 0x0, rws := 0xFFFFFFFF, w1c := 0x0, sc := 0x0, rl := 0x0, reset := 0x0 },
  /- GATE_GTnnn_NEXT_LO -/ { off := 0x118, dims := [(256, 0x40)], rw := 0x0, rws := 0x0, w1c := 0x0, sc := 0x0, rl := 0x0, reset := 0x0 },
  /- GATE_GTnnn_NEXT_HI -/ { off := 0x11C, dims := [(256, 0x40)], rw := 0x0, rws := 0x0, w1c := 0x0, sc := 0x0, rl := 0x0, reset := 0x0 },
  /- GATE_GTnnn_CTL -/ { off := 0x120, dims := [(256, 0x40)], rw := 0x0, rws := 0x0, w1c := 0x3C, sc := 0x1, rl := 0x0, reset := 0x0 }]

/-- Registers of block PWM, part 0. -/
def rowsPwm0 : List RegRow := [
  /- PWM_Lnn_CFG -/ { off := 0x0, dims := [(24, 0x400)], rw := 0x0, rws := 0x31F, w1c := 0x0, sc := 0x0, rl := 0x0, reset := 0x0, act := some 0x80 },
  /- PWM_Lnn_PER -/ { off := 0x4, dims := [(24, 0x400)], rw := 0x0, rws := 0xFFFF, w1c := 0x0, sc := 0x0, rl := 0x0, reset := 0x30D4, act := some 0x84 },
  /- PWM_Lnn_DT -/ { off := 0x8, dims := [(24, 0x400)], rw := 0x0, rws := 0xFFF07FF, w1c := 0x0, sc := 0x0, rl := 0x0, reset := 0xFA, act := some 0x88 },
  /- PWM_Lnn_CU -/ { off := 0xC, dims := [(24, 0x400)], rw := 0x0, rws := 0x8007FFFF, w1c := 0x0, sc := 0x0, rl := 0x0, reset := 0x0, act := some 0x8C },
  /- PWM_Lnn_CV -/ { off := 0x10, dims := [(24, 0x400)], rw := 0x0, rws := 0x8007FFFF, w1c := 0x0, sc := 0x0, rl := 0x0, reset := 0x0, act := some 0x90 },
  /- PWM_Lnn_CW -/ { off := 0x14, dims := [(24, 0x400)], rw := 0x0, rws := 0x8007FFFF, w1c := 0x0, sc := 0x0, rl := 0x0, reset := 0x0, act := some 0x94 },
  /- PWM_Lnn_VPER -/ { off := 0x18, dims := [(24, 0x400)], rw := 0x0, rws := 0xFFFFFFFF, w1c := 0x0, sc := 0x0, rl := 0x0, reset := 0xC3530D4, act := some 0x98 },
  /- PWM_Lnn_COMMIT -/ { off := 0x1C, dims := [(24, 0x400)], rw := 0x0, rws := 0x0, w1c := 0x0, sc := 0x1, rl := 0x0, reset := 0x0 },
  /- PWM_Lnn_CSTAT -/ { off := 0x20, dims := [(24, 0x400)], rw := 0x0, rws := 0x0, w1c := 0x7F, sc := 0x0, rl := 0x0, reset := 0x0 },
  /- PWM_Lnn_OUT -/ { off := 0x24, dims := [(24, 0x400)], rw := 0x0, rws := 0x0, w1c := 0x0, sc := 0x0, rl := 0x0, reset := 0x0 },
  /- PWM_Lnn_CC_CFG -/ { off := 0x200, dims := [(24, 0x400)], rw := 0x0, rws := 0x7FFFF, w1c := 0x0, sc := 0x0, rl := 0x0, reset := 0x808, act := some 0x280 },
  /- PWM_Lnn_CC_ANGOFF -/ { off := 0x204, dims := [(24, 0x400)], rw := 0x0, rws := 0xFFFFFFFF, w1c := 0x0, sc := 0x0, rl := 0x0, reset := 0x0, act := some 0x284 },
  /- PWM_Lnn_CC_KPD -/ { off := 0x208, dims := [(24, 0x400)], rw := 0x0, rws := 0xFFFFFFFF, w1c := 0x0, sc := 0x0, rl := 0x0, reset := 0x8000, act := some 0x288 },
  /- PWM_Lnn_CC_KID -/ { off := 0x20C, dims := [(24, 0x400)], rw := 0x0, rws := 0xFFFFFFFF, w1c := 0x0, sc := 0x0, rl := 0x0, reset := 0x800, act := some 0x28C },
  /- PWM_Lnn_CC_KPQ -/ { off := 0x210, dims := [(24, 0x400)], rw := 0x0, rws := 0xFFFFFFFF, w1c := 0x0, sc := 0x0, rl := 0x0, reset := 0x8000, act := some 0x290 },
  /- PWM_Lnn_CC_KIQ -/ { off := 0x214, dims := [(24, 0x400)], rw := 0x0, rws := 0xFFFFFFFF, w1c := 0x0, sc := 0x0, rl := 0x0, reset := 0x800, act := some 0x294 },
  /- PWM_Lnn_CC_IMAX -/ { off := 0x218, dims := [(24, 0x400)], rw := 0x0, rws := 0xFFFFFFFF, w1c := 0x0, sc := 0x0, rl := 0x0, reset := 0x40000000, act := some 0x298 },
  /- PWM_Lnn_CC_IOC -/ { off := 0x21C, dims := [(24, 0x400)], rw := 0x0, rws := 0xFFFFFFFF, w1c := 0x0, sc := 0x0, rl := 0x0, reset := 0x50000000, act := some 0x29C },
  /- PWM_Lnn_CC_MOD -/ { off := 0x220, dims := [(24, 0x400)], rw := 0x0, rws := 0xFFFFFFFF, w1c := 0x0, sc := 0x0, rl := 0x0, reset := 0x80007999, act := some 0x2A0 },
  /- PWM_Lnn_CC_WIN -/ { off := 0x224, dims := [(24, 0x400)], rw := 0x0, rws := 0xFFFF0FFF, w1c := 0x0, sc := 0x0, rl := 0x0, reset := 0xCCD0064, act := some 0x2A4 },
  /- PWM_Lnn_CC_XD -/ { off := 0x228, dims := [(24, 0x400)], rw := 0x0, rws := 0xFFFFFFFF, w1c := 0x0, sc := 0x0, rl := 0x0, reset := 0x0, act := some 0x2A8 },
  /- PWM_Lnn_CC_XQ -/ { off := 0x22C, dims := [(24, 0x400)], rw := 0x0, rws := 0xFFFFFFFF, w1c := 0x0, sc := 0x0, rl := 0x0, reset := 0x0, act := some 0x2AC },
  /- PWM_Lnn_CC_EPSI -/ { off := 0x230, dims := [(24, 0x400)], rw := 0x0, rws := 0xFFFFFFFF, w1c := 0x0, sc := 0x0, rl := 0x0, reset := 0x0, act := some 0x2B0 },
  /- PWM_Lnn_CC_WBASE -/ { off := 0x234, dims := [(24, 0x400)], rw := 0x0, rws := 0xFFFFFFFF, w1c := 0x0, sc := 0x0, rl := 0x0, reset := 0x3E8, act := some 0x2B4 }]

/-- Registers of block PWM, part 1. -/
def rowsPwm1 : List RegRow := [
  /- PWM_Lnn_CC_FW -/ { off := 0x238, dims := [(24, 0x400)], rw := 0x0, rws := 0xFFFFFFFF, w1c := 0x0, sc := 0x0, rl := 0x0, reset := 0x1007333, act := some 0x2B8 },
  /- PWM_Lnn_CC_IDFW -/ { off := 0x23C, dims := [(24, 0x400)], rw := 0x0, rws := 0xFFFFFFFF, w1c := 0x0, sc := 0x0, rl := 0x0, reset := 0xE0000000, act := some 0x2BC },
  /- PWM_Lnn_CC_IDREF -/ { off := 0x240, dims := [(24, 0x400)], rw := 0x0, rws := 0xFFFFFFFF, w1c := 0x0, sc := 0x0, rl := 0x0, reset := 0x0, act := some 0x2C0 },
  /- PWM_Lnn_CC_ZSPD -/ { off := 0x244, dims := [(24, 0x400)], rw := 0x0, rws := 0xFFFFFFFF, w1c := 0x0, sc := 0x0, rl := 0x0, reset := 0x8000, act := some 0x2C4 },
  /- PWM_Lnn_CC_CATCH -/ { off := 0x248, dims := [(24, 0x400)], rw := 0x0, rws := 0xFFFFFFFF, w1c := 0x0, sc := 0x0, rl := 0x0, reset := 0x1000000, act := some 0x2C8 },
  /- PWM_Lnn_CC_REVLIM -/ { off := 0x24C, dims := [(24, 0x400)], rw := 0x0, rws := 0xFFFFFFFF, w1c := 0x0, sc := 0x0, rl := 0x0, reset := 0x80000, act := some 0x2CC },
  /- PWM_Lnn_CC_REV -/ { off := 0x250, dims := [(24, 0x400)], rw := 0x0, rws := 0xFFFFFFFF, w1c := 0x0, sc := 0x0, rl := 0x0, reset := 0x27104000, act := some 0x2D0 },
  /- PWM_Lnn_CC_COMADV -/ { off := 0x254, dims := [(24, 0x400)], rw := 0x0, rws := 0xFFFFFFFF, w1c := 0x0, sc := 0x0, rl := 0x0, reset := 0x0, act := some 0x2D4 },
  /- PWM_Lnn_CC_STAT -/ { off := 0x2E0, dims := [(24, 0x400)], rw := 0x0, rws := 0x0, w1c := 0x0, sc := 0x0, rl := 0x0, reset := 0x0 },
  /- PWM_Lnn_CC_ID -/ { off := 0x2E8, dims := [(24, 0x400)], rw := 0x0, rws := 0x0, w1c := 0x0, sc := 0x0, rl := 0x0, reset := 0x0 },
  /- PWM_Lnn_CC_IQ -/ { off := 0x2EC, dims := [(24, 0x400)], rw := 0x0, rws := 0x0, w1c := 0x0, sc := 0x0, rl := 0x0, reset := 0x0 },
  /- PWM_Lnn_CC_VD -/ { off := 0x2F0, dims := [(24, 0x400)], rw := 0x0, rws := 0x0, w1c := 0x0, sc := 0x0, rl := 0x0, reset := 0x0 },
  /- PWM_Lnn_CC_VQ -/ { off := 0x2F4, dims := [(24, 0x400)], rw := 0x0, rws := 0x0, w1c := 0x0, sc := 0x0, rl := 0x0, reset := 0x0 },
  /- PWM_Lnn_CC_IFW -/ { off := 0x2F8, dims := [(24, 0x400)], rw := 0x0, rws := 0x0, w1c := 0x0, sc := 0x0, rl := 0x0, reset := 0x0 },
  /- PWM_Lnn_CYC -/ { off := 0x380, dims := [(24, 0x400)], rw := 0x0, rws := 0x3F1FF, w1c := 0x0, sc := 0x0, rl := 0x0, reset := 0x2111, act := some 0x388 },
  /- PWM_Lnn_PHASE -/ { off := 0x384, dims := [(24, 0x400)], rw := 0x0, rws := 0xFFFF, w1c := 0x0, sc := 0x0, rl := 0x0, reset := 0x0, act := some 0x38C },
  /- PWM_Lnn_CYC_STAT -/ { off := 0x390, dims := [(24, 0x400)], rw := 0x0, rws := 0x0, w1c := 0x7, sc := 0x0, rl := 0x0, reset := 0x0 },
  /- PWM_Lnn_HELD_CNT -/ { off := 0x394, dims := [(24, 0x400)], rw := 0x0, rws := 0x0, w1c := 0x0, sc := 0x0, rl := 0x0, reset := 0x0 },
  /- PWM_Lnn_SLACK -/ { off := 0x398, dims := [(24, 0x400)], rw := 0x0, rws := 0x0, w1c := 0x0, sc := 0x80000000, rl := 0x0, reset := 0xFFFF },
  /- PWM_Lnn_KIDX -/ { off := 0x39C, dims := [(24, 0x400)], rw := 0x0, rws := 0x0, w1c := 0x0, sc := 0x0, rl := 0x0, reset := 0x0 },
  /- PWM_Ss_CFG -/ { off := 0x6000, dims := [(8, 0x100)], rw := 0x0, rws := 0x1F, w1c := 0x0, sc := 0x0, rl := 0x0, reset := 0x0, act := some 0x6040 },
  /- PWM_Ss_PER -/ { off := 0x6004, dims := [(8, 0x100)], rw := 0x0, rws := 0xFFFF, w1c := 0x0, sc := 0x0, rl := 0x0, reset := 0xFA0, act := some 0x6044 },
  /- PWM_Ss_COMMIT -/ { off := 0x6008, dims := [(8, 0x100)], rw := 0x0, rws := 0x0, w1c := 0x0, sc := 0x1, rl := 0x0, reset := 0x0 },
  /- PWM_Ss_CSTAT -/ { off := 0x600C, dims := [(8, 0x100)], rw := 0x0, rws := 0x0, w1c := 0x3, sc := 0x0, rl := 0x0, reset := 0x0 }]

/-- Registers of block PWM, part 2. -/
def rowsPwm2 : List RegRow := [
  /- PWM_Ss_OUT -/ { off := 0x6010, dims := [(8, 0x100)], rw := 0x0, rws := 0x0, w1c := 0x0, sc := 0x0, rl := 0x0, reset := 0x0 },
  /- PWM_Ss_PH -/ { off := 0x6014, dims := [(8, 0x100)], rw := 0x0, rws := 0xFFFFFFFF, w1c := 0x0, sc := 0x0, rl := 0x0, reset := 0x0, act := some 0x6054 },
  /- PWM_Ss_CHOP -/ { off := 0x6020, dims := [(8, 0x100)], rw := 0x0, rws := 0xFFFF1FFF, w1c := 0x0, sc := 0x0, rl := 0x0, reset := 0x88640408, act := some 0x6060 },
  /- PWM_Ss_CUR -/ { off := 0x6024, dims := [(8, 0x100)], rw := 0x0, rws := 0xFFFFFFFF, w1c := 0x0, sc := 0x0, rl := 0x0, reset := 0x40008000, act := some 0x6064 },
  /- PWM_Ss_HOLD -/ { off := 0x6028, dims := [(8, 0x100)], rw := 0x0, rws := 0xFFFF, w1c := 0x0, sc := 0x0, rl := 0x0, reset := 0x1F4, act := some 0x6068 },
  /- PWM_Ss_STAT -/ { off := 0x6030, dims := [(8, 0x100)], rw := 0x0, rws := 0x0, w1c := 0x400, sc := 0x0, rl := 0x0, reset := 0x0 },
  /- PWM_Gg_BCFG -/ { off := 0x7000, dims := [(4, 0x100)], rw := 0x0, rws := 0xFFFFFF03, w1c := 0x0, sc := 0x0, rl := 0x0, reset := 0x2001400, act := some 0x7040 },
  /- PWM_Gg_BHI -/ { off := 0x7004, dims := [(4, 0x100)], rw := 0x0, rws := 0xFFFFFFFF, w1c := 0x0, sc := 0x0, rl := 0x0, reset := 0x30000000, act := some 0x7044 },
  /- PWM_Gg_BLO -/ { off := 0x7008, dims := [(4, 0x100)], rw := 0x0, rws := 0xFFFFFFFF, w1c := 0x0, sc := 0x0, rl := 0x0, reset := 0x2E000000, act := some 0x7048 },
  /- PWM_Gg_OVTRIP -/ { off := 0x700C, dims := [(4, 0x100)], rw := 0x0, rws := 0xFFFFFFFF, w1c := 0x0, sc := 0x0, rl := 0x0, reset := 0x34000000, act := some 0x704C },
  /- PWM_Gg_UVLIM -/ { off := 0x7010, dims := [(4, 0x100)], rw := 0x0, rws := 0xFFFFFFFF, w1c := 0x0, sc := 0x0, rl := 0x0, reset := 0x8000000, act := some 0x7050 },
  /- PWM_Gg_BRISE -/ { off := 0x7014, dims := [(4, 0x100)], rw := 0x0, rws := 0xFFFFFFFF, w1c := 0x0, sc := 0x0, rl := 0x0, reset := 0x400000, act := some 0x7054 },
  /- PWM_Gg_CTL -/ { off := 0x7018, dims := [(4, 0x100)], rw := 0x0, rws := 0x0, w1c := 0x6, sc := 0x1, rl := 0x0, reset := 0x0 },
  /- PWM_Gg_BSTAT -/ { off := 0x701C, dims := [(4, 0x100)], rw := 0x0, rws := 0x0, w1c := 0x18, sc := 0x0, rl := 0x0, reset := 0x0 },
  /- PWM_Gg_BONCNT -/ { off := 0x7020, dims := [(4, 0x100)], rw := 0x0, rws := 0x0, w1c := 0x0, sc := 0x0, rl := 0x0, reset := 0x0 },
  /- PWM_Gg_BPWM -/ { off := 0x7080, dims := [(4, 0x100)], rw := 0x0, rws := 0xFFFFF, w1c := 0x0, sc := 0x0, rl := 0x0, reset := 0x4E2, act := some 0x70C0 },
  /- PWM_Gg_BON -/ { off := 0x7084, dims := [(4, 0x100)], rw := 0x0, rws := 0xFFFF, w1c := 0x0, sc := 0x0, rl := 0x0, reset := 0x4E2, act := some 0x70C4 },
  /- PWM_FLT_CFG -/ { off := 0x7800, dims := [], rw := 0xFF, rws := 0x0, w1c := 0x0, sc := 0x0, rl := 0x0, reset := 0x4 },
  /- PWM_FLT_STAT -/ { off := 0x7804, dims := [], rw := 0x0, rws := 0x0, w1c := 0x0, sc := 0x0, rl := 0x0, reset := 0x0 },
  /- PWM_STPTAB_r -/ { off := 0x7C00, dims := [(257, 0x4)], rw := 0xFFFF, rws := 0x0, w1c := 0x0, sc := 0x0, rl := 0x0, reset := 0x0, special := 3 }]

/-- Registers of block PWM. -/
def rowsPwm : List RegRow := rowsPwm0 ++ rowsPwm1 ++ rowsPwm2

/-- Registers of block DSF. -/
def rowsDsf : List RegRow := [
  /- DSF_CKm_CFG -/ { off := 0x0, dims := [(6, 0x4)], rw := 0xFF, rws := 0x0, w1c := 0x0, sc := 0x0, rl := 0x0, reset := 0x14 },
  /- DSF_Lnn_CTL -/ { off := 0x80, dims := [(24, 0x4)], rw := 0x0, rws := 0x0, w1c := 0x6, sc := 0x1, rl := 0x0, reset := 0x0 },
  /- DSF_Cnn_CFG -/ { off := 0x100, dims := [(72, 0x40)], rw := 0x0, rws := 0x1FF1F, w1c := 0x0, sc := 0x0, rl := 0x0, reset := 0x1007, act := some 0x120 },
  /- DSF_Cnn_CMP -/ { off := 0x104, dims := [(72, 0x40)], rw := 0x0, rws := 0xFF7, w1c := 0x0, sc := 0x0, rl := 0x0, reset := 0x485, act := some 0x124 },
  /- DSF_Cnn_THR -/ { off := 0x108, dims := [(72, 0x40)], rw := 0x0, rws := 0xFFFFFFFF, w1c := 0x0, sc := 0x0, rl := 0x0, reset := 0xA0006000, act := some 0x128 },
  /- DSF_Cnn_OFFS -/ { off := 0x10C, dims := [(72, 0x40)], rw := 0x0, rws := 0xFFFFFFFF, w1c := 0x0, sc := 0x0, rl := 0x0, reset := 0x0, act := some 0x12C },
  /- DSF_Cnn_GAIN -/ { off := 0x110, dims := [(72, 0x40)], rw := 0x0, rws := 0xFFFFFFFF, w1c := 0x0, sc := 0x0, rl := 0x0, reset := 0x10000000, act := some 0x130 },
  /- DSF_Cnn_RES -/ { off := 0x114, dims := [(72, 0x40)], rw := 0x0, rws := 0x0, w1c := 0x0, sc := 0x0, rl := 0x0, reset := 0x0 },
  /- DSF_Cnn_STAT -/ { off := 0x118, dims := [(72, 0x40)], rw := 0x0, rws := 0x0, w1c := 0xB, sc := 0x0, rl := 0x0, reset := 0x0 }]

/-- Registers of block SAR. -/
def rowsSar : List RegRow := [
  /- SAR_CTRL -/ { off := 0x0, dims := [], rw := 0x1F, rws := 0x0, w1c := 0x0, sc := 0x0, rl := 0x0, reset := 0xF },
  /- SAR_XCHK -/ { off := 0x4, dims := [], rw := 0xFFFFF, rws := 0x0, w1c := 0x0, sc := 0x0, rl := 0x0, reset := 0x30040 },
  /- SAR_CVm_STAT -/ { off := 0x100, dims := [(4, 0x100)], rw := 0x0, rws := 0x0, w1c := 0xE, sc := 0x0, rl := 0x0, reset := 0x0 },
  /- SAR_CVm_OVR -/ { off := 0x104, dims := [(4, 0x100)], rw := 0x0, rws := 0x0, w1c := 0xFFFF, sc := 0x0, rl := 0x0, reset := 0x0 },
  /- SAR_CVm_SEQLEN -/ { off := 0x108, dims := [(4, 0x100)], rw := 0x0, rws := 0xFFFF, w1c := 0x0, sc := 0x0, rl := 0x0, reset := 0x0, act := some 0x188 },
  /- SAR_CVm_CTL -/ { off := 0x10C, dims := [(4, 0x100)], rw := 0x0, rws := 0x0, w1c := 0x0, sc := 0x1, rl := 0x0, reset := 0x0 },
  /- SAR_CVm_SEQ0 -/ { off := 0x110, dims := [(4, 0x100)], rw := 0x0, rws := 0xFFFFFFFF, w1c := 0x0, sc := 0x0, rl := 0x0, reset := 0x0, act := some 0x190 },
  /- SAR_CVm_SEQ1 -/ { off := 0x114, dims := [(4, 0x100)], rw := 0x0, rws := 0xFFFFFFFF, w1c := 0x0, sc := 0x0, rl := 0x0, reset := 0x0, act := some 0x194 },
  /- SAR_CVm_SEQ2 -/ { off := 0x118, dims := [(4, 0x100)], rw := 0x0, rws := 0xFFFFFFFF, w1c := 0x0, sc := 0x0, rl := 0x0, reset := 0x0, act := some 0x198 },
  /- SAR_CVm_SEQ3 -/ { off := 0x11C, dims := [(4, 0x100)], rw := 0x0, rws := 0xFFFFFFFF, w1c := 0x0, sc := 0x0, rl := 0x0, reset := 0x0, act := some 0x19C },
  /- SAR_CVm_RESc -/ { off := 0x140, dims := [(4, 0x100), (16, 0x4)], rw := 0x0, rws := 0x0, w1c := 0x0, sc := 0x0, rl := 0x0, reset := 0x0 },
  /- SAR_Gg_CFG -/ { off := 0x800, dims := [(4, 0x40)], rw := 0x0, rws := 0xFFFFFFFF, w1c := 0x0, sc := 0x0, rl := 0x0, reset := 0x4E2, act := some 0x820 },
  /- SAR_Gg_OFFS -/ { off := 0x804, dims := [(4, 0x40)], rw := 0x0, rws := 0xFFFFFFFF, w1c := 0x0, sc := 0x0, rl := 0x0, reset := 0x0, act := some 0x824 },
  /- SAR_Gg_GAIN -/ { off := 0x808, dims := [(4, 0x40)], rw := 0x0, rws := 0xFFFFFFFF, w1c := 0x0, sc := 0x0, rl := 0x0, reset := 0x10000000, act := some 0x828 },
  /- SAR_Gg_CTL -/ { off := 0x80C, dims := [(4, 0x40)], rw := 0x0, rws := 0x0, w1c := 0x6, sc := 0x1, rl := 0x0, reset := 0x0 },
  /- SAR_Gg_VOLT -/ { off := 0x810, dims := [(4, 0x40)], rw := 0x0, rws := 0x0, w1c := 0x0, sc := 0x0, rl := 0x0, reset := 0x0 },
  /- SAR_Gg_XSTAT -/ { off := 0x814, dims := [(4, 0x40)], rw := 0x0, rws := 0x0, w1c := 0x100000, sc := 0x0, rl := 0x0, reset := 0x0 }]

/-- Registers of block FBK, part 0. -/
def rowsFbk0 : List RegRow := [
  /- FBK_nn_CFG -/ { off := 0x0, dims := [(24, 0x200)], rw := 0x0, rws := 0xFF0FFF, w1c := 0x0, sc := 0x0, rl := 0x0, reset := 0x40020, act := some 0x100 },
  /- FBK_nn_CPR -/ { off := 0x4, dims := [(24, 0x200)], rw := 0x0, rws := 0xFFFFFFFF, w1c := 0x0, sc := 0x0, rl := 0x0, reset := 0x100000, act := some 0x104 },
  /- FBK_nn_LIM -/ { off := 0x8, dims := [(24, 0x200)], rw := 0x0, rws := 0xFFFFFFFF, w1c := 0x0, sc := 0x0, rl := 0x0, reset := 0x3040004, act := some 0x108 },
  /- FBK_nn_IREF -/ { off := 0xC, dims := [(24, 0x200)], rw := 0x0, rws := 0xFFFFFFFF, w1c := 0x0, sc := 0x0, rl := 0x0, reset := 0x0, act := some 0x10C },
  /- FBK_nn_SER0 -/ { off := 0x10, dims := [(24, 0x200)], rw := 0x0, rws := 0x7FFF1FFF, w1c := 0x0, sc := 0x0, rl := 0x0, reset := 0x190064, act := some 0x110 },
  /- FBK_nn_SER1 -/ { off := 0x14, dims := [(24, 0x200)], rw := 0x0, rws := 0xFFFFFF7F, w1c := 0x0, sc := 0x0, rl := 0x0, reset := 0x14020019, act := some 0x114 },
  /- FBK_nn_REQ -/ { off := 0x18, dims := [(24, 0x200)], rw := 0x0, rws := 0xFFFFFFFF, w1c := 0x0, sc := 0x0, rl := 0x0, reset := 0x0, act := some 0x118 },
  /- FBK_nn_CRC -/ { off := 0x1C, dims := [(24, 0x200)], rw := 0x0, rws := 0x7FFFFF, w1c := 0x0, sc := 0x0, rl := 0x0, reset := 0x0, act := some 0x11C },
  /- FBK_nn_LAT -/ { off := 0x20, dims := [(24, 0x200)], rw := 0x0, rws := 0xFFFFFFFF, w1c := 0x0, sc := 0x0, rl := 0x0, reset := 0x0, act := some 0x120 },
  /- FBK_nn_SC -/ { off := 0x24, dims := [(24, 0x200)], rw := 0x0, rws := 0xFFFFF1F, w1c := 0x0, sc := 0x0, rl := 0x0, reset := 0x3F0400C, act := some 0x124 },
  /- FBK_nn_SCOFF -/ { off := 0x28, dims := [(24, 0x200)], rw := 0x0, rws := 0xFFFFFFFF, w1c := 0x0, sc := 0x0, rl := 0x0, reset := 0x80008000, act := some 0x128 },
  /- FBK_nn_CTL -/ { off := 0x2C, dims := [(24, 0x200)], rw := 0x0, rws := 0x0, w1c := 0x6, sc := 0x1, rl := 0x0, reset := 0x0 },
  /- FBK_nn_POS_LO -/ { off := 0x40, dims := [(24, 0x200)], rw := 0x0, rws := 0x0, w1c := 0x0, sc := 0x0, rl := 0x0, reset := 0x0 },
  /- FBK_nn_POS_HI -/ { off := 0x44, dims := [(24, 0x200)], rw := 0x0, rws := 0x0, w1c := 0x0, sc := 0x0, rl := 0x0, reset := 0x0 },
  /- FBK_nn_POS_FRAC -/ { off := 0x48, dims := [(24, 0x200)], rw := 0x0, rws := 0x0, w1c := 0x0, sc := 0x0, rl := 0x0, reset := 0x0 },
  /- FBK_nn_VEL_LO -/ { off := 0x4C, dims := [(24, 0x200)], rw := 0x0, rws := 0x0, w1c := 0x0, sc := 0x0, rl := 0x0, reset := 0x0 },
  /- FBK_nn_VEL_HI -/ { off := 0x50, dims := [(24, 0x200)], rw := 0x0, rws := 0x0, w1c := 0x0, sc := 0x0, rl := 0x0, reset := 0x0 },
  /- FBK_nn_REV -/ { off := 0x54, dims := [(24, 0x200)], rw := 0x0, rws := 0x0, w1c := 0x0, sc := 0x0, rl := 0x0, reset := 0x0 },
  /- FBK_nn_STAT -/ { off := 0x58, dims := [(24, 0x200)], rw := 0x0, rws := 0x0, w1c := 0x1A, sc := 0x0, rl := 0x0, reset := 0x0 },
  /- FBK_nn_ERRC -/ { off := 0x5C, dims := [(24, 0x200)], rw := 0x0, rws := 0x0, w1c := 0x0, sc := 0x0, rl := 0x0, reset := 0x0 },
  /- FBK_nn_IDEV -/ { off := 0x60, dims := [(24, 0x200)], rw := 0x0, rws := 0x0, w1c := 0x0, sc := 0x0, rl := 0x0, reset := 0x0 },
  /- FBK_PRBp_CFG -/ { off := 0x3000, dims := [(8, 0x40)], rw := 0x1FFF03, rws := 0x0, w1c := 0x0, sc := 0x0, rl := 0x0, reset := 0x400 },
  /- FBK_PRBp_MASK -/ { off := 0x3004, dims := [(8, 0x40)], rw := 0xFFFFFF, rws := 0x0, w1c := 0x0, sc := 0x0, rl := 0x0, reset := 0x0 },
  /- FBK_PRBp_TS_LO -/ { off := 0x3008, dims := [(8, 0x40)], rw := 0x0, rws := 0x0, w1c := 0x0, sc := 0x0, rl := 0x0, reset := 0x0 }]

/-- Registers of block FBK, part 1. -/
def rowsFbk1 : List RegRow := [
  /- FBK_PRBp_TS_HI -/ { off := 0x300C, dims := [(8, 0x40)], rw := 0x0, rws := 0x0, w1c := 0x0, sc := 0x0, rl := 0x0, reset := 0x0 },
  /- FBK_PRBp_POS_LO -/ { off := 0x3010, dims := [(8, 0x40)], rw := 0x0, rws := 0x0, w1c := 0x0, sc := 0x0, rl := 0x0, reset := 0x0 },
  /- FBK_PRBp_POS_HI -/ { off := 0x3014, dims := [(8, 0x40)], rw := 0x0, rws := 0x0, w1c := 0x0, sc := 0x0, rl := 0x0, reset := 0x0 },
  /- FBK_PRBp_POS_FRAC -/ { off := 0x3018, dims := [(8, 0x40)], rw := 0x0, rws := 0x0, w1c := 0x0, sc := 0x0, rl := 0x0, reset := 0x0 },
  /- FBK_PRBp_STAT -/ { off := 0x301C, dims := [(8, 0x40)], rw := 0x0, rws := 0x0, w1c := 0x2, sc := 0x0, rl := 0x0, reset := 0x0 },
  /- FBK_EXCm_CFG -/ { off := 0x3400, dims := [(4, 0x10)], rw := 0x3FFFF, rws := 0x0, w1c := 0x0, sc := 0x0, rl := 0x0, reset := 0x61A8 },
  /- FBK_EXCm_PH -/ { off := 0x3404, dims := [(4, 0x10)], rw := 0x1FFFF, rws := 0x0, w1c := 0x0, sc := 0x0, rl := 0x0, reset := 0x0 },
  /- FBK_EXCm_DLY -/ { off := 0x3408, dims := [(4, 0x10)], rw := 0xFFFF, rws := 0x0, w1c := 0x0, sc := 0x0, rl := 0x0, reset := 0x0 },
  /- FBK_CMDc_CFG -/ { off := 0x3800, dims := [(8, 0x20)], rw := 0xFFFF01F3, rws := 0x0, w1c := 0x0, sc := 0x0, rl := 0x0, reset := 0xA040000 },
  /- FBK_CMDc_OFFDB -/ { off := 0x3804, dims := [(8, 0x20)], rw := 0xFFFFFFFF, rws := 0x0, w1c := 0x0, sc := 0x0, rl := 0x0, reset := 0x0 },
  /- FBK_CMDc_SCALE -/ { off := 0x3808, dims := [(8, 0x20)], rw := 0xFFFFFFFF, rws := 0x0, w1c := 0x0, sc := 0x0, rl := 0x0, reset := 0x0 },
  /- FBK_CMDc_FSPAN -/ { off := 0x380C, dims := [(8, 0x20)], rw := 0xFFFFFFFF, rws := 0x0, w1c := 0x0, sc := 0x0, rl := 0x0, reset := 0x2710 },
  /- FBK_CMDc_RAW -/ { off := 0x3810, dims := [(8, 0x20)], rw := 0x0, rws := 0x0, w1c := 0x0, sc := 0x0, rl := 0x0, reset := 0x0 },
  /- FBK_CMDc_VAL -/ { off := 0x3814, dims := [(8, 0x20)], rw := 0x0, rws := 0x0, w1c := 0x0, sc := 0x0, rl := 0x0, reset := 0x0 }]

/-- Registers of block FBK. -/
def rowsFbk : List RegRow := rowsFbk0 ++ rowsFbk1

/-- Registers of block STRIDE. -/
def rowsStride : List RegRow := [
  /- STR_s_CFG -/ { off := 0x0, dims := [(8, 0x100)], rw := 0x0, rws := 0xFF1F1F, w1c := 0x0, sc := 0x0, rl := 0x0, reset := 0x280000, act := some 0x80 },
  /- STR_s_N -/ { off := 0x4, dims := [(8, 0x100)], rw := 0x0, rws := 0xFFFFFFFF, w1c := 0x0, sc := 0x0, rl := 0x0, reset := 0x1, act := some 0x84 },
  /- STR_s_M -/ { off := 0x8, dims := [(8, 0x100)], rw := 0x0, rws := 0xFFFFFFFF, w1c := 0x0, sc := 0x0, rl := 0x0, reset := 0x1, act := some 0x88 },
  /- STR_s_ORG_LO -/ { off := 0xC, dims := [(8, 0x100)], rw := 0x0, rws := 0xFFFFFFFF, w1c := 0x0, sc := 0x0, rl := 0x0, reset := 0x0, act := some 0x8C },
  /- STR_s_ORG_HI -/ { off := 0x10, dims := [(8, 0x100)], rw := 0x0, rws := 0xFFFFFFFF, w1c := 0x0, sc := 0x0, rl := 0x0, reset := 0x0, act := some 0x90 },
  /- STR_s_ORG_FRAC -/ { off := 0x14, dims := [(8, 0x100)], rw := 0x0, rws := 0xFFFFFFFF, w1c := 0x0, sc := 0x0, rl := 0x0, reset := 0x0, act := some 0x94 },
  /- STR_s_SHIFT -/ { off := 0x18, dims := [(8, 0x100)], rw := 0x0, rws := 0xFFFFFFFF, w1c := 0x0, sc := 0x0, rl := 0x0, reset := 0x0, act := some 0x98 },
  /- STR_s_CTL -/ { off := 0x1C, dims := [(8, 0x100)], rw := 0x0, rws := 0x0, w1c := 0x6, sc := 0x1, rl := 0x0, reset := 0x0 },
  /- STR_s_STAT -/ { off := 0x20, dims := [(8, 0x100)], rw := 0x0, rws := 0x0, w1c := 0x16, sc := 0x0, rl := 0x0, reset := 0x0 },
  /- STR_s_UNITS -/ { off := 0x24, dims := [(8, 0x100)], rw := 0x0, rws := 0x0, w1c := 0x0, sc := 0x0, rl := 0x0, reset := 0x0 },
  /- STR_s_LOSTC -/ { off := 0x28, dims := [(8, 0x100)], rw := 0x0, rws := 0x0, w1c := 0x0, sc := 0x0, rl := 0x0, reset := 0x0 }]

/-- Registers of block TRJ, part 0. -/
def rowsTrj0 : List RegRow := [
  /- TRJ_AXaa_CFG -/ { off := 0x0, dims := [(64, 0x100)], rw := 0x0, rws := 0xFF037F, w1c := 0x0, sc := 0x0, rl := 0x0, reset := 0xFF0001, act := some 0x80 },
  /- TRJ_AXaa_TPER -/ { off := 0x4, dims := [(64, 0x100)], rw := 0x0, rws := 0xFFFFFFFF, w1c := 0x0, sc := 0x0, rl := 0x0, reset := 0x30D4, act := some 0x84 },
  /- TRJ_AXaa_TPH -/ { off := 0x8, dims := [(64, 0x100)], rw := 0x0, rws := 0xFFFFFFFF, w1c := 0x0, sc := 0x0, rl := 0x0, reset := 0x0, act := some 0x88 },
  /- TRJ_AXaa_MAGE -/ { off := 0xC, dims := [(64, 0x100)], rw := 0x0, rws := 0xFFFFFFFF, w1c := 0x0, sc := 0x0, rl := 0x0, reset := 0x3E80064, act := some 0x8C },
  /- TRJ_AXaa_VMAX_LO -/ { off := 0x10, dims := [(64, 0x100)], rw := 0x0, rws := 0xFFFFFFFF, w1c := 0x0, sc := 0x0, rl := 0x0, reset := 0x0, act := some 0x90 },
  /- TRJ_AXaa_VMAX_HI -/ { off := 0x14, dims := [(64, 0x100)], rw := 0x0, rws := 0xFFFFFFFF, w1c := 0x0, sc := 0x0, rl := 0x0, reset := 0x780000, act := some 0x94 },
  /- TRJ_AXaa_AMAX_LO -/ { off := 0x18, dims := [(64, 0x100)], rw := 0x0, rws := 0xFFFFFFFF, w1c := 0x0, sc := 0x0, rl := 0x0, reset := 0x0, act := some 0x98 },
  /- TRJ_AXaa_AMAX_HI -/ { off := 0x1C, dims := [(64, 0x100)], rw := 0x0, rws := 0xFFFFFFFF, w1c := 0x0, sc := 0x0, rl := 0x0, reset := 0x1E0, act := some 0x9C },
  /- TRJ_AXaa_DMAX_LO -/ { off := 0x20, dims := [(64, 0x100)], rw := 0x0, rws := 0xFFFFFFFF, w1c := 0x0, sc := 0x0, rl := 0x0, reset := 0x0, act := some 0xA0 },
  /- TRJ_AXaa_DMAX_HI -/ { off := 0x24, dims := [(64, 0x100)], rw := 0x0, rws := 0xFFFFFFFF, w1c := 0x0, sc := 0x0, rl := 0x0, reset := 0x1E0, act := some 0xA4 },
  /- TRJ_AXaa_JMAX_LO -/ { off := 0x28, dims := [(64, 0x100)], rw := 0x0, rws := 0xFFFFFFFF, w1c := 0x0, sc := 0x0, rl := 0x0, reset := 0x0, act := some 0xA8 },
  /- TRJ_AXaa_JMAX_HI -/ { off := 0x2C, dims := [(64, 0x100)], rw := 0x0, rws := 0xFFFFFFFF, w1c := 0x0, sc := 0x0, rl := 0x0, reset := 0xF00, act := some 0xAC },
  /- TRJ_AXaa_SDMAX_LO -/ { off := 0x30, dims := [(64, 0x100)], rw := 0x0, rws := 0xFFFFFFFF, w1c := 0x0, sc := 0x0, rl := 0x0, reset := 0x0, act := some 0xB0 },
  /- TRJ_AXaa_SDMAX_HI -/ { off := 0x34, dims := [(64, 0x100)], rw := 0x0, rws := 0xFFFFFFFF, w1c := 0x0, sc := 0x0, rl := 0x0, reset := 0x1E0, act := some 0xB4 },
  /- TRJ_AXaa_SJMAX_LO -/ { off := 0x38, dims := [(64, 0x100)], rw := 0x0, rws := 0xFFFFFFFF, w1c := 0x0, sc := 0x0, rl := 0x0, reset := 0x0, act := some 0xB8 },
  /- TRJ_AXaa_SJMAX_HI -/ { off := 0x3C, dims := [(64, 0x100)], rw := 0x0, rws := 0xFFFFFFFF, w1c := 0x0, sc := 0x0, rl := 0x0, reset := 0xF00, act := some 0xBC },
  /- TRJ_AXaa_CTL -/ { off := 0x40, dims := [(64, 0x100)], rw := 0x0, rws := 0x0, w1c := 0xE, sc := 0x1, rl := 0x0, reset := 0x0 },
  /- TRJ_AXaa_STAT -/ { off := 0x44, dims := [(64, 0x100)], rw := 0x0, rws := 0x0, w1c := 0x8F0, sc := 0x0, rl := 0x0, reset := 0x0 },
  /- TRJ_AXaa_MSRC -/ { off := 0x48, dims := [(64, 0x100)], rw := 0x0, rws := 0x0, w1c := 0x0, sc := 0x0, rl := 0x0, reset := 0x0 },
  /- TRJ_AXaa_GN -/ { off := 0x4C, dims := [(64, 0x100)], rw := 0x0, rws := 0x0, w1c := 0x0, sc := 0x0, rl := 0x0, reset := 0x1 },
  /- TRJ_AXaa_GM -/ { off := 0x50, dims := [(64, 0x100)], rw := 0x0, rws := 0x0, w1c := 0x0, sc := 0x0, rl := 0x0, reset := 0x1 },
  /- TRJ_AXaa_EPSTALE -/ { off := 0x54, dims := [(64, 0x100)], rw := 0x0, rws := 0x0, w1c := 0x0, sc := 0x0, rl := 0x0, reset := 0x0 },
  /- TRJ_AXaa_SP_LO -/ { off := 0x60, dims := [(64, 0x100)], rw := 0x0, rws := 0x0, w1c := 0x0, sc := 0x0, rl := 0x0, reset := 0x0 },
  /- TRJ_AXaa_SP_HI -/ { off := 0x64, dims := [(64, 0x100)], rw := 0x0, rws := 0x0, w1c := 0x0, sc := 0x0, rl := 0x0, reset := 0x0 }]

/-- Registers of block TRJ, part 1. -/
def rowsTrj1 : List RegRow := [
  /- TRJ_AXaa_SP_FRAC -/ { off := 0x68, dims := [(64, 0x100)], rw := 0x0, rws := 0x0, w1c := 0x0, sc := 0x0, rl := 0x0, reset := 0x0 },
  /- TRJ_AXaa_SV_LO -/ { off := 0x6C, dims := [(64, 0x100)], rw := 0x0, rws := 0x0, w1c := 0x0, sc := 0x0, rl := 0x0, reset := 0x0 },
  /- TRJ_AXaa_SV_HI -/ { off := 0x70, dims := [(64, 0x100)], rw := 0x0, rws := 0x0, w1c := 0x0, sc := 0x0, rl := 0x0, reset := 0x0 },
  /- TRJ_AXaa_TGT_LO -/ { off := 0x74, dims := [(64, 0x100)], rw := 0x0, rws := 0x0, w1c := 0x0, sc := 0x0, rl := 0x0, reset := 0x0 },
  /- TRJ_AXaa_TGT_HI -/ { off := 0x78, dims := [(64, 0x100)], rw := 0x0, rws := 0x0, w1c := 0x0, sc := 0x0, rl := 0x0, reset := 0x0 },
  /- TRJ_CAMDIR_md -/ { off := 0x8000, dims := [(4, 0x100), (16, 0x4)], rw := 0x0, rws := 0x0, w1c := 0x0, sc := 0x0, rl := 0x0, reset := 0x0 }]

/-- Registers of block TRJ. -/
def rowsTrj : List RegRow := rowsTrj0 ++ rowsTrj1

/-- Registers of block LOOP, part 0. -/
def rowsLoop0 : List RegRow := [
  /- LPB_bb_CFG -/ { off := 0x0, dims := [(16, 0x400)], rw := 0x0, rws := 0x3F, w1c := 0x0, sc := 0x0, rl := 0x0, reset := 0x0, act := some 0x200 },
  /- LPB_bb_DST -/ { off := 0x4, dims := [(16, 0x400)], rw := 0x0, rws := 0xFFFF, w1c := 0x0, sc := 0x0, rl := 0x0, reset := 0xFF00, act := some 0x204 },
  /- LPB_bb_PSRC -/ { off := 0x8, dims := [(16, 0x400)], rw := 0x0, rws := 0xFFFF3F07, w1c := 0x0, sc := 0x0, rl := 0x0, reset := 0x3E80000, act := some 0x208 },
  /- LPB_bb_ZSRC -/ { off := 0xC, dims := [(16, 0x400)], rw := 0x0, rws := 0xFFFF3F07, w1c := 0x0, sc := 0x0, rl := 0x0, reset := 0x3E80000, act := some 0x20C },
  /- LPB_bb_LPER -/ { off := 0x10, dims := [(16, 0x400)], rw := 0x0, rws := 0xFFFFFFFF, w1c := 0x0, sc := 0x0, rl := 0x0, reset := 0x3D090, act := some 0x210 },
  /- LPB_bb_LPH -/ { off := 0x14, dims := [(16, 0x400)], rw := 0x0, rws := 0xFFFFFFFF, w1c := 0x0, sc := 0x0, rl := 0x0, reset := 0x0, act := some 0x214 },
  /- LPB_bb_POFF_LO -/ { off := 0x18, dims := [(16, 0x400)], rw := 0x0, rws := 0xFFFFFFFF, w1c := 0x0, sc := 0x0, rl := 0x0, reset := 0x0, act := some 0x218 },
  /- LPB_bb_POFF_HI -/ { off := 0x1C, dims := [(16, 0x400)], rw := 0x0, rws := 0xFFFFFFFF, w1c := 0x0, sc := 0x0, rl := 0x0, reset := 0x0, act := some 0x21C },
  /- LPB_bb_PGAIN -/ { off := 0x20, dims := [(16, 0x400)], rw := 0x0, rws := 0xFFFFFFFF, w1c := 0x0, sc := 0x0, rl := 0x0, reset := 0x10000, act := some 0x220 },
  /- LPB_bb_PITCH -/ { off := 0x24, dims := [(16, 0x400)], rw := 0x0, rws := 0xFFFFFFFF, w1c := 0x0, sc := 0x0, rl := 0x0, reset := 0x0, act := some 0x224 },
  /- LPB_bb_ZOFF -/ { off := 0x28, dims := [(16, 0x400)], rw := 0x0, rws := 0xFFFFFFFF, w1c := 0x0, sc := 0x0, rl := 0x0, reset := 0x0, act := some 0x228 },
  /- LPB_bb_ZGAIN -/ { off := 0x2C, dims := [(16, 0x400)], rw := 0x0, rws := 0xFFFFFFFF, w1c := 0x0, sc := 0x0, rl := 0x0, reset := 0x10000, act := some 0x22C },
  /- LPB_bb_SP -/ { off := 0x30, dims := [(16, 0x400)], rw := 0x0, rws := 0xFFFFFFFF, w1c := 0x0, sc := 0x0, rl := 0x0, reset := 0x0, act := some 0x230 },
  /- LPB_bb_SPRATE -/ { off := 0x34, dims := [(16, 0x400)], rw := 0x0, rws := 0xFFFFFFFF, w1c := 0x0, sc := 0x0, rl := 0x0, reset := 0x0, act := some 0x234 },
  /- LPB_bb_MOUT -/ { off := 0x38, dims := [(16, 0x400)], rw := 0x0, rws := 0xFFFFFFFF, w1c := 0x0, sc := 0x0, rl := 0x0, reset := 0x0, act := some 0x238 },
  /- LPB_bb_FFWD -/ { off := 0x3C, dims := [(16, 0x400)], rw := 0x0, rws := 0xFFFFFFFF, w1c := 0x0, sc := 0x0, rl := 0x0, reset := 0x0, act := some 0x23C },
  /- LPB_bb_OMIN -/ { off := 0x40, dims := [(16, 0x400)], rw := 0x0, rws := 0xFFFFFFFF, w1c := 0x0, sc := 0x0, rl := 0x0, reset := 0x80000000, act := some 0x240 },
  /- LPB_bb_OMAX -/ { off := 0x44, dims := [(16, 0x400)], rw := 0x0, rws := 0xFFFFFFFF, w1c := 0x0, sc := 0x0, rl := 0x0, reset := 0x7FFFFFFF, act := some 0x244 },
  /- LPB_bb_OSLEW -/ { off := 0x48, dims := [(16, 0x400)], rw := 0x0, rws := 0xFFFFFFFF, w1c := 0x0, sc := 0x0, rl := 0x0, reset := 0x0, act := some 0x248 },
  /- LPB_bb_OSCALE -/ { off := 0x4C, dims := [(16, 0x400)], rw := 0x0, rws := 0xFFFFFFFF, w1c := 0x0, sc := 0x0, rl := 0x0, reset := 0x10000, act := some 0x24C },
  /- LPB_bb_DPOLE -/ { off := 0x50, dims := [(16, 0x400)], rw := 0x0, rws := 0xFFFFFFFF, w1c := 0x0, sc := 0x0, rl := 0x0, reset := 0x0, act := some 0x250 },
  /- LPB_bb_BW -/ { off := 0x54, dims := [(16, 0x400)], rw := 0x0, rws := 0xFFFFFFFF, w1c := 0x0, sc := 0x0, rl := 0x0, reset := 0x0, act := some 0x254 },
  /- LPB_bb_HYS -/ { off := 0x58, dims := [(16, 0x400)], rw := 0x0, rws := 0xFFFFFFFF, w1c := 0x0, sc := 0x0, rl := 0x0, reset := 0x0, act := some 0x258 },
  /- LPB_bb_PVLIM -/ { off := 0x5C, dims := [(16, 0x400)], rw := 0x0, rws := 0xFFFFFFFF, w1c := 0x0, sc := 0x0, rl := 0x0, reset := 0x3, act := some 0x25C }]

/-- Registers of block LOOP, part 1. -/
def rowsLoop1 : List RegRow := [
  /- LPB_bb_Bi -/ { off := 0x60, dims := [(16, 0x400), (7, 0x4)], rw := 0x0, rws := 0xFFFFFFFF, w1c := 0x0, sc := 0x0, rl := 0x0, reset := 0x0, act := some 0x260 },
  /- LPB_bb_SCHED -/ { off := 0x7C, dims := [(16, 0x400)], rw := 0x0, rws := 0xF, w1c := 0x0, sc := 0x0, rl := 0x0, reset := 0x1, act := some 0x27C },
  /- LPB_bb_KPr -/ { off := 0x80, dims := [(16, 0x400), (8, 0x10)], rw := 0x0, rws := 0xFFFFFFFF, w1c := 0x0, sc := 0x0, rl := 0x0, reset := 0x10000, act := some 0x280 },
  /- LPB_bb_KIr -/ { off := 0x84, dims := [(16, 0x400), (8, 0x10)], rw := 0x0, rws := 0xFFFFFFFF, w1c := 0x0, sc := 0x0, rl := 0x0, reset := 0x0, act := some 0x284 },
  /- LPB_bb_KDr -/ { off := 0x88, dims := [(16, 0x400), (8, 0x10)], rw := 0x0, rws := 0xFFFFFFFF, w1c := 0x0, sc := 0x0, rl := 0x0, reset := 0x0, act := some 0x288 },
  /- LPB_bb_CTL -/ { off := 0x100, dims := [(16, 0x400)], rw := 0x0, rws := 0x0, w1c := 0x6, sc := 0x1, rl := 0x0, reset := 0x0 },
  /- LPB_bb_STAT -/ { off := 0x104, dims := [(16, 0x400)], rw := 0x0, rws := 0x0, w1c := 0x2C00, sc := 0x0, rl := 0x0, reset := 0x0 },
  /- LPB_bb_PV -/ { off := 0x108, dims := [(16, 0x400)], rw := 0x0, rws := 0x0, w1c := 0x0, sc := 0x0, rl := 0x0, reset := 0x0 },
  /- LPB_bb_SPEFF -/ { off := 0x10C, dims := [(16, 0x400)], rw := 0x0, rws := 0x0, w1c := 0x0, sc := 0x0, rl := 0x0, reset := 0x0 },
  /- LPB_bb_OUT -/ { off := 0x110, dims := [(16, 0x400)], rw := 0x0, rws := 0x0, w1c := 0x0, sc := 0x0, rl := 0x0, reset := 0x0 },
  /- LPB_bb_INTEG -/ { off := 0x114, dims := [(16, 0x400)], rw := 0x0, rws := 0x0, w1c := 0x0, sc := 0x0, rl := 0x0, reset := 0x0 },
  /- LPB_bb_Z -/ { off := 0x118, dims := [(16, 0x400)], rw := 0x0, rws := 0x0, w1c := 0x0, sc := 0x0, rl := 0x0, reset := 0x0 },
  /- LPB_bb_PVH -/ { off := 0x120, dims := [(16, 0x400)], rw := 0xFFFFFFFF, rws := 0x0, w1c := 0x0, sc := 0x0, rl := 0x0, reset := 0x0 },
  /- LPB_bb_ZH -/ { off := 0x124, dims := [(16, 0x400)], rw := 0xFFFFFFFF, rws := 0x0, w1c := 0x0, sc := 0x0, rl := 0x0, reset := 0x0 }]

/-- Registers of block LOOP. -/
def rowsLoop : List RegRow := rowsLoop0 ++ rowsLoop1

/-- Registers of block CAP. -/
def rowsCap : List RegRow := [
  /- CAP_Rr_CFG -/ { off := 0x0, dims := [(8, 0x40)], rw := 0x0, rws := 0x3FFFF1F, w1c := 0x0, sc := 0x0, rl := 0x0, reset := 0x140000, act := some 0x1000 },
  /- CAP_Rr_SPER -/ { off := 0x4, dims := [(8, 0x40)], rw := 0x0, rws := 0xFFFFFFFF, w1c := 0x0, sc := 0x0, rl := 0x0, reset := 0xC35, act := some 0x1004 },
  /- CAP_Rr_SPH -/ { off := 0x8, dims := [(8, 0x40)], rw := 0x0, rws := 0xFFFFFFFF, w1c := 0x0, sc := 0x0, rl := 0x0, reset := 0x0, act := some 0x1008 },
  /- CAP_Rr_MEM -/ { off := 0xC, dims := [(8, 0x40)], rw := 0x0, rws := 0x3FF03FF, w1c := 0x0, sc := 0x0, rl := 0x0, reset := 0x400000, special := 4, act := some 0x100C },
  /- CAP_Rr_PRE -/ { off := 0x10, dims := [(8, 0x40)], rw := 0x0, rws := 0xFFFFFF, w1c := 0x0, sc := 0x0, rl := 0x0, reset := 0x0, act := some 0x1010 },
  /- CAP_Rr_POST -/ { off := 0x14, dims := [(8, 0x40)], rw := 0x0, rws := 0xFFFFFF, w1c := 0x0, sc := 0x0, rl := 0x0, reset := 0x0, act := some 0x1014 },
  /- CAP_Rr_CTL -/ { off := 0x18, dims := [(8, 0x40)], rw := 0x0, rws := 0x0, w1c := 0x6, sc := 0x9, rl := 0x0, reset := 0x0 },
  /- CAP_Rr_STAT -/ { off := 0x1C, dims := [(8, 0x40)], rw := 0x0, rws := 0x0, w1c := 0x38, sc := 0x0, rl := 0x0, reset := 0x0 },
  /- CAP_CHcc_SRC -/ { off := 0x400, dims := [(64, 0x10)], rw := 0x0, rws := 0xFF7FFF, w1c := 0x0, sc := 0x0, rl := 0x0, reset := 0x10000, act := some 0x1400 },
  /- CAP_CHcc_TRIM -/ { off := 0x404, dims := [(64, 0x10)], rw := 0x0, rws := 0xFFFFFFFF, w1c := 0x0, sc := 0x0, rl := 0x0, reset := 0x0, act := some 0x1404 },
  /- CAP_CHcc_LATE -/ { off := 0x408, dims := [(64, 0x10)], rw := 0x0, rws := 0x0, w1c := 0x0, sc := 0x0, rl := 0x0, reset := 0x0 },
  /- CAP_Tu_CFG -/ { off := 0x800, dims := [(8, 0x10)], rw := 0x0, rws := 0x3F1F, w1c := 0x0, sc := 0x0, rl := 0x0, reset := 0x10, act := some 0x1800 },
  /- CAP_Tu_A -/ { off := 0x804, dims := [(8, 0x10)], rw := 0x0, rws := 0xFFFFFFFF, w1c := 0x0, sc := 0x0, rl := 0x0, reset := 0x0, act := some 0x1804 },
  /- CAP_Tu_B -/ { off := 0x808, dims := [(8, 0x10)], rw := 0x0, rws := 0xFFFFFFFF, w1c := 0x0, sc := 0x0, rl := 0x0, reset := 0x0, act := some 0x1808 }]

/-- Registers of block CHAIN, part 0. -/
def rowsChain0 : List RegRow := [
  /- CHAIN_CFG -/ { off := 0x0, dims := [], rw := 0x0, rws := 0xFFFF000F, w1c := 0x0, sc := 0x0, rl := 0x0, reset := 0x88B50007, act := some 0x80 },
  /- CHAIN_CYC -/ { off := 0x4, dims := [], rw := 0x0, rws := 0xFFFF0007, w1c := 0x0, sc := 0x0, rl := 0x0, reset := 0x30300002, act := some 0x84 },
  /- CHAIN_SVC -/ { off := 0x8, dims := [], rw := 0x0, rws := 0xFFFFFF, w1c := 0x0, sc := 0x0, rl := 0x0, reset := 0xC00000, act := some 0x88 },
  /- CHAIN_PTP -/ { off := 0xC, dims := [], rw := 0x0, rws := 0xFFFFFF7F, w1c := 0x0, sc := 0x0, rl := 0x0, reset := 0x32000B00, act := some 0x8C },
  /- CHAIN_RMAC_LO -/ { off := 0x10, dims := [], rw := 0x0, rws := 0xFFFFFFFF, w1c := 0x0, sc := 0x0, rl := 0x0, reset := 0x5C1A03, act := some 0x90 },
  /- CHAIN_RMAC_HI -/ { off := 0x14, dims := [], rw := 0x0, rws := 0xFFFF, w1c := 0x0, sc := 0x0, rl := 0x0, reset := 0x100, act := some 0x94 },
  /- CHAIN_SMAC_LO -/ { off := 0x18, dims := [], rw := 0x0, rws := 0xFFFFFFFF, w1c := 0x0, sc := 0x0, rl := 0x0, reset := 0x5C1A02, act := some 0x98 },
  /- CHAIN_SMAC_HI -/ { off := 0x1C, dims := [], rw := 0x0, rws := 0xFF, w1c := 0x0, sc := 0x0, rl := 0x0, reset := 0x0, act := some 0x9C },
  /- CHAIN_LOAD -/ { off := 0x20, dims := [], rw := 0x0, rws := 0xFFFFFFFF, w1c := 0x0, sc := 0x0, rl := 0x0, reset := 0x1000214, act := some 0xA0 },
  /- CHAIN_HOPS -/ { off := 0x24, dims := [], rw := 0x0, rws := 0xFFFF003F, w1c := 0x0, sc := 0x0, rl := 0x0, reset := 0x1E00000, act := some 0xA4 },
  /- CHAIN_CTL -/ { off := 0x28, dims := [], rw := 0x0, rws := 0x0, w1c := 0x6, sc := 0x1, rl := 0x0, reset := 0x0 },
  /- CHAIN_STAT -/ { off := 0x2C, dims := [], rw := 0x0, rws := 0x0, w1c := 0x8000, sc := 0x0, rl := 0x0, reset := 0x0 },
  /- CHAIN_CHp_TXDLY -/ { off := 0x400, dims := [(2, 0x100)], rw := 0x0, rws := 0xFFFFFFFF, w1c := 0x0, sc := 0x0, rl := 0x0, reset := 0x0, act := some 0x480 },
  /- CHAIN_CHp_RXDLY -/ { off := 0x404, dims := [(2, 0x100)], rw := 0x0, rws := 0xFFFFFFFF, w1c := 0x0, sc := 0x0, rl := 0x0, reset := 0x0, act := some 0x484 },
  /- CHAIN_CHp_ASYM -/ { off := 0x408, dims := [(2, 0x100)], rw := 0x0, rws := 0xFFFFFFFF, w1c := 0x0, sc := 0x0, rl := 0x0, reset := 0x0, act := some 0x488 },
  /- CHAIN_CHp_PDELAY -/ { off := 0x40C, dims := [(2, 0x100)], rw := 0x0, rws := 0x0, w1c := 0x0, sc := 0x0, rl := 0x0, reset := 0x0 },
  /- CHAIN_CHp_NRR -/ { off := 0x410, dims := [(2, 0x100)], rw := 0x0, rws := 0x0, w1c := 0x0, sc := 0x0, rl := 0x0, reset := 0x0 },
  /- CHAIN_CHp_RXOK -/ { off := 0x414, dims := [(2, 0x100)], rw := 0x0, rws := 0x0, w1c := 0x0, sc := 0x0, rl := 0x0, reset := 0x0 },
  /- CHAIN_CHp_RXERR -/ { off := 0x418, dims := [(2, 0x100)], rw := 0x0, rws := 0x0, w1c := 0x0, sc := 0x0, rl := 0x0, reset := 0x0 },
  /- CHAIN_CHp_MALF -/ { off := 0x41C, dims := [(2, 0x100)], rw := 0x0, rws := 0x0, w1c := 0x0, sc := 0x0, rl := 0x0, reset := 0x0 },
  /- CHAIN_CHp_FOREIGN -/ { off := 0x420, dims := [(2, 0x100)], rw := 0x0, rws := 0x0, w1c := 0x0, sc := 0x0, rl := 0x0, reset := 0x0 },
  /- CHAIN_CHp_DROP -/ { off := 0x424, dims := [(2, 0x100)], rw := 0x0, rws := 0x0, w1c := 0x0, sc := 0x0, rl := 0x0, reset := 0x0 },
  /- CHAIN_CHp_LATE -/ { off := 0x428, dims := [(2, 0x100)], rw := 0x0, rws := 0x0, w1c := 0x0, sc := 0x0, rl := 0x0, reset := 0x0 },
  /- CHAIN_Dd_CFG -/ { off := 0x800, dims := [(16, 0x20)], rw := 0x0, rws := 0xFFF07, w1c := 0x0, sc := 0x0, rl := 0x0, reset := 0xFFF06, act := some 0x810 }]

/-- Registers of block CHAIN, part 1. -/
def rowsChain1 : List RegRow := [
  /- CHAIN_Dd_LOFF -/ { off := 0x804, dims := [(16, 0x20)], rw := 0x0, rws := 0x3FFFFF, w1c := 0x0, sc := 0x0, rl := 0x0, reset := 0x0, act := some 0x814 },
  /- CHAIN_Dd_STAT -/ { off := 0x808, dims := [(16, 0x20)], rw := 0x0, rws := 0x0, w1c := 0x7, sc := 0x0, rl := 0x0, reset := 0x0 }]

/-- Registers of block CHAIN. -/
def rowsChain : List RegRow := rowsChain0 ++ rowsChain1

/-- Registers of block CAN. -/
def rowsCan : List RegRow := [
  /- CAN_CHc_CFG -/ { off := 0x0, dims := [(8, 0x1000)], rw := 0x0, rws := 0xFF, w1c := 0x0, sc := 0x0, rl := 0x0, reset := 0x9C, act := some 0x80 },
  /- CAN_CHc_NBT -/ { off := 0x4, dims := [(8, 0x1000)], rw := 0x0, rws := 0x7FFFFFFF, w1c := 0x0, sc := 0x0, rl := 0x0, reset := 0x10101FC1, act := some 0x84 },
  /- CAN_CHc_DBT -/ { off := 0x8, dims := [(8, 0x1000)], rw := 0x0, rws := 0xFFFFFFF, w1c := 0x0, sc := 0x0, rl := 0x0, reset := 0x10210F1, act := some 0x88 },
  /- CAN_CHc_CTL -/ { off := 0xC, dims := [(8, 0x1000)], rw := 0x0, rws := 0x0, w1c := 0x6, sc := 0x9, rl := 0x0, reset := 0x0 },
  /- CAN_CHc_STAT -/ { off := 0x10, dims := [(8, 0x1000)], rw := 0x0, rws := 0x0, w1c := 0x38, sc := 0x0, rl := 0x0, reset := 0x0 },
  /- CAN_CHc_ERRC -/ { off := 0x14, dims := [(8, 0x1000)], rw := 0x0, rws := 0x0, w1c := 0x0, sc := 0x0, rl := 0x0, reset := 0x0 },
  /- CAN_CHc_EVCNT0 -/ { off := 0x18, dims := [(8, 0x1000)], rw := 0x0, rws := 0x0, w1c := 0x0, sc := 0x0, rl := 0x0, reset := 0x0 },
  /- CAN_CHc_EVCNT1 -/ { off := 0x1C, dims := [(8, 0x1000)], rw := 0x0, rws := 0x0, w1c := 0x0, sc := 0x0, rl := 0x0, reset := 0x0 },
  /- CAN_CHc_RXSTAT -/ { off := 0x20, dims := [(8, 0x1000)], rw := 0x0, rws := 0x0, w1c := 0x0, sc := 0x0, rl := 0x0, reset := 0x0 },
  /- CAN_CHc_RXWw -/ { off := 0x100, dims := [(8, 0x1000), (20, 0x4)], rw := 0x0, rws := 0x0, w1c := 0x0, sc := 0x0, rl := 0xFFFFFFFF, reset := 0x0 },
  /- CAN_CHc_TXWw -/ { off := 0x200, dims := [(8, 0x1000), (20, 0x4)], rw := 0xFFFFFFFF, rws := 0x0, w1c := 0x0, sc := 0x0, rl := 0x0, reset := 0x0 },
  /- CAN_CHc_TXCTL -/ { off := 0x250, dims := [(8, 0x1000)], rw := 0x0, rws := 0x0, w1c := 0x6, sc := 0x1, rl := 0x0, reset := 0x0 },
  /- CAN_CHc_TXSTAT -/ { off := 0x254, dims := [(8, 0x1000)], rw := 0x0, rws := 0x0, w1c := 0x0, sc := 0x0, rl := 0x0, reset := 0x0 },
  /- CAN_CHc_WCFG -/ { off := 0x300, dims := [(6, 0x1000)], rw := 0xF7, rws := 0x0, w1c := 0x0, sc := 0x0, rl := 0x0, reset := 0x0 },
  /- CAN_CHc_WID -/ { off := 0x304, dims := [(6, 0x1000)], rw := 0x1FFFFFFF, rws := 0x0, w1c := 0x0, sc := 0x0, rl := 0x0, reset := 0x0 },
  /- CAN_CHc_WMASK -/ { off := 0x308, dims := [(6, 0x1000)], rw := 0x1FFFFFFF, rws := 0x0, w1c := 0x0, sc := 0x0, rl := 0x0, reset := 0x1FFFFFFF },
  /- CAN_CHc_WDATA_LO -/ { off := 0x30C, dims := [(6, 0x1000)], rw := 0xFFFFFFFF, rws := 0x0, w1c := 0x0, sc := 0x0, rl := 0x0, reset := 0x0 },
  /- CAN_CHc_WDATA_HI -/ { off := 0x310, dims := [(6, 0x1000)], rw := 0xFFFFFFFF, rws := 0x0, w1c := 0x0, sc := 0x0, rl := 0x0, reset := 0x0 },
  /- CAN_CHc_WDMASK_LO -/ { off := 0x314, dims := [(6, 0x1000)], rw := 0xFFFFFFFF, rws := 0x0, w1c := 0x0, sc := 0x0, rl := 0x0, reset := 0x0 },
  /- CAN_CHc_WDMASK_HI -/ { off := 0x318, dims := [(6, 0x1000)], rw := 0xFFFFFFFF, rws := 0x0, w1c := 0x0, sc := 0x0, rl := 0x0, reset := 0x0 },
  /- CAN_WAKE_CFG -/ { off := 0xF000, dims := [], rw := 0xF3F3F, rws := 0x0, w1c := 0x0, sc := 0x0, rl := 0x0, reset := 0x2003F },
  /- CAN_WAKE_STAT -/ { off := 0xF004, dims := [], rw := 0x0, rws := 0x0, w1c := 0x0, sc := 0x0, rl := 0x0, reset := 0x0 }]

/-- Registers of block PAIR. -/
def rowsPair : List RegRow := [
  /- PAIR_CFG -/ { off := 0x0, dims := [], rw := 0xFFFF07FF, rws := 0x0, w1c := 0x0, sc := 0x0, rl := 0x0, reset := 0xFA00234 },
  /- PAIR_CFG2 -/ { off := 0x4, dims := [], rw := 0xFF0FFF, rws := 0x0, w1c := 0x0, sc := 0x0, rl := 0x0, reset := 0x140064 },
  /- PAIR_STAT -/ { off := 0x8, dims := [], rw := 0x0, rws := 0x0, w1c := 0x0, sc := 0x0, rl := 0x0, reset := 0x80 },
  /- PAIR_CNT -/ { off := 0xC, dims := [], rw := 0x0, rws := 0x0, w1c := 0x0, sc := 0x0, rl := 0x0, reset := 0x0 },
  /- PAIR_OFFS -/ { off := 0x10, dims := [], rw := 0x0, rws := 0x0, w1c := 0x0, sc := 0x0, rl := 0x0, reset := 0x0 },
  /- PAIR_BW -/ { off := 0x14, dims := [], rw := 0x0, rws := 0x0, w1c := 0x0, sc := 0x0, rl := 0x0, reset := 0x0 }]

/-- Registers of block SAFE. -/
def rowsSafe : List RegRow := [
  /- SAFE_STAT -/ { off := 0x0, dims := [], rw := 0x0, rws := 0x0, w1c := 0x0, sc := 0x0, rl := 0x0, reset := 0x0 },
  /- SAFE_DIAG -/ { off := 0x4, dims := [], rw := 0x0, rws := 0x0, w1c := 0x0, sc := 0x0, rl := 0x0, reset := 0x0 },
  /- SAFE_CFGCRC -/ { off := 0x8, dims := [], rw := 0x0, rws := 0x0, w1c := 0x0, sc := 0x0, rl := 0x0, reset := 0x0 },
  /- SAFE_Gg_STAT -/ { off := 0x10, dims := [(4, 0x4)], rw := 0x0, rws := 0x0, w1c := 0x0, sc := 0x0, rl := 0x0, reset := 0x0 },
  /- SAFE_Gg_SS1T -/ { off := 0x20, dims := [(4, 0x4)], rw := 0x0, rws := 0xFFFF, w1c := 0x0, sc := 0x0, rl := 0x0, reset := 0x1F4, act := some 0x220 },
  /- SAFE_TP -/ { off := 0x40, dims := [], rw := 0x0, rws := 0xFFFFFFFF, w1c := 0x0, sc := 0x0, rl := 0x0, reset := 0x3210C864, act := some 0x240 },
  /- SAFE_SLS -/ { off := 0x44, dims := [], rw := 0x0, rws := 0xFFFF01FF, w1c := 0x0, sc := 0x0, rl := 0x0, reset := 0x1F4000A, act := some 0x244 },
  /- SAFE_SOVLIM -/ { off := 0x48, dims := [], rw := 0x0, rws := 0xFFFFFFFF, w1c := 0x0, sc := 0x0, rl := 0x0, reset := 0x34000000, act := some 0x248 },
  /- SAFE_SIi_CFG -/ { off := 0x80, dims := [(8, 0x8)], rw := 0x0, rws := 0x7F1F, w1c := 0x0, sc := 0x0, rl := 0x0, reset := 0x0, act := some 0x280 },
  /- SAFE_SIi_STAT -/ { off := 0x84, dims := [(8, 0x8)], rw := 0x0, rws := 0x0, w1c := 0x0, sc := 0x0, rl := 0x0, reset := 0x0 },
  /- SAFE_Lnn_SLS -/ { off := 0x100, dims := [(24, 0x8)], rw := 0x0, rws := 0xFFFFFFFF, w1c := 0x0, sc := 0x0, rl := 0x0, reset := 0x0, act := some 0x300 },
  /- SAFE_Lnn_SPD -/ { off := 0x104, dims := [(24, 0x8)], rw := 0x0, rws := 0x0, w1c := 0x0, sc := 0x0, rl := 0x0, reset := 0x0 }]

/-- Registers of block FIO. -/
def rowsFio : List RegRow := [
  /- FIO_STAT -/ { off := 0x0, dims := [], rw := 0x0, rws := 0x0, w1c := 0xD, sc := 0x0, rl := 0x0, reset := 0x0 },
  /- FIO_IN -/ { off := 0x4, dims := [], rw := 0x0, rws := 0x0, w1c := 0x0, sc := 0x0, rl := 0x0, reset := 0x0 },
  /- FIO_RBERR -/ { off := 0x8, dims := [], rw := 0x0, rws := 0x0, w1c := 0xFFFFFFFF, sc := 0x0, rl := 0x0, reset := 0x0 },
  /- FIO_PWR -/ { off := 0xC, dims := [], rw := 0x0, rws := 0x0, w1c := 0x0, sc := 0x0, rl := 0x0, reset := 0x104 },
  /- FIO_WDT -/ { off := 0x10, dims := [], rw := 0x0, rws := 0xFF, w1c := 0x0, sc := 0x0, rl := 0x0, reset := 0xA, act := some 0x14 },
  /- FIO_GTk_PER -/ { off := 0x80, dims := [(4, 0x10)], rw := 0x0, rws := 0xFFFFFFFF, w1c := 0x0, sc := 0x0, rl := 0x0, reset := 0x7A120, act := some 0x88 },
  /- FIO_GTk_PH -/ { off := 0x84, dims := [(4, 0x10)], rw := 0x0, rws := 0xFFFFFFFF, w1c := 0x0, sc := 0x0, rl := 0x0, reset := 0x0, act := some 0x8C },
  /- FIO_CHcc_CFG -/ { off := 0x100, dims := [(32, 0x20)], rw := 0x0, rws := 0xFF07FF, w1c := 0x0, sc := 0x0, rl := 0x0, reset := 0x20480, act := some 0x110 },
  /- FIO_CHcc_RB -/ { off := 0x104, dims := [(32, 0x20)], rw := 0x0, rws := 0xFFFFF, w1c := 0x0, sc := 0x0, rl := 0x0, reset := 0x201F4, act := some 0x118 },
  /- FIO_CHcc_OUT -/ { off := 0x108, dims := [(32, 0x20)], rw := 0x0, rws := 0x1, w1c := 0x0, sc := 0x0, rl := 0x0, reset := 0x0 },
  /- FIO_CHcc_CTL -/ { off := 0x10C, dims := [(32, 0x20)], rw := 0x0, rws := 0x0, w1c := 0x6, sc := 0x1, rl := 0x0, reset := 0x0 },
  /- FIO_CHcc_DIAG -/ { off := 0x114, dims := [(32, 0x20)], rw := 0x0, rws := 0x0, w1c := 0x0, sc := 0x0, rl := 0x0, reset := 0x0 }]

/-- Registers of block FLT. -/
def rowsFlt : List RegRow := [
  /- FLT_STAT -/ { off := 0x0, dims := [], rw := 0x0, rws := 0x0, w1c := 0x0, sc := 0x0, rl := 0x0, reset := 0x0 },
  /- FLT_SUPP -/ { off := 0x4, dims := [], rw := 0x0, rws := 0x0, w1c := 0x0, sc := 0x0, rl := 0x0, reset := 0x0 },
  /- FLT_ECC_CORR -/ { off := 0x8, dims := [], rw := 0x0, rws := 0x0, w1c := 0x0, sc := 0x0, rl := 0x0, reset := 0x0 },
  /- FLT_ECC_UNC -/ { off := 0xC, dims := [], rw := 0x0, rws := 0x0, w1c := 0x0, sc := 0x0, rl := 0x0, reset := 0x0 },
  /- FLT_ECC_ADDR -/ { off := 0x10, dims := [], rw := 0x0, rws := 0x0, w1c := 0x0, sc := 0x0, rl := 0x0, reset := 0x0 },
  /- FLT_ECC_SYN -/ { off := 0x14, dims := [], rw := 0x0, rws := 0x0, w1c := 0x0, sc := 0x0, rl := 0x0, reset := 0x0 },
  /- FLT_SCRUB -/ { off := 0x18, dims := [], rw := 0x0, rws := 0x0, w1c := 0x0, sc := 0x0, rl := 0x0, reset := 0x3C },
  /- FLT_SCRUB_STAT -/ { off := 0x1C, dims := [], rw := 0x0, rws := 0x0, w1c := 0x0, sc := 0x0, rl := 0x0, reset := 0x0 },
  /- FLT_INJ_CFG -/ { off := 0x20, dims := [], rw := 0x0, rws := 0x0, w1c := 0x0, sc := 0x0, rl := 0x0, reset := 0x7F7F0 },
  /- FLT_INJ_ARG -/ { off := 0x24, dims := [], rw := 0x0, rws := 0x0, w1c := 0x0, sc := 0x0, rl := 0x0, reset := 0x0 },
  /- FLT_INJ_T_LO -/ { off := 0x28, dims := [], rw := 0x0, rws := 0x0, w1c := 0x0, sc := 0x0, rl := 0x0, reset := 0x0 },
  /- FLT_INJ_T_HI -/ { off := 0x2C, dims := [], rw := 0x0, rws := 0x0, w1c := 0x0, sc := 0x0, rl := 0x0, reset := 0x0 },
  /- FLT_LOGW0 -/ { off := 0x100, dims := [], rw := 0x0, rws := 0x0, w1c := 0x0, sc := 0x0, rl := 0xFFFFFFFF, reset := 0x0 },
  /- FLT_LOGW1 -/ { off := 0x104, dims := [], rw := 0x0, rws := 0x0, w1c := 0x0, sc := 0x0, rl := 0xFFFFFFFF, reset := 0x0 },
  /- FLT_LOGW2 -/ { off := 0x108, dims := [], rw := 0x0, rws := 0x0, w1c := 0x0, sc := 0x0, rl := 0x1FFFFFF, reset := 0x0 },
  /- FLT_LOGW3 -/ { off := 0x10C, dims := [], rw := 0x0, rws := 0x0, w1c := 0x0, sc := 0x0, rl := 0xFFFFFFFF, reset := 0x0 }]

/-- Registers of block MBX. -/
def rowsMbx : List RegRow := [
  /- MBX_STAT -/ { off := 0x8000, dims := [], rw := 0x0, rws := 0x0, w1c := 0x0, sc := 0x0, rl := 0x0, reset := 0x0 },
  /- MBX_IRQ_EN -/ { off := 0x8004, dims := [], rw := 0x0, rws := 0x0, w1c := 0x0, sc := 0x0, rl := 0x0, reset := 0x300FF },
  /- MBX_IRQ_PEND -/ { off := 0x8008, dims := [], rw := 0x0, rws := 0x0, w1c := 0x0, sc := 0x0, rl := 0x0, reset := 0x0 },
  /- MBX_ROUTE -/ { off := 0x800C, dims := [], rw := 0x0, rws := 0x0, w1c := 0x0, sc := 0x0, rl := 0x0, reset := 0xFF00 },
  /- MBX_Mm_STAT -/ { off := 0x8100, dims := [(16, 0x20)], rw := 0x0, rws := 0x0, w1c := 0x0, sc := 0x0, rl := 0x0, reset := 0x0 },
  /- MBX_Mm_SEQ -/ { off := 0x8104, dims := [(16, 0x20)], rw := 0x0, rws := 0x0, w1c := 0x0, sc := 0x0, rl := 0x0, reset := 0x0 },
  /- MBX_Mm_DONE -/ { off := 0x8108, dims := [(16, 0x20)], rw := 0x0, rws := 0x0, w1c := 0x0, sc := 0x0, rl := 0x0, reset := 0x0 },
  /- MBX_Mm_CNT -/ { off := 0x810C, dims := [(16, 0x20)], rw := 0x0, rws := 0x0, w1c := 0x0, sc := 0x0, rl := 0x0, reset := 0x0 },
  /- MBX_Mm_TREF_LO -/ { off := 0x8110, dims := [(16, 0x20)], rw := 0x0, rws := 0x0, w1c := 0x0, sc := 0x0, rl := 0x0, reset := 0x0 },
  /- MBX_Mm_TREF_HI -/ { off := 0x8114, dims := [(16, 0x20)], rw := 0x0, rws := 0x0, w1c := 0x0, sc := 0x0, rl := 0x0, reset := 0x0 }]

/-- The rows of the block whose number is `b` (its base is 0x4000_0000 + 0x1_0000 × b, R364). -/
def blockRows : Nat → List RegRow
  | 0 => rowsSys
  | 1 => rowsHerder
  | 2 => rowsTime
  | 3 => rowsGate
  | 4 => rowsPwm
  | 5 => rowsDsf
  | 6 => rowsSar
  | 7 => rowsFbk
  | 8 => rowsStride
  | 9 => rowsTrj
  | 10 => rowsLoop
  | 11 => rowsCap
  | 12 => rowsChain
  | 13 => rowsCan
  | 14 => rowsPair
  | 15 => rowsSafe
  | 16 => rowsFio
  | 17 => rowsFlt
  | 18 => rowsMbx
  | _ => []

def SYS_MEMBER_MEMBER : Field := ⟨0x40000000, 0, 8⟩
def SYS_MEMBER_CREV : Field := ⟨0x40000000, 8, 8⟩
def SYS_FWVER_BUILD : Field := ⟨0x40000004, 0, 16⟩
def SYS_FWVER_MINOR : Field := ⟨0x40000004, 16, 8⟩
def SYS_FWVER_MAJOR : Field := ⟨0x40000004, 24, 8⟩
def SYS_SERIAL_LO_SERIAL : Field := ⟨0x40000008, 0, 32⟩
def SYS_SERIAL_HI_SERIAL : Field := ⟨0x4000000C, 0, 32⟩
def SYS_Dd_LOT_LO_LOT (i : Nat) : Field := ⟨0x40000020 + 0x10 * i, 0, 32⟩
def SYS_Dd_LOT_HI_LOT (i : Nat) : Field := ⟨0x40000024 + 0x10 * i, 0, 16⟩
def SYS_Dd_LOT_HI_WAFER (i : Nat) : Field := ⟨0x40000024 + 0x10 * i, 16, 8⟩
def SYS_Dd_LOT_HI_REV (i : Nat) : Field := ⟨0x40000024 + 0x10 * i, 24, 8⟩
def SYS_Dd_XY_X (i : Nat) : Field := ⟨0x40000028 + 0x10 * i, 0, 8⟩
def SYS_Dd_XY_Y (i : Nat) : Field := ⟨0x40000028 + 0x10 * i, 8, 8⟩
def SYS_RST_POR : Field := ⟨0x40000050, 0, 1⟩
def SYS_RST_BOR : Field := ⟨0x40000050, 1, 1⟩
def SYS_RST_PIN : Field := ⟨0x40000050, 2, 1⟩
def SYS_RST_WDOG : Field := ⟨0x40000050, 3, 1⟩
def SYS_RST_SOFT : Field := ⟨0x40000050, 4, 1⟩
def SYS_RST_WAKE : Field := ⟨0x40000050, 5, 1⟩
def SYS_RST_COUNT : Field := ⟨0x40000050, 16, 16⟩
def SYS_BOOT_CAUSE : Field := ⟨0x40000054, 0, 3⟩
def SYS_BOOT_SLOT : Field := ⟨0x40000054, 3, 1⟩
def SYS_BOOT_ARES : Field := ⟨0x40000054, 4, 2⟩
def SYS_BOOT_BRES : Field := ⟨0x40000054, 6, 2⟩
def SYS_BOOT_CFGBAD : Field := ⟨0x40000054, 8, 1⟩
def SYS_BOOT_ECCC : Field := ⟨0x40000054, 16, 8⟩
def SYS_BOOT_BTIME : Field := ⟨0x40000054, 24, 8⟩
def SYS_WAKE_WAKEN : Field := ⟨0x40000058, 0, 1⟩
def SYS_WAKE_HPI : Field := ⟨0x40000058, 1, 1⟩
def SYS_WAKE_CANSRC : Field := ⟨0x40000058, 2, 6⟩
def SYS_WAKE_FRAME : Field := ⟨0x40000058, 8, 1⟩
def SYS_WAKE_EARLY : Field := ⟨0x40000058, 9, 1⟩
def SYS_CAP0_LANES : Field := ⟨0x40000100, 0, 8⟩
def SYS_CAP0_STEPS : Field := ⟨0x40000100, 8, 8⟩
def SYS_CAP0_TRJ : Field := ⟨0x40000100, 16, 8⟩
def SYS_CAP0_VAX : Field := ⟨0x40000100, 24, 8⟩
def SYS_CAP1_DSF : Field := ⟨0x40000104, 0, 8⟩
def SYS_CAP1_DSCK : Field := ⟨0x40000104, 8, 8⟩
def SYS_CAP1_SAR : Field := ⟨0x40000104, 16, 8⟩
def SYS_CAP1_FBK : Field := ⟨0x40000104, 24, 8⟩
def SYS_CAP2_STRIDE : Field := ⟨0x40000108, 0, 8⟩
def SYS_CAP2_LOOP : Field := ⟨0x40000108, 8, 8⟩
def SYS_CAP2_CAN : Field := ⟨0x40000108, 16, 8⟩
def SYS_CAP2_FIO : Field := ⟨0x40000108, 24, 8⟩
def SYS_CAP3_CAPCH : Field := ⟨0x4000010C, 0, 8⟩
def SYS_CAP3_TRIG : Field := ⟨0x4000010C, 8, 8⟩
def SYS_CAP3_CAPMEM : Field := ⟨0x4000010C, 16, 16⟩
def SYS_CAP4_CHP : Field := ⟨0x40000110, 0, 2⟩
def SYS_CAP4_PAIR : Field := ⟨0x40000110, 2, 1⟩
def SYS_CAP4_DCG : Field := ⟨0x40000110, 4, 3⟩
def SYS_CAP4_PRB : Field := ⟨0x40000110, 8, 4⟩
def SYS_CAP4_CMDIN : Field := ⟨0x40000110, 12, 4⟩
def SYS_CAP4_EXC : Field := ⟨0x40000110, 16, 3⟩
def SYS_CAP5_JOBS : Field := ⟨0x40000114, 0, 11⟩
def SYS_CAP5_GATES : Field := ⟨0x40000114, 16, 9⟩
def SYS_CAP5_MBX : Field := ⟨0x40000114, 27, 5⟩
def HERDER_CTRL_TICK : Field := ⟨0x40010000, 0, 7⟩
def HERDER_CTRL_WIN : Field := ⟨0x40010000, 16, 10⟩
def HERDER_CAP_TRJ : Field := ⟨0x40010004, 0, 8⟩
def HERDER_CAP_PKT : Field := ⟨0x40010004, 8, 8⟩
def HERDER_CAP_LOOP : Field := ⟨0x40010004, 16, 8⟩
def HERDER_STAT_FREE : Field := ⟨0x40010008, 0, 11⟩
def HERDER_STAT_INTEG : Field := ⟨0x40010008, 16, 1⟩
def HERDER_XDEC_CNT : Field := ⟨0x4001000C, 0, 32⟩
def HERDER_TR_BASE_BASE : Field := ⟨0x40010010, 0, 32⟩
def HERDER_TR_WR_WR : Field := ⟨0x40010014, 0, 32⟩
def HERDER_TR_CTL_KMASK : Field := ⟨0x40010018, 0, 8⟩
def HERDER_TR_CTL_FRZK : Field := ⟨0x40010018, 8, 8⟩
def HERDER_TR_CTL_POST : Field := ⟨0x40010018, 16, 12⟩
def HERDER_TR_CTL_FROZEN : Field := ⟨0x40010018, 31, 1⟩
def HERDER_TR_EMASK_EMASK : Field := ⟨0x4001001C, 0, 31⟩
def HERDER_ENGe_STAT_DEPTH (i : Nat) : Field := ⟨0x40010100 + 0x20 * i, 0, 10⟩
def HERDER_ENGe_STAT_RUN (i : Nat) : Field := ⟨0x40010100 + 0x20 * i, 12, 1⟩
def HERDER_ENGe_STAT_SHADOW (i : Nat) : Field := ⟨0x40010100 + 0x20 * i, 13, 1⟩
def HERDER_ENGe_STAT_MARGIN_LOW (i : Nat) : Field := ⟨0x40010100 + 0x20 * i, 16, 1⟩
def HERDER_ENGe_STAT_OVERRUN (i : Nat) : Field := ⟨0x40010100 + 0x20 * i, 17, 1⟩
def HERDER_ENGe_DMAX_DMAX (i : Nat) : Field := ⟨0x40010104 + 0x20 * i, 0, 10⟩
def HERDER_ENGe_WMIN_W (i : Nat) : Field := ⟨0x40010108 + 0x20 * i, 0, 32⟩
def HERDER_ENGe_WMAX_W (i : Nat) : Field := ⟨0x4001010C + 0x20 * i, 0, 32⟩
def HERDER_ENGe_WMEAN_W (i : Nat) : Field := ⟨0x40010110 + 0x20 * i, 0, 32⟩
def HERDER_ENGe_LOAD_LOAD (i : Nat) : Field := ⟨0x40010114 + 0x20 * i, 0, 14⟩
def HERDER_ENGe_ADM_ADM (i : Nat) : Field := ⟨0x40010118 + 0x20 * i, 0, 16⟩
def HERDER_ENGe_DONE_DONE (i : Nat) : Field := ⟨0x4001011C + 0x20 * i, 0, 32⟩
def HERDER_COSTc_COST (i : Nat) : Field := ⟨0x40010800 + 0x4 * i, 0, 24⟩
def HERDER_COSTc_GROUP (i : Nat) : Field := ⟨0x40010800 + 0x4 * i, 24, 2⟩
def HERDER_COSTc_DEF (i : Nat) : Field := ⟨0x40010800 + 0x4 * i, 31, 1⟩
def HERDER_JOBj_CFG_STATE (i : Nat) : Field := ⟨0x40014000 + 0x20 * i, 0, 3⟩
def HERDER_JOBj_CFG_PRIO (i : Nat) : Field := ⟨0x40014000 + 0x20 * i, 4, 4⟩
def HERDER_JOBj_CFG_ENG (i : Nat) : Field := ⟨0x40014000 + 0x20 * i, 8, 5⟩
def HERDER_JOBj_CFG_CLS (i : Nat) : Field := ⟨0x40014000 + 0x20 * i, 16, 8⟩
def HERDER_JOBj_CFG_NSUCC (i : Nat) : Field := ⟨0x40014000 + 0x20 * i, 24, 4⟩
def HERDER_JOBj_CFG_RSRC (i : Nat) : Field := ⟨0x40014000 + 0x20 * i, 28, 2⟩
def HERDER_JOBj_CNT_CNT (i : Nat) : Field := ⟨0x40014004 + 0x20 * i, 0, 8⟩
def HERDER_JOBj_CNT_RST (i : Nat) : Field := ⟨0x40014004 + 0x20 * i, 8, 8⟩
def HERDER_JOBj_CNT_LSO (i : Nat) : Field := ⟨0x40014004 + 0x20 * i, 16, 16⟩
def HERDER_JOBj_LAUNCH_LO_LAUNCH (i : Nat) : Field := ⟨0x40014008 + 0x20 * i, 0, 32⟩
def HERDER_JOBj_LAUNCH_HI_LAUNCH (i : Nat) : Field := ⟨0x4001400C + 0x20 * i, 0, 32⟩
def HERDER_JOBj_DLREL_DLREL (i : Nat) : Field := ⟨0x40014010 + 0x20 * i, 0, 32⟩
def HERDER_JOBj_SUCC0_SUCC (i : Nat) : Field := ⟨0x40014014 + 0x20 * i, 0, 32⟩
def HERDER_JOBj_SUCC1_SUCC (i : Nat) : Field := ⟨0x40014018 + 0x20 * i, 0, 32⟩
def HERDER_JOBj_SUCC2_SUCC (i : Nat) : Field := ⟨0x4001401C + 0x20 * i, 0, 32⟩
def TIME_CTRL_MODE : Field := ⟨0x40020000, 0, 2⟩
def TIME_CTRL_PORT : Field := ⟨0x40020000, 2, 1⟩
def TIME_STAT_STATE : Field := ⟨0x40020004, 0, 3⟩
def TIME_STAT_TIME_JUMP : Field := ⟨0x40020004, 3, 1⟩
def TIME_STAT_HOLD_EXP : Field := ⟨0x40020004, 4, 1⟩
def TIME_STAT_STEP_PEND : Field := ⟨0x40020004, 5, 1⟩
def TIME_STAT_RATE_LIM : Field := ⟨0x40020004, 6, 1⟩
def TIME_STAT_MASTER_LOST : Field := ⟨0x40020004, 7, 1⟩
def TIME_NOW_LO_NS : Field := ⟨0x40020008, 0, 32⟩
def TIME_NOW_HI_NS : Field := ⟨0x4002000C, 0, 32⟩
def TIME_NOW_FRAC_FRAC : Field := ⟨0x40020010, 0, 16⟩
def TIME_RATE_Y : Field := ⟨0x40020014, 0, 32⟩
def TIME_GAIN_KP : Field := ⟨0x40020018, 0, 16⟩
def TIME_GAIN_KI : Field := ⟨0x40020018, 16, 16⟩
def TIME_LIM_JTHR : Field := ⟨0x4002001C, 0, 16⟩
def TIME_LIM_LTHR : Field := ⟨0x4002001C, 16, 16⟩
def TIME_HOLD_HLIM : Field := ⟨0x40020020, 0, 16⟩
def TIME_HOLD_SLEW : Field := ⟨0x40020020, 16, 16⟩
def TIME_PEND_LO_PEND : Field := ⟨0x40020024, 0, 32⟩
def TIME_PEND_HI_PEND : Field := ⟨0x40020028, 0, 32⟩
def GATE_MARGIN_MARG : Field := ⟨0x40030000, 0, 10⟩
def GATE_LATE_CNT_CNT : Field := ⟨0x40030004, 0, 32⟩
def GATE_GTnnn_CFG_EN (i : Nat) : Field := ⟨0x40030100 + 0x40 * i, 0, 1⟩
def GATE_GTnnn_CFG_ACT_EN (i : Nat) : Field := ⟨0x40030110 + 0x40 * i, 0, 1⟩
def GATE_GTnnn_CFG_KIND (i : Nat) : Field := ⟨0x40030100 + 0x40 * i, 4, 4⟩
def GATE_GTnnn_CFG_ACT_KIND (i : Nat) : Field := ⟨0x40030110 + 0x40 * i, 4, 4⟩
def GATE_GTnnn_CFG_TARGET (i : Nat) : Field := ⟨0x40030100 + 0x40 * i, 8, 8⟩
def GATE_GTnnn_CFG_ACT_TARGET (i : Nat) : Field := ⟨0x40030110 + 0x40 * i, 8, 8⟩
def GATE_GTnnn_CFG_SUB (i : Nat) : Field := ⟨0x40030100 + 0x40 * i, 16, 8⟩
def GATE_GTnnn_CFG_ACT_SUB (i : Nat) : Field := ⟨0x40030110 + 0x40 * i, 16, 8⟩
def GATE_GTnnn_PER_PER (i : Nat) : Field := ⟨0x40030104 + 0x40 * i, 0, 32⟩
def GATE_GTnnn_PER_ACT_PER (i : Nat) : Field := ⟨0x40030114 + 0x40 * i, 0, 32⟩
def GATE_GTnnn_CMP_LO_CMP (i : Nat) : Field := ⟨0x40030108 + 0x40 * i, 0, 32⟩
def GATE_GTnnn_CMP_HI_CMP (i : Nat) : Field := ⟨0x4003010C + 0x40 * i, 0, 32⟩
def GATE_GTnnn_NEXT_LO_NEXT (i : Nat) : Field := ⟨0x40030118 + 0x40 * i, 0, 32⟩
def GATE_GTnnn_NEXT_HI_NEXT (i : Nat) : Field := ⟨0x4003011C + 0x40 * i, 0, 32⟩
def GATE_GTnnn_CTL_CMT (i : Nat) : Field := ⟨0x40030120 + 0x40 * i, 0, 1⟩
def GATE_GTnnn_CTL_ARMED (i : Nat) : Field := ⟨0x40030120 + 0x40 * i, 1, 1⟩
def GATE_GTnnn_CTL_LATE (i : Nat) : Field := ⟨0x40030120 + 0x40 * i, 2, 1⟩
def GATE_GTnnn_CTL_MISSED (i : Nat) : Field := ⟨0x40030120 + 0x40 * i, 3, 1⟩
def GATE_GTnnn_CTL_STEPPED (i : Nat) : Field := ⟨0x40030120 + 0x40 * i, 4, 1⟩
def GATE_GTnnn_CTL_CONFLICT (i : Nat) : Field := ⟨0x40030120 + 0x40 * i, 5, 1⟩
def GATE_GTnnn_CTL_SKIP (i : Nat) : Field := ⟨0x40030120 + 0x40 * i, 16, 16⟩
def PWM_Lnn_CFG_MODE (i : Nat) : Field := ⟨0x40040000 + 0x400 * i, 0, 2⟩
def PWM_Lnn_CFG_ACT_MODE (i : Nat) : Field := ⟨0x40040080 + 0x400 * i, 0, 2⟩
def PWM_Lnn_CFG_HR (i : Nat) : Field := ⟨0x40040000 + 0x400 * i, 2, 1⟩
def PWM_Lnn_CFG_ACT_HR (i : Nat) : Field := ⟨0x40040080 + 0x400 * i, 2, 1⟩
def PWM_Lnn_CFG_HPOL (i : Nat) : Field := ⟨0x40040000 + 0x400 * i, 3, 1⟩
def PWM_Lnn_CFG_ACT_HPOL (i : Nat) : Field := ⟨0x40040080 + 0x400 * i, 3, 1⟩
def PWM_Lnn_CFG_LPOL (i : Nat) : Field := ⟨0x40040000 + 0x400 * i, 4, 1⟩
def PWM_Lnn_CFG_ACT_LPOL (i : Nat) : Field := ⟨0x40040080 + 0x400 * i, 4, 1⟩
def PWM_Lnn_CFG_FPAT (i : Nat) : Field := ⟨0x40040000 + 0x400 * i, 8, 2⟩
def PWM_Lnn_CFG_ACT_FPAT (i : Nat) : Field := ⟨0x40040080 + 0x400 * i, 8, 2⟩
def PWM_Lnn_PER_PER (i : Nat) : Field := ⟨0x40040004 + 0x400 * i, 0, 16⟩
def PWM_Lnn_PER_ACT_PER (i : Nat) : Field := ⟨0x40040084 + 0x400 * i, 0, 16⟩
def PWM_Lnn_DT_DT (i : Nat) : Field := ⟨0x40040008 + 0x400 * i, 0, 11⟩
def PWM_Lnn_DT_ACT_DT (i : Nat) : Field := ⟨0x40040088 + 0x400 * i, 0, 11⟩
def PWM_Lnn_DT_MINP (i : Nat) : Field := ⟨0x40040008 + 0x400 * i, 16, 12⟩
def PWM_Lnn_DT_ACT_MINP (i : Nat) : Field := ⟨0x40040088 + 0x400 * i, 16, 12⟩
def PWM_Lnn_CU_C (i : Nat) : Field := ⟨0x4004000C + 0x400 * i, 0, 19⟩
def PWM_Lnn_CU_ACT_C (i : Nat) : Field := ⟨0x4004008C + 0x400 * i, 0, 19⟩
def PWM_Lnn_CU_FLOAT (i : Nat) : Field := ⟨0x4004000C + 0x400 * i, 31, 1⟩
def PWM_Lnn_CU_ACT_FLOAT (i : Nat) : Field := ⟨0x4004008C + 0x400 * i, 31, 1⟩
def PWM_Lnn_CV_C (i : Nat) : Field := ⟨0x40040010 + 0x400 * i, 0, 19⟩
def PWM_Lnn_CV_ACT_C (i : Nat) : Field := ⟨0x40040090 + 0x400 * i, 0, 19⟩
def PWM_Lnn_CV_FLOAT (i : Nat) : Field := ⟨0x40040010 + 0x400 * i, 31, 1⟩
def PWM_Lnn_CV_ACT_FLOAT (i : Nat) : Field := ⟨0x40040090 + 0x400 * i, 31, 1⟩
def PWM_Lnn_CW_C (i : Nat) : Field := ⟨0x40040014 + 0x400 * i, 0, 19⟩
def PWM_Lnn_CW_ACT_C (i : Nat) : Field := ⟨0x40040094 + 0x400 * i, 0, 19⟩
def PWM_Lnn_CW_FLOAT (i : Nat) : Field := ⟨0x40040014 + 0x400 * i, 31, 1⟩
def PWM_Lnn_CW_ACT_FLOAT (i : Nat) : Field := ⟨0x40040094 + 0x400 * i, 31, 1⟩
def PWM_Lnn_VPER_VPER (i : Nat) : Field := ⟨0x40040018 + 0x400 * i, 0, 16⟩
def PWM_Lnn_VPER_ACT_VPER (i : Nat) : Field := ⟨0x40040098 + 0x400 * i, 0, 16⟩
def PWM_Lnn_VPER_VMIN (i : Nat) : Field := ⟨0x40040018 + 0x400 * i, 16, 16⟩
def PWM_Lnn_VPER_ACT_VMIN (i : Nat) : Field := ⟨0x40040098 + 0x400 * i, 16, 16⟩
def PWM_Lnn_COMMIT_CMT (i : Nat) : Field := ⟨0x4004001C + 0x400 * i, 0, 1⟩
def PWM_Lnn_CSTAT_CONFLICT (i : Nat) : Field := ⟨0x40040020 + 0x400 * i, 0, 1⟩
def PWM_Lnn_CSTAT_ZERO (i : Nat) : Field := ⟨0x40040020 + 0x400 * i, 1, 1⟩
def PWM_Lnn_CSTAT_DUTY_CLAMP (i : Nat) : Field := ⟨0x40040020 + 0x400 * i, 2, 1⟩
def PWM_Lnn_CSTAT_LATE (i : Nat) : Field := ⟨0x40040020 + 0x400 * i, 3, 1⟩
def PWM_Lnn_CSTAT_CANCEL (i : Nat) : Field := ⟨0x40040020 + 0x400 * i, 4, 1⟩
def PWM_Lnn_CSTAT_MINP (i : Nat) : Field := ⟨0x40040020 + 0x400 * i, 5, 1⟩
def PWM_Lnn_CSTAT_STALL (i : Nat) : Field := ⟨0x40040020 + 0x400 * i, 6, 1⟩
def PWM_Lnn_OUT_LEVEL (i : Nat) : Field := ⟨0x40040024 + 0x400 * i, 0, 6⟩
def PWM_Lnn_OUT_DRV (i : Nat) : Field := ⟨0x40040024 + 0x400 * i, 8, 6⟩
def PWM_Lnn_OUT_OSTATE (i : Nat) : Field := ⟨0x40040024 + 0x400 * i, 16, 3⟩
def PWM_Lnn_CC_CFG_CMODE (i : Nat) : Field := ⟨0x40040200 + 0x400 * i, 0, 2⟩
def PWM_Lnn_CC_CFG_ACT_CMODE (i : Nat) : Field := ⟨0x40040280 + 0x400 * i, 0, 2⟩
def PWM_Lnn_CC_CFG_COMSRC (i : Nat) : Field := ⟨0x40040200 + 0x400 * i, 2, 1⟩
def PWM_Lnn_CC_CFG_ACT_COMSRC (i : Nat) : Field := ⟨0x40040280 + 0x400 * i, 2, 1⟩
def PWM_Lnn_CC_CFG_SWIN (i : Nat) : Field := ⟨0x40040200 + 0x400 * i, 3, 1⟩
def PWM_Lnn_CC_CFG_ACT_SWIN (i : Nat) : Field := ⟨0x40040280 + 0x400 * i, 3, 1⟩
def PWM_Lnn_CC_CFG_DTC (i : Nat) : Field := ⟨0x40040200 + 0x400 * i, 4, 1⟩
def PWM_Lnn_CC_CFG_ACT_DTC (i : Nat) : Field := ⟨0x40040280 + 0x400 * i, 4, 1⟩
def PWM_Lnn_CC_CFG_FWEN (i : Nat) : Field := ⟨0x40040200 + 0x400 * i, 5, 1⟩
def PWM_Lnn_CC_CFG_ACT_FWEN (i : Nat) : Field := ⟨0x40040280 + 0x400 * i, 5, 1⟩
def PWM_Lnn_CC_CFG_FF (i : Nat) : Field := ⟨0x40040200 + 0x400 * i, 6, 1⟩
def PWM_Lnn_CC_CFG_ACT_FF (i : Nat) : Field := ⟨0x40040280 + 0x400 * i, 6, 1⟩
def PWM_Lnn_CC_CFG_REVPOL (i : Nat) : Field := ⟨0x40040200 + 0x400 * i, 7, 2⟩
def PWM_Lnn_CC_CFG_ACT_REVPOL (i : Nat) : Field := ⟨0x40040280 + 0x400 * i, 7, 2⟩
def PWM_Lnn_CC_CFG_PP (i : Nat) : Field := ⟨0x40040200 + 0x400 * i, 9, 7⟩
def PWM_Lnn_CC_CFG_ACT_PP (i : Nat) : Field := ⟨0x40040280 + 0x400 * i, 9, 7⟩
def PWM_Lnn_CC_CFG_HOFF (i : Nat) : Field := ⟨0x40040200 + 0x400 * i, 16, 3⟩
def PWM_Lnn_CC_CFG_ACT_HOFF (i : Nat) : Field := ⟨0x40040280 + 0x400 * i, 16, 3⟩
def PWM_Lnn_CC_ANGOFF_ANG (i : Nat) : Field := ⟨0x40040204 + 0x400 * i, 0, 32⟩
def PWM_Lnn_CC_ANGOFF_ACT_ANG (i : Nat) : Field := ⟨0x40040284 + 0x400 * i, 0, 32⟩
def PWM_Lnn_CC_KPD_K (i : Nat) : Field := ⟨0x40040208 + 0x400 * i, 0, 32⟩
def PWM_Lnn_CC_KPD_ACT_K (i : Nat) : Field := ⟨0x40040288 + 0x400 * i, 0, 32⟩
def PWM_Lnn_CC_KID_K (i : Nat) : Field := ⟨0x4004020C + 0x400 * i, 0, 32⟩
def PWM_Lnn_CC_KID_ACT_K (i : Nat) : Field := ⟨0x4004028C + 0x400 * i, 0, 32⟩
def PWM_Lnn_CC_KPQ_K (i : Nat) : Field := ⟨0x40040210 + 0x400 * i, 0, 32⟩
def PWM_Lnn_CC_KPQ_ACT_K (i : Nat) : Field := ⟨0x40040290 + 0x400 * i, 0, 32⟩
def PWM_Lnn_CC_KIQ_K (i : Nat) : Field := ⟨0x40040214 + 0x400 * i, 0, 32⟩
def PWM_Lnn_CC_KIQ_ACT_K (i : Nat) : Field := ⟨0x40040294 + 0x400 * i, 0, 32⟩
def PWM_Lnn_CC_IMAX_I (i : Nat) : Field := ⟨0x40040218 + 0x400 * i, 0, 32⟩
def PWM_Lnn_CC_IMAX_ACT_I (i : Nat) : Field := ⟨0x40040298 + 0x400 * i, 0, 32⟩
def PWM_Lnn_CC_IOC_I (i : Nat) : Field := ⟨0x4004021C + 0x400 * i, 0, 32⟩
def PWM_Lnn_CC_IOC_ACT_I (i : Nat) : Field := ⟨0x4004029C + 0x400 * i, 0, 32⟩
def PWM_Lnn_CC_MOD_MLIM (i : Nat) : Field := ⟨0x40040220 + 0x400 * i, 0, 16⟩
def PWM_Lnn_CC_MOD_ACT_MLIM (i : Nat) : Field := ⟨0x400402A0 + 0x400 * i, 0, 16⟩
def PWM_Lnn_CC_MOD_ADV (i : Nat) : Field := ⟨0x40040220 + 0x400 * i, 16, 16⟩
def PWM_Lnn_CC_MOD_ACT_ADV (i : Nat) : Field := ⟨0x400402A0 + 0x400 * i, 16, 16⟩
def PWM_Lnn_CC_WIN_SGUARD (i : Nat) : Field := ⟨0x40040224 + 0x400 * i, 0, 12⟩
def PWM_Lnn_CC_WIN_ACT_SGUARD (i : Nat) : Field := ⟨0x400402A4 + 0x400 * i, 0, 12⟩
def PWM_Lnn_CC_WIN_ISUM (i : Nat) : Field := ⟨0x40040224 + 0x400 * i, 16, 16⟩
def PWM_Lnn_CC_WIN_ACT_ISUM (i : Nat) : Field := ⟨0x400402A4 + 0x400 * i, 16, 16⟩
def PWM_Lnn_CC_XD_X (i : Nat) : Field := ⟨0x40040228 + 0x400 * i, 0, 32⟩
def PWM_Lnn_CC_XD_ACT_X (i : Nat) : Field := ⟨0x400402A8 + 0x400 * i, 0, 32⟩
def PWM_Lnn_CC_XQ_X (i : Nat) : Field := ⟨0x4004022C + 0x400 * i, 0, 32⟩
def PWM_Lnn_CC_XQ_ACT_X (i : Nat) : Field := ⟨0x400402AC + 0x400 * i, 0, 32⟩
def PWM_Lnn_CC_EPSI_X (i : Nat) : Field := ⟨0x40040230 + 0x400 * i, 0, 32⟩
def PWM_Lnn_CC_EPSI_ACT_X (i : Nat) : Field := ⟨0x400402B0 + 0x400 * i, 0, 32⟩
def PWM_Lnn_CC_WBASE_WBASE (i : Nat) : Field := ⟨0x40040234 + 0x400 * i, 0, 32⟩
def PWM_Lnn_CC_WBASE_ACT_WBASE (i : Nat) : Field := ⟨0x400402B4 + 0x400 * i, 0, 32⟩
def PWM_Lnn_CC_FW_FWTHR (i : Nat) : Field := ⟨0x40040238 + 0x400 * i, 0, 16⟩
def PWM_Lnn_CC_FW_ACT_FWTHR (i : Nat) : Field := ⟨0x400402B8 + 0x400 * i, 0, 16⟩
def PWM_Lnn_CC_FW_KFW (i : Nat) : Field := ⟨0x40040238 + 0x400 * i, 16, 16⟩
def PWM_Lnn_CC_FW_ACT_KFW (i : Nat) : Field := ⟨0x400402B8 + 0x400 * i, 16, 16⟩
def PWM_Lnn_CC_IDFW_I (i : Nat) : Field := ⟨0x4004023C + 0x400 * i, 0, 32⟩
def PWM_Lnn_CC_IDFW_ACT_I (i : Nat) : Field := ⟨0x400402BC + 0x400 * i, 0, 32⟩
def PWM_Lnn_CC_IDREF_I (i : Nat) : Field := ⟨0x40040240 + 0x400 * i, 0, 32⟩
def PWM_Lnn_CC_IDREF_ACT_I (i : Nat) : Field := ⟨0x400402C0 + 0x400 * i, 0, 32⟩
def PWM_Lnn_CC_ZSPD_SPD (i : Nat) : Field := ⟨0x40040244 + 0x400 * i, 0, 32⟩
def PWM_Lnn_CC_ZSPD_ACT_SPD (i : Nat) : Field := ⟨0x400402C4 + 0x400 * i, 0, 32⟩
def PWM_Lnn_CC_CATCH_SPD (i : Nat) : Field := ⟨0x40040248 + 0x400 * i, 0, 32⟩
def PWM_Lnn_CC_CATCH_ACT_SPD (i : Nat) : Field := ⟨0x400402C8 + 0x400 * i, 0, 32⟩
def PWM_Lnn_CC_REVLIM_SPD (i : Nat) : Field := ⟨0x4004024C + 0x400 * i, 0, 32⟩
def PWM_Lnn_CC_REVLIM_ACT_SPD (i : Nat) : Field := ⟨0x400402CC + 0x400 * i, 0, 32⟩
def PWM_Lnn_CC_REV_IDCI (i : Nat) : Field := ⟨0x40040250 + 0x400 * i, 0, 16⟩
def PWM_Lnn_CC_REV_ACT_IDCI (i : Nat) : Field := ⟨0x400402D0 + 0x400 * i, 0, 16⟩
def PWM_Lnn_CC_REV_REVTMO (i : Nat) : Field := ⟨0x40040250 + 0x400 * i, 16, 16⟩
def PWM_Lnn_CC_REV_ACT_REVTMO (i : Nat) : Field := ⟨0x400402D0 + 0x400 * i, 16, 16⟩
def PWM_Lnn_CC_COMADV_ANG (i : Nat) : Field := ⟨0x40040254 + 0x400 * i, 0, 32⟩
def PWM_Lnn_CC_COMADV_ACT_ANG (i : Nat) : Field := ⟨0x400402D4 + 0x400 * i, 0, 32⟩
def PWM_Lnn_CC_STAT_VLIM (i : Nat) : Field := ⟨0x400402E0 + 0x400 * i, 0, 1⟩
def PWM_Lnn_CC_STAT_DEPTH (i : Nat) : Field := ⟨0x400402E0 + 0x400 * i, 1, 1⟩
def PWM_Lnn_CC_STAT_FW (i : Nat) : Field := ⟨0x400402E0 + 0x400 * i, 2, 1⟩
def PWM_Lnn_CC_STAT_REGEN (i : Nat) : Field := ⟨0x400402E0 + 0x400 * i, 3, 1⟩
def PWM_Lnn_CC_STAT_START (i : Nat) : Field := ⟨0x400402E0 + 0x400 * i, 4, 3⟩
def PWM_Lnn_CC_STAT_SECTOR (i : Nat) : Field := ⟨0x400402E0 + 0x400 * i, 8, 3⟩
def PWM_Lnn_CC_STAT_SUMC (i : Nat) : Field := ⟨0x400402E0 + 0x400 * i, 11, 2⟩
def PWM_Lnn_CC_ID_VAL (i : Nat) : Field := ⟨0x400402E8 + 0x400 * i, 0, 32⟩
def PWM_Lnn_CC_IQ_VAL (i : Nat) : Field := ⟨0x400402EC + 0x400 * i, 0, 32⟩
def PWM_Lnn_CC_VD_VAL (i : Nat) : Field := ⟨0x400402F0 + 0x400 * i, 0, 32⟩
def PWM_Lnn_CC_VQ_VAL (i : Nat) : Field := ⟨0x400402F4 + 0x400 * i, 0, 32⟩
def PWM_Lnn_CC_IFW_VAL (i : Nat) : Field := ⟨0x400402F8 + 0x400 * i, 0, 32⟩
def PWM_Lnn_CYC_VDIV (i : Nat) : Field := ⟨0x40040380 + 0x400 * i, 0, 4⟩
def PWM_Lnn_CYC_ACT_VDIV (i : Nat) : Field := ⟨0x40040388 + 0x400 * i, 0, 4⟩
def PWM_Lnn_CYC_PDIV (i : Nat) : Field := ⟨0x40040380 + 0x400 * i, 4, 4⟩
def PWM_Lnn_CYC_ACT_PDIV (i : Nat) : Field := ⟨0x40040388 + 0x400 * i, 4, 4⟩
def PWM_Lnn_CYC_AUTO (i : Nat) : Field := ⟨0x40040380 + 0x400 * i, 8, 1⟩
def PWM_Lnn_CYC_ACT_AUTO (i : Nat) : Field := ⟨0x40040388 + 0x400 * i, 8, 1⟩
def PWM_Lnn_CYC_MISS_LIM (i : Nat) : Field := ⟨0x40040380 + 0x400 * i, 12, 4⟩
def PWM_Lnn_CYC_ACT_MISS_LIM (i : Nat) : Field := ⟨0x40040388 + 0x400 * i, 12, 4⟩
def PWM_Lnn_CYC_EXT (i : Nat) : Field := ⟨0x40040380 + 0x400 * i, 16, 2⟩
def PWM_Lnn_CYC_ACT_EXT (i : Nat) : Field := ⟨0x40040388 + 0x400 * i, 16, 2⟩
def PWM_Lnn_PHASE_PHASE (i : Nat) : Field := ⟨0x40040384 + 0x400 * i, 0, 16⟩
def PWM_Lnn_PHASE_ACT_PHASE (i : Nat) : Field := ⟨0x4004038C + 0x400 * i, 0, 16⟩
def PWM_Lnn_CYC_STAT_HELD (i : Nat) : Field := ⟨0x40040390 + 0x400 * i, 0, 1⟩
def PWM_Lnn_CYC_STAT_SP_STALE (i : Nat) : Field := ⟨0x40040390 + 0x400 * i, 1, 1⟩
def PWM_Lnn_CYC_STAT_SLOW_MISS (i : Nat) : Field := ⟨0x40040390 + 0x400 * i, 2, 1⟩
def PWM_Lnn_CYC_STAT_CONSEC (i : Nat) : Field := ⟨0x40040390 + 0x400 * i, 8, 4⟩
def PWM_Lnn_HELD_CNT_CNT (i : Nat) : Field := ⟨0x40040394 + 0x400 * i, 0, 32⟩
def PWM_Lnn_SLACK_MIN (i : Nat) : Field := ⟨0x40040398 + 0x400 * i, 0, 16⟩
def PWM_Lnn_SLACK_LAST (i : Nat) : Field := ⟨0x40040398 + 0x400 * i, 16, 15⟩
def PWM_Lnn_SLACK_CLR (i : Nat) : Field := ⟨0x40040398 + 0x400 * i, 31, 1⟩
def PWM_Lnn_KIDX_K (i : Nat) : Field := ⟨0x4004039C + 0x400 * i, 0, 32⟩
def PWM_Ss_CFG_PRE (i : Nat) : Field := ⟨0x40046000 + 0x100 * i, 0, 3⟩
def PWM_Ss_CFG_ACT_PRE (i : Nat) : Field := ⟨0x40046040 + 0x100 * i, 0, 3⟩
def PWM_Ss_CFG_POL (i : Nat) : Field := ⟨0x40046000 + 0x100 * i, 3, 1⟩
def PWM_Ss_CFG_ACT_POL (i : Nat) : Field := ⟨0x40046040 + 0x100 * i, 3, 1⟩
def PWM_Ss_CFG_FCOAST (i : Nat) : Field := ⟨0x40046000 + 0x100 * i, 4, 1⟩
def PWM_Ss_CFG_ACT_FCOAST (i : Nat) : Field := ⟨0x40046040 + 0x100 * i, 4, 1⟩
def PWM_Ss_PER_PER (i : Nat) : Field := ⟨0x40046004 + 0x100 * i, 0, 16⟩
def PWM_Ss_PER_ACT_PER (i : Nat) : Field := ⟨0x40046044 + 0x100 * i, 0, 16⟩
def PWM_Ss_COMMIT_CMT (i : Nat) : Field := ⟨0x40046008 + 0x100 * i, 0, 1⟩
def PWM_Ss_CSTAT_CONFLICT (i : Nat) : Field := ⟨0x4004600C + 0x100 * i, 0, 1⟩
def PWM_Ss_CSTAT_ZERO (i : Nat) : Field := ⟨0x4004600C + 0x100 * i, 1, 1⟩
def PWM_Ss_OUT_LEVEL (i : Nat) : Field := ⟨0x40046010 + 0x100 * i, 0, 4⟩
def PWM_Ss_OUT_DRV (i : Nat) : Field := ⟨0x40046010 + 0x100 * i, 4, 4⟩
def PWM_Ss_OUT_OSTATE (i : Nat) : Field := ⟨0x40046010 + 0x100 * i, 8, 3⟩
def PWM_Ss_PH_PH (i : Nat) : Field := ⟨0x40046014 + 0x100 * i, 0, 32⟩
def PWM_Ss_PH_ACT_PH (i : Nat) : Field := ⟨0x40046054 + 0x100 * i, 0, 32⟩
def PWM_Ss_CHOP_TOFF (i : Nat) : Field := ⟨0x40046020 + 0x100 * i, 0, 8⟩
def PWM_Ss_CHOP_ACT_TOFF (i : Nat) : Field := ⟨0x40046060 + 0x100 * i, 0, 8⟩
def PWM_Ss_CHOP_FDS (i : Nat) : Field := ⟨0x40046020 + 0x100 * i, 8, 5⟩
def PWM_Ss_CHOP_ACT_FDS (i : Nat) : Field := ⟨0x40046060 + 0x100 * i, 8, 5⟩
def PWM_Ss_CHOP_TBLANK (i : Nat) : Field := ⟨0x40046020 + 0x100 * i, 16, 8⟩
def PWM_Ss_CHOP_ACT_TBLANK (i : Nat) : Field := ⟨0x40046060 + 0x100 * i, 16, 8⟩
def PWM_Ss_CHOP_OLIM (i : Nat) : Field := ⟨0x40046020 + 0x100 * i, 24, 4⟩
def PWM_Ss_CHOP_ACT_OLIM (i : Nat) : Field := ⟨0x40046060 + 0x100 * i, 24, 4⟩
def PWM_Ss_CHOP_MSLOG (i : Nat) : Field := ⟨0x40046020 + 0x100 * i, 28, 4⟩
def PWM_Ss_CHOP_ACT_MSLOG (i : Nat) : Field := ⟨0x40046060 + 0x100 * i, 28, 4⟩
def PWM_Ss_CUR_IRUN (i : Nat) : Field := ⟨0x40046024 + 0x100 * i, 0, 16⟩
def PWM_Ss_CUR_ACT_IRUN (i : Nat) : Field := ⟨0x40046064 + 0x100 * i, 0, 16⟩
def PWM_Ss_CUR_IHOLD (i : Nat) : Field := ⟨0x40046024 + 0x100 * i, 16, 16⟩
def PWM_Ss_CUR_ACT_IHOLD (i : Nat) : Field := ⟨0x40046064 + 0x100 * i, 16, 16⟩
def PWM_Ss_HOLD_HOLDT (i : Nat) : Field := ⟨0x40046028 + 0x100 * i, 0, 16⟩
def PWM_Ss_HOLD_ACT_HOLDT (i : Nat) : Field := ⟨0x40046068 + 0x100 * i, 0, 16⟩
def PWM_Ss_STAT_Q (i : Nat) : Field := ⟨0x40046030 + 0x100 * i, 0, 10⟩
def PWM_Ss_STAT_JUMP (i : Nat) : Field := ⟨0x40046030 + 0x100 * i, 10, 1⟩
def PWM_Ss_STAT_OPENA (i : Nat) : Field := ⟨0x40046030 + 0x100 * i, 11, 1⟩
def PWM_Ss_STAT_OPENB (i : Nat) : Field := ⟨0x40046030 + 0x100 * i, 12, 1⟩
def PWM_Ss_STAT_HOLD (i : Nat) : Field := ⟨0x40046030 + 0x100 * i, 13, 1⟩
def PWM_Gg_BCFG_BEN (i : Nat) : Field := ⟨0x40047000 + 0x100 * i, 0, 1⟩
def PWM_Gg_BCFG_ACT_BEN (i : Nat) : Field := ⟨0x40047040 + 0x100 * i, 0, 1⟩
def PWM_Gg_BCFG_BISEN (i : Nat) : Field := ⟨0x40047000 + 0x100 * i, 1, 1⟩
def PWM_Gg_BCFG_ACT_BISEN (i : Nat) : Field := ⟨0x40047040 + 0x100 * i, 1, 1⟩
def PWM_Gg_BCFG_BTIME (i : Nat) : Field := ⟨0x40047000 + 0x100 * i, 8, 8⟩
def PWM_Gg_BCFG_ACT_BTIME (i : Nat) : Field := ⟨0x40047040 + 0x100 * i, 8, 8⟩
def PWM_Gg_BCFG_BIMIN (i : Nat) : Field := ⟨0x40047000 + 0x100 * i, 16, 16⟩
def PWM_Gg_BCFG_ACT_BIMIN (i : Nat) : Field := ⟨0x40047040 + 0x100 * i, 16, 16⟩
def PWM_Gg_BHI_V (i : Nat) : Field := ⟨0x40047004 + 0x100 * i, 0, 32⟩
def PWM_Gg_BHI_ACT_V (i : Nat) : Field := ⟨0x40047044 + 0x100 * i, 0, 32⟩
def PWM_Gg_BLO_V (i : Nat) : Field := ⟨0x40047008 + 0x100 * i, 0, 32⟩
def PWM_Gg_BLO_ACT_V (i : Nat) : Field := ⟨0x40047048 + 0x100 * i, 0, 32⟩
def PWM_Gg_OVTRIP_V (i : Nat) : Field := ⟨0x4004700C + 0x100 * i, 0, 32⟩
def PWM_Gg_OVTRIP_ACT_V (i : Nat) : Field := ⟨0x4004704C + 0x100 * i, 0, 32⟩
def PWM_Gg_UVLIM_V (i : Nat) : Field := ⟨0x40047010 + 0x100 * i, 0, 32⟩
def PWM_Gg_UVLIM_ACT_V (i : Nat) : Field := ⟨0x40047050 + 0x100 * i, 0, 32⟩
def PWM_Gg_BRISE_V (i : Nat) : Field := ⟨0x40047014 + 0x100 * i, 0, 32⟩
def PWM_Gg_BRISE_ACT_V (i : Nat) : Field := ⟨0x40047054 + 0x100 * i, 0, 32⟩
def PWM_Gg_CTL_CMT (i : Nat) : Field := ⟨0x40047018 + 0x100 * i, 0, 1⟩
def PWM_Gg_CTL_CONFLICT (i : Nat) : Field := ⟨0x40047018 + 0x100 * i, 1, 1⟩
def PWM_Gg_CTL_ZERO (i : Nat) : Field := ⟨0x40047018 + 0x100 * i, 2, 1⟩
def PWM_Gg_BSTAT_CHOP (i : Nat) : Field := ⟨0x4004701C + 0x100 * i, 0, 1⟩
def PWM_Gg_BSTAT_CFAIL (i : Nat) : Field := ⟨0x4004701C + 0x100 * i, 1, 1⟩
def PWM_Gg_BSTAT_REGEN (i : Nat) : Field := ⟨0x4004701C + 0x100 * i, 2, 1⟩
def PWM_Gg_BSTAT_OVT (i : Nat) : Field := ⟨0x4004701C + 0x100 * i, 3, 1⟩
def PWM_Gg_BSTAT_UV (i : Nat) : Field := ⟨0x4004701C + 0x100 * i, 4, 1⟩
def PWM_Gg_BONCNT_CNT (i : Nat) : Field := ⟨0x40047020 + 0x100 * i, 0, 32⟩
def PWM_Gg_BPWM_PER (i : Nat) : Field := ⟨0x40047080 + 0x100 * i, 0, 16⟩
def PWM_Gg_BPWM_ACT_PER (i : Nat) : Field := ⟨0x400470C0 + 0x100 * i, 0, 16⟩
def PWM_Gg_BPWM_PRE (i : Nat) : Field := ⟨0x40047080 + 0x100 * i, 16, 3⟩
def PWM_Gg_BPWM_ACT_PRE (i : Nat) : Field := ⟨0x400470C0 + 0x100 * i, 16, 3⟩
def PWM_Gg_BPWM_POL (i : Nat) : Field := ⟨0x40047080 + 0x100 * i, 19, 1⟩
def PWM_Gg_BPWM_ACT_POL (i : Nat) : Field := ⟨0x400470C0 + 0x100 * i, 19, 1⟩
def PWM_Gg_BON_ON (i : Nat) : Field := ⟨0x40047084 + 0x100 * i, 0, 16⟩
def PWM_Gg_BON_ACT_ON (i : Nat) : Field := ⟨0x400470C4 + 0x100 * i, 0, 16⟩
def PWM_FLT_CFG_FFILT : Field := ⟨0x40047800, 0, 4⟩
def PWM_FLT_CFG_BRKINC : Field := ⟨0x40047800, 4, 4⟩
def PWM_FLT_STAT_LAT : Field := ⟨0x40047804, 0, 4⟩
def PWM_FLT_STAT_PIN : Field := ⟨0x40047804, 4, 4⟩
def PWM_STPTAB_r_T (i : Nat) : Field := ⟨0x40047C00 + 0x4 * i, 0, 16⟩
def DSF_CKm_CFG_DIV (i : Nat) : Field := ⟨0x40050000 + 0x4 * i, 0, 7⟩
def DSF_CKm_CFG_FORCE (i : Nat) : Field := ⟨0x40050000 + 0x4 * i, 7, 1⟩
def DSF_CKm_CFG_RUN (i : Nat) : Field := ⟨0x40050000 + 0x4 * i, 8, 1⟩
def DSF_Lnn_CTL_CMT (i : Nat) : Field := ⟨0x40050080 + 0x4 * i, 0, 1⟩
def DSF_Lnn_CTL_CONFLICT (i : Nat) : Field := ⟨0x40050080 + 0x4 * i, 1, 1⟩
def DSF_Lnn_CTL_ZERO (i : Nat) : Field := ⟨0x40050080 + 0x4 * i, 2, 1⟩
def DSF_Cnn_CFG_EN (i : Nat) : Field := ⟨0x40050100 + 0x40 * i, 0, 1⟩
def DSF_Cnn_CFG_ACT_EN (i : Nat) : Field := ⟨0x40050120 + 0x40 * i, 0, 1⟩
def DSF_Cnn_CFG_ORDER (i : Nat) : Field := ⟨0x40050100 + 0x40 * i, 1, 3⟩
def DSF_Cnn_CFG_ACT_ORDER (i : Nat) : Field := ⟨0x40050120 + 0x40 * i, 1, 3⟩
def DSF_Cnn_CFG_EDGE (i : Nat) : Field := ⟨0x40050100 + 0x40 * i, 4, 1⟩
def DSF_Cnn_CFG_ACT_EDGE (i : Nat) : Field := ⟨0x40050120 + 0x40 * i, 4, 1⟩
def DSF_Cnn_CFG_OSR (i : Nat) : Field := ⟨0x40050100 + 0x40 * i, 8, 9⟩
def DSF_Cnn_CFG_ACT_OSR (i : Nat) : Field := ⟨0x40050120 + 0x40 * i, 8, 9⟩
def DSF_Cnn_CMP_CEN (i : Nat) : Field := ⟨0x40050104 + 0x40 * i, 0, 1⟩
def DSF_Cnn_CMP_ACT_CEN (i : Nat) : Field := ⟨0x40050124 + 0x40 * i, 0, 1⟩
def DSF_Cnn_CMP_CORD (i : Nat) : Field := ⟨0x40050104 + 0x40 * i, 1, 2⟩
def DSF_Cnn_CMP_ACT_CORD (i : Nat) : Field := ⟨0x40050124 + 0x40 * i, 1, 2⟩
def DSF_Cnn_CMP_COSR (i : Nat) : Field := ⟨0x40050104 + 0x40 * i, 4, 6⟩
def DSF_Cnn_CMP_ACT_COSR (i : Nat) : Field := ⟨0x40050124 + 0x40 * i, 4, 6⟩
def DSF_Cnn_CMP_ACT (i : Nat) : Field := ⟨0x40050104 + 0x40 * i, 10, 2⟩
def DSF_Cnn_CMP_ACT_ACT (i : Nat) : Field := ⟨0x40050124 + 0x40 * i, 10, 2⟩
def DSF_Cnn_THR_HI (i : Nat) : Field := ⟨0x40050108 + 0x40 * i, 0, 16⟩
def DSF_Cnn_THR_ACT_HI (i : Nat) : Field := ⟨0x40050128 + 0x40 * i, 0, 16⟩
def DSF_Cnn_THR_LO (i : Nat) : Field := ⟨0x40050108 + 0x40 * i, 16, 16⟩
def DSF_Cnn_THR_ACT_LO (i : Nat) : Field := ⟨0x40050128 + 0x40 * i, 16, 16⟩
def DSF_Cnn_OFFS_OFFS (i : Nat) : Field := ⟨0x4005010C + 0x40 * i, 0, 32⟩
def DSF_Cnn_OFFS_ACT_OFFS (i : Nat) : Field := ⟨0x4005012C + 0x40 * i, 0, 32⟩
def DSF_Cnn_GAIN_GAIN (i : Nat) : Field := ⟨0x40050110 + 0x40 * i, 0, 32⟩
def DSF_Cnn_GAIN_ACT_GAIN (i : Nat) : Field := ⟨0x40050130 + 0x40 * i, 0, 32⟩
def DSF_Cnn_RES_I (i : Nat) : Field := ⟨0x40050114 + 0x40 * i, 0, 32⟩
def DSF_Cnn_STAT_OVR (i : Nat) : Field := ⟨0x40050118 + 0x40 * i, 0, 1⟩
def DSF_Cnn_STAT_SAT (i : Nat) : Field := ⟨0x40050118 + 0x40 * i, 1, 1⟩
def DSF_Cnn_STAT_TRIP (i : Nat) : Field := ⟨0x40050118 + 0x40 * i, 2, 1⟩
def DSF_Cnn_STAT_STUCK (i : Nat) : Field := ⟨0x40050118 + 0x40 * i, 3, 1⟩
def DSF_Cnn_STAT_ALIGN (i : Nat) : Field := ⟨0x40050118 + 0x40 * i, 16, 16⟩
def SAR_CTRL_EN : Field := ⟨0x40060000, 0, 4⟩
def SAR_CTRL_REFSEL : Field := ⟨0x40060000, 4, 1⟩
def SAR_XCHK_TOL : Field := ⟨0x40060004, 0, 16⟩
def SAR_XCHK_XLIM : Field := ⟨0x40060004, 16, 4⟩
def SAR_CVm_STAT_BUSY (i : Nat) : Field := ⟨0x40060100 + 0x100 * i, 0, 1⟩
def SAR_CVm_STAT_DROP (i : Nat) : Field := ⟨0x40060100 + 0x100 * i, 1, 1⟩
def SAR_CVm_STAT_SEQ_OVR (i : Nat) : Field := ⟨0x40060100 + 0x100 * i, 2, 1⟩
def SAR_CVm_STAT_CONFLICT (i : Nat) : Field := ⟨0x40060100 + 0x100 * i, 3, 1⟩
def SAR_CVm_STAT_HELD (i : Nat) : Field := ⟨0x40060100 + 0x100 * i, 4, 3⟩
def SAR_CVm_OVR_OVR (i : Nat) : Field := ⟨0x40060104 + 0x100 * i, 0, 16⟩
def SAR_CVm_SEQLEN_LEN (i : Nat) : Field := ⟨0x40060108 + 0x100 * i, 0, 16⟩
def SAR_CVm_SEQLEN_ACT_LEN (i : Nat) : Field := ⟨0x40060188 + 0x100 * i, 0, 16⟩
def SAR_CVm_CTL_CMT (i : Nat) : Field := ⟨0x4006010C + 0x100 * i, 0, 1⟩
def SAR_CVm_SEQ0_CH (i : Nat) : Field := ⟨0x40060110 + 0x100 * i, 0, 32⟩
def SAR_CVm_SEQ0_ACT_CH (i : Nat) : Field := ⟨0x40060190 + 0x100 * i, 0, 32⟩
def SAR_CVm_SEQ1_CH (i : Nat) : Field := ⟨0x40060114 + 0x100 * i, 0, 32⟩
def SAR_CVm_SEQ1_ACT_CH (i : Nat) : Field := ⟨0x40060194 + 0x100 * i, 0, 32⟩
def SAR_CVm_SEQ2_CH (i : Nat) : Field := ⟨0x40060118 + 0x100 * i, 0, 32⟩
def SAR_CVm_SEQ2_ACT_CH (i : Nat) : Field := ⟨0x40060198 + 0x100 * i, 0, 32⟩
def SAR_CVm_SEQ3_CH (i : Nat) : Field := ⟨0x4006011C + 0x100 * i, 0, 32⟩
def SAR_CVm_SEQ3_ACT_CH (i : Nat) : Field := ⟨0x4006019C + 0x100 * i, 0, 32⟩
def SAR_CVm_RESc_CODE (i : Nat) (j : Nat) : Field := ⟨0x40060140 + 0x100 * i + 0x4 * j, 0, 16⟩
def SAR_Gg_CFG_DCPER (i : Nat) : Field := ⟨0x40060800 + 0x40 * i, 0, 16⟩
def SAR_Gg_CFG_ACT_DCPER (i : Nat) : Field := ⟨0x40060820 + 0x40 * i, 0, 16⟩
def SAR_Gg_CFG_DCPH (i : Nat) : Field := ⟨0x40060800 + 0x40 * i, 16, 16⟩
def SAR_Gg_CFG_ACT_DCPH (i : Nat) : Field := ⟨0x40060820 + 0x40 * i, 16, 16⟩
def SAR_Gg_OFFS_OFFS (i : Nat) : Field := ⟨0x40060804 + 0x40 * i, 0, 32⟩
def SAR_Gg_OFFS_ACT_OFFS (i : Nat) : Field := ⟨0x40060824 + 0x40 * i, 0, 32⟩
def SAR_Gg_GAIN_GAIN (i : Nat) : Field := ⟨0x40060808 + 0x40 * i, 0, 32⟩
def SAR_Gg_GAIN_ACT_GAIN (i : Nat) : Field := ⟨0x40060828 + 0x40 * i, 0, 32⟩
def SAR_Gg_CTL_CMT (i : Nat) : Field := ⟨0x4006080C + 0x40 * i, 0, 1⟩
def SAR_Gg_CTL_CONFLICT (i : Nat) : Field := ⟨0x4006080C + 0x40 * i, 1, 1⟩
def SAR_Gg_CTL_ZERO (i : Nat) : Field := ⟨0x4006080C + 0x40 * i, 2, 1⟩
def SAR_Gg_VOLT_V (i : Nat) : Field := ⟨0x40060810 + 0x40 * i, 0, 32⟩
def SAR_Gg_XSTAT_XERR (i : Nat) : Field := ⟨0x40060814 + 0x40 * i, 0, 16⟩
def SAR_Gg_XSTAT_CONSEC (i : Nat) : Field := ⟨0x40060814 + 0x40 * i, 16, 4⟩
def SAR_Gg_XSTAT_IMPL (i : Nat) : Field := ⟨0x40060814 + 0x40 * i, 20, 1⟩
def FBK_nn_CFG_MODE (i : Nat) : Field := ⟨0x40070000 + 0x200 * i, 0, 3⟩
def FBK_nn_CFG_ACT_MODE (i : Nat) : Field := ⟨0x40070100 + 0x200 * i, 0, 3⟩
def FBK_nn_CFG_DIR (i : Nat) : Field := ⟨0x40070000 + 0x200 * i, 3, 1⟩
def FBK_nn_CFG_ACT_DIR (i : Nat) : Field := ⟨0x40070100 + 0x200 * i, 3, 1⟩
def FBK_nn_CFG_CPRX (i : Nat) : Field := ⟨0x40070000 + 0x200 * i, 4, 1⟩
def FBK_nn_CFG_ACT_CPRX (i : Nat) : Field := ⟨0x40070100 + 0x200 * i, 4, 1⟩
def FBK_nn_CFG_INTERP (i : Nat) : Field := ⟨0x40070000 + 0x200 * i, 5, 1⟩
def FBK_nn_CFG_ACT_INTERP (i : Nat) : Field := ⟨0x40070100 + 0x200 * i, 5, 1⟩
def FBK_nn_CFG_IMODE (i : Nat) : Field := ⟨0x40070000 + 0x200 * i, 6, 2⟩
def FBK_nn_CFG_ACT_IMODE (i : Nat) : Field := ⟨0x40070100 + 0x200 * i, 6, 2⟩
def FBK_nn_CFG_ICOR (i : Nat) : Field := ⟨0x40070000 + 0x200 * i, 8, 1⟩
def FBK_nn_CFG_ACT_ICOR (i : Nat) : Field := ⟨0x40070100 + 0x200 * i, 8, 1⟩
def FBK_nn_CFG_ZQ (i : Nat) : Field := ⟨0x40070000 + 0x200 * i, 9, 1⟩
def FBK_nn_CFG_ACT_ZQ (i : Nat) : Field := ⟨0x40070100 + 0x200 * i, 9, 1⟩
def FBK_nn_CFG_ALEN (i : Nat) : Field := ⟨0x40070000 + 0x200 * i, 10, 1⟩
def FBK_nn_CFG_ACT_ALEN (i : Nat) : Field := ⟨0x40070100 + 0x200 * i, 10, 1⟩
def FBK_nn_CFG_ALPOL (i : Nat) : Field := ⟨0x40070000 + 0x200 * i, 11, 1⟩
def FBK_nn_CFG_ACT_ALPOL (i : Nat) : Field := ⟨0x40070100 + 0x200 * i, 11, 1⟩
def FBK_nn_CFG_FILT (i : Nat) : Field := ⟨0x40070000 + 0x200 * i, 16, 8⟩
def FBK_nn_CFG_ACT_FILT (i : Nat) : Field := ⟨0x40070100 + 0x200 * i, 16, 8⟩
def FBK_nn_CPR_CPR (i : Nat) : Field := ⟨0x40070004 + 0x200 * i, 0, 32⟩
def FBK_nn_CPR_ACT_CPR (i : Nat) : Field := ⟨0x40070104 + 0x200 * i, 0, 32⟩
def FBK_nn_LIM_IWIN (i : Nat) : Field := ⟨0x40070008 + 0x200 * i, 0, 16⟩
def FBK_nn_LIM_ACT_IWIN (i : Nat) : Field := ⟨0x40070108 + 0x200 * i, 0, 16⟩
def FBK_nn_LIM_QLIM (i : Nat) : Field := ⟨0x40070008 + 0x200 * i, 16, 8⟩
def FBK_nn_LIM_ACT_QLIM (i : Nat) : Field := ⟨0x40070108 + 0x200 * i, 16, 8⟩
def FBK_nn_LIM_SLIM (i : Nat) : Field := ⟨0x40070008 + 0x200 * i, 24, 8⟩
def FBK_nn_LIM_ACT_SLIM (i : Nat) : Field := ⟨0x40070108 + 0x200 * i, 24, 8⟩
def FBK_nn_IREF_IREF (i : Nat) : Field := ⟨0x4007000C + 0x200 * i, 0, 32⟩
def FBK_nn_IREF_ACT_IREF (i : Nat) : Field := ⟨0x4007010C + 0x200 * i, 0, 32⟩
def FBK_nn_SER0_BDIV (i : Nat) : Field := ⟨0x40070010 + 0x200 * i, 0, 13⟩
def FBK_nn_SER0_ACT_BDIV (i : Nat) : Field := ⟨0x40070110 + 0x200 * i, 0, 13⟩
def FBK_nn_SER0_NB (i : Nat) : Field := ⟨0x40070010 + 0x200 * i, 16, 7⟩
def FBK_nn_SER0_ACT_NB (i : Nat) : Field := ⟨0x40070110 + 0x200 * i, 16, 7⟩
def FBK_nn_SER0_GRAY (i : Nat) : Field := ⟨0x40070010 + 0x200 * i, 23, 1⟩
def FBK_nn_SER0_ACT_GRAY (i : Nat) : Field := ⟨0x40070110 + 0x200 * i, 23, 1⟩
def FBK_nn_SER0_PLSB (i : Nat) : Field := ⟨0x40070010 + 0x200 * i, 24, 7⟩
def FBK_nn_SER0_ACT_PLSB (i : Nat) : Field := ⟨0x40070110 + 0x200 * i, 24, 7⟩
def FBK_nn_SER1_PWID (i : Nat) : Field := ⟨0x40070014 + 0x200 * i, 0, 7⟩
def FBK_nn_SER1_ACT_PWID (i : Nat) : Field := ⟨0x40070114 + 0x200 * i, 0, 7⟩
def FBK_nn_SER1_REQB (i : Nat) : Field := ⟨0x40070014 + 0x200 * i, 8, 8⟩
def FBK_nn_SER1_ACT_REQB (i : Nat) : Field := ⟨0x40070114 + 0x200 * i, 8, 8⟩
def FBK_nn_SER1_TURN (i : Nat) : Field := ⟨0x40070014 + 0x200 * i, 16, 8⟩
def FBK_nn_SER1_ACT_TURN (i : Nat) : Field := ⟨0x40070114 + 0x200 * i, 16, 8⟩
def FBK_nn_SER1_TMONO (i : Nat) : Field := ⟨0x40070014 + 0x200 * i, 24, 8⟩
def FBK_nn_SER1_ACT_TMONO (i : Nat) : Field := ⟨0x40070114 + 0x200 * i, 24, 8⟩
def FBK_nn_REQ_REQ (i : Nat) : Field := ⟨0x40070018 + 0x200 * i, 0, 32⟩
def FBK_nn_REQ_ACT_REQ (i : Nat) : Field := ⟨0x40070118 + 0x200 * i, 0, 32⟩
def FBK_nn_CRC_POLY (i : Nat) : Field := ⟨0x4007001C + 0x200 * i, 0, 16⟩
def FBK_nn_CRC_ACT_POLY (i : Nat) : Field := ⟨0x4007011C + 0x200 * i, 0, 16⟩
def FBK_nn_CRC_CLEN (i : Nat) : Field := ⟨0x4007001C + 0x200 * i, 16, 5⟩
def FBK_nn_CRC_ACT_CLEN (i : Nat) : Field := ⟨0x4007011C + 0x200 * i, 16, 5⟩
def FBK_nn_CRC_INIT1 (i : Nat) : Field := ⟨0x4007001C + 0x200 * i, 21, 1⟩
def FBK_nn_CRC_ACT_INIT1 (i : Nat) : Field := ⟨0x4007011C + 0x200 * i, 21, 1⟩
def FBK_nn_CRC_INV (i : Nat) : Field := ⟨0x4007001C + 0x200 * i, 22, 1⟩
def FBK_nn_CRC_ACT_INV (i : Nat) : Field := ⟨0x4007011C + 0x200 * i, 22, 1⟩
def FBK_nn_LAT_ELAT (i : Nat) : Field := ⟨0x40070020 + 0x200 * i, 0, 16⟩
def FBK_nn_LAT_ACT_ELAT (i : Nat) : Field := ⟨0x40070120 + 0x200 * i, 0, 16⟩
def FBK_nn_LAT_LDLY (i : Nat) : Field := ⟨0x40070020 + 0x200 * i, 16, 16⟩
def FBK_nn_LAT_ACT_LDLY (i : Nat) : Field := ⟨0x40070120 + 0x200 * i, 16, 16⟩
def FBK_nn_SC_SCRES (i : Nat) : Field := ⟨0x40070024 + 0x200 * i, 0, 5⟩
def FBK_nn_SC_ACT_SCRES (i : Nat) : Field := ⟨0x40070124 + 0x200 * i, 0, 5⟩
def FBK_nn_SC_AMIN (i : Nat) : Field := ⟨0x40070024 + 0x200 * i, 8, 8⟩
def FBK_nn_SC_ACT_AMIN (i : Nat) : Field := ⟨0x40070124 + 0x200 * i, 8, 8⟩
def FBK_nn_SC_AMAX (i : Nat) : Field := ⟨0x40070024 + 0x200 * i, 16, 8⟩
def FBK_nn_SC_ACT_AMAX (i : Nat) : Field := ⟨0x40070124 + 0x200 * i, 16, 8⟩
def FBK_nn_SC_ALIM (i : Nat) : Field := ⟨0x40070024 + 0x200 * i, 24, 4⟩
def FBK_nn_SC_ACT_ALIM (i : Nat) : Field := ⟨0x40070124 + 0x200 * i, 24, 4⟩
def FBK_nn_SCOFF_SOFF (i : Nat) : Field := ⟨0x40070028 + 0x200 * i, 0, 16⟩
def FBK_nn_SCOFF_ACT_SOFF (i : Nat) : Field := ⟨0x40070128 + 0x200 * i, 0, 16⟩
def FBK_nn_SCOFF_COFF (i : Nat) : Field := ⟨0x40070028 + 0x200 * i, 16, 16⟩
def FBK_nn_SCOFF_ACT_COFF (i : Nat) : Field := ⟨0x40070128 + 0x200 * i, 16, 16⟩
def FBK_nn_CTL_CMT (i : Nat) : Field := ⟨0x4007002C + 0x200 * i, 0, 1⟩
def FBK_nn_CTL_CONFLICT (i : Nat) : Field := ⟨0x4007002C + 0x200 * i, 1, 1⟩
def FBK_nn_CTL_ZERO (i : Nat) : Field := ⟨0x4007002C + 0x200 * i, 2, 1⟩
def FBK_nn_POS_LO_V (i : Nat) : Field := ⟨0x40070040 + 0x200 * i, 0, 32⟩
def FBK_nn_POS_HI_V (i : Nat) : Field := ⟨0x40070044 + 0x200 * i, 0, 32⟩
def FBK_nn_POS_FRAC_V (i : Nat) : Field := ⟨0x40070048 + 0x200 * i, 0, 32⟩
def FBK_nn_VEL_LO_V (i : Nat) : Field := ⟨0x4007004C + 0x200 * i, 0, 32⟩
def FBK_nn_VEL_HI_V (i : Nat) : Field := ⟨0x40070050 + 0x200 * i, 0, 32⟩
def FBK_nn_REV_V (i : Nat) : Field := ⟨0x40070054 + 0x200 * i, 0, 32⟩
def FBK_nn_STAT_UNC (i : Nat) : Field := ⟨0x40070058 + 0x200 * i, 0, 1⟩
def FBK_nn_STAT_IMIS (i : Nat) : Field := ⟨0x40070058 + 0x200 * i, 1, 1⟩
def FBK_nn_STAT_ALARM (i : Nat) : Field := ⟨0x40070058 + 0x200 * i, 2, 1⟩
def FBK_nn_STAT_AMPL (i : Nat) : Field := ⟨0x40070058 + 0x200 * i, 3, 1⟩
def FBK_nn_STAT_QUAD (i : Nat) : Field := ⟨0x40070058 + 0x200 * i, 4, 1⟩
def FBK_nn_STAT_EXTRAP (i : Nat) : Field := ⟨0x40070058 + 0x200 * i, 5, 1⟩
def FBK_nn_STAT_ERUN (i : Nat) : Field := ⟨0x40070058 + 0x200 * i, 16, 8⟩
def FBK_nn_STAT_CONSEC (i : Nat) : Field := ⟨0x40070058 + 0x200 * i, 24, 8⟩
def FBK_nn_ERRC_QERR (i : Nat) : Field := ⟨0x4007005C + 0x200 * i, 0, 16⟩
def FBK_nn_ERRC_SERR (i : Nat) : Field := ⟨0x4007005C + 0x200 * i, 16, 16⟩
def FBK_nn_IDEV_D (i : Nat) : Field := ⟨0x40070060 + 0x200 * i, 0, 32⟩
def FBK_PRBp_CFG_EDGE (i : Nat) : Field := ⟨0x40073000 + 0x40 * i, 0, 2⟩
def FBK_PRBp_CFG_FILT (i : Nat) : Field := ⟨0x40073000 + 0x40 * i, 8, 8⟩
def FBK_PRBp_CFG_PPORT (i : Nat) : Field := ⟨0x40073000 + 0x40 * i, 16, 5⟩
def FBK_PRBp_MASK_MASK (i : Nat) : Field := ⟨0x40073004 + 0x40 * i, 0, 24⟩
def FBK_PRBp_TS_LO_V (i : Nat) : Field := ⟨0x40073008 + 0x40 * i, 0, 32⟩
def FBK_PRBp_TS_HI_V (i : Nat) : Field := ⟨0x4007300C + 0x40 * i, 0, 32⟩
def FBK_PRBp_POS_LO_V (i : Nat) : Field := ⟨0x40073010 + 0x40 * i, 0, 32⟩
def FBK_PRBp_POS_HI_V (i : Nat) : Field := ⟨0x40073014 + 0x40 * i, 0, 32⟩
def FBK_PRBp_POS_FRAC_V (i : Nat) : Field := ⟨0x40073018 + 0x40 * i, 0, 32⟩
def FBK_PRBp_STAT_NEW (i : Nat) : Field := ⟨0x4007301C + 0x40 * i, 0, 1⟩
def FBK_PRBp_STAT_OVR (i : Nat) : Field := ⟨0x4007301C + 0x40 * i, 1, 1⟩
def FBK_PRBp_STAT_LEVEL (i : Nat) : Field := ⟨0x4007301C + 0x40 * i, 2, 1⟩
def FBK_PRBp_STAT_LAST (i : Nat) : Field := ⟨0x4007301C + 0x40 * i, 3, 1⟩
def FBK_EXCm_CFG_EXHP (i : Nat) : Field := ⟨0x40073400 + 0x10 * i, 0, 17⟩
def FBK_EXCm_CFG_EN (i : Nat) : Field := ⟨0x40073400 + 0x10 * i, 17, 1⟩
def FBK_EXCm_PH_EXPH (i : Nat) : Field := ⟨0x40073404 + 0x10 * i, 0, 17⟩
def FBK_EXCm_DLY_EXDLY (i : Nat) : Field := ⟨0x40073408 + 0x10 * i, 0, 16⟩
def FBK_CMDc_CFG_MODE (i : Nat) : Field := ⟨0x40073800 + 0x20 * i, 0, 2⟩
def FBK_CMDc_CFG_LANE (i : Nat) : Field := ⟨0x40073800 + 0x20 * i, 4, 5⟩
def FBK_CMDc_CFG_FILT (i : Nat) : Field := ⟨0x40073800 + 0x20 * i, 16, 8⟩
def FBK_CMDc_CFG_TMO (i : Nat) : Field := ⟨0x40073800 + 0x20 * i, 24, 8⟩
def FBK_CMDc_OFFDB_OFF (i : Nat) : Field := ⟨0x40073804 + 0x20 * i, 0, 16⟩
def FBK_CMDc_OFFDB_DB (i : Nat) : Field := ⟨0x40073804 + 0x20 * i, 16, 16⟩
def FBK_CMDc_SCALE_SCALE (i : Nat) : Field := ⟨0x40073808 + 0x20 * i, 0, 32⟩
def FBK_CMDc_FSPAN_FSPAN (i : Nat) : Field := ⟨0x4007380C + 0x20 * i, 0, 32⟩
def FBK_CMDc_RAW_X (i : Nat) : Field := ⟨0x40073810 + 0x20 * i, 0, 16⟩
def FBK_CMDc_RAW_LOST (i : Nat) : Field := ⟨0x40073810 + 0x20 * i, 16, 1⟩
def FBK_CMDc_VAL_CMD (i : Nat) : Field := ⟨0x40073814 + 0x20 * i, 0, 32⟩
def STR_s_CFG_EN (i : Nat) : Field := ⟨0x40080000 + 0x100 * i, 0, 1⟩
def STR_s_CFG_ACT_EN (i : Nat) : Field := ⟨0x40080080 + 0x100 * i, 0, 1⟩
def STR_s_CFG_FORM (i : Nat) : Field := ⟨0x40080000 + 0x100 * i, 1, 2⟩
def STR_s_CFG_ACT_FORM (i : Nat) : Field := ⟨0x40080080 + 0x100 * i, 1, 2⟩
def STR_s_CFG_FWDONLY (i : Nat) : Field := ⟨0x40080000 + 0x100 * i, 3, 1⟩
def STR_s_CFG_ACT_FWDONLY (i : Nat) : Field := ⟨0x40080080 + 0x100 * i, 3, 1⟩
def STR_s_CFG_POL (i : Nat) : Field := ⟨0x40080000 + 0x100 * i, 4, 1⟩
def STR_s_CFG_ACT_POL (i : Nat) : Field := ⟨0x40080080 + 0x100 * i, 4, 1⟩
def STR_s_CFG_SRC (i : Nat) : Field := ⟨0x40080000 + 0x100 * i, 8, 5⟩
def STR_s_CFG_ACT_SRC (i : Nat) : Field := ⟨0x40080080 + 0x100 * i, 8, 5⟩
def STR_s_CFG_PW (i : Nat) : Field := ⟨0x40080000 + 0x100 * i, 16, 8⟩
def STR_s_CFG_ACT_PW (i : Nat) : Field := ⟨0x40080080 + 0x100 * i, 16, 8⟩
def STR_s_N_N (i : Nat) : Field := ⟨0x40080004 + 0x100 * i, 0, 32⟩
def STR_s_N_ACT_N (i : Nat) : Field := ⟨0x40080084 + 0x100 * i, 0, 32⟩
def STR_s_M_M (i : Nat) : Field := ⟨0x40080008 + 0x100 * i, 0, 32⟩
def STR_s_M_ACT_M (i : Nat) : Field := ⟨0x40080088 + 0x100 * i, 0, 32⟩
def STR_s_ORG_LO_ORG (i : Nat) : Field := ⟨0x4008000C + 0x100 * i, 0, 32⟩
def STR_s_ORG_LO_ACT_ORG (i : Nat) : Field := ⟨0x4008008C + 0x100 * i, 0, 32⟩
def STR_s_ORG_HI_ORG (i : Nat) : Field := ⟨0x40080010 + 0x100 * i, 0, 32⟩
def STR_s_ORG_HI_ACT_ORG (i : Nat) : Field := ⟨0x40080090 + 0x100 * i, 0, 32⟩
def STR_s_ORG_FRAC_FRAC (i : Nat) : Field := ⟨0x40080014 + 0x100 * i, 0, 32⟩
def STR_s_ORG_FRAC_ACT_FRAC (i : Nat) : Field := ⟨0x40080094 + 0x100 * i, 0, 32⟩
def STR_s_SHIFT_SHIFT (i : Nat) : Field := ⟨0x40080018 + 0x100 * i, 0, 32⟩
def STR_s_SHIFT_ACT_SHIFT (i : Nat) : Field := ⟨0x40080098 + 0x100 * i, 0, 32⟩
def STR_s_CTL_CMT (i : Nat) : Field := ⟨0x4008001C + 0x100 * i, 0, 1⟩
def STR_s_CTL_CONFLICT (i : Nat) : Field := ⟨0x4008001C + 0x100 * i, 1, 1⟩
def STR_s_CTL_ZERO (i : Nat) : Field := ⟨0x4008001C + 0x100 * i, 2, 1⟩
def STR_s_STAT_RUN (i : Nat) : Field := ⟨0x40080020 + 0x100 * i, 0, 1⟩
def STR_s_STAT_LAG (i : Nat) : Field := ⟨0x40080020 + 0x100 * i, 1, 1⟩
def STR_s_STAT_LOST (i : Nat) : Field := ⟨0x40080020 + 0x100 * i, 2, 1⟩
def STR_s_STAT_SRC_UNC (i : Nat) : Field := ⟨0x40080020 + 0x100 * i, 3, 1⟩
def STR_s_STAT_EXTRAP (i : Nat) : Field := ⟨0x40080020 + 0x100 * i, 4, 1⟩
def STR_s_STAT_QDEPTH (i : Nat) : Field := ⟨0x40080020 + 0x100 * i, 8, 5⟩
def STR_s_UNITS_U (i : Nat) : Field := ⟨0x40080024 + 0x100 * i, 0, 32⟩
def STR_s_LOSTC_CNT (i : Nat) : Field := ⟨0x40080028 + 0x100 * i, 0, 32⟩
def TRJ_AXaa_CFG_TDIV (i : Nat) : Field := ⟨0x40090000 + 0x100 * i, 0, 7⟩
def TRJ_AXaa_CFG_ACT_TDIV (i : Nat) : Field := ⟨0x40090080 + 0x100 * i, 0, 7⟩
def TRJ_AXaa_CFG_PUB (i : Nat) : Field := ⟨0x40090000 + 0x100 * i, 8, 1⟩
def TRJ_AXaa_CFG_ACT_PUB (i : Nat) : Field := ⟨0x40090080 + 0x100 * i, 8, 1⟩
def TRJ_AXaa_CFG_PUBSRC (i : Nat) : Field := ⟨0x40090000 + 0x100 * i, 9, 1⟩
def TRJ_AXaa_CFG_ACT_PUBSRC (i : Nat) : Field := ⟨0x40090080 + 0x100 * i, 9, 1⟩
def TRJ_AXaa_CFG_PADDR (i : Nat) : Field := ⟨0x40090000 + 0x100 * i, 16, 8⟩
def TRJ_AXaa_CFG_ACT_PADDR (i : Nat) : Field := ⟨0x40090080 + 0x100 * i, 16, 8⟩
def TRJ_AXaa_TPER_TPER (i : Nat) : Field := ⟨0x40090004 + 0x100 * i, 0, 32⟩
def TRJ_AXaa_TPER_ACT_TPER (i : Nat) : Field := ⟨0x40090084 + 0x100 * i, 0, 32⟩
def TRJ_AXaa_TPH_TPH (i : Nat) : Field := ⟨0x40090008 + 0x100 * i, 0, 32⟩
def TRJ_AXaa_TPH_ACT_TPH (i : Nat) : Field := ⟨0x40090088 + 0x100 * i, 0, 32⟩
def TRJ_AXaa_MAGE_MAXAGE (i : Nat) : Field := ⟨0x4009000C + 0x100 * i, 0, 16⟩
def TRJ_AXaa_MAGE_ACT_MAXAGE (i : Nat) : Field := ⟨0x4009008C + 0x100 * i, 0, 16⟩
def TRJ_AXaa_MAGE_LOSTAGE (i : Nat) : Field := ⟨0x4009000C + 0x100 * i, 16, 16⟩
def TRJ_AXaa_MAGE_ACT_LOSTAGE (i : Nat) : Field := ⟨0x4009008C + 0x100 * i, 16, 16⟩
def TRJ_AXaa_VMAX_LO_V (i : Nat) : Field := ⟨0x40090010 + 0x100 * i, 0, 32⟩
def TRJ_AXaa_VMAX_LO_ACT_V (i : Nat) : Field := ⟨0x40090090 + 0x100 * i, 0, 32⟩
def TRJ_AXaa_VMAX_HI_V (i : Nat) : Field := ⟨0x40090014 + 0x100 * i, 0, 32⟩
def TRJ_AXaa_VMAX_HI_ACT_V (i : Nat) : Field := ⟨0x40090094 + 0x100 * i, 0, 32⟩
def TRJ_AXaa_AMAX_LO_A (i : Nat) : Field := ⟨0x40090018 + 0x100 * i, 0, 32⟩
def TRJ_AXaa_AMAX_LO_ACT_A (i : Nat) : Field := ⟨0x40090098 + 0x100 * i, 0, 32⟩
def TRJ_AXaa_AMAX_HI_A (i : Nat) : Field := ⟨0x4009001C + 0x100 * i, 0, 32⟩
def TRJ_AXaa_AMAX_HI_ACT_A (i : Nat) : Field := ⟨0x4009009C + 0x100 * i, 0, 32⟩
def TRJ_AXaa_DMAX_LO_A (i : Nat) : Field := ⟨0x40090020 + 0x100 * i, 0, 32⟩
def TRJ_AXaa_DMAX_LO_ACT_A (i : Nat) : Field := ⟨0x400900A0 + 0x100 * i, 0, 32⟩
def TRJ_AXaa_DMAX_HI_A (i : Nat) : Field := ⟨0x40090024 + 0x100 * i, 0, 32⟩
def TRJ_AXaa_DMAX_HI_ACT_A (i : Nat) : Field := ⟨0x400900A4 + 0x100 * i, 0, 32⟩
def TRJ_AXaa_JMAX_LO_J (i : Nat) : Field := ⟨0x40090028 + 0x100 * i, 0, 32⟩
def TRJ_AXaa_JMAX_LO_ACT_J (i : Nat) : Field := ⟨0x400900A8 + 0x100 * i, 0, 32⟩
def TRJ_AXaa_JMAX_HI_J (i : Nat) : Field := ⟨0x4009002C + 0x100 * i, 0, 32⟩
def TRJ_AXaa_JMAX_HI_ACT_J (i : Nat) : Field := ⟨0x400900AC + 0x100 * i, 0, 32⟩
def TRJ_AXaa_SDMAX_LO_A (i : Nat) : Field := ⟨0x40090030 + 0x100 * i, 0, 32⟩
def TRJ_AXaa_SDMAX_LO_ACT_A (i : Nat) : Field := ⟨0x400900B0 + 0x100 * i, 0, 32⟩
def TRJ_AXaa_SDMAX_HI_A (i : Nat) : Field := ⟨0x40090034 + 0x100 * i, 0, 32⟩
def TRJ_AXaa_SDMAX_HI_ACT_A (i : Nat) : Field := ⟨0x400900B4 + 0x100 * i, 0, 32⟩
def TRJ_AXaa_SJMAX_LO_J (i : Nat) : Field := ⟨0x40090038 + 0x100 * i, 0, 32⟩
def TRJ_AXaa_SJMAX_LO_ACT_J (i : Nat) : Field := ⟨0x400900B8 + 0x100 * i, 0, 32⟩
def TRJ_AXaa_SJMAX_HI_J (i : Nat) : Field := ⟨0x4009003C + 0x100 * i, 0, 32⟩
def TRJ_AXaa_SJMAX_HI_ACT_J (i : Nat) : Field := ⟨0x400900BC + 0x100 * i, 0, 32⟩
def TRJ_AXaa_CTL_CMT (i : Nat) : Field := ⟨0x40090040 + 0x100 * i, 0, 1⟩
def TRJ_AXaa_CTL_CONFLICT (i : Nat) : Field := ⟨0x40090040 + 0x100 * i, 1, 1⟩
def TRJ_AXaa_CTL_ZERO (i : Nat) : Field := ⟨0x40090040 + 0x100 * i, 2, 1⟩
def TRJ_AXaa_CTL_OVERLOAD (i : Nat) : Field := ⟨0x40090040 + 0x100 * i, 3, 1⟩
def TRJ_AXaa_STAT_MODE (i : Nat) : Field := ⟨0x40090044 + 0x100 * i, 0, 3⟩
def TRJ_AXaa_STAT_SYNC (i : Nat) : Field := ⟨0x40090044 + 0x100 * i, 3, 1⟩
def TRJ_AXaa_STAT_SP_LATE (i : Nat) : Field := ⟨0x40090044 + 0x100 * i, 4, 1⟩
def TRJ_AXaa_STAT_LIMRED (i : Nat) : Field := ⟨0x40090044 + 0x100 * i, 5, 1⟩
def TRJ_AXaa_STAT_MAGED (i : Nat) : Field := ⟨0x40090044 + 0x100 * i, 6, 1⟩
def TRJ_AXaa_STAT_MEPOCH (i : Nat) : Field := ⟨0x40090044 + 0x100 * i, 7, 1⟩
def TRJ_AXaa_STAT_CAMOUT (i : Nat) : Field := ⟨0x40090044 + 0x100 * i, 8, 1⟩
def TRJ_AXaa_STAT_OVERLIM (i : Nat) : Field := ⟨0x40090044 + 0x100 * i, 9, 1⟩
def TRJ_AXaa_STAT_REGEN (i : Nat) : Field := ⟨0x40090044 + 0x100 * i, 10, 1⟩
def TRJ_AXaa_STAT_DISC (i : Nat) : Field := ⟨0x40090044 + 0x100 * i, 11, 1⟩
def TRJ_AXaa_MSRC_TYPE (i : Nat) : Field := ⟨0x40090048 + 0x100 * i, 0, 3⟩
def TRJ_AXaa_MSRC_SLOT (i : Nat) : Field := ⟨0x40090048 + 0x100 * i, 8, 6⟩
def TRJ_AXaa_MSRC_ADDR (i : Nat) : Field := ⟨0x40090048 + 0x100 * i, 16, 8⟩
def TRJ_AXaa_MSRC_TABLE (i : Nat) : Field := ⟨0x40090048 + 0x100 * i, 24, 4⟩
def TRJ_AXaa_GN_N (i : Nat) : Field := ⟨0x4009004C + 0x100 * i, 0, 32⟩
def TRJ_AXaa_GM_M (i : Nat) : Field := ⟨0x40090050 + 0x100 * i, 0, 32⟩
def TRJ_AXaa_EPSTALE_CNT (i : Nat) : Field := ⟨0x40090054 + 0x100 * i, 0, 32⟩
def TRJ_AXaa_SP_LO_V (i : Nat) : Field := ⟨0x40090060 + 0x100 * i, 0, 32⟩
def TRJ_AXaa_SP_HI_V (i : Nat) : Field := ⟨0x40090064 + 0x100 * i, 0, 32⟩
def TRJ_AXaa_SP_FRAC_V (i : Nat) : Field := ⟨0x40090068 + 0x100 * i, 0, 32⟩
def TRJ_AXaa_SV_LO_V (i : Nat) : Field := ⟨0x4009006C + 0x100 * i, 0, 32⟩
def TRJ_AXaa_SV_HI_V (i : Nat) : Field := ⟨0x40090070 + 0x100 * i, 0, 32⟩
def TRJ_AXaa_TGT_LO_V (i : Nat) : Field := ⟨0x40090074 + 0x100 * i, 0, 32⟩
def TRJ_AXaa_TGT_HI_V (i : Nat) : Field := ⟨0x40090078 + 0x100 * i, 0, 32⟩
def TRJ_CAMDIR_md_LEN (i : Nat) (j : Nat) : Field := ⟨0x40098000 + 0x100 * i + 0x4 * j, 0, 13⟩
def TRJ_CAMDIR_md_TYPE (i : Nat) (j : Nat) : Field := ⟨0x40098000 + 0x100 * i + 0x4 * j, 13, 1⟩
def TRJ_CAMDIR_md_END (i : Nat) (j : Nat) : Field := ⟨0x40098000 + 0x100 * i + 0x4 * j, 14, 1⟩
def TRJ_CAMDIR_md_USE (i : Nat) (j : Nat) : Field := ⟨0x40098000 + 0x100 * i + 0x4 * j, 15, 1⟩
def LPB_bb_CFG_LAW (i : Nat) : Field := ⟨0x400A0000 + 0x400 * i, 0, 1⟩
def LPB_bb_CFG_ACT_LAW (i : Nat) : Field := ⟨0x400A0200 + 0x400 * i, 0, 1⟩
def LPB_bb_CFG_DIR (i : Nat) : Field := ⟨0x400A0000 + 0x400 * i, 1, 1⟩
def LPB_bb_CFG_ACT_DIR (i : Nat) : Field := ⟨0x400A0200 + 0x400 * i, 1, 1⟩
def LPB_bb_CFG_DTYPE (i : Nat) : Field := ⟨0x400A0000 + 0x400 * i, 2, 3⟩
def LPB_bb_CFG_ACT_DTYPE (i : Nat) : Field := ⟨0x400A0200 + 0x400 * i, 2, 3⟩
def LPB_bb_CFG_SPSRC (i : Nat) : Field := ⟨0x400A0000 + 0x400 * i, 5, 1⟩
def LPB_bb_CFG_ACT_SPSRC (i : Nat) : Field := ⟨0x400A0200 + 0x400 * i, 5, 1⟩
def LPB_bb_DST_UNIT (i : Nat) : Field := ⟨0x400A0004 + 0x400 * i, 0, 8⟩
def LPB_bb_DST_ACT_UNIT (i : Nat) : Field := ⟨0x400A0204 + 0x400 * i, 0, 8⟩
def LPB_bb_DST_ADDR (i : Nat) : Field := ⟨0x400A0004 + 0x400 * i, 8, 8⟩
def LPB_bb_DST_ACT_ADDR (i : Nat) : Field := ⟨0x400A0204 + 0x400 * i, 8, 8⟩
def LPB_bb_PSRC_TYPE (i : Nat) : Field := ⟨0x400A0008 + 0x400 * i, 0, 3⟩
def LPB_bb_PSRC_ACT_TYPE (i : Nat) : Field := ⟨0x400A0208 + 0x400 * i, 0, 3⟩
def LPB_bb_PSRC_INST (i : Nat) : Field := ⟨0x400A0008 + 0x400 * i, 8, 6⟩
def LPB_bb_PSRC_ACT_INST (i : Nat) : Field := ⟨0x400A0208 + 0x400 * i, 8, 6⟩
def LPB_bb_PSRC_PVAGE (i : Nat) : Field := ⟨0x400A0008 + 0x400 * i, 16, 16⟩
def LPB_bb_PSRC_ACT_PVAGE (i : Nat) : Field := ⟨0x400A0208 + 0x400 * i, 16, 16⟩
def LPB_bb_ZSRC_TYPE (i : Nat) : Field := ⟨0x400A000C + 0x400 * i, 0, 3⟩
def LPB_bb_ZSRC_ACT_TYPE (i : Nat) : Field := ⟨0x400A020C + 0x400 * i, 0, 3⟩
def LPB_bb_ZSRC_INST (i : Nat) : Field := ⟨0x400A000C + 0x400 * i, 8, 6⟩
def LPB_bb_ZSRC_ACT_INST (i : Nat) : Field := ⟨0x400A020C + 0x400 * i, 8, 6⟩
def LPB_bb_ZSRC_PVAGE (i : Nat) : Field := ⟨0x400A000C + 0x400 * i, 16, 16⟩
def LPB_bb_ZSRC_ACT_PVAGE (i : Nat) : Field := ⟨0x400A020C + 0x400 * i, 16, 16⟩
def LPB_bb_LPER_LPER (i : Nat) : Field := ⟨0x400A0010 + 0x400 * i, 0, 32⟩
def LPB_bb_LPER_ACT_LPER (i : Nat) : Field := ⟨0x400A0210 + 0x400 * i, 0, 32⟩
def LPB_bb_LPH_LPH (i : Nat) : Field := ⟨0x400A0014 + 0x400 * i, 0, 32⟩
def LPB_bb_LPH_ACT_LPH (i : Nat) : Field := ⟨0x400A0214 + 0x400 * i, 0, 32⟩
def LPB_bb_POFF_LO_POFF (i : Nat) : Field := ⟨0x400A0018 + 0x400 * i, 0, 32⟩
def LPB_bb_POFF_LO_ACT_POFF (i : Nat) : Field := ⟨0x400A0218 + 0x400 * i, 0, 32⟩
def LPB_bb_POFF_HI_POFF (i : Nat) : Field := ⟨0x400A001C + 0x400 * i, 0, 32⟩
def LPB_bb_POFF_HI_ACT_POFF (i : Nat) : Field := ⟨0x400A021C + 0x400 * i, 0, 32⟩
def LPB_bb_PGAIN_G (i : Nat) : Field := ⟨0x400A0020 + 0x400 * i, 0, 32⟩
def LPB_bb_PGAIN_ACT_G (i : Nat) : Field := ⟨0x400A0220 + 0x400 * i, 0, 32⟩
def LPB_bb_PITCH_P (i : Nat) : Field := ⟨0x400A0024 + 0x400 * i, 0, 32⟩
def LPB_bb_PITCH_ACT_P (i : Nat) : Field := ⟨0x400A0224 + 0x400 * i, 0, 32⟩
def LPB_bb_ZOFF_Z (i : Nat) : Field := ⟨0x400A0028 + 0x400 * i, 0, 32⟩
def LPB_bb_ZOFF_ACT_Z (i : Nat) : Field := ⟨0x400A0228 + 0x400 * i, 0, 32⟩
def LPB_bb_ZGAIN_G (i : Nat) : Field := ⟨0x400A002C + 0x400 * i, 0, 32⟩
def LPB_bb_ZGAIN_ACT_G (i : Nat) : Field := ⟨0x400A022C + 0x400 * i, 0, 32⟩
def LPB_bb_SP_V (i : Nat) : Field := ⟨0x400A0030 + 0x400 * i, 0, 32⟩
def LPB_bb_SP_ACT_V (i : Nat) : Field := ⟨0x400A0230 + 0x400 * i, 0, 32⟩
def LPB_bb_SPRATE_V (i : Nat) : Field := ⟨0x400A0034 + 0x400 * i, 0, 32⟩
def LPB_bb_SPRATE_ACT_V (i : Nat) : Field := ⟨0x400A0234 + 0x400 * i, 0, 32⟩
def LPB_bb_MOUT_V (i : Nat) : Field := ⟨0x400A0038 + 0x400 * i, 0, 32⟩
def LPB_bb_MOUT_ACT_V (i : Nat) : Field := ⟨0x400A0238 + 0x400 * i, 0, 32⟩
def LPB_bb_FFWD_V (i : Nat) : Field := ⟨0x400A003C + 0x400 * i, 0, 32⟩
def LPB_bb_FFWD_ACT_V (i : Nat) : Field := ⟨0x400A023C + 0x400 * i, 0, 32⟩
def LPB_bb_OMIN_V (i : Nat) : Field := ⟨0x400A0040 + 0x400 * i, 0, 32⟩
def LPB_bb_OMIN_ACT_V (i : Nat) : Field := ⟨0x400A0240 + 0x400 * i, 0, 32⟩
def LPB_bb_OMAX_V (i : Nat) : Field := ⟨0x400A0044 + 0x400 * i, 0, 32⟩
def LPB_bb_OMAX_ACT_V (i : Nat) : Field := ⟨0x400A0244 + 0x400 * i, 0, 32⟩
def LPB_bb_OSLEW_V (i : Nat) : Field := ⟨0x400A0048 + 0x400 * i, 0, 32⟩
def LPB_bb_OSLEW_ACT_V (i : Nat) : Field := ⟨0x400A0248 + 0x400 * i, 0, 32⟩
def LPB_bb_OSCALE_V (i : Nat) : Field := ⟨0x400A004C + 0x400 * i, 0, 32⟩
def LPB_bb_OSCALE_ACT_V (i : Nat) : Field := ⟨0x400A024C + 0x400 * i, 0, 32⟩
def LPB_bb_DPOLE_V (i : Nat) : Field := ⟨0x400A0050 + 0x400 * i, 0, 32⟩
def LPB_bb_DPOLE_ACT_V (i : Nat) : Field := ⟨0x400A0250 + 0x400 * i, 0, 32⟩
def LPB_bb_BW_V (i : Nat) : Field := ⟨0x400A0054 + 0x400 * i, 0, 32⟩
def LPB_bb_BW_ACT_V (i : Nat) : Field := ⟨0x400A0254 + 0x400 * i, 0, 32⟩
def LPB_bb_HYS_V (i : Nat) : Field := ⟨0x400A0058 + 0x400 * i, 0, 32⟩
def LPB_bb_HYS_ACT_V (i : Nat) : Field := ⟨0x400A0258 + 0x400 * i, 0, 32⟩
def LPB_bb_PVLIM_V (i : Nat) : Field := ⟨0x400A005C + 0x400 * i, 0, 32⟩
def LPB_bb_PVLIM_ACT_V (i : Nat) : Field := ⟨0x400A025C + 0x400 * i, 0, 32⟩
def LPB_bb_Bi_B (i : Nat) (j : Nat) : Field := ⟨0x400A0060 + 0x400 * i + 0x4 * j, 0, 32⟩
def LPB_bb_Bi_ACT_B (i : Nat) (j : Nat) : Field := ⟨0x400A0260 + 0x400 * i + 0x4 * j, 0, 32⟩
def LPB_bb_SCHED_NREG (i : Nat) : Field := ⟨0x400A007C + 0x400 * i, 0, 4⟩
def LPB_bb_SCHED_ACT_NREG (i : Nat) : Field := ⟨0x400A027C + 0x400 * i, 0, 4⟩
def LPB_bb_KPr_K (i : Nat) (j : Nat) : Field := ⟨0x400A0080 + 0x400 * i + 0x10 * j, 0, 32⟩
def LPB_bb_KPr_ACT_K (i : Nat) (j : Nat) : Field := ⟨0x400A0280 + 0x400 * i + 0x10 * j, 0, 32⟩
def LPB_bb_KIr_K (i : Nat) (j : Nat) : Field := ⟨0x400A0084 + 0x400 * i + 0x10 * j, 0, 32⟩
def LPB_bb_KIr_ACT_K (i : Nat) (j : Nat) : Field := ⟨0x400A0284 + 0x400 * i + 0x10 * j, 0, 32⟩
def LPB_bb_KDr_K (i : Nat) (j : Nat) : Field := ⟨0x400A0088 + 0x400 * i + 0x10 * j, 0, 32⟩
def LPB_bb_KDr_ACT_K (i : Nat) (j : Nat) : Field := ⟨0x400A0288 + 0x400 * i + 0x10 * j, 0, 32⟩
def LPB_bb_CTL_CMT (i : Nat) : Field := ⟨0x400A0100 + 0x400 * i, 0, 1⟩
def LPB_bb_CTL_CONFLICT (i : Nat) : Field := ⟨0x400A0100 + 0x400 * i, 1, 1⟩
def LPB_bb_CTL_ZERO (i : Nat) : Field := ⟨0x400A0100 + 0x400 * i, 2, 1⟩
def LPB_bb_STAT_MODE (i : Nat) : Field := ⟨0x400A0104 + 0x400 * i, 0, 2⟩
def LPB_bb_STAT_REGION (i : Nat) : Field := ⟨0x400A0104 + 0x400 * i, 4, 3⟩
def LPB_bb_STAT_PVBAD (i : Nat) : Field := ⟨0x400A0104 + 0x400 * i, 7, 1⟩
def LPB_bb_STAT_ZBAD (i : Nat) : Field := ⟨0x400A0104 + 0x400 * i, 8, 1⟩
def LPB_bb_STAT_DHOLD (i : Nat) : Field := ⟨0x400A0104 + 0x400 * i, 9, 1⟩
def LPB_bb_STAT_OSAT (i : Nat) : Field := ⟨0x400A0104 + 0x400 * i, 10, 1⟩
def LPB_bb_STAT_SLEW (i : Nat) : Field := ⟨0x400A0104 + 0x400 * i, 11, 1⟩
def LPB_bb_STAT_RAMP (i : Nat) : Field := ⟨0x400A0104 + 0x400 * i, 12, 1⟩
def LPB_bb_STAT_LATE (i : Nat) : Field := ⟨0x400A0104 + 0x400 * i, 13, 1⟩
def LPB_bb_STAT_CONSEC (i : Nat) : Field := ⟨0x400A0104 + 0x400 * i, 16, 8⟩
def LPB_bb_PV_VAL (i : Nat) : Field := ⟨0x400A0108 + 0x400 * i, 0, 32⟩
def LPB_bb_SPEFF_VAL (i : Nat) : Field := ⟨0x400A010C + 0x400 * i, 0, 32⟩
def LPB_bb_OUT_VAL (i : Nat) : Field := ⟨0x400A0110 + 0x400 * i, 0, 32⟩
def LPB_bb_INTEG_VAL (i : Nat) : Field := ⟨0x400A0114 + 0x400 * i, 0, 32⟩
def LPB_bb_Z_VAL (i : Nat) : Field := ⟨0x400A0118 + 0x400 * i, 0, 32⟩
def LPB_bb_PVH_VAL (i : Nat) : Field := ⟨0x400A0120 + 0x400 * i, 0, 32⟩
def LPB_bb_ZH_VAL (i : Nat) : Field := ⟨0x400A0124 + 0x400 * i, 0, 32⟩
def CAP_Rr_CFG_MODE (i : Nat) : Field := ⟨0x400B0000 + 0x40 * i, 0, 2⟩
def CAP_Rr_CFG_ACT_MODE (i : Nat) : Field := ⟨0x400B1000 + 0x40 * i, 0, 2⟩
def CAP_Rr_CFG_NSEGLOG (i : Nat) : Field := ⟨0x400B0000 + 0x40 * i, 2, 3⟩
def CAP_Rr_CFG_ACT_NSEGLOG (i : Nat) : Field := ⟨0x400B1000 + 0x40 * i, 2, 3⟩
def CAP_Rr_CFG_TMASK (i : Nat) : Field := ⟨0x400B0000 + 0x40 * i, 8, 8⟩
def CAP_Rr_CFG_ACT_TMASK (i : Nat) : Field := ⟨0x400B1000 + 0x40 * i, 8, 8⟩
def CAP_Rr_CFG_RLAG (i : Nat) : Field := ⟨0x400B0000 + 0x40 * i, 16, 10⟩
def CAP_Rr_CFG_ACT_RLAG (i : Nat) : Field := ⟨0x400B1000 + 0x40 * i, 16, 10⟩
def CAP_Rr_SPER_SPER (i : Nat) : Field := ⟨0x400B0004 + 0x40 * i, 0, 32⟩
def CAP_Rr_SPER_ACT_SPER (i : Nat) : Field := ⟨0x400B1004 + 0x40 * i, 0, 32⟩
def CAP_Rr_SPH_SPH (i : Nat) : Field := ⟨0x400B0008 + 0x40 * i, 0, 32⟩
def CAP_Rr_SPH_ACT_SPH (i : Nat) : Field := ⟨0x400B1008 + 0x40 * i, 0, 32⟩
def CAP_Rr_MEM_BASE (i : Nat) : Field := ⟨0x400B000C + 0x40 * i, 0, 10⟩
def CAP_Rr_MEM_ACT_BASE (i : Nat) : Field := ⟨0x400B100C + 0x40 * i, 0, 10⟩
def CAP_Rr_MEM_LEN (i : Nat) : Field := ⟨0x400B000C + 0x40 * i, 16, 10⟩
def CAP_Rr_MEM_ACT_LEN (i : Nat) : Field := ⟨0x400B100C + 0x40 * i, 16, 10⟩
def CAP_Rr_PRE_N (i : Nat) : Field := ⟨0x400B0010 + 0x40 * i, 0, 24⟩
def CAP_Rr_PRE_ACT_N (i : Nat) : Field := ⟨0x400B1010 + 0x40 * i, 0, 24⟩
def CAP_Rr_POST_N (i : Nat) : Field := ⟨0x400B0014 + 0x40 * i, 0, 24⟩
def CAP_Rr_POST_ACT_N (i : Nat) : Field := ⟨0x400B1014 + 0x40 * i, 0, 24⟩
def CAP_Rr_CTL_CMT (i : Nat) : Field := ⟨0x400B0018 + 0x40 * i, 0, 1⟩
def CAP_Rr_CTL_CONFLICT (i : Nat) : Field := ⟨0x400B0018 + 0x40 * i, 1, 1⟩
def CAP_Rr_CTL_ZERO (i : Nat) : Field := ⟨0x400B0018 + 0x40 * i, 2, 1⟩
def CAP_Rr_CTL_REL (i : Nat) : Field := ⟨0x400B0018 + 0x40 * i, 3, 1⟩
def CAP_Rr_STAT_STATE (i : Nat) : Field := ⟨0x400B001C + 0x40 * i, 0, 3⟩
def CAP_Rr_STAT_REC (i : Nat) : Field := ⟨0x400B001C + 0x40 * i, 3, 1⟩
def CAP_Rr_STAT_OVF (i : Nat) : Field := ⟨0x400B001C + 0x40 * i, 4, 1⟩
def CAP_Rr_STAT_DISC (i : Nat) : Field := ⟨0x400B001C + 0x40 * i, 5, 1⟩
def CAP_Rr_STAT_FULL (i : Nat) : Field := ⟨0x400B001C + 0x40 * i, 8, 5⟩
def CAP_Rr_STAT_WSEG (i : Nat) : Field := ⟨0x400B001C + 0x40 * i, 16, 4⟩
def CAP_Rr_STAT_RSEG (i : Nat) : Field := ⟨0x400B001C + 0x40 * i, 20, 4⟩
def CAP_CHcc_SRC_UNIT (i : Nat) : Field := ⟨0x400B0400 + 0x10 * i, 0, 8⟩
def CAP_CHcc_SRC_ACT_UNIT (i : Nat) : Field := ⟨0x400B1400 + 0x10 * i, 0, 8⟩
def CAP_CHcc_SRC_TYPE (i : Nat) : Field := ⟨0x400B0400 + 0x10 * i, 8, 7⟩
def CAP_CHcc_SRC_ACT_TYPE (i : Nat) : Field := ⟨0x400B1400 + 0x10 * i, 8, 7⟩
def CAP_CHcc_SRC_WSEL (i : Nat) : Field := ⟨0x400B0400 + 0x10 * i, 16, 3⟩
def CAP_CHcc_SRC_ACT_WSEL (i : Nat) : Field := ⟨0x400B1400 + 0x10 * i, 16, 3⟩
def CAP_CHcc_SRC_HALF (i : Nat) : Field := ⟨0x400B0400 + 0x10 * i, 19, 1⟩
def CAP_CHcc_SRC_ACT_HALF (i : Nat) : Field := ⟨0x400B1400 + 0x10 * i, 19, 1⟩
def CAP_CHcc_SRC_REC (i : Nat) : Field := ⟨0x400B0400 + 0x10 * i, 20, 3⟩
def CAP_CHcc_SRC_ACT_REC (i : Nat) : Field := ⟨0x400B1400 + 0x10 * i, 20, 3⟩
def CAP_CHcc_SRC_EN (i : Nat) : Field := ⟨0x400B0400 + 0x10 * i, 23, 1⟩
def CAP_CHcc_SRC_ACT_EN (i : Nat) : Field := ⟨0x400B1400 + 0x10 * i, 23, 1⟩
def CAP_CHcc_TRIM_TRIM (i : Nat) : Field := ⟨0x400B0404 + 0x10 * i, 0, 32⟩
def CAP_CHcc_TRIM_ACT_TRIM (i : Nat) : Field := ⟨0x400B1404 + 0x10 * i, 0, 32⟩
def CAP_CHcc_LATE_CNT (i : Nat) : Field := ⟨0x400B0408 + 0x10 * i, 0, 32⟩
def CAP_Tu_CFG_KIND (i : Nat) : Field := ⟨0x400B0800 + 0x10 * i, 0, 4⟩
def CAP_Tu_CFG_ACT_KIND (i : Nat) : Field := ⟨0x400B1800 + 0x10 * i, 0, 4⟩
def CAP_Tu_CFG_SIGNED (i : Nat) : Field := ⟨0x400B0800 + 0x10 * i, 4, 1⟩
def CAP_Tu_CFG_ACT_SIGNED (i : Nat) : Field := ⟨0x400B1800 + 0x10 * i, 4, 1⟩
def CAP_Tu_CFG_CHAN (i : Nat) : Field := ⟨0x400B0800 + 0x10 * i, 8, 6⟩
def CAP_Tu_CFG_ACT_CHAN (i : Nat) : Field := ⟨0x400B1800 + 0x10 * i, 8, 6⟩
def CAP_Tu_A_V (i : Nat) : Field := ⟨0x400B0804 + 0x10 * i, 0, 32⟩
def CAP_Tu_A_ACT_V (i : Nat) : Field := ⟨0x400B1804 + 0x10 * i, 0, 32⟩
def CAP_Tu_B_V (i : Nat) : Field := ⟨0x400B0808 + 0x10 * i, 0, 32⟩
def CAP_Tu_B_ACT_V (i : Nat) : Field := ⟨0x400B1808 + 0x10 * i, 0, 32⟩
def CHAIN_CFG_AN0 : Field := ⟨0x400C0000, 0, 1⟩
def CHAIN_CFG_ACT_AN0 : Field := ⟨0x400C0080, 0, 1⟩
def CHAIN_CFG_AN1 : Field := ⟨0x400C0000, 1, 1⟩
def CHAIN_CFG_ACT_AN1 : Field := ⟨0x400C0080, 1, 1⟩
def CHAIN_CFG_FWDF : Field := ⟨0x400C0000, 2, 1⟩
def CHAIN_CFG_ACT_FWDF : Field := ⟨0x400C0080, 2, 1⟩
def CHAIN_CFG_ASMODE : Field := ⟨0x400C0000, 3, 1⟩
def CHAIN_CFG_ACT_ASMODE : Field := ⟨0x400C0080, 3, 1⟩
def CHAIN_CFG_ETYPE : Field := ⟨0x400C0000, 16, 16⟩
def CHAIN_CFG_ACT_ETYPE : Field := ⟨0x400C0080, 16, 16⟩
def CHAIN_CYC_CYCLOG : Field := ⟨0x400C0004, 0, 3⟩
def CHAIN_CYC_ACT_CYCLOG : Field := ⟨0x400C0084, 0, 3⟩
def CHAIN_CYC_GUARD : Field := ⟨0x400C0004, 16, 16⟩
def CHAIN_CYC_ACT_GUARD : Field := ⟨0x400C0084, 16, 16⟩
def CHAIN_SVC_SVCOFF : Field := ⟨0x400C0008, 0, 22⟩
def CHAIN_SVC_ACT_SVCOFF : Field := ⟨0x400C0088, 0, 22⟩
def CHAIN_SVC_PORTS : Field := ⟨0x400C0008, 22, 2⟩
def CHAIN_SVC_ACT_PORTS : Field := ⟨0x400C0088, 22, 2⟩
def CHAIN_PTP_DOM : Field := ⟨0x400C000C, 0, 7⟩
def CHAIN_PTP_ACT_DOM : Field := ⟨0x400C008C, 0, 7⟩
def CHAIN_PTP_LSYNC : Field := ⟨0x400C000C, 8, 4⟩
def CHAIN_PTP_ACT_LSYNC : Field := ⟨0x400C008C, 8, 4⟩
def CHAIN_PTP_LPDLY : Field := ⟨0x400C000C, 12, 4⟩
def CHAIN_PTP_ACT_LPDLY : Field := ⟨0x400C008C, 12, 4⟩
def CHAIN_PTP_LANN : Field := ⟨0x400C000C, 16, 4⟩
def CHAIN_PTP_ACT_LANN : Field := ⟨0x400C008C, 16, 4⟩
def CHAIN_PTP_PDLIM : Field := ⟨0x400C000C, 20, 12⟩
def CHAIN_PTP_ACT_PDLIM : Field := ⟨0x400C008C, 20, 12⟩
def CHAIN_RMAC_LO_MAC : Field := ⟨0x400C0010, 0, 32⟩
def CHAIN_RMAC_LO_ACT_MAC : Field := ⟨0x400C0090, 0, 32⟩
def CHAIN_RMAC_HI_MAC : Field := ⟨0x400C0014, 0, 16⟩
def CHAIN_RMAC_HI_ACT_MAC : Field := ⟨0x400C0094, 0, 16⟩
def CHAIN_SMAC_LO_MAC : Field := ⟨0x400C0018, 0, 32⟩
def CHAIN_SMAC_LO_ACT_MAC : Field := ⟨0x400C0098, 0, 32⟩
def CHAIN_SMAC_HI_MAC : Field := ⟨0x400C001C, 0, 8⟩
def CHAIN_SMAC_HI_ACT_MAC : Field := ⟨0x400C009C, 0, 8⟩
def CHAIN_LOAD_W : Field := ⟨0x400C0020, 0, 24⟩
def CHAIN_LOAD_ACT_W : Field := ⟨0x400C00A0, 0, 24⟩
def CHAIN_LOAD_NF : Field := ⟨0x400C0020, 24, 8⟩
def CHAIN_LOAD_ACT_NF : Field := ⟨0x400C00A0, 24, 8⟩
def CHAIN_HOPS_H : Field := ⟨0x400C0024, 0, 6⟩
def CHAIN_HOPS_ACT_H : Field := ⟨0x400C00A4, 0, 6⟩
def CHAIN_HOPS_TLINK : Field := ⟨0x400C0024, 16, 16⟩
def CHAIN_HOPS_ACT_TLINK : Field := ⟨0x400C00A4, 16, 16⟩
def CHAIN_CTL_CMT : Field := ⟨0x400C0028, 0, 1⟩
def CHAIN_CTL_CONFLICT : Field := ⟨0x400C0028, 1, 1⟩
def CHAIN_CTL_ZERO : Field := ⟨0x400C0028, 2, 1⟩
def CHAIN_STAT_ADDR : Field := ⟨0x400C002C, 0, 8⟩
def CHAIN_STAT_UPV : Field := ⟨0x400C002C, 8, 1⟩
def CHAIN_STAT_UP : Field := ⟨0x400C002C, 9, 1⟩
def CHAIN_STAT_LINK0 : Field := ⟨0x400C002C, 10, 1⟩
def CHAIN_STAT_LINK1 : Field := ⟨0x400C002C, 11, 1⟩
def CHAIN_STAT_CAP0 : Field := ⟨0x400C002C, 12, 1⟩
def CHAIN_STAT_CAP1 : Field := ⟨0x400C002C, 13, 1⟩
def CHAIN_STAT_CTRL : Field := ⟨0x400C002C, 14, 1⟩
def CHAIN_STAT_ENUMERR : Field := ⟨0x400C002C, 15, 1⟩
def CHAIN_STAT_ENUMID : Field := ⟨0x400C002C, 16, 16⟩
def CHAIN_CHp_TXDLY_D (i : Nat) : Field := ⟨0x400C0400 + 0x100 * i, 0, 32⟩
def CHAIN_CHp_TXDLY_ACT_D (i : Nat) : Field := ⟨0x400C0480 + 0x100 * i, 0, 32⟩
def CHAIN_CHp_RXDLY_D (i : Nat) : Field := ⟨0x400C0404 + 0x100 * i, 0, 32⟩
def CHAIN_CHp_RXDLY_ACT_D (i : Nat) : Field := ⟨0x400C0484 + 0x100 * i, 0, 32⟩
def CHAIN_CHp_ASYM_D (i : Nat) : Field := ⟨0x400C0408 + 0x100 * i, 0, 32⟩
def CHAIN_CHp_ASYM_ACT_D (i : Nat) : Field := ⟨0x400C0488 + 0x100 * i, 0, 32⟩
def CHAIN_CHp_PDELAY_V (i : Nat) : Field := ⟨0x400C040C + 0x100 * i, 0, 32⟩
def CHAIN_CHp_NRR_V (i : Nat) : Field := ⟨0x400C0410 + 0x100 * i, 0, 32⟩
def CHAIN_CHp_RXOK_V (i : Nat) : Field := ⟨0x400C0414 + 0x100 * i, 0, 32⟩
def CHAIN_CHp_RXERR_V (i : Nat) : Field := ⟨0x400C0418 + 0x100 * i, 0, 32⟩
def CHAIN_CHp_MALF_V (i : Nat) : Field := ⟨0x400C041C + 0x100 * i, 0, 32⟩
def CHAIN_CHp_FOREIGN_V (i : Nat) : Field := ⟨0x400C0420 + 0x100 * i, 0, 32⟩
def CHAIN_CHp_DROP_V (i : Nat) : Field := ⟨0x400C0424 + 0x100 * i, 0, 32⟩
def CHAIN_CHp_LATE_V (i : Nat) : Field := ⟨0x400C0428 + 0x100 * i, 0, 32⟩
def CHAIN_Dd_CFG_EN (i : Nat) : Field := ⟨0x400C0800 + 0x20 * i, 0, 1⟩
def CHAIN_Dd_CFG_ACT_EN (i : Nat) : Field := ⟨0x400C0810 + 0x20 * i, 0, 1⟩
def CHAIN_Dd_CFG_PORTS (i : Nat) : Field := ⟨0x400C0800 + 0x20 * i, 1, 2⟩
def CHAIN_Dd_CFG_ACT_PORTS (i : Nat) : Field := ⟨0x400C0810 + 0x20 * i, 1, 2⟩
def CHAIN_Dd_CFG_DADDR (i : Nat) : Field := ⟨0x400C0800 + 0x20 * i, 8, 8⟩
def CHAIN_Dd_CFG_ACT_DADDR (i : Nat) : Field := ⟨0x400C0810 + 0x20 * i, 8, 8⟩
def CHAIN_Dd_CFG_TYPES (i : Nat) : Field := ⟨0x400C0800 + 0x20 * i, 16, 4⟩
def CHAIN_Dd_CFG_ACT_TYPES (i : Nat) : Field := ⟨0x400C0810 + 0x20 * i, 16, 4⟩
def CHAIN_Dd_LOFF_LOFF (i : Nat) : Field := ⟨0x400C0804 + 0x20 * i, 0, 22⟩
def CHAIN_Dd_LOFF_ACT_LOFF (i : Nat) : Field := ⟨0x400C0814 + 0x20 * i, 0, 22⟩
def CHAIN_Dd_STAT_LATE (i : Nat) : Field := ⟨0x400C0808 + 0x20 * i, 0, 1⟩
def CHAIN_Dd_STAT_FULL (i : Nat) : Field := ⟨0x400C0808 + 0x20 * i, 1, 1⟩
def CHAIN_Dd_STAT_REPEAT (i : Nat) : Field := ⟨0x400C0808 + 0x20 * i, 2, 1⟩
def CHAIN_Dd_STAT_NBLK (i : Nat) : Field := ⟨0x400C0808 + 0x20 * i, 8, 8⟩
def CAN_CHc_CFG_MODE (i : Nat) : Field := ⟨0x400D0000 + 0x1000 * i, 0, 2⟩
def CAN_CHc_CFG_ACT_MODE (i : Nat) : Field := ⟨0x400D0080 + 0x1000 * i, 0, 2⟩
def CAN_CHc_CFG_FDEN (i : Nat) : Field := ⟨0x400D0000 + 0x1000 * i, 2, 1⟩
def CAN_CHc_CFG_ACT_FDEN (i : Nat) : Field := ⟨0x400D0080 + 0x1000 * i, 2, 1⟩
def CAN_CHc_CFG_PEX (i : Nat) : Field := ⟨0x400D0000 + 0x1000 * i, 3, 1⟩
def CAN_CHc_CFG_ACT_PEX (i : Nat) : Field := ⟨0x400D0080 + 0x1000 * i, 3, 1⟩
def CAN_CHc_CFG_AUTOREC (i : Nat) : Field := ⟨0x400D0000 + 0x1000 * i, 4, 1⟩
def CAN_CHc_CFG_ACT_AUTOREC (i : Nat) : Field := ⟨0x400D0080 + 0x1000 * i, 4, 1⟩
def CAN_CHc_CFG_ECHO (i : Nat) : Field := ⟨0x400D0000 + 0x1000 * i, 5, 1⟩
def CAN_CHc_CFG_ACT_ECHO (i : Nat) : Field := ⟨0x400D0080 + 0x1000 * i, 5, 1⟩
def CAN_CHc_CFG_AUTOW (i : Nat) : Field := ⟨0x400D0000 + 0x1000 * i, 6, 1⟩
def CAN_CHc_CFG_ACT_AUTOW (i : Nat) : Field := ⟨0x400D0080 + 0x1000 * i, 6, 1⟩
def CAN_CHc_CFG_TDCEN (i : Nat) : Field := ⟨0x400D0000 + 0x1000 * i, 7, 1⟩
def CAN_CHc_CFG_ACT_TDCEN (i : Nat) : Field := ⟨0x400D0080 + 0x1000 * i, 7, 1⟩
def CAN_CHc_NBT_BRP (i : Nat) : Field := ⟨0x400D0004 + 0x1000 * i, 0, 6⟩
def CAN_CHc_NBT_ACT_BRP (i : Nat) : Field := ⟨0x400D0084 + 0x1000 * i, 0, 6⟩
def CAN_CHc_NBT_TSEG1 (i : Nat) : Field := ⟨0x400D0004 + 0x1000 * i, 6, 9⟩
def CAN_CHc_NBT_ACT_TSEG1 (i : Nat) : Field := ⟨0x400D0084 + 0x1000 * i, 6, 9⟩
def CAN_CHc_NBT_TSEG2 (i : Nat) : Field := ⟨0x400D0004 + 0x1000 * i, 15, 8⟩
def CAN_CHc_NBT_ACT_TSEG2 (i : Nat) : Field := ⟨0x400D0084 + 0x1000 * i, 15, 8⟩
def CAN_CHc_NBT_SJW (i : Nat) : Field := ⟨0x400D0004 + 0x1000 * i, 23, 8⟩
def CAN_CHc_NBT_ACT_SJW (i : Nat) : Field := ⟨0x400D0084 + 0x1000 * i, 23, 8⟩
def CAN_CHc_DBT_BRP (i : Nat) : Field := ⟨0x400D0008 + 0x1000 * i, 0, 4⟩
def CAN_CHc_DBT_ACT_BRP (i : Nat) : Field := ⟨0x400D0088 + 0x1000 * i, 0, 4⟩
def CAN_CHc_DBT_TSEG1 (i : Nat) : Field := ⟨0x400D0008 + 0x1000 * i, 4, 6⟩
def CAN_CHc_DBT_ACT_TSEG1 (i : Nat) : Field := ⟨0x400D0088 + 0x1000 * i, 4, 6⟩
def CAN_CHc_DBT_TSEG2 (i : Nat) : Field := ⟨0x400D0008 + 0x1000 * i, 10, 5⟩
def CAN_CHc_DBT_ACT_TSEG2 (i : Nat) : Field := ⟨0x400D0088 + 0x1000 * i, 10, 5⟩
def CAN_CHc_DBT_SJW (i : Nat) : Field := ⟨0x400D0008 + 0x1000 * i, 15, 5⟩
def CAN_CHc_DBT_ACT_SJW (i : Nat) : Field := ⟨0x400D0088 + 0x1000 * i, 15, 5⟩
def CAN_CHc_DBT_TDCO (i : Nat) : Field := ⟨0x400D0008 + 0x1000 * i, 20, 8⟩
def CAN_CHc_DBT_ACT_TDCO (i : Nat) : Field := ⟨0x400D0088 + 0x1000 * i, 20, 8⟩
def CAN_CHc_CTL_CMT (i : Nat) : Field := ⟨0x400D000C + 0x1000 * i, 0, 1⟩
def CAN_CHc_CTL_CONFLICT (i : Nat) : Field := ⟨0x400D000C + 0x1000 * i, 1, 1⟩
def CAN_CHc_CTL_ZERO (i : Nat) : Field := ⟨0x400D000C + 0x1000 * i, 2, 1⟩
def CAN_CHc_CTL_REC (i : Nat) : Field := ⟨0x400D000C + 0x1000 * i, 3, 1⟩
def CAN_CHc_STAT_STATE (i : Nat) : Field := ⟨0x400D0010 + 0x1000 * i, 0, 3⟩
def CAN_CHc_STAT_WAKE (i : Nat) : Field := ⟨0x400D0010 + 0x1000 * i, 3, 1⟩
def CAN_CHc_STAT_PEXF (i : Nat) : Field := ⟨0x400D0010 + 0x1000 * i, 4, 1⟩
def CAN_CHc_STAT_TDCSAT (i : Nat) : Field := ⟨0x400D0010 + 0x1000 * i, 5, 1⟩
def CAN_CHc_STAT_TDCV (i : Nat) : Field := ⟨0x400D0010 + 0x1000 * i, 16, 8⟩
def CAN_CHc_ERRC_TEC (i : Nat) : Field := ⟨0x400D0014 + 0x1000 * i, 0, 9⟩
def CAN_CHc_ERRC_REC (i : Nat) : Field := ⟨0x400D0014 + 0x1000 * i, 16, 8⟩
def CAN_CHc_EVCNT0_STUFF (i : Nat) : Field := ⟨0x400D0018 + 0x1000 * i, 0, 8⟩
def CAN_CHc_EVCNT0_FORM (i : Nat) : Field := ⟨0x400D0018 + 0x1000 * i, 8, 8⟩
def CAN_CHc_EVCNT0_CRC (i : Nat) : Field := ⟨0x400D0018 + 0x1000 * i, 16, 8⟩
def CAN_CHc_EVCNT0_BIT (i : Nat) : Field := ⟨0x400D0018 + 0x1000 * i, 24, 8⟩
def CAN_CHc_EVCNT1_ACK (i : Nat) : Field := ⟨0x400D001C + 0x1000 * i, 0, 8⟩
def CAN_CHc_EVCNT1_BUSOFF (i : Nat) : Field := ⟨0x400D001C + 0x1000 * i, 8, 8⟩
def CAN_CHc_RXSTAT_COUNT (i : Nat) : Field := ⟨0x400D0020 + 0x1000 * i, 0, 7⟩
def CAN_CHc_RXSTAT_OVF (i : Nat) : Field := ⟨0x400D0020 + 0x1000 * i, 16, 16⟩
def CAN_CHc_RXWw_W (i : Nat) (j : Nat) : Field := ⟨0x400D0100 + 0x1000 * i + 0x4 * j, 0, 32⟩
def CAN_CHc_TXWw_W (i : Nat) (j : Nat) : Field := ⟨0x400D0200 + 0x1000 * i + 0x4 * j, 0, 32⟩
def CAN_CHc_TXCTL_PUSH (i : Nat) : Field := ⟨0x400D0250 + 0x1000 * i, 0, 1⟩
def CAN_CHc_TXCTL_FULL (i : Nat) : Field := ⟨0x400D0250 + 0x1000 * i, 1, 1⟩
def CAN_CHc_TXCTL_BAD (i : Nat) : Field := ⟨0x400D0250 + 0x1000 * i, 2, 1⟩
def CAN_CHc_TXCTL_COUNT (i : Nat) : Field := ⟨0x400D0250 + 0x1000 * i, 8, 6⟩
def CAN_CHc_TXSTAT_SENT (i : Nat) : Field := ⟨0x400D0254 + 0x1000 * i, 0, 16⟩
def CAN_CHc_TXSTAT_UNSENT (i : Nat) : Field := ⟨0x400D0254 + 0x1000 * i, 16, 16⟩
def CAN_CHc_WCFG_WEN (i : Nat) : Field := ⟨0x400D0300 + 0x1000 * i, 0, 1⟩
def CAN_CHc_WCFG_WIDE (i : Nat) : Field := ⟨0x400D0300 + 0x1000 * i, 1, 1⟩
def CAN_CHc_WCFG_WDLCEN (i : Nat) : Field := ⟨0x400D0300 + 0x1000 * i, 2, 1⟩
def CAN_CHc_WCFG_WDLC (i : Nat) : Field := ⟨0x400D0300 + 0x1000 * i, 4, 4⟩
def CAN_CHc_WID_WID (i : Nat) : Field := ⟨0x400D0304 + 0x1000 * i, 0, 29⟩
def CAN_CHc_WMASK_WMASK (i : Nat) : Field := ⟨0x400D0308 + 0x1000 * i, 0, 29⟩
def CAN_CHc_WDATA_LO_V (i : Nat) : Field := ⟨0x400D030C + 0x1000 * i, 0, 32⟩
def CAN_CHc_WDATA_HI_V (i : Nat) : Field := ⟨0x400D0310 + 0x1000 * i, 0, 32⟩
def CAN_CHc_WDMASK_LO_V (i : Nat) : Field := ⟨0x400D0314 + 0x1000 * i, 0, 32⟩
def CAN_CHc_WDMASK_HI_V (i : Nat) : Field := ⟨0x400D0318 + 0x1000 * i, 0, 32⟩
def CAN_WAKE_CFG_SMSK : Field := ⟨0x400DF000, 0, 6⟩
def CAN_WAKE_CFG_DMSK : Field := ⟨0x400DF000, 8, 6⟩
def CAN_WAKE_CFG_WFILT : Field := ⟨0x400DF000, 16, 4⟩
def CAN_WAKE_STAT_SRC : Field := ⟨0x400DF004, 0, 6⟩
def CAN_WAKE_STAT_FRAME : Field := ⟨0x400DF004, 8, 1⟩
def PAIR_CFG_MDIV : Field := ⟨0x400E0000, 0, 4⟩
def PAIR_CFG_RBLIM : Field := ⟨0x400E0000, 4, 4⟩
def PAIR_CFG_SOLOK : Field := ⟨0x400E0000, 8, 1⟩
def PAIR_CFG_RESYNC : Field := ⟨0x400E0000, 9, 1⟩
def PAIR_CFG_ALLOW : Field := ⟨0x400E0000, 10, 1⟩
def PAIR_CFG_RBPER : Field := ⟨0x400E0000, 16, 16⟩
def PAIR_CFG2_RBEDGE : Field := ⟨0x400E0004, 0, 12⟩
def PAIR_CFG2_TOFFLIM : Field := ⟨0x400E0004, 16, 8⟩
def PAIR_STAT_ROLE : Field := ⟨0x400E0008, 0, 2⟩
def PAIR_STAT_PSTATE : Field := ⟨0x400E0008, 2, 3⟩
def PAIR_STAT_LINK : Field := ⟨0x400E0008, 5, 1⟩
def PAIR_STAT_OWNIN : Field := ⟨0x400E0008, 6, 1⟩
def PAIR_STAT_PFORCE : Field := ⟨0x400E0008, 7, 1⟩
def PAIR_STAT_PULL : Field := ⟨0x400E0008, 8, 1⟩
def PAIR_STAT_PADDR : Field := ⟨0x400E0008, 16, 8⟩
def PAIR_STAT_MISS : Field := ⟨0x400E0008, 24, 4⟩
def PAIR_STAT_RBRUN : Field := ⟨0x400E0008, 28, 4⟩
def PAIR_CNT_LERR : Field := ⟨0x400E000C, 0, 16⟩
def PAIR_CNT_RBMIS : Field := ⟨0x400E000C, 16, 16⟩
def PAIR_OFFS_OFFS : Field := ⟨0x400E0010, 0, 32⟩
def PAIR_BW_BW : Field := ⟨0x400E0014, 0, 16⟩
def SAFE_STAT_GSEEN : Field := ⟨0x400F0000, 0, 1⟩
def SAFE_STAT_STUCK : Field := ⟨0x400F0000, 1, 1⟩
def SAFE_STAT_DIAG : Field := ⟨0x400F0000, 2, 1⟩
def SAFE_STAT_CFGOK : Field := ⟨0x400F0000, 3, 1⟩
def SAFE_STAT_SIDEM : Field := ⟨0x400F0000, 4, 8⟩
def SAFE_STAT_SIFAIL : Field := ⟨0x400F0000, 12, 8⟩
def SAFE_DIAG_CAUSE : Field := ⟨0x400F0004, 0, 4⟩
def SAFE_CFGCRC_CRC : Field := ⟨0x400F0008, 0, 32⟩
def SAFE_Gg_STAT_STATE (i : Nat) : Field := ⟨0x400F0010 + 0x4 * i, 0, 3⟩
def SAFE_Gg_STAT_SLSACT (i : Nat) : Field := ⟨0x400F0010 + 0x4 * i, 3, 1⟩
def SAFE_Gg_STAT_STOPIN (i : Nat) : Field := ⟨0x400F0010 + 0x4 * i, 4, 1⟩
def SAFE_Gg_SS1T_SS1T (i : Nat) : Field := ⟨0x400F0020 + 0x4 * i, 0, 16⟩
def SAFE_Gg_SS1T_ACT_SS1T (i : Nat) : Field := ⟨0x400F0220 + 0x4 * i, 0, 16⟩
def SAFE_TP_TPW : Field := ⟨0x400F0040, 0, 9⟩
def SAFE_TP_ACT_TPW : Field := ⟨0x400F0240, 0, 9⟩
def SAFE_TP_TPSET : Field := ⟨0x400F0040, 9, 9⟩
def SAFE_TP_ACT_TPSET : Field := ⟨0x400F0240, 9, 9⟩
def SAFE_TP_DFILT : Field := ⟨0x400F0040, 18, 4⟩
def SAFE_TP_ACT_DFILT : Field := ⟨0x400F0240, 18, 4⟩
def SAFE_TP_OSSDW : Field := ⟨0x400F0040, 22, 10⟩
def SAFE_TP_ACT_OSSDW : Field := ⟨0x400F0240, 22, 10⟩
def SAFE_SLS_SLSWIN : Field := ⟨0x400F0044, 0, 8⟩
def SAFE_SLS_ACT_SLSWIN : Field := ⟨0x400F0244, 0, 8⟩
def SAFE_SLS_SLSACT : Field := ⟨0x400F0044, 8, 1⟩
def SAFE_SLS_ACT_SLSACT : Field := ⟨0x400F0244, 8, 1⟩
def SAFE_SLS_SLSRAMP : Field := ⟨0x400F0044, 16, 16⟩
def SAFE_SLS_ACT_SLSRAMP : Field := ⟨0x400F0244, 16, 16⟩
def SAFE_SOVLIM_V : Field := ⟨0x400F0048, 0, 32⟩
def SAFE_SOVLIM_ACT_V : Field := ⟨0x400F0248, 0, 32⟩
def SAFE_SIi_CFG_TYPE (i : Nat) : Field := ⟨0x400F0080 + 0x8 * i, 0, 2⟩
def SAFE_SIi_CFG_ACT_TYPE (i : Nat) : Field := ⟨0x400F0280 + 0x8 * i, 0, 2⟩
def SAFE_SIi_CFG_ROLE (i : Nat) : Field := ⟨0x400F0080 + 0x8 * i, 2, 2⟩
def SAFE_SIi_CFG_ACT_ROLE (i : Nat) : Field := ⟨0x400F0280 + 0x8 * i, 2, 2⟩
def SAFE_SIi_CFG_ACT (i : Nat) : Field := ⟨0x400F0080 + 0x8 * i, 4, 1⟩
def SAFE_SIi_CFG_ACT_ACT (i : Nat) : Field := ⟨0x400F0280 + 0x8 * i, 4, 1⟩
def SAFE_SIi_CFG_GMASK (i : Nat) : Field := ⟨0x400F0080 + 0x8 * i, 8, 4⟩
def SAFE_SIi_CFG_ACT_GMASK (i : Nat) : Field := ⟨0x400F0280 + 0x8 * i, 8, 4⟩
def SAFE_SIi_CFG_SRC (i : Nat) : Field := ⟨0x400F0080 + 0x8 * i, 12, 3⟩
def SAFE_SIi_CFG_ACT_SRC (i : Nat) : Field := ⟨0x400F0280 + 0x8 * i, 12, 3⟩
def SAFE_SIi_STAT_LEVEL (i : Nat) : Field := ⟨0x400F0084 + 0x8 * i, 0, 1⟩
def SAFE_SIi_STAT_DEM (i : Nat) : Field := ⟨0x400F0084 + 0x8 * i, 1, 1⟩
def SAFE_SIi_STAT_TFAIL (i : Nat) : Field := ⟨0x400F0084 + 0x8 * i, 2, 1⟩
def SAFE_SIi_STAT_TPASS (i : Nat) : Field := ⟨0x400F0084 + 0x8 * i, 8, 8⟩
def SAFE_SIi_STAT_TFCNT (i : Nat) : Field := ⟨0x400F0084 + 0x8 * i, 16, 16⟩
def SAFE_Lnn_SLS_SLSV (i : Nat) : Field := ⟨0x400F0100 + 0x8 * i, 0, 31⟩
def SAFE_Lnn_SLS_ACT_SLSV (i : Nat) : Field := ⟨0x400F0300 + 0x8 * i, 0, 31⟩
def SAFE_Lnn_SLS_EN (i : Nat) : Field := ⟨0x400F0100 + 0x8 * i, 31, 1⟩
def SAFE_Lnn_SLS_ACT_EN (i : Nat) : Field := ⟨0x400F0300 + 0x8 * i, 31, 1⟩
def SAFE_Lnn_SPD_SPD (i : Nat) : Field := ⟨0x400F0104 + 0x8 * i, 0, 31⟩
def SAFE_Lnn_SPD_INV (i : Nat) : Field := ⟨0x400F0104 + 0x8 * i, 31, 1⟩
def FIO_STAT_CFLT : Field := ⟨0x40100000, 0, 1⟩
def FIO_STAT_WIN : Field := ⟨0x40100000, 1, 1⟩
def FIO_STAT_VLOW : Field := ⟨0x40100000, 2, 1⟩
def FIO_STAT_WDEXP : Field := ⟨0x40100000, 3, 1⟩
def FIO_IN_IN : Field := ⟨0x40100004, 0, 32⟩
def FIO_RBERR_RBERR : Field := ⟨0x40100008, 0, 32⟩
def FIO_PWR_PWR : Field := ⟨0x4010000C, 0, 12⟩
def FIO_WDT_WDT : Field := ⟨0x40100010, 0, 8⟩
def FIO_WDT_ACT_WDT : Field := ⟨0x40100014, 0, 8⟩
def FIO_GTk_PER_PER (i : Nat) : Field := ⟨0x40100080 + 0x10 * i, 0, 32⟩
def FIO_GTk_PER_ACT_PER (i : Nat) : Field := ⟨0x40100088 + 0x10 * i, 0, 32⟩
def FIO_GTk_PH_PH (i : Nat) : Field := ⟨0x40100084 + 0x10 * i, 0, 32⟩
def FIO_GTk_PH_ACT_PH (i : Nat) : Field := ⟨0x4010008C + 0x10 * i, 0, 32⟩
def FIO_CHcc_CFG_MODE (i : Nat) : Field := ⟨0x40100100 + 0x20 * i, 0, 2⟩
def FIO_CHcc_CFG_ACT_MODE (i : Nat) : Field := ⟨0x40100110 + 0x20 * i, 0, 2⟩
def FIO_CHcc_CFG_GATE (i : Nat) : Field := ⟨0x40100100 + 0x20 * i, 2, 2⟩
def FIO_CHcc_CFG_ACT_GATE (i : Nat) : Field := ⟨0x40100110 + 0x20 * i, 2, 2⟩
def FIO_CHcc_CFG_WBEN (i : Nat) : Field := ⟨0x40100100 + 0x20 * i, 4, 1⟩
def FIO_CHcc_CFG_ACT_WBEN (i : Nat) : Field := ⟨0x40100110 + 0x20 * i, 4, 1⟩
def FIO_CHcc_CFG_SAFEST (i : Nat) : Field := ⟨0x40100100 + 0x20 * i, 5, 1⟩
def FIO_CHcc_CFG_ACT_SAFEST (i : Nat) : Field := ⟨0x40100110 + 0x20 * i, 5, 1⟩
def FIO_CHcc_CFG_ILIM (i : Nat) : Field := ⟨0x40100100 + 0x20 * i, 6, 5⟩
def FIO_CHcc_CFG_ACT_ILIM (i : Nat) : Field := ⟨0x40100110 + 0x20 * i, 6, 5⟩
def FIO_CHcc_CFG_FILT (i : Nat) : Field := ⟨0x40100100 + 0x20 * i, 16, 8⟩
def FIO_CHcc_CFG_ACT_FILT (i : Nat) : Field := ⟨0x40100110 + 0x20 * i, 16, 8⟩
def FIO_CHcc_RB_RBDLY (i : Nat) : Field := ⟨0x40100104 + 0x20 * i, 0, 16⟩
def FIO_CHcc_RB_ACT_RBDLY (i : Nat) : Field := ⟨0x40100118 + 0x20 * i, 0, 16⟩
def FIO_CHcc_RB_RBCNT (i : Nat) : Field := ⟨0x40100104 + 0x20 * i, 16, 4⟩
def FIO_CHcc_RB_ACT_RBCNT (i : Nat) : Field := ⟨0x40100118 + 0x20 * i, 16, 4⟩
def FIO_CHcc_OUT_OUT (i : Nat) : Field := ⟨0x40100108 + 0x20 * i, 0, 1⟩
def FIO_CHcc_OUT_ACT (i : Nat) : Field := ⟨0x40100108 + 0x20 * i, 1, 1⟩
def FIO_CHcc_OUT_LATCH (i : Nat) : Field := ⟨0x40100108 + 0x20 * i, 2, 1⟩
def FIO_CHcc_CTL_CMT (i : Nat) : Field := ⟨0x4010010C + 0x20 * i, 0, 1⟩
def FIO_CHcc_CTL_CONFLICT (i : Nat) : Field := ⟨0x4010010C + 0x20 * i, 1, 1⟩
def FIO_CHcc_CTL_ZERO (i : Nat) : Field := ⟨0x4010010C + 0x20 * i, 2, 1⟩
def FIO_CHcc_DIAG_OVL (i : Nat) : Field := ⟨0x40100114 + 0x20 * i, 0, 1⟩
def FIO_CHcc_DIAG_OPEN (i : Nat) : Field := ⟨0x40100114 + 0x20 * i, 1, 1⟩
def FIO_CHcc_DIAG_OTEMP (i : Nat) : Field := ⟨0x40100114 + 0x20 * i, 2, 1⟩
def FLT_STAT_UNREAD : Field := ⟨0x40110000, 0, 8⟩
def FLT_STAT_LOST : Field := ⟨0x40110000, 16, 16⟩
def FLT_SUPP_V : Field := ⟨0x40110004, 0, 32⟩
def FLT_ECC_CORR_V : Field := ⟨0x40110008, 0, 32⟩
def FLT_ECC_UNC_V : Field := ⟨0x4011000C, 0, 32⟩
def FLT_ECC_ADDR_V : Field := ⟨0x40110010, 0, 32⟩
def FLT_ECC_SYN_SYN : Field := ⟨0x40110014, 0, 8⟩
def FLT_SCRUB_PASS : Field := ⟨0x40110018, 0, 12⟩
def FLT_SCRUB_STAT_PASSES : Field := ⟨0x4011001C, 0, 16⟩
def FLT_SCRUB_STAT_SLOW : Field := ⟨0x4011001C, 31, 1⟩
def FLT_INJ_CFG_KIND : Field := ⟨0x40110020, 0, 3⟩
def FLT_INJ_CFG_DONE : Field := ⟨0x40110020, 3, 1⟩
def FLT_INJ_CFG_POSA : Field := ⟨0x40110020, 4, 7⟩
def FLT_INJ_CFG_REJ : Field := ⟨0x40110020, 11, 1⟩
def FLT_INJ_CFG_POSB : Field := ⟨0x40110020, 12, 7⟩
def FLT_INJ_ARG_V : Field := ⟨0x40110024, 0, 32⟩
def FLT_INJ_T_LO_V : Field := ⟨0x40110028, 0, 32⟩
def FLT_INJ_T_HI_V : Field := ⟨0x4011002C, 0, 32⟩
def FLT_LOGW0_T : Field := ⟨0x40110100, 0, 32⟩
def FLT_LOGW1_T : Field := ⟨0x40110104, 0, 32⟩
def FLT_LOGW2_FCODE : Field := ⟨0x40110108, 0, 16⟩
def FLT_LOGW2_UNIT : Field := ⟨0x40110108, 16, 8⟩
def FLT_LOGW2_INJ : Field := ⟨0x40110108, 24, 1⟩
def FLT_LOGW3_INFO : Field := ⟨0x4011010C, 0, 32⟩
def MBX_STAT_BOOTED : Field := ⟨0x40128000, 0, 1⟩
def MBX_STAT_EPOCH : Field := ⟨0x40128000, 8, 8⟩
def MBX_IRQ_EN_MBX : Field := ⟨0x40128004, 0, 16⟩
def MBX_IRQ_EN_BOOT : Field := ⟨0x40128004, 16, 1⟩
def MBX_IRQ_EN_FAULT : Field := ⟨0x40128004, 17, 1⟩
def MBX_IRQ_PEND_MBX : Field := ⟨0x40128008, 0, 16⟩
def MBX_IRQ_PEND_BOOT : Field := ⟨0x40128008, 16, 1⟩
def MBX_IRQ_PEND_FAULT : Field := ⟨0x40128008, 17, 1⟩
def MBX_ROUTE_ROUTE : Field := ⟨0x4012800C, 0, 16⟩
def MBX_Mm_STAT_BUSY (i : Nat) : Field := ⟨0x40128100 + 0x20 * i, 0, 1⟩
def MBX_Mm_STAT_STAGE (i : Nat) : Field := ⟨0x40128100 + 0x20 * i, 1, 1⟩
def MBX_Mm_STAT_SEQV (i : Nat) : Field := ⟨0x40128100 + 0x20 * i, 2, 1⟩
def MBX_Mm_STAT_RHEAD (i : Nat) : Field := ⟨0x40128100 + 0x20 * i, 4, 4⟩
def MBX_Mm_STAT_RCOUNT (i : Nat) : Field := ⟨0x40128100 + 0x20 * i, 8, 5⟩
def MBX_Mm_STAT_OUTST (i : Nat) : Field := ⟨0x40128100 + 0x20 * i, 16, 4⟩
def MBX_Mm_SEQ_LAST (i : Nat) : Field := ⟨0x40128104 + 0x20 * i, 0, 16⟩
def MBX_Mm_SEQ_FLOOR (i : Nat) : Field := ⟨0x40128104 + 0x20 * i, 16, 16⟩
def MBX_Mm_DONE_DSEQ (i : Nat) : Field := ⟨0x40128108 + 0x20 * i, 0, 16⟩
def MBX_Mm_CNT_STALE (i : Nat) : Field := ⟨0x4012810C + 0x20 * i, 0, 8⟩
def MBX_Mm_CNT_GAP (i : Nat) : Field := ⟨0x4012810C + 0x20 * i, 8, 8⟩
def MBX_Mm_CNT_CRC (i : Nat) : Field := ⟨0x4012810C + 0x20 * i, 16, 8⟩
def MBX_Mm_CNT_EPOCH (i : Nat) : Field := ⟨0x4012810C + 0x20 * i, 24, 8⟩
def MBX_Mm_TREF_LO_TREF (i : Nat) : Field := ⟨0x40128110 + 0x20 * i, 0, 32⟩
def MBX_Mm_TREF_HI_TREF (i : Nat) : Field := ⟨0x40128114 + 0x20 * i, 0, 32⟩

end Sys2Proof.Machine
end

