-- ==== Sys2Proof/Machine/ResetVals.lean ====
section
/-! DEFINITION. Reset values the register tables give by a rule: the microstep table (08, STPTAB_r = round(sin(pi r / 512) x 32,768)),
the cost classes of R304 and R399, the capture bases of 18, and the search of the register map by address. -/

namespace Sys2Proof.Machine

/-- Microstep table, entries from 0. -/
def stpTab0 : List Nat := [0, 201, 402, 603, 804, 1005, 1206, 1407, 1608, 1809, 2009, 2210, 2411, 2611, 2811, 3012, 3212, 3412, 3612, 3812, 4011, 4211, 4410, 4609, 4808, 5007, 5205, 5404, 5602, 5800, 5998, 6195, 6393, 6590, 6787, 6983, 7180, 7376, 7571, 7767, 7962, 8157, 8351, 8546, 8740, 8933, 9127, 9319, 9512, 9704, 9896, 10088]

/-- Microstep table, entries from 52. -/
def stpTab1 : List Nat := [10279, 10469, 10660, 10850, 11039, 11228, 11417, 11605, 11793, 11980, 12167, 12354, 12540, 12725, 12910, 13095, 13279, 13463, 13646, 13828, 14010, 14192, 14373, 14553, 14733, 14912, 15091, 15269, 15447, 15624, 15800, 15976, 16151, 16326, 16500, 16673, 16846, 17018, 17190, 17361, 17531, 17700, 17869, 18037, 18205, 18372, 18538, 18703, 18868, 19032, 19195, 19358]

/-- Microstep table, entries from 104. -/
def stpTab2 : List Nat := [19520, 19681, 19841, 20001, 20160, 20318, 20475, 20632, 20788, 20943, 21097, 21251, 21403, 21555, 21706, 21856, 22006, 22154, 22302, 22449, 22595, 22740, 22884, 23028, 23170, 23312, 23453, 23593, 23732, 23870, 24008, 24144, 24279, 24414, 24548, 24680, 24812, 24943, 25073, 25202, 25330, 25457, 25583, 25708, 25833, 25956, 26078, 26199, 26320, 26439, 26557, 26674]

/-- Microstep table, entries from 156. -/
def stpTab3 : List Nat := [26791, 26906, 27020, 27133, 27246, 27357, 27467, 27576, 27684, 27791, 27897, 28002, 28106, 28209, 28311, 28411, 28511, 28610, 28707, 28803, 28899, 28993, 29086, 29178, 29269, 29359, 29448, 29535, 29622, 29707, 29792, 29875, 29957, 30038, 30118, 30196, 30274, 30350, 30425, 30499, 30572, 30644, 30715, 30784, 30853, 30920, 30986, 31050, 31114, 31177, 31238, 31298]

/-- Microstep table, entries from 208. -/
def stpTab4 : List Nat := [31357, 31415, 31471, 31527, 31581, 31634, 31686, 31737, 31786, 31834, 31881, 31927, 31972, 32015, 32058, 32099, 32138, 32177, 32214, 32251, 32286, 32319, 32352, 32383, 32413, 32442, 32470, 32496, 32522, 32546, 32568, 32590, 32610, 32629, 32647, 32664, 32679, 32693, 32706, 32718, 32729, 32738, 32746, 32753, 32758, 32762, 32766, 32767, 32768]

/-- The microstep table at reset. -/
def stpTab : List Nat := stpTab0 ++ stpTab1 ++ stpTab2 ++ stpTab3 ++ stpTab4
/-- Cost in ns and engine group of a vendor cost class (R304), as COST, GROUP and DEF of HERDER_COSTc; 0 for a class not
defined at reset. Packet engine classes follow R409. -/
def costReset : Nat → Nat
  | 0x01 => costWord 1480 0
  | 0x02 => costWord 940 0
  | 0x03 => costWord 620 0
  | 0x04 => costWord 540 0
  | 0x10 => costWord 900 1
  | 0x11 => costWord 2400 1
  | 0x12 => costWord 2800 1
  | 0x13 => costWord 3100 1
  | 0x14 => costWord 3600 1
  | 0x15 => costWord 6800 1
  | 0x16 => costWord 4200 1
  | 0x17 => costWord 12800 1
  | 0x20 => costWord 1200 3
  | 0x21 => costWord 600 3
  | 0x30 => costWord 4800 2
  | 0x31 => costWord 4800 2
  | 0x32 => costWord 1600 2
  | 0x33 => costWord 1800 2
  | 0x34 => costWord 3000 2
  | 0x35 => costWord 1200 2
  | _ => 0
where
  costWord (cost group : Nat) : Nat := cost + group * 2 ^ 24 + 2 ^ 31

/-- Does offset `x` lie on the grid of instances `dims` (count, stride), largest stride first? The last index. -/
def matchDims : List (Nat × Nat) → Nat → Nat → Option Nat
  | [], x, i => if x = 0 then some i else none
  | (c, s) :: r, x, _ => if x / s < c then matchDims r (x % s) (x / s) else none

/-- Where a row of a block's map stands at a block offset: the instance index, and whether it is the in-force view. -/
def RegRow.at? (r : RegRow) (o : Nat) : Option (Nat × Bool) :=
  match (if r.off ≤ o then matchDims r.dims (o - r.off) 0 else none) with
  | some i => some (i, false)
  | none =>
    match r.act with
    | none => none
    | some a => if a ≤ o then (matchDims r.dims (o - a) 0).map fun i => (i, true) else none

/-- First row of a list that stands at a block offset. -/
def findRowIn : List RegRow → Nat → Option (RegRow × Nat × Bool)
  | [], _ => none
  | r :: rs, o =>
    match r.at? o with
    | some (i, b) => some (r, i, b)
    | none => findRowIn rs o

/-- The register row at a host address (R12, R364). -/
def findRow (a : Nat) : Option (RegRow × Nat × Bool) :=
  if a < 0x40000000 then none else findRowIn (blockRows ((a - 0x40000000) / 0x10000)) (a % 0x10000)

/-- The reset value of the register at a host address; 0 where no register stands (R362). The start of the trace ring, which
the spec leaves to the firmware, is 0x1000_0000 (log entry 3). -/
def resetVal (a : Nat) : W32 :=
  match findRow a with
  | none => 0
  | some (r, i, _) =>
    match r.special with
    | 0 => BitVec.ofNat 32 r.reset
    | 1 => Config.fusedWord a
    | 2 => BitVec.ofNat 32 (costReset i)
    | 3 => BitVec.ofNat 32 (stpTab.getD i 0)
    | 4 => BitVec.ofNat 32 (r.reset + 0x40 * i)
    | 5 => (Config.fusedWord a &&& 0xFF00#32) ||| BitVec.ofNat 32 r.reset
    | 6 => (Config.fusedWord a &&& 0xFFFF#32) ||| BitVec.ofNat 32 r.reset
    | _ => 0x10000000#32

end Sys2Proof.Machine
end

