-- ==== Sys2Proof/Machine/State.lean ====
section
/-! DEFINITION. The state of the block: the queue of waiting commands, the clock, and the device. Registers stand in one sparse
table by address (R12); what the spec describes behind the registers stands in the records below. Every table is sparse and
canonical: keys rise, and no entry equals what an unlisted key reads as. Everything is plain data. -/

namespace Sys2Proof.Machine

/-- A sparse table of plain data by number. -/
abbrev Tab (α : Type) := List (Nat × α)

/-- Device states, with the codes of R382 (R39). -/
inductive DevState where
  | off | standby | doze | boot | ready | run | safe | mirror
  deriving DecidableEq, Repr

/-- Lane states, with the codes of R382 (R44). -/
inductive LaneState where
  | disabled | armed | enabled | stopping | fault
  deriving DecidableEq, Repr

/-- The time base: local oscillator ticks since the last reset of the time base, and the time of record in units of
2^-48 ns (R55, R56). -/
structure Clock where
  osc : Nat := 0
  tor : Nat := 0
  deriving DecidableEq, Repr

/-- The network time servo behind the TIME registers (R58 to R64, R612, R613). Rates are in units of 2^-56 ppb, in which the products of
R58 are exact. -/
structure Servo where
  /-- An offset has been received since the restart into SLAVE (R60). -/
  seen : Bool := false
  integ : Int := 0
  /-- Steering value ys, without the slew term. -/
  ys : Int := 0
  /-- The slew term is part of y while this is not 0: part of the accepted step not yet removed, in 2^-48 ns. -/
  slewRem : Int := 0
  /-- A step in ns that the next tick applies (R60, R64). -/
  stepNow : Option Int := none
  /-- Consecutive offsets within LTHR (R59). -/
  good : Nat := 0
  /-- Time of record at entry into HOLDOVER, 2^-48 ns (R63). -/
  holdFrom : Nat := 0
  /-- Instant in ns from which the watch of R62 runs; it moves with a step of the time of record. -/
  watchFrom : Nat := 0
  /-- Local tick at which the last step acted (R74). -/
  stepAt : Option Nat := none
  /-- HOLD_EXP was set in the present HOLDOVER (R63). -/
  expired : Bool := false
  /-- FC033 reported for the present loss (R62). -/
  lossReported : Bool := false
  /-- Interval of the Sync messages of the master, in ns (R62). -/
  syncNs : Nat := 31250000
  deriving DecidableEq, Repr

/-- A gate behind its registers (R65 to R74). -/
structure GateX where
  /-- A committed group (ACT_CFG, ACT_PER, compare) that waits for the pending firing (R73). -/
  after : Option (Nat × Nat × Nat) := none
  /-- Last firing instant in ns (R66 MARK). -/
  fired : Nat := 0
  /-- Compare of the last firing (R30, R79). -/
  last : Nat := 0
  /-- Instant at which the gate's data was complete; none: no data was ever given (R70). -/
  dataAt : Option Nat := none
  /-- Work answered when the gate acts. -/
  work : Option Nat := none
  deriving DecidableEq, Repr

/-- A request that has arrived: t_arr, SRC of the Ruori frame that brought it, and its words 0 to 4 + LEN, or 64 words where LEN exceeds 59
(R369, R370, R378). -/
structure MbxReq where
  tArr : Nat
  /-- Fraction of t_arr in 2^-16 ns (R9). -/
  frac : Nat
  src : Byte
  words : List W64
  deriving DecidableEq, Repr

/-- Mailbox m behind its registers (R369 to R379). -/
structure Mbox where
  /-- Requests taken from the buffer or the chain that wait for t_ref, in order of arrival; and those that wait for entries (R376). -/
  reqs : List MbxReq := []
  wait : List MbxReq := []
  /-- Instant at which BUSY clears (R369). -/
  busyTo : Option Nat := none
  /-- Responses produced so far, the SEQ of R375. -/
  rspSeq : Nat := 0
  /-- Requests taken in the present epoch in stream order, with whether each has its final response (R379). -/
  taken : List (Nat × Bool) := []
  /-- The latest response to the last request taken, words 0 to 7 (R372). -/
  lastRsp : List W64 := []
  /-- Responses that wait for a free entry (R376; log entry 28). -/
  late : List (List W64) := []
  /-- Staging copy of cam.load or ext.load: opcode, last SEGIDX, payloads in order (R385). -/
  stage : Option (Nat × Nat × List (List W64)) := none
  deriving DecidableEq, Repr

/-- An accepted command without its final response (R374): its id is 65,536 × mailbox + SEQ. -/
structure Work where
  id : Nat
  opc : Nat
  unit : Nat
  promise : Nat
  src : Byte
  deriving DecidableEq, Repr

/-- A fault record (R552). -/
structure FltRec where
  t : Nat
  fcode : Nat
  unit : Nat
  inj : Bool
  info : Nat
  deriving DecidableEq, Repr

/-- The fault unit behind its registers (R550 to R562). -/
structure Flt where
  log : List FltRec := []
  /-- Oscillator tick at which the open 1 ms window of a report limit opened, by code × 2^16 + unit (R550). -/
  windows : Tab (Option Nat) := []
  /-- Device-class faults whose condition is present (R40). -/
  active : List Nat := []
  /-- An injection into memory that has acted and waits for the write: word address, POSA, POSB (R562). -/
  injMem : Option (Nat × Nat × Nat) := none
  /-- An injection into a packet: UNIT, type, POSA, POSB (R562). -/
  injPkt : Option (Nat × Nat × Nat × Nat) := none
  /-- Pair silence until this instant in ns (R562). -/
  silentUntil : Nat := 0
  /-- Memory words scrubbed in the present pass (R547) and the instant the pass began, in ticks. -/
  scrubbed : Nat := 0
  passFrom : Nat := 0
  deriving DecidableEq, Repr

/-- What the Herder holds of a slot beyond HERDER_JOBj (R290 to R302). -/
structure JobX where
  /-- Instant of entry into READY in ns. -/
  readyAt : Nat := 0
  /-- The period or trajectory instant the instance belongs to (R85, R294): s_k, t_j or LAUNCH; k of that period (R326). -/
  inst : Nat := 0
  k : Nat := 0
  /-- One-shot work this slot serves. -/
  work : Option Nat := none
  /-- Packets its engine had received when the slot was armed (R330). -/
  mark : Nat := 0
  deriving DecidableEq, Repr

/-- A job on an engine: slot, start in ticks of the local oscillator, ns already used before the last resume, bank (R299, R300, R313). -/
structure RunJob where
  slot : Nat
  start : Nat
  used : Nat
  shadow : Bool
  /-- The inbox snapshot the job took at its start, X5 (R330). -/
  inbox : Nat := 0
  deriving DecidableEq, Repr

/-- What the Herder holds of an engine (R298, R300, R317). -/
structure EngX where
  run : Option RunJob := none
  preempted : Option RunJob := none
  dmax : Nat := 0
  wmin : Nat := 0xFFFFFFFF
  wmax : Nat := 0
  wsum : Nat := 0
  wcnt : Nat := 0
  load : Nat := 0
  deriving DecidableEq, Repr

/-- The Herder behind its registers. -/
structure Herder where
  /-- Slots in READY and slots in DELAY (R297, R298). -/
  ready : List Nat := []
  delay : List Nat := []
  /-- Entries still to be recorded before the ring freezes (R321). -/
  postLeft : Option Nat := none
  /-- Admitted one-shot demands: engine, cost, window, end of the window in ns, work id (R309). -/
  demands : List (Nat × Nat × Nat × Nat × Nat) := []
  /-- Slots of the set-point and loop jobs that a configuration or a command has admitted, rising (R308; log entry 19). -/
  admitted : List Nat := []
  /-- Start of the present statistics window in ns (R317). -/
  winFrom : Nat := 0
  /-- Last Herder tick instant served, as a tick index (R295). -/
  tickDone : Nat := 0
  /-- Tick of the local oscillator of the last dispatch (R299). -/
  lastDispatch : Option Nat := none
  /-- Decrements on their way to the Herder: slot, instance, and the instant in ns at which each takes effect (R295). -/
  decs : List (Nat × Nat × Nat) := []
  deriving DecidableEq, Repr

/-- A bank of a Shosto engine (R325). -/
structure Bank where
  x : Tab W32 := []
  a0 : W72 := 0
  a1 : W72 := 0
  z : Bool := false
  n : Bool := false
  c : Bool := false
  v : Bool := false
  sat : Bool := false
  av0 : Bool := false
  av1 : Bool := false
  cb0 : W32 := 0
  cb1 : W32 := 0
  cb2 : W32 := 0
  cb3 : W32 := 0
  /-- Return stack, last pushed first. -/
  stack : List (BitVec 16) := []
  /-- Executions of the next instruction still to be made under REP (R342). -/
  rep : Option Nat := none
  /-- Active LOOP: first byte of the body, first byte past it, iterations left (R342). -/
  loop : Option (Nat × Nat × Nat) := none
  /-- Byte address of the next instruction; 65,536 past the last word. -/
  pc : Nat := 0
  deriving DecidableEq, Repr

/-- A Shosto engine: two banks, the inbox state, the stream counts of SEND (R325, R330, R348). -/
structure Engine where
  primary : Bank := {}
  shadow : Bank := {}
  /-- Bit i: buffer of inbox position i with the latest complete packet (R330). -/
  inbox : Nat := 0
  /-- Packets written to the inbox so far, and for each position the count at its latest packet (R330). -/
  arrivals : Nat := 0
  arrAt : Tab Nat := []
  /-- Packets waiting in the delivery stage: position and packet (R330). -/
  waiting : List (Nat × Packet) := []
  /-- Entry offset, in words, of the extension program in the slot (R352). -/
  entry : Nat := 0
  /-- A debug session is open on the engine, and BRK has halted it (R340); nothing the spec describes opens or ends a session (log entry 99). -/
  debug : Bool := false
  halted : Bool := false
  deriving DecidableEq, Repr

/-- A change of a lane's state that is accepted and not yet in effect (R45): not before this instant, to this state,
and the work it answers. -/
structure LaneChg where
  at_ : Nat
  target : LaneState
  work : Option Nat
  /-- Code of the fault behind a change into FAULT, or 0. -/
  code : Nat := 0
  /-- DIR of lane.enable: 0, 1 or −1 (R190). -/
  dir : Int := 0
  deriving DecidableEq, Repr

/-- A lane or slot, by unit code 0x00 to 0x3F (R27, R44, R45); virtual slots use the epoch only, which a change of their mode raises
(R31). -/
structure LaneX where
  state : LaneState := .disabled
  /-- State epoch modulo 256 (R31). -/
  epoch : Nat := 0
  disputed : Bool := false
  /-- Consecutive reloads at which table and data path disagreed (R557). -/
  disagree : Nat := 0
  /-- Sample instant of the last period counted as held (R98). -/
  heldAt : Option Nat := none
  /-- Instant of the marking as DISPUTED (R558). -/
  disputedAt : Nat := 0
  /-- Code of the fault that put the lane in FAULT (R221). -/
  fcode : Nat := 0
  /-- Counts as faulted before the sample gate that shows FAULT (R100, R178, R224). -/
  faulted : Bool := false
  /-- The fault was FL202, or FL120 with cause ECC (R546). -/
  eccFault : Bool := false
  /-- A comparator trip holds the pins at high impedance (R119, R121). -/
  trip : Bool := false
  /-- Pins at high impedance from the coming reload (R178). -/
  hiZ : Bool := false
  /-- Instant of the last state change: the next one takes a sample gate of its own (R45). -/
  changedAt : Option Nat := none
  /-- DIR of the enable in force, and its instant (R191, R193). -/
  dir : Int := 0
  enabledAt : Nat := 0
  /-- Promised gate of ARMED of the accepted stop (R45, R254); 0 none. -/
  armedAt : Nat := 0
  /-- The lane's streams of types 0x10 and 0x20: SEQ of the first packet of the present period (R85). -/
  seq10 : Nat := 0
  seq20 : Nat := 0
  /-- Accepted changes not yet in effect, in order of acceptance (R45). -/
  chg : List LaneChg := []
  deriving DecidableEq, Repr

/-- A switch of a servo lane: commanded on or off since an instant, its pin's state, and the instants of its last turn-off and turn-on;
instants in 250 ps (R207 to R210, R465, R616). -/
structure Sw where
  cmd : Bool := false
  cmdAt : Nat := 0
  on : Bool := false
  offAt : Nat := 0
  onAt : Nat := 0
  deriving DecidableEq, Repr

/-- A switch edge that lies ahead, at an instant in 250 ps (R209). -/
structure Edge where
  t : Nat
  sw : Nat
  on : Bool
  deriving DecidableEq, Repr

/-- A set-point or master sample: instant in ns, position in 2^-32 counts, velocity s31.32, acceleration and jerk s47.16, epoch
of its brand (R234, R252, R264). -/
structure Sample where
  t : Nat := 0
  p : Int := 0
  v : Int := 0
  a : Int := 0
  j : Int := 0
  epoch : Nat := 0
  /-- The sample carries UNC, EXTRAP, AMPL or an invalid flag (R271). -/
  bad : Bool := false
  deriving DecidableEq, Repr

/-- A servo lane's PWM and current control behind its registers (06, 07). Currents and voltages in s1.30 units. -/
structure PwmX where
  /-- Instant of the commit that waits, its brand's s_k, and its EPOCH (R214 to R217, R557). -/
  commitAt : Option Nat := none
  commitSk : Option Nat := none
  commitEpoch : Option Nat := none
  /-- A commit that completed after the latch point of the one above: instant, s_k, EPOCH (R215). -/
  after : Option (Nat × Option Nat × Option Nat) := none
  /-- The last transfer: its tick, and the values in force before it (R120, R225). -/
  undo : Option (Nat × List (Nat × W32)) := none
  /-- End of the staging lock, 0 none, and the writes it holds (R215). -/
  lockUntil : Nat := 0
  held : List (Nat × W32) := []
  /-- Last reload instant. -/
  reloadAt : Nat := 0
  sw : List Sw := []
  edges : List Edge := []
  /-- Integrators n_d and n_q (R180). -/
  nd : Int := 0
  nq : Int := 0
  /-- Current reference of the velocity job, used from the next current job (R91); one that came past its deadline waits for the current job
  after that (R102). -/
  iqRef : Int := 0
  iqLate : Option Int := none
  /-- The reference used by the last current job, of the type 0x73 record. -/
  iqUsed : Int := 0
  /-- Velocity reference and integrators of the velocity and position jobs. -/
  velRef : Int := 0
  velInt : Int := 0
  posInt : Int := 0
  /-- Velocity of a flying start: the reference of the first velocity job (R192). -/
  velFirst : Option Int := none
  /-- Set-points that arrived before their instants, newest first (R92, R234). -/
  sps : List Sample := []
  /-- Last set-point taken at a position instant: position in 2^-32 counts and velocity s31.32 (R92, R234). -/
  spUsed : Int := 0
  spVel : Int := 0
  /-- A slow job of the period is late (R102). -/
  slowInst : Nat := 0
  deriving DecidableEq, Repr

/-- A DC group behind its registers (R197 to R201, R133). -/
structure GroupX where
  /-- Brake law state; BRKg's carrier runs from this firing of its gate, 0 none (R228). -/
  carrier : Option Nat := none
  /-- Instant and voltage of the sample that turned the chopper on (R198). -/
  onAt : Nat := 0
  onV : Int := 0
  /-- The last sample was at or above OVTRIP (R199). -/
  ovRun : Bool := false
  /-- Forced to high impedance by an overvoltage (R221). -/
  forced : Bool := false
  /-- Hold instant of a DC-link sample that is under conversion (R128). -/
  dcAt : Option Nat := none
  /-- The safety unit holds the group's direct path at high impedance (R480). -/
  stoZ : Bool := false
  /-- The chopper's commanded state, before its gate applies it (R197). -/
  chopNext : Bool := false
  /-- Instant of the last firing that started or ended a brake carrier (R228, R465). -/
  turnAt : Nat := 0
  deriving DecidableEq, Repr

/-- An accepted configuration image that waits for its commit instant (R383, R384): the group it goes to (the address of the
group's first register), the earliest instant, the commit instant that was promised, the address and value pairs, and the work it
answers. -/
structure PendImg where
  group : Nat
  from_ : Nat
  due : Nat
  pairs : List (Nat × Nat)
  work : Option Nat
  deriving DecidableEq, Repr

/-- A feedback port behind its registers (05). Positions are in 2^-32 counts, instants in ns. -/
structure FbkX where
  /-- Count: of edges in Quadrature and Hall, quarter-periods q in sin/cos, unused otherwise (R142, R143, R150). -/
  count : Int := 0
  /-- Accepted levels of pins A, B and D. -/
  a : Bool := false
  b : Bool := false
  alarm : Bool := false
  /-- Stamps and directions of the last accepted counting edge and the one before (R145). -/
  e1 : Option (Nat × Int) := none
  e0 : Option (Nat × Int) := none
  /-- Accepted Hall code, the last code of the forward sequence seen, and the run of legal changes in one direction (R143). -/
  hall : Nat := 0
  /-- The code at the last latch (R189). -/
  hallK : Nat := 0
  hallRun : Nat := 0
  hallDir : Int := 0
  /-- FL061 was reported since ERUN was cleared (R144). -/
  erun61 : Bool := false
  /-- Tick of the last illegal transition (R156). -/
  illAt : Option Nat := none
  /-- Position and instant of the last latch; none: the next latch is the first after a commit (R154). -/
  x : Int := 0
  at_ : Option Nat := none
  /-- Velocity of the last latch, s31.32. -/
  v : Int := 0
  /-- Count and edge history after each change of the last 512 ns, and the one before, newest first: acceptance instant, count,
  last edge, edge before it (R159, R162). -/
  hist : List (Nat × Int × Option (Nat × Int) × Option (Nat × Int)) := []
  /-- Position of the last valid frame or usable sample. -/
  xr : Int := 0
  /-- Gate instant of a serial frame or SAR pair under way. -/
  gate : Option Nat := none
  /-- Last valid raw field (R149) or angle in u0.32 turns (R153). -/
  raw : Option Nat := none
  /-- The index reference has been learned (R155). -/
  learned : Bool := false
  /-- fbk.set_pos waits for a latch: position, earliest instant, work (R157). -/
  setPos : List (Int × Nat × Option Nat) := []
  /-- The next latch reports v = 0 (R154). -/
  fresh : Bool := true
  /-- Stamp of the last accepted counting edge, which the Stride generator interpolates from (R165). -/
  lastEdge : Option Nat := none
  /-- In sin/cos mode, what index corrections and fbk.set_pos have added to the position, in 2^-32 counts (R155, R157). -/
  sinOff : Int := 0
  /-- The last latches, newest first: instant, position, EXTRAP (R161). -/
  lat : List (Nat × Int × Bool) := []
  /-- The instant and position of the last fbk.set_pos reported (R162). -/
  setAt : Option (Nat × Int) := none
  /-- The gate under way is the port's own, at which Stride groups commit (R168). -/
  own : Bool := false
  /-- End of the monoflop time after the last SSI frame (R146). -/
  monoEnd : Nat := 0
  deriving DecidableEq, Repr

/-- A unit of a Stride output that is pending: its number, direction, edge instant, and whether its crossing is extrapolated
(R165). -/
structure StrUnit where
  u : Int
  fwd : Bool
  t : Nat
  extrap : Bool
  deriving DecidableEq, Repr

/-- A Stride output behind its registers (R163 to R169). -/
structure StrX where
  run : Bool := false
  /-- Units crossed or planned so far, and the highest reached (R166). -/
  u : Int := 0
  umax : Int := 0
  pend : List StrUnit := []
  /-- Units whose instant is fixed, in order: instant, direction, queued for spacing. -/
  out : List (Nat × Bool × Bool) := []
  /-- Instant of the last unit fixed. -/
  lastAt : Option Nat := none
  /-- Levels of pins A and B without POL, and the end of the pulse that runs. -/
  a : Bool := false
  b : Bool := false
  pulseEnd : Option Nat := none
  /-- EN = 0 or N = 0 was committed: both pins return to 0 after the units already fixed (R168, R174). -/
  stop : Bool := false
  /-- The last interval of the source: two positions and their instants (R165). -/
  seg : Option (Int × Int × Nat × Nat) := none
  work : Option Nat := none
  deriving DecidableEq, Repr

/-- Position, velocity and acceleration at an instant, in counts and seconds. -/
structure Kin where
  p : Rat := 0
  v : Rat := 0
  a : Rat := 0
  deriving DecidableEq, Repr

/-- A segment of a profile: jerk and duration. -/
abbrev Seg := Rat × Rat

/-- What gear.set or cam.set gave (R244, R249, R388); `key` names the master's samples (R250). -/
structure Master where
  cam : Bool
  key : Nat
  typ : Nat
  slot : Nat
  addr : Nat
  table : Nat
  rel : Bool
  toMatch : Bool
  n : Int
  m : Nat
  g0 : Rat
  x0 : Rat
  deriving DecidableEq, Repr

/-- What a trajectory command does at its takeover instant (R236, R254). Positions in 2^-32 counts, velocities s31.32, limits in the
register formats. -/
inductive AxOp where
  | moveAbs (x : Int)
  | moveRel (x : Int)
  | retarget (x : Int)
  | moveVel (v : Int)
  /-- move.stop, or lane.stop where `lane` is set. -/
  | stop (lane : Bool)
  | limits (v a d j : Nat)
  | master (m : Master)
  deriving DecidableEq, Repr

/-- An accepted trajectory command before its takeover instant (R235). -/
structure AxCmd where
  op : AxOp
  ta : Nat
  work : Option Nat
  deriving DecidableEq, Repr

/-- An axis slot behind its registers (08). -/
structure AxX where
  /-- Last trajectory instant t_j (R232). -/
  tj : Nat := 0
  /-- A real slot follows its mode: the lane runs in start class Standstill or Flying (R256). -/
  live : Bool := false
  /-- The profile in force: its start instant, state and segments. In GEAR and CAM it is that of the correction e (R245). -/
  t0 : Nat := 0
  k0 : Kin := {}
  segs : List Seg := []
  /-- The position a POSITION profile ends at. -/
  final : Option Rat := none
  /-- The velocity a VELOCITY ramp ends at. -/
  vEnd : Rat := 0
  /-- Instant at which the profile in progress completes: t_c, the end of the ramp or stop, or SYNC (R241, R242, R245, R254). -/
  tc : Option Nat := none
  work : Option Nat := none
  /-- Accepted commands, in order of acceptance. -/
  pend : List AxCmd := []
  mst : Option Master := none
  /-- The master samples taken at the launch of the next instant's job, by key (R252). -/
  snaps : List (Nat × Option Sample) := []
  /-- EPOCH of the last remote sample used (R252). -/
  mepoch : Option Nat := none
  /-- The stop began in GEAR or CAM (R237). -/
  fromMst : Bool := false
  /-- The lane enters ARMED when the stop ends (R254), or FAULT with this code (R253). -/
  laneStop : Bool := false
  faultEnd : Nat := 0
  /-- Work was discarded: the slot enters STOP at its next instant (R255). -/
  disc : Bool := false
  /-- The slot enters STOP from every mode at its next instant (R253, R490); its lane enters ARMED when that stop ends (R490). -/
  halt : Bool := false
  haltLane : Bool := false
  /-- HOLD_EXP was set while the slot followed another device: FL031 at its next position-loop instant (R63, R253). -/
  hold31 : Bool := false
  /-- SLSV of the lane while SLS is active, and a re-planning is due (R491). -/
  vcap : Option Nat := none
  replan : Bool := false
  /-- On the standby of a pair: X0 and G0 of the slot's master, and whether its correction ends at rest anywhere (R244, R245). -/
  origin : Option (Rat × Rat × Bool) := none
  deriving DecidableEq, Repr

/-- A cam table (R247, R248): points as s31.32, and the second derivative at each point. -/
structure CamTab where
  pts : List (Int × Int) := []
  m2 : List Rat := []
  deriving DecidableEq, Repr

/-- A cam.load under way (R309, R311): its one-shot slot, the table number by engine, type, end, points, blocks left, and work. -/
structure CamLoad where
  job : Nat
  tab : Nat
  spline : Bool
  periodic : Bool
  pts : List (Int × Int)
  blocks : Nat
  unit : Nat
  work : Nat
  deriving DecidableEq, Repr

/-- An output of a process loop: its instant o_j, trim position w and trim d (R280, R281). -/
structure LoopOut where
  at_ : Nat
  w : Rat
  d : Rat
  deriving DecidableEq, Repr

/-- An accepted loop.mode or loop.set before its takeover instant (R274): the mode with MOUT, or SP. -/
structure LoopCmd where
  ta : Nat
  mode : Option (Nat × W32) := none
  sp : W32 := 0
  work : Option Nat := none
  deriving DecidableEq, Repr

/-- A process loop block behind its registers (09). Values in units of 2^-16. -/
structure LoopX where
  /-- Outputs, newest first. -/
  outs : List LoopOut := []
  /-- Last loop instant, and the output instant whose output is expected. -/
  tj : Nat := 0
  due : Option Nat := none
  pend : List LoopCmd := []
  /-- PV and z sampled at the last instant: value, validity of PV, whether the law acts (R271, R272). -/
  pv : Int := 0
  pvOk : Bool := false
  acts : Bool := true
  z : Option Int := none
  /-- Derivative filter. -/
  df : Int := 0
  /-- No AUTO instant with a valid PV and without DHOLD since the entry into AUTO (R276). -/
  fresh : Bool := true
  /-- A commit changed KP, KI, KD or FFWD; the first instant after a commit is still to come (R276, R279). -/
  gains : Bool := false
  place : Bool := true
  /-- Instant of the last probe event used (R272). -/
  markT : Option Nat := none
  deriving DecidableEq, Repr

/-- What a stepper bridge does (R261): nothing, slow decay at code 0, DRIVE, or OFF. -/
inductive BridgeSt where
  | coast | slow | drive | off
  deriving DecidableEq, Repr

/-- A bridge of a stepper lane (R259 to R263). Instants in ns. -/
structure Bridge where
  st : BridgeSt := .coast
  code : Nat := 0
  /-- Sign of I_x (true: not negative), and of the last DRIVE. -/
  pos : Bool := true
  driven : Option Bool := none
  /-- End of the blanking of this DRIVE; end of the fast decay and end of this OFF. -/
  blank : Nat := 0
  fastEnd : Nat := 0
  offEnd : Nat := 0
  /-- A trip in this carrier period; consecutive periods without one. -/
  trip : Bool := false
  opens : Nat := 0
  /-- The OFF in progress is the one of a reversal (R262). -/
  rev : Bool := false
  deriving DecidableEq, Repr

/-- A stepper lane behind its registers (R258 to R263). -/
structure StpX where
  a : Bridge := {}
  b : Bridge := {}
  /-- Microstep of the last carrier start, and the instant it last changed. -/
  m : Option Int := none
  since : Nat := 0
  hold : Bool := false
  /-- Set-points received for the lane's slot, newest first; position in 2^-32 counts and velocity s31.32 at the last carrier start
  (R234). -/
  sps : List Sample := []
  spUsed : Int := 0
  spVel : Int := 0
  /-- Instant of the commit that waits and of one after its latch point, end of the staging lock (0 none) and the writes it holds (R215,
  R227). -/
  commitAt : Option Nat := none
  after : Option Nat := none
  lockUntil : Nat := 0
  held : List (Nat × W32) := []
  /-- The last transfer: its tick, and the values in force before it (R225). -/
  undo : Option (Nat × List (Nat × W32)) := none
  deriving DecidableEq, Repr

/-- The image of an extension (R352): entry offset, code, initial data, declared cost in ns. -/
structure ExtImg where
  entry : Nat := 0
  code : List W32 := []
  data : List W64 := []
  cost : Nat := 0
  deriving DecidableEq, Repr

/-- An accepted ext.load that waits for its lane's sample gate (R352). -/
structure ExtLoad where
  lane : Nat
  from_ : Nat
  img : ExtImg
  work : Option Nat
  deriving DecidableEq, Repr

/-- A delta-sigma channel behind its registers (R614, R117, R123). -/
structure DsfX where
  /-- Last restart of the bitstream in ns. -/
  restart : Nat := 0
  /-- Comparator outputs still to be ignored. -/
  ignore : Nat := 0
  /-- DSF_Cnn_RES holds a result that nothing has read. -/
  unread : Bool := false
  /-- Last sample gate a result was formed for. -/
  forGate : Option Nat := none
  /-- OFFS and GAIN that windows open before a commit still use: the commit's instant and the old values, oldest first (R115). -/
  old : List (Nat × W32 × W32) := []
  /-- The same for the comparator: DSF_Cnn_CMP and THR. -/
  cmpOld : List (Nat × W32 × W32) := []
  /-- Number of the last comparator output taken, counted from network time 0 (R117). -/
  cmpN : Nat := 0
  deriving DecidableEq, Repr

/-- What a SAR converter converts: a held sample of a channel, held at an instant on behalf of a purpose. -/
inductive SarHold where
  /-- First or second sample of lane l's feedback pair (R129). -/
  | pair (l : Nat) (second : Bool)
  /-- A shared DC-link channel of group g (R128). -/
  | link (g : Nat)
  /-- The brake current of group g, held while its chopper had been on for 2 µs or not (R198). -/
  | brake (g : Nat) (on : Bool)
  deriving DecidableEq, Repr

/-- A SAR converter behind its registers (R128 to R131). -/
structure SarX where
  /-- Held samples in order of hold: channel, hold instant, purpose. -/
  held : List (Nat × Nat × SarHold) := []
  /-- Sequence lists started and not finished: list, next entry, gate instant. -/
  seqs : List (Nat × Nat × Nat) := []
  /-- End of the last conversion in ns. -/
  freeAt : Nat := 0
  /-- The entry under conversion is the last of its list, whose other entries were dropped (R130). -/
  cut : Bool := false
  /-- First code of the pair under conversion, and the instant of the last pair's second code (R129). -/
  pairS : Nat := 0
  pairAt : Nat := 0
  /-- Channels whose code nothing has read, as a mask. -/
  unread : Nat := 0
  /-- Hold instant of the last code of each channel. -/
  stamps : Tab (Option Nat) := []
  deriving DecidableEq, Repr

/-- A probe or a command input behind its registers: events that wait for the bracketing latch (probe port mask left, rising,
stamp), and the last accepted rising edge (R161, R195). -/
structure PinX where
  wait : List (Nat × Bool × Nat) := []
  lastEdge : Option Nat := none
  interval : Nat := 0
  deriving DecidableEq, Repr

/-- The fabric: packets on their way, producer counts and last accepted SEQ per stream (R32), counters. -/
structure Fabric where
  flight : List Packet := []
  prodSeq : Tab Nat := []
  /-- Last accepted SEQ plus 1 by ADDR × 2^15 + UNIT × 2^7 + type; 0: none yet. -/
  lastSeq : Tab Nat := []
  stale : Nat := 0
  gap : Nat := 0
  malformed : Nat := 0
  deriving DecidableEq, Repr

/-- Supplies, resets and pending power transitions (R564 to R577). -/
structure Power where
  /-- VIN is above its thresholds. -/
  vin : Bool := true
  /-- RESET_N is low (R576). -/
  resetLow : Bool := false
  /-- The regulators are off for over-temperature (R590). -/
  hot : Bool := false
  /-- A brown-out preceded the next power-on (R575). -/
  brown : Bool := false
  /-- Bit b: VIO bank b (A to F) is up (R565). -/
  vio : Nat := 63
  /-- Entry into STANDBY or DOZE at an instant (R570). -/
  sleepAt : Option (Nat × DevState) := none
  /-- Entry into BOOT at an instant, for sys.reset and pair.leave (R575). -/
  softAt : Option Nat := none
  /-- Wake events accepted since t_ref of the shutdown: SYS_WAKE bits (R572). -/
  early : Nat := 0
  /-- The 32-bit JTAG data register that BOOTST selects (R583). -/
  jtagDr : W32 := 0
  deriving DecidableEq, Repr

/-- A field channel behind its registers (R506 to R516). Instants in ns. -/
structure FioCh where
  /-- Last sample, the run of equal samples, and the frame instant of its first. -/
  samp : Bool := false
  run : Nat := 0
  since : Nat := 0
  /-- Command to the switch and the instant it last changed. -/
  cmd : Bool := false
  cmdAt : Nat := 0
  /-- The command until then, and the instant of the change before (R514). -/
  was : Bool := false
  wasAt : Nat := 0
  /-- Runs of mismatching samples and of samples with low current (R513, R514). -/
  rb : Nat := 0
  low : Nat := 0
  /-- Start of the command against which that run counts. -/
  rbAt : Nat := 0
  /-- The switch stays so until the channel's gate fires (R471, R515). -/
  held : Option Bool := none
  /-- The instant at which protection switched the channel off; until its gate fires with OUT = 0 (R511). -/
  cut : Option Nat := none
  /-- The die's copies of the safe state of an output and, while the core is down, of its mode (R515, R516). -/
  safest : Bool := false
  out : Bool := false
  /-- Present causes: overload behind LATCH, over-temperature (R511). -/
  ovl : Bool := false
  otemp : Bool := false
  deriving DecidableEq, Repr

/-- An io.set not yet applied in full (R510): first instant for its firings, channels left, values, work. -/
structure FioSet where
  from_ : Nat
  mask : Nat
  vals : Nat
  work : Nat
  deriving DecidableEq, Repr

/-- The field die and its link (R506 to R518). -/
structure Fio where
  ch : Tab FioCh := []
  /-- Common fault bit of the last frame, and its instant. -/
  common : Bool := false
  lastFrame : Nat := 0
  /-- Frame instant up to which commits and device states have acted (R516, R517). -/
  actedAt : Nat := 0
  /-- The watchdog has expired (R515). -/
  wd : Bool := false
  /-- VFLD is below its undervoltage threshold; the die was reset and no configuration followed (R516). -/
  low : Bool := false
  fresh : Bool := false
  /-- The window from BOOT to the first sys.run; the windows of sys.clear and io.diag by start, end and work (R512). -/
  winBoot : Bool := false
  wins : List (Nat × Nat × Option Nat) := []
  sets : List FioSet := []
  deriving DecidableEq, Repr

/-- A value of a capture channel (R525): effective instant, arrival instant, value. -/
structure CapVal where
  e : Int
  at_ : Nat
  v : W32
  deriving DecidableEq, Repr

/-- A capture channel behind its registers: arrived values, newest first, and the bitmap of field levels (R524, R526). -/
structure CapCh where
  vals : List CapVal := []
  bits : W32 := 0
  deriving DecidableEq, Repr

/-- The trigger of a record (R528, R529): instant of the trigger sample, TEFF, units met, samples before it. -/
structure CapTrig where
  t : Nat
  teff : Int
  mask : Nat
  before : Nat
  deriving DecidableEq, Repr

/-- A recorder behind its registers (R522 to R537). -/
structure CapX where
  /-- cap.arm waits for its gate; cap.stop with its launch time. -/
  armWork : Option Nat := none
  stop : Option (Nat × Nat) := none
  /-- Next sample instant to be written, while recording. -/
  next : Option Nat := none
  /-- The next sample is the first after arming (R527). -/
  first : Bool := true
  recno : Nat := 0
  /-- Ring index of the next frame, samples stored, instant of the oldest stored. -/
  pos : Nat := 0
  stored : Nat := 0
  /-- Samples of the record so far, samples after the trigger, start of its dead time. -/
  count : Nat := 0
  post : Nat := 0
  deadFrom : Nat := 0
  /-- Instant of the last sample written. -/
  last : Nat := 0
  /-- First sample at which a trigger could be accepted. -/
  ready : Option Nat := none
  trig : Option CapTrig := none
  missed : Nat := 0
  late : Nat := 0
  /-- Values of the previous sample by channel (RISE and FALL). -/
  prev : Tab W32 := []
  deriving DecidableEq, Repr

/-- A transmit entry of a CAN channel (R434, R437): launch time in ns, identifier and control words, data bytes, work of can.send. -/
structure CanTx where
  launch : Nat
  w2 : W32
  w3 : W32
  data : List Byte
  work : Option Nat := none
  deriving DecidableEq, Repr

/-- A CAN channel behind its registers (14). -/
structure CanX where
  /-- Receive ring, oldest first: the words of each entry. -/
  rx : List (List W32) := []
  seq : Nat := 0
  /-- Transmit queue in the order of queueing; the entry on the bus, by position, and its start. -/
  tx : List CanTx := []
  cur : Option (Nat × Nat) := none
  /-- Bus-off recovery runs (R446). -/
  recov : Bool := false
  /-- Overload frames counted (R432). -/
  overloads : Nat := 0
  deriving DecidableEq, Repr

/-- A chain port behind its registers (13). -/
structure ChainPort where
  /-- Store buffer, oldest first, and the instant until which the port sends (R396, R406). -/
  store : List EthFrame := []
  busy : Nat := 0
  /-- Local launches that wait for the port (R406). -/
  wait : List EthFrame := []
  /-- The last frame that left, with its launch instant. -/
  sent : Option (Nat × EthFrame) := none
  /-- Peer delay (R414): sequenceId, whether the exchange is under way, t1; t2 and t4 of the Resp; t3 and t4 of the exchange before. -/
  seq : Nat := 0
  open_ : Bool := false
  t1 : Option Nat := none
  resp : Option (Nat × Nat) := none
  prev : Option (Nat × Nat) := none
  /-- Completed exchanges in a row, up to 3; r was computed. -/
  good : Nat := 0
  rated : Bool := false
  /-- Instant of the latest Pdelay_Req (R414). -/
  reqAt : Option Nat := none
  deriving DecidableEq, Repr

/-- The chain behind its registers (13). -/
structure ChainX where
  ports : Tab ChainPort := []
  /-- Latest packet of each stream to another address with the instant it was complete, and the service queue (R404, R407). -/
  streams : List (Nat × Packet) := []
  svc : List (Nat × Packet) := []
  /-- Previous frame of each FRAME gate (R405). -/
  prev : Tab (Option EthFrame) := []
  /-- Next SEQ of the header stream to ADDR and UNIT (R398), of Sync and of Announce. -/
  seqs : Tab Nat := []
  /-- chain.enum in progress: work and its end (R423). -/
  enum : Option (Nat × Nat) := none
  idents : List Packet := []
  /-- Cycle instant at which CTL.CMT takes effect (R426). -/
  cmtAt : Option Nat := none
  /-- Instant of the latest Announce (R417). -/
  annAt : Option Nat := none
  /-- Further runs that a packet engine job owes: its events while its slot was armed (R409). -/
  again : Tab Nat := []
  deriving DecidableEq, Repr

/-- A cam.load under way on the active, as the standby follows it (R247, R461). -/
structure MirrorCam where
  work : Nat
  tab : Nat
  spline : Bool
  periodic : Bool
  pts : List (Int × Int)
  deriving DecidableEq, Repr

/-- The Pairs link, and what the standby follows of the active beside its records (R453, R461, R473). -/
structure PairLink where
  /-- Frames sent since the last heartbeat, that heartbeat among them, and the next frame's sequence (R453). -/
  frames : List LinkFrame := []
  fseq : Nat := 0
  /-- Header of the last good frame received; the delay the link measured, in 2^-16 ns (R453). -/
  rx : Option W64 := none
  delay : Nat := 0
  /-- The partner has shown the PSTATE that answers this device's present one (R456, R473; log entry 98). -/
  ack : Bool := false
  /-- cam loads under way on the active; points of a table that the snapshot brings. -/
  cams : List MirrorCam := []
  part : List (Int × Int) := []
  deriving DecidableEq, Repr

/-- The pair behind its registers (15). -/
structure PairX where
  /-- Requests of the active that the standby holds: mailbox, SEQ (R461). -/
  held : List (Nat × Nat) := []
  /-- What the standby stores: requests by 65,536 × mailbox + SEQ, and the latest decision or response by mailbox (R461). -/
  store : Tab (List W64) := []
  decided : Tab (List W64) := []
  /-- Mirror records sent since the last heartbeat, and the number received (R454, R458). -/
  sent : List Packet := []
  got : Nat := 0
  link : PairLink := {}
  /-- Configuration records that came after their commit instant, until the heartbeat that closes their batch (log entry 75). -/
  late : List Packet := []
  /-- Consecutive heartbeats beyond TOFFLIM, and complete ones in SYNCING (R455, R473). -/
  far : Nat := 0
  good : Nat := 0
  /-- The partner's last heartbeat: ROLE, state, PSTATE, ALLOW; whether one arrived for the present instant. -/
  seen : Option W64 := none
  beat : Nat := 0
  /-- Instant of the last SAFE notice (R464). -/
  notice : Option Nat := none
  /-- pair.join as STANDBY: promise and work (R473). -/
  join : Option (Nat × Nat) := none
  /-- Takeover instant, until the outputs are driven (R466), and instant from which slots, loops and lanes resume (R468). -/
  tk : Option Nat := none
  resume : Nat := 0
  /-- The survivor answers to its partner's address as well (R466). -/
  both : Bool := false
  /-- Lanes left out of readback until an instant (R458). -/
  excl : Tab Nat := []
  /-- The partner equals this device in member, core die revision and firmware image (R472). -/
  same : Bool := false
  /-- The last heartbeat sent, its instant, and the mirror records sent before it (R454, R458). -/
  word : W64 := 0
  sentAt : Nat := 0
  out : List Packet := []
  /-- What was last mirrored: the instant of slot a at 64 + a, of block b at 128 + b; periods since the last lane state record of lane l at
  192 + l, and the instant of that record at 224 + l, of a stepper lane its state and epoch; the mode of block b at 288 + b; the profile
  of slot a at 320 + a. Configuration registers as last mirrored (R458). -/
  marks : Tab Nat := []
  regs : Tab W32 := []
  /-- Images already mirrored (R458); mirrored configuration that waits for its commit instant on the standby. -/
  known : List PendImg := []
  recs : List Packet := []
  /-- A deviation under R459 since the last heartbeat; lanes whose port counts are aligned in this SYNCING (R473). -/
  deviated : Bool := false
  aligned : List Nat := []
  /-- Last instant of a readback compare (R465). -/
  rbAt : Nat := 0
  deriving DecidableEq, Repr

/-- A safety input behind its registers (R483 to R489). -/
structure SafeIn where
  /-- Runs of unmasked low and high samples. -/
  lows : Nat := 0
  highs : Nat := 0
  /-- Start-up test of a GUARD: 1 demand accepted, 2 ended (R488). -/
  guard : Nat := 0
  /-- Sample of the acceptance of a press, and a press that lasted too long and has not ended (R489). -/
  press : Option Nat := none
  stuck : Bool := false
  /-- Sample index at which a fall of an OSSD input began (R483). -/
  fall : Option Nat := none
  /-- The input read high before the pulse of another source. -/
  before : Bool := false
  /-- Passed tests in a row while closed throughout (R484). -/
  clean : Nat := 0
  deriving DecidableEq, Repr

/-- The safety unit behind its registers (16). -/
structure SafeX where
  /-- Cycles of 100 µs since its reset. -/
  n : Nat := 0
  si : Tab SafeIn := []
  /-- Cycle at which a group entered SS1, and at which its SLS demand was accepted (R487, R491). -/
  ss1 : Tab (Option Nat) := []
  sls : Tab (Option Nat) := []
  /-- Speed monitoring of the group runs; lane n is in violation (R491). -/
  ramped : Tab Bool := []
  viol : Tab Bool := []
  /-- Counts of port n at the last cycles, newest first (R491). -/
  counts : Tab (List Int) := []
  /-- The last type 0x21 of port n was without PASS (R492). -/
  noPass : Tab Bool := []
  /-- Groups that enter STO at the coming cycle, and consecutive implausible DC-link packets (R493). -/
  events : Nat := 0
  implausible : Tab Nat := []
  /-- The supervisor heartbeat is checked (R494). -/
  watch : Bool := false
  /-- safe.cfg that takes effect at the next cycle: image and work (R498). -/
  cfg : Option (List (Nat × Nat) × Nat) := none
  deriving DecidableEq, Repr

/-- What the host interface sends (R359 to R363). -/
structure Hpi where
  /-- Status bytes sent in the last transaction, oldest first. -/
  bytes : List Nat := []
  /-- Data words the last READ sent. -/
  words : List W32 := []
  /-- A READ that waits for writes of earlier transactions: its address and its number of words (R361). -/
  wait : Option (Nat × Nat) := none
  deriving DecidableEq, Repr

/-- The device. -/
structure Dev where
  dst : DevState := .boot
  /-- Registers by address; an unlisted one reads its reset value. -/
  regs : Tab W32 := []
  /-- Bytes of SRAM, engine memories, capture memory and mailbox buffers by host address. -/
  mem : List Host.Cell := []
  /-- Inverted codeword bits of a stored 64-bit word, by word address (R542). -/
  ecc : Tab Nat := []
  /-- The model's own: uses of the free value so far (log entry 5). -/
  free : Nat := 0
  /-- HPI status bits 1 to 5 (R363). -/
  hpi : Nat := 0
  hpio : Hpi := {}
  /-- Released block instances: block × 256 + instance, 255 for the whole block (R49, R387). -/
  released : List Nat := []
  servo : Servo := {}
  gates : Tab GateX := []
  mbx : Tab Mbox := []
  work : List Work := []
  flt : Flt := {}
  jobs : Tab JobX := []
  engx : Tab EngX := []
  her : Herder := {}
  lanes : Tab LaneX := []
  /-- State epochs of the units 0x40 and above, but mailboxes (R31). -/
  epochs : Tab Nat := []
  pwm : Tab PwmX := []
  groups : Tab GroupX := []
  /-- PFORCE_N is low (R452). -/
  pforce : Bool := false
  eng : Tab Engine := []
  fab : Fabric := {}
  imgs : List PendImg := []
  fbk : Tab FbkX := []
  str : Tab StrX := []
  ax : Tab AxX := []
  /-- Master samples by source, newest first: local slot a at a, port n at 64 + n, stream set-points of slot a at 128 + a, slot a of
  chain address c at 256 + 64 c + a (R250, R252); for the process loops probe p at
  40000 + p, lane n's torque at 41000 + n, the stream of block b at 42000 + b (R270). -/
  samples : Tab (List Sample) := []
  /-- Cam tables: table d of engine m at 16 m + d. -/
  cams : Tab CamTab := []
  camLoads : List CamLoad := []
  /-- The firmware's copy of each lane's last accepted extension (R546), and the loads that wait (R352). -/
  exts : Tab ExtImg := []
  extLoads : List ExtLoad := []
  loops : Tab LoopX := []
  stp : Tab StpX := []
  /-- sys.stop is in progress: its promise, and its work until it is answered (R43). -/
  sysStop : Option (Nat × Option Nat) := none
  /-- The firmware's copies of released configuration: block × 256 + instance, address, value (R51). -/
  copies : List (Nat × Nat × Nat) := []
  dsf : Tab DsfX := []
  /-- Start instant of each modulator clock that runs (R109). -/
  dsck : Tab (Option Nat) := []
  sar : Tab SarX := []
  prb : Tab PinX := []
  cmdin : Tab PinX := []
  /-- The CMDIN input the command converter converts next (R195). -/
  cmdNext : Nat := 0
  /-- Values latched for the read of a further register by the read of its first (R154, R160, R234, R290, R370). -/
  latch : Tab (Option W32) := []
  fio : Fio := {}
  cap : Tab CapX := []
  capCh : Tab CapCh := []
  can : Tab CanX := []
  chain : ChainX := {}
  pair : PairX := {}
  safe : SafeX := {}
  /-- The safety configuration stored in flash: address and value (R498, R578). -/
  safeStore : List (Nat × Nat) := []
  pow : Power := {}
  deriving DecidableEq, Repr

/-- The state of the block. -/
structure State where
  /-- Commands waiting, first in, first out. -/
  pending : List Instr := []
  clk : Clock := {}
  dev : Dev := {}
  deriving DecidableEq, Repr

/-- The machine right after reset: BOOT entered by the power-on (R575), time of record 0 (R57), every register at its reset
value, memories empty, nothing waiting. SYS_RST.POR is set. -/
def State.reset : State :=
  { dev := { regs := [(0x40000050, 1)] } }

/-- Why a step stops with a fault. No command of the spec ends a run so: the type is empty of reasons the machine raises. -/
inductive Fault where
  /-- Raised by nothing: every fault the spec describes is an effect on the state (R549). Safe. -/
  | none_
  deriving DecidableEq, Repr

/-- Why a command has no meaning. -/
inductive Refusal where
  /-- Raised by the dispatch for a row that has no meaning yet. Safe: the model stops. -/
  | notModelled (mnemonic : String)
  deriving DecidableEq, Repr

end Sys2Proof.Machine
end

