-- ==== Sys2Proof/Machine/Ops.lean ====
section
/-! DEFINITION. Named operations over tables, registers, memory, time, packets and the fault log. -/

namespace Sys2Proof.Machine

/-! Sparse tables. -/

/-- The value at key `k`, `d k` where none is listed. -/
def Tab.get {α : Type} (d : Nat → α) : Tab α → Nat → α
  | [], k => d k
  | (k', v) :: t, k => if k' = k then v else Tab.get d t k

/-- Insert before the first larger key. -/
def Tab.ins {α : Type} (k : Nat) (v : α) : Tab α → Tab α
  | [] => [(k, v)]
  | (k', w) :: t => if k < k' then (k, v) :: (k', w) :: t else (k', w) :: Tab.ins k v t

/-- Set key `k`; a value equal to the default is not listed. -/
def Tab.set {α : Type} [DecidableEq α] (d : Nat → α) (t : Tab α) (k : Nat) (v : α) : Tab α :=
  let t' := t.filter fun p => p.1 ≠ k
  if v = d k then t' else Tab.ins k v t'

/-- Apply `f` to every listed value, and list no default. -/
def Tab.mapV {α : Type} [DecidableEq α] (d : Nat → α) (f : α → α) (t : Tab α) : Tab α :=
  (t.map fun p => (p.1, f p.2)).filter fun p => p.2 ≠ d p.1

/-- The canonical form: keys strictly rising, no entry equal to the default. -/
def Tab.wf {α : Type} [DecidableEq α] (d : Nat → α) : Tab α → Bool
  | [] => true
  | (k, v) :: t => decide (v ≠ d k) && t.all (fun p => decide (k < p.1)) && Tab.wf d t

/-! Time. -/

/-- The whole-ns time of record (R56). -/
def Clock.ns (c : Clock) : Nat := c.tor / 2 ^ 48

/-- The fraction of the time of record in 2^-16 ns (R7). -/
def Clock.frac (c : Clock) : Nat := c.tor / 2 ^ 32 % 2 ^ 16

/-! Registers. -/

/-- The register word at a host address. -/
def Dev.reg (d : Dev) (a : Nat) : W32 := d.regs.get resetVal a

/-- Store a register word. -/
def Dev.setReg (d : Dev) (a : Nat) (v : W32) : Dev := { d with regs := d.regs.set resetVal a v }

/-- Replace bits `lo + w - 1` to `lo` of a word. -/
def insBits (x : W32) (lo w v : Nat) : W32 :=
  BitVec.ofNat 32 (x.toNat % 2 ^ lo + v % 2 ^ w * 2 ^ lo + x.toNat / 2 ^ (lo + w) * 2 ^ (lo + w))

/-- The value of a register field (R11). -/
def Dev.get (d : Dev) (f : Field) : Nat := (d.reg f.addr).toNat / 2 ^ f.lo % 2 ^ f.width

/-- A field of a register word. -/
def Field.of (f : Field) (w : W32) : Nat := w.toNat / 2 ^ f.lo % 2 ^ f.width

/-- Write a register field, leaving the register's other bits. -/
def Dev.put (d : Dev) (f : Field) (v : Nat) : Dev := d.setReg f.addr (insBits (d.reg f.addr) f.lo f.width v)

/-- A one-bit field as a truth value. -/
def Dev.flag (d : Dev) (f : Field) : Bool := d.get f = 1

/-- Set a one-bit field. -/
def Dev.setf (d : Dev) (f : Field) (b : Bool := true) : Dev := d.put f (if b then 1 else 0)

/-- A field read as two's complement. -/
def Dev.getI (d : Dev) (f : Field) : Int := sInt f.width (d.get f)

/-- Write a field as two's complement, wrapping. -/
def Dev.putI (d : Dev) (f : Field) (v : Int) : Dev := d.put f (uInt f.width v)

/-- A pair of registers read as one 64-bit number. -/
def Dev.get64 (d : Dev) (lo hi : Field) : Nat := d.get lo + d.get hi * 2 ^ 32

/-- A 64-bit number into a pair of registers. -/
def Dev.put64 (d : Dev) (lo hi : Field) (v : Nat) : Dev := (d.put lo (v % 2 ^ 32)).put hi (v / 2 ^ 32 % 2 ^ 32)

/-- Count up a saturating counter field. -/
def Dev.bump (d : Dev) (f : Field) (n : Nat := 1) : Dev := d.put f (satU f.width (d.get f + n))

/-- The access masks of the register at an address (R13): RW and RWS, W1C; none on an in-force view or where no register
stands. -/
def regMasks (a : Nat) : Nat × Nat :=
  match findRow a with
  | some (r, _, false) => (r.rw + r.rws, r.w1c)
  | _ => (0, 0)

/-- A configuration image is in order (R384): every address names an RW or RWS register that `ok` admits, none twice. -/
def imageOk (ok : Nat → Bool) (ps : List (Nat × Nat)) : Bool :=
  ps.all (fun p => decide ((regMasks p.1).1 ≠ 0) && ok p.1) && decide (ps.map (·.1)).Nodup

/-- Copy staged registers into force: pairs of addresses (R15). -/
def Dev.copyRegs (d : Dev) (ps : List (Nat × Nat)) : Dev := ps.foldl (fun d p => d.setReg p.2 (d.reg p.1)) d

/-! Memory. -/

/-- Host address of the vendor part of an engine memory: program below 0xC000 and data 0x0500 to 0xDFFF (R328, R350). -/
def isVendorAddr (a : Nat) : Bool :=
  0x20000000 ≤ a && a < 0x203C0000 &&
    (let o := a % 0x20000; o < 0xC000 || (0x10500 ≤ o && o < 0x1E000))

/-- What a byte that nothing has written reads as: vendor memory its vendor content, boot ROM and flash theirs, every
other byte 0 (log entries 4 and 6). -/
def memDflt (a : Nat) : Byte :=
  if isVendorAddr a then Config.vendorByte a
  else if a < 0x10000 || (0x60000000 ≤ a && a < 0x62000000) then Config.romByte a
  else 0

/-- The byte at a host address. -/
def Dev.byte (d : Dev) (a : Nat) : Byte := Tab.get memDflt d.mem a

/-- Store a byte. -/
def Dev.setByte (d : Dev) (a : Nat) (b : Byte) : Dev := { d with mem := Tab.set memDflt d.mem a b }

/-- `n` bytes little-endian (R5). -/
def Dev.rdN (d : Dev) (a : Nat) : Nat → Nat
  | 0 => 0
  | n + 1 => (d.byte a).toNat + 256 * d.rdN (a + 1) n

/-- Store `n` bytes little-endian (R5). -/
def Dev.wrN (d : Dev) (a : Nat) : Nat → Nat → Dev
  | 0, _ => d
  | n + 1, v => (d.setByte a (BitVec.ofNat 8 v)).wrN (a + 1) n (v / 256)

/-- Inverted codeword bits of the 64-bit word that holds address `a`. -/
def Dev.eccMask (d : Dev) (a : Nat) : Nat := d.ecc.get (fun _ => 0) (a / 8 * 8)

/-- Set the inverted codeword bits of a word. -/
def Dev.setEcc (d : Dev) (a : Nat) (m : Nat) : Dev := { d with ecc := d.ecc.set (fun _ => 0) (a / 8 * 8) m }

/-- The 64-bit word at an address as its consumer reads it (R544). -/
def Dev.rdWord (d : Dev) (a : Nat) : EccOut := eccRead (d.rdN (a / 8 * 8) 8) (d.eccMask a)

/-- The error bits of the memory injection that waits for a write to the word at `a` (R562). -/
def Dev.injMask (d : Dev) (a : Nat) : Option Nat :=
  match d.flt.injMem with
  | some (w, pa, pb) =>
    if w / 8 = a / 8 then some ((if pa < 72 then 2 ^ pa else 0) ^^^ (if pb < 72 then 2 ^ pb else 0)) else none
  | none => none

/-- A write to the word that holds `a` generates its check bits anew (R543), or stores it with the injected error
(R562). -/
def Dev.touchEcc (d : Dev) (a : Nat) : Dev :=
  match d.injMask a with
  | some m => { (d.setEcc a m) with flt := { d.flt with injMem := none } }
  | none => d.setEcc a 0

/-- Storage of the LOOP block (R21). -/
def isLoopMem (a : Nat) : Bool := 0x400A0000 ≤ a && a < 0x400A4000

/-- A write of a register by its access codes (R13, R14): RW and RWS fields take the value, W1C bits written 1 clear, every
other bit ignores the write. A word of the LOOP block lies under the code (R21, R543). -/
def Dev.regStore (d : Dev) (a : Nat) (v : W32) : Dev :=
  let (m, w1) := regMasks a
  let old := d.reg a
  let mb := BitVec.ofNat 32 m
  let cb := BitVec.ofNat 32 w1
  let d1 := d.setReg a (((old &&& ~~~mb) ||| (v &&& mb)) &&& ~~~(cb &&& v))
  if isLoopMem a then d1.touchEcc a else d1

/-- Address and value pairs written in order (R384). -/
def Dev.writePairs (d : Dev) (ps : List (Nat × Nat)) : Dev :=
  ps.foldl (fun d p => d.regStore p.1 (BitVec.ofNat 32 p.2)) d

/-- Write 8 bytes at an 8-byte aligned address. -/
def Dev.wr64 (d : Dev) (a : Nat) (w : W64) : Dev := (d.wrN (a / 8 * 8) 8 w.toNat).touchEcc a

/-- Write 4 bytes: the other half of the 64-bit word keeps what a consumer would have read (R331, R544). -/
def Dev.wr32 (d : Dev) (a : Nat) (w : W32) : Dev :=
  let other := (d.rdWord a).data
  let d1 := d.wrN (a / 8 * 8) 8 other
  (d1.wrN (a / 4 * 4) 4 w.toNat).touchEcc a

/-- Write 64-bit words at rising addresses. -/
def Dev.wrWords (d : Dev) (a : Nat) : List W64 → Dev
  | [] => d
  | w :: ws => (d.wr64 a w).wrWords (a + 8) ws

/-- Read 64-bit words at rising addresses. -/
def Dev.rdWords (d : Dev) (a : Nat) : Nat → List W64
  | 0 => []
  | n + 1 => BitVec.ofNat 64 (d.rdWord a).data :: d.rdWords (a + 8) n

/-! Free values. -/

/-- A value nothing constrains, and the device with its use counted (log entry 5). -/
def Dev.takeFree (d : Dev) : Int × Dev := (Config.freeValue d.free, { d with free := d.free + 1 })

/-! Records of the hidden state. -/

def Dev.lane (d : Dev) (u : Nat) : LaneX := d.lanes.get (fun _ => {}) u
def Dev.setLane (d : Dev) (u : Nat) (x : LaneX) : Dev := { d with lanes := d.lanes.set (fun _ => {}) u x }
def Dev.pwmX (d : Dev) (l : Nat) : PwmX := d.pwm.get (fun _ => {}) l
def Dev.setPwmX (d : Dev) (l : Nat) (x : PwmX) : Dev := { d with pwm := d.pwm.set (fun _ => {}) l x }
def Dev.groupX (d : Dev) (g : Nat) : GroupX := d.groups.get (fun _ => {}) g
def Dev.setGroupX (d : Dev) (g : Nat) (x : GroupX) : Dev := { d with groups := d.groups.set (fun _ => {}) g x }
def Dev.gateX (d : Dev) (g : Nat) : GateX := d.gates.get (fun _ => {}) g
def Dev.setGateX (d : Dev) (g : Nat) (x : GateX) : Dev := { d with gates := d.gates.set (fun _ => {}) g x }
def Dev.mbox (d : Dev) (m : Nat) : Mbox := d.mbx.get (fun _ => {}) m
def Dev.setMbox (d : Dev) (m : Nat) (x : Mbox) : Dev := { d with mbx := d.mbx.set (fun _ => {}) m x }
def Dev.jobX (d : Dev) (j : Nat) : JobX := d.jobs.get (fun _ => {}) j
def Dev.setJobX (d : Dev) (j : Nat) (x : JobX) : Dev := { d with jobs := d.jobs.set (fun _ => {}) j x }
def Dev.engX (d : Dev) (e : Nat) : EngX := d.engx.get (fun _ => {}) e
def Dev.setEngX (d : Dev) (e : Nat) (x : EngX) : Dev := { d with engx := d.engx.set (fun _ => {}) e x }
def Dev.engine (d : Dev) (e : Nat) : Engine := d.eng.get (fun _ => {}) e
def Dev.setEngine (d : Dev) (e : Nat) (x : Engine) : Dev := { d with eng := d.eng.set (fun _ => {}) e x }

def Dev.fbkX (d : Dev) (n : Nat) : FbkX := d.fbk.get (fun _ => {}) n
def Dev.setFbkX (d : Dev) (n : Nat) (x : FbkX) : Dev := { d with fbk := d.fbk.set (fun _ => {}) n x }
def Dev.strX (d : Dev) (n : Nat) : StrX := d.str.get (fun _ => {}) n
def Dev.setStrX (d : Dev) (n : Nat) (x : StrX) : Dev := { d with str := d.str.set (fun _ => {}) n x }
def Dev.axX (d : Dev) (a : Nat) : AxX := d.ax.get (fun _ => {}) a
def Dev.setAxX (d : Dev) (a : Nat) (x : AxX) : Dev := { d with ax := d.ax.set (fun _ => {}) a x }
def Dev.dsfX (d : Dev) (n : Nat) : DsfX := d.dsf.get (fun _ => {}) n
def Dev.setDsfX (d : Dev) (n : Nat) (x : DsfX) : Dev := { d with dsf := d.dsf.set (fun _ => {}) n x }
def Dev.sarX (d : Dev) (n : Nat) : SarX := d.sar.get (fun _ => {}) n
def Dev.setSarX (d : Dev) (n : Nat) (x : SarX) : Dev := { d with sar := d.sar.set (fun _ => {}) n x }
def Dev.prbX (d : Dev) (n : Nat) : PinX := d.prb.get (fun _ => {}) n
def Dev.setPrbX (d : Dev) (n : Nat) (x : PinX) : Dev := { d with prb := d.prb.set (fun _ => {}) n x }
def Dev.cmdX (d : Dev) (n : Nat) : PinX := d.cmdin.get (fun _ => {}) n
def Dev.loopX (d : Dev) (n : Nat) : LoopX := d.loops.get (fun _ => {}) n
def Dev.setLoopX (d : Dev) (n : Nat) (x : LoopX) : Dev := { d with loops := d.loops.set (fun _ => {}) n x }
def Dev.stpX (d : Dev) (n : Nat) : StpX := d.stp.get (fun _ => {}) n
def Dev.setStpX (d : Dev) (n : Nat) (x : StpX) : Dev := { d with stp := d.stp.set (fun _ => {}) n x }
def Dev.camTab (d : Dev) (n : Nat) : CamTab := d.cams.get (fun _ => {}) n
def Dev.setCamTab (d : Dev) (n : Nat) (x : CamTab) : Dev := { d with cams := d.cams.set (fun _ => {}) n x }
def Dev.sample (d : Dev) (n : Nat) : List Sample := d.samples.get (fun _ => []) n

/-- The sample with the latest instant not after t, of equal ones the newest in a list that is newest first (R234, R252). -/
def latestAt (t : Nat) (xs : List Sample) : Option Sample :=
  (xs.filter fun s => s.t ≤ t).foldl (fun b s => match b with
    | some r => if r.t < s.t then some s else some r
    | none => some s) none
def Dev.setSample (d : Dev) (n : Nat) (x : List Sample) : Dev := { d with samples := d.samples.set (fun _ => []) n x }
def Dev.setCmdX (d : Dev) (n : Nat) (x : PinX) : Dev := { d with cmdin := d.cmdin.set (fun _ => {}) n x }

def Dev.fioCh (d : Dev) (n : Nat) : FioCh := d.fio.ch.get (fun _ => {}) n
def Dev.setFioCh (d : Dev) (n : Nat) (x : FioCh) : Dev := { d with fio := { d.fio with ch := d.fio.ch.set (fun _ => {}) n x } }

/-- Mode of a safety channel by SAFE_SIi_CFG.TYPE (R503). -/
def safeMode (type : Nat) : Nat := if type = 0 then 0 else if type = 3 then 3 else 1

def Dev.capX (d : Dev) (n : Nat) : CapX := d.cap.get (fun _ => {}) n
def Dev.setCapX (d : Dev) (n : Nat) (x : CapX) : Dev := { d with cap := d.cap.set (fun _ => {}) n x }
def Dev.capChX (d : Dev) (n : Nat) : CapCh := d.capCh.get (fun _ => {}) n
def Dev.setCapChX (d : Dev) (n : Nat) (x : CapCh) : Dev := { d with capCh := d.capCh.set (fun _ => {}) n x }
def Dev.canX (d : Dev) (n : Nat) : CanX := d.can.get (fun _ => {}) n
def Dev.setCanX (d : Dev) (n : Nat) (x : CanX) : Dev := { d with can := d.can.set (fun _ => {}) n x }
def Dev.chPort (d : Dev) (n : Nat) : ChainPort := d.chain.ports.get (fun _ => {}) n
def Dev.setChPort (d : Dev) (n : Nat) (x : ChainPort) : Dev :=
  { d with chain := { d.chain with ports := d.chain.ports.set (fun _ => {}) n x } }
def Dev.safeIn (d : Dev) (n : Nat) : SafeIn := d.safe.si.get (fun _ => {}) n
def Dev.setSafeIn (d : Dev) (n : Nat) (x : SafeIn) : Dev := { d with safe := { d.safe with si := d.safe.si.set (fun _ => {}) n x } }

/-- Does a device in this state serve commands and the host port (R39, R358)? -/
def DevState.serves : DevState → Bool
  | .ready | .run | .safe | .mirror => true
  | _ => false

/-- Mode in force of channel cc (R503). -/
def Dev.fioMode (d : Dev) (cc : Nat) : Nat :=
  if cc < 24 then d.get (FIO_CHcc_CFG_ACT_MODE cc) else safeMode (d.get (SAFE_SIi_CFG_ACT_TYPE (cc - 24)))

/-- Mode the die works in: after its reset every channel is off until a configuration reaches it (R516). -/
def Dev.dieMode (d : Dev) (cc : Nat) : Nat := if d.fio.fresh && cc < 24 then 0 else d.fioMode cc

/-- The die drives channel cc as an output: by the mode it works in, while the core is down by its own copy (R516). -/
def Dev.fioDriven (d : Dev) (cc : Nat) : Bool := if d.dst.serves then d.dieMode cc = 3 else (d.fioCh cc).out

/-- The code of a device state (R382). -/
def DevState.code : DevState → Nat
  | .off => 0 | .standby => 1 | .doze => 2 | .boot => 3 | .ready => 4 | .run => 5 | .safe => 6 | .mirror => 7

/-- The code of a lane state (R382). -/
def LaneState.code : LaneState → Nat
  | .disabled => 0 | .armed => 1 | .enabled => 2 | .stopping => 3 | .fault => 4

/-- ENABLED or STOPPING: the lane's loops run. -/
def LaneState.running : LaneState → Bool
  | .enabled | .stopping => true
  | _ => false

/-- The Herder arms no lane, slot or loop job for an instant: in MIRROR, and on a survivor before its resume instant (R457, R468). -/
def Dev.idleHerd (d : Dev) (t : Nat) : Bool := d.dst = .mirror || decide (t < d.pair.resume)

/-- No servo or stepper lane is ENABLED or STOPPING (R58, R60). -/
def Dev.noLaneRunning (d : Dev) : Bool := (List.range 32).all fun u => !(d.lane u).state.running

/-! Packets (R25 to R32). -/

/-- A brand word (R25). -/
def mkBrand (addr unit kind epoch seq offs : Nat) : W64 :=
  BitVec.ofNat 64 (addr % 256 * 2 ^ 56 + unit % 256 * 2 ^ 48 + kind % 256 * 2 ^ 40 + epoch % 256 * 2 ^ 32 +
    seq % 65536 * 2 ^ 16 + offs % 65536)

/-- Bits `lo + w - 1` to `lo` of a 64-bit word. -/
def bits64 (x : W64) (lo w : Nat) : Nat := x.toNat / 2 ^ lo % 2 ^ w

def brandAddr (b : W64) : Nat := bits64 b 56 8
def brandUnit (b : W64) : Nat := bits64 b 48 8
def brandKind (b : W64) : Nat := bits64 b 40 8
/-- Packet type: KIND bits 46:40 (R28). -/
def brandType (b : W64) : Nat := bits64 b 40 7
/-- KIND bit 47: time words follow (R29). -/
def brandTimed (b : W64) : Bool := bits64 b 47 1 = 1
def brandEpoch (b : W64) : Nat := bits64 b 32 8
def brandSeq (b : W64) : Nat := bits64 b 16 16
def brandOffs (b : W64) : Nat := bits64 b 0 16

end Sys2Proof.Machine

namespace Sys2Proof

/-- The payload words of a packet, past its time words (R29). -/
def Packet.payload (p : Packet) : List W64 := if Machine.brandTimed p.brand then p.words.drop 2 else p.words

/-- The ns of a packet's time words. -/
def Packet.timeNs (p : Packet) : Nat := if Machine.brandTimed p.brand then (p.words.headD 0).toNat else 0

/-- Payload word n counted from 1, as the packet tables count. -/
def Packet.word (p : Packet) (n : Nat) : W64 := p.payload.getD (n - 1) 0

end Sys2Proof

namespace Sys2Proof.Machine

/-- The epoch the producer stamps: the lane's or slot's for UNIT 0x00 to 0x3F, the mailbox epoch for mailboxes (R31). -/
def Dev.epochOf (d : Dev) (unit : Nat) : Nat :=
  if unit < 0x40 then (d.lane unit).epoch
  else if 0x70 ≤ unit ∧ unit < 0x80 then d.get MBX_STAT_EPOCH
  else d.epochs.get (fun _ => 0) unit

/-- A unit changed state: its epoch rises by one (R31). -/
def Dev.raise (d : Dev) (unit : Nat) : Dev :=
  if unit < 0x40 then d.setLane unit { d.lane unit with epoch := ((d.lane unit).epoch + 1) % 256 }
  else { d with epochs := d.epochs.set (fun _ => 0) unit ((d.epochs.get (fun _ => 0) unit + 1) % 256) }

/-- Write a unit's state field; a change raises the unit's epoch (R31; log entry 74). -/
def Dev.putState (d : Dev) (unit : Nat) (f : Field) (v : Nat) : Dev :=
  if d.get f = v then d else (d.put f v).raise unit

/-- The reference instant of a unit (R30): the lane's sample gate, the stepper's carrier start, the slot's last trajectory instant,
the unit's last gate instant. -/
def Dev.refInstant (d : Dev) (u : Nat) : Nat :=
  if u < 24 then (d.gateX u).last
  else if u < 32 then (d.gateX (48 + u)).last
  else if u < 64 then (d.axX u).tj
  else if 0x68 ≤ u ∧ u < 0x6C then (d.gateX (84 + u - 0x68)).last
  else (List.range 256).foldl (fun t g => if d.get (GATE_GTnnn_CFG_ACT_TARGET g) = u then max t (d.gateX g).last else t) 0

/-- The instant of a packet in ns (R29, R30): its time words, or 2 × OFFS after its unit's reference instant; a packet without a launch
time acts when it arrives. -/
def Dev.packetNs (d : Dev) (now : Nat) (p : Packet) : Nat :=
  if brandTimed p.brand then p.timeNs
  else if brandOffs p.brand = 0xFFFF then now
  else d.refInstant (brandUnit p.brand) + 2 * brandOffs p.brand

/-- The producer within a stream's ADDR, UNIT and type (R32): the source slot of a master sample. -/
def producerOf (type : Nat) (ws : List W64) : Nat := if type = 0x42 then bits64 (ws.getD 4 0) 8 8 + 1 else 0

/-- The next SEQ of a stream that this device produces to ADDR, UNIT and type, and the device after it (R32). -/
def Dev.takeSeq (d : Dev) (addr unit type : Nat) : Nat × Dev :=
  let key := addr * 2 ^ 15 + unit * 128 + type
  let seq := d.fab.prodSeq.get (fun _ => 0) key
  (seq, { d with fab := { d.fab with prodSeq := d.fab.prodSeq.set (fun _ => 0) key ((seq + 1) % 65536) } })

/-- The chain address of the streams this device publishes: a survivor goes on under its partner's (R466). -/
def Dev.streamAddr (d : Dev) : Nat := d.get (if d.pair.both then PAIR_STAT_PADDR else CHAIN_STAT_ADDR)

/-- Build and send a packet to a chain address: brand with the stream's next SEQ (R32), time words when an absolute time is
given (R29), and any injected brand error (R562). `offs` is ignored with a time. -/
def Dev.emitTo (d : Dev) (addr unit type : Nat) (time : Option (Nat × Nat)) (offs : Nat) (ws : List W64) (inj : Bool := false) :
    Dev :=
  let key := producerOf type ws * 2 ^ 23 + addr * 2 ^ 15 + unit * 128 + type
  let seq := d.fab.prodSeq.get (fun _ => 0) key
  let kind := type + (if time.isSome then 128 else 0)
  let brand := mkBrand addr unit kind (d.epochOf unit) seq (if time.isSome then 0 else offs)
  let tw := match time with
    | some (ns, fr) => [BitVec.ofNat 64 ns, BitVec.ofNat 64 (fr % 65536)]
    | none => []
  let hit := match d.flt.injPkt with
    | some (u, t, _, _) => decide (u = unit ∧ t = type)
    | none => false
  let errs := match d.flt.injPkt with
    | some (_, _, pa, pb) => if hit then [(0, (if pa < 72 then 2 ^ pa else 0) ^^^ (if pb < 72 then 2 ^ pb else 0))] else []
    | none => []
  let p : Packet := { brand := brand, words := tw ++ ws, inj := inj || hit, errs := errs }
  { d with
    fab := { d.fab with
      flight := d.fab.flight ++ [p]
      prodSeq := d.fab.prodSeq.set (fun _ => 0) key ((seq + 1) % 65536) }
    flt := { d.flt with injPkt := if hit then none else d.flt.injPkt } }

/-- A packet on this device. -/
def Dev.emit (d : Dev) (unit type : Nat) (time : Option (Nat × Nat)) (offs : Nat) (ws : List W64) (inj : Bool := false) : Dev :=
  d.emitTo 0 unit type time offs ws inj

/-! Fault reports (R549 to R553). -/

/-- Class of a code: 0 C, 1 L, 2 D, 3 P (R553). -/
def faultClass (code : Nat) : Nat :=
  if code ∈ [10, 31, 40, 50, 52, 57, 61, 62, 65, 66, 70, 71, 73, 78, 80, 93, 94, 102, 110, 120, 170, 173, 174, 202, 205]
  then 1
  else if code ∈ [34, 77, 111, 115, 121, 165, 175, 203] then 2
  else if code ∈ [161, 162] then 3
  else 0

/-- FCODE as bits 63:48 of R375: class in bits 15:14, number in bits 9:0. -/
def fcodeOf (code : Nat) : Nat := faultClass code * 2 ^ 14 + code

/-- A record into the log: after what is there, in ascending code number among those of its tick (R551, R552). -/
def insRec (r : FltRec) : List FltRec → List FltRec
  | [] => [r]
  | q :: l => if q.t = r.t ∧ r.fcode % 1024 < q.fcode % 1024 then r :: q :: l else q :: insRec r l

def Dev.setLink (d : Dev) (x : PairLink) : Dev := { d with pair := { d.pair with link := x } }

/-- Send a frame over the Pairs link (R453): FTYPE, NW and the frame sequence in its header. -/
def Dev.linkPut (d : Dev) (ftype : Nat) (ws : List W64) : Dev :=
  let h := BitVec.ofNat 64 (ftype + ws.length % 256 * 2 ^ 8 + d.pair.link.fseq * 2 ^ 16)
  d.setLink { d.pair.link with
    frames := d.pair.link.frames ++ [{ header := h, words := ws }]
    fseq := (d.pair.link.fseq + 1) % 65536 }

/-- The active keeps its standby's mailbox streams current (R461): requests and responses go over the link in SYNCING and MIRRORED (log entry
98). -/
def Dev.tell (d : Dev) (ftype : Nat) (ws : List W64) : Dev :=
  if d.get PAIR_STAT_ROLE = 1 ∧ (d.get PAIR_STAT_PSTATE = 1 ∨ d.get PAIR_STAT_PSTATE = 2) then d.linkPut ftype ws else d

/-- In a pair a fault packet or a state notice goes to the partner as well (R550, R560). -/
def Dev.pairNotice (d : Dev) (c : Clock) (ftype unit type : Nat) (w : W64) : Dev :=
  if d.get PAIR_STAT_PSTATE = 0 then d
  else d.linkPut ftype [mkBrand 0 unit (128 + type) (d.epochOf unit) 0 0, BitVec.ofNat 64 c.ns, BitVec.ofNat 64 (c.frac % 65536), w]

/-- One fault record and one type 0x70 packet, which goes to the partner of a pair as well (R550, R552, R560). -/
def Dev.record (d : Dev) (c : Clock) (code unit info : Nat) (inj : Bool := false) : Dev :=
  let r : FltRec := { t := c.ns, fcode := fcodeOf code, unit := unit, inj := inj, info := info }
  let d1 := if d.flt.log.length < 128 then
      ({ d with flt := { d.flt with log := insRec r d.flt.log } }).put FLT_STAT_UNREAD (d.flt.log.length + 1)
    else d.bump FLT_STAT_LOST
  let w := BitVec.ofNat 64 (fcodeOf code + unit * 2 ^ 16 + (if inj then 2 ^ 24 else 0) + info * 2 ^ 32)
  (d1.emit unit 0x70 (some (c.ns, c.frac)) 0 [w] inj).pairNotice c 1 unit 0x70 w

/-- A report limited to once per key per 1 ms: the window opens at the report and lasts 500,000 ticks of the local
oscillator; a suppressed report counts in FLT_SUPP (R550). -/
def Dev.reportLim (d : Dev) (c : Clock) (code unit : Nat) (info : Nat := 0) (key : Nat := unit) (inj : Bool := false) :
    Dev :=
  let k := code * 2 ^ 16 + key
  match d.flt.windows.get (fun _ => none) k with
  | some w => if c.osc < w + 500000 then d.bump FLT_SUPP_V else open_ k
  | none => open_ k
where
  open_ (k : Nat) : Dev :=
    ({ d with flt := { d.flt with windows := d.flt.windows.set (fun _ => none) k (some c.osc) } }).record c code unit info inj

end Sys2Proof.Machine
end

