-- ==== Sys2Proof/Machine/Respond.lean ====
section
/-! DEFINITION. Responses, outstanding work and refusals (R371 to R380), the Herder's trace ring (R319 to R321), and the frame
in which every command is decided. -/

namespace Sys2Proof.Machine

/-! The trace ring. -/

def Dev.jobEng (d : Dev) (j : Nat) : Nat := d.get (HERDER_JOBj_CFG_ENG j)

/-- Queue depth of an engine: slots in READY, RUN or PREEMPTED (R318). -/
def Dev.depth (d : Dev) (e : Nat) : Nat :=
  let x := d.engX e
  (d.her.ready.filter fun j => d.jobEng j = e).length + (if x.run.isSome then 1 else 0) + (if x.preempted.isSome then 1 else 0)

/-- One decision of the Herder: its depth counts in the engine's window (R318); it goes into the trace ring if the filter records it and the
ring runs (R319 to R321). -/
def Dev.trace (d0 : Dev) (c : Clock) (kind slot eng prio depth value cls mbx : Nat) (late : Bool := false) : Dev :=
  let d := if eng < 31 ∧ (d0.engX eng).dmax < depth then d0.setEngX eng { d0.engX eng with dmax := depth } else d0
  let masked := (d.get HERDER_TR_CTL_KMASK).testBit kind &&
    (eng = 31 || (d.get HERDER_TR_EMASK_EMASK).testBit eng)
  if !masked || d.flag HERDER_TR_CTL_FROZEN then d else
  let wr := d.get HERDER_TR_WR_WR
  let a := d.get HERDER_TR_BASE_BASE + 16 * (wr % 4096)
  let w1 := kind + slot % 1024 * 2 ^ 3 + eng * 2 ^ 13 + prio % 16 * 2 ^ 18 + depth % 1024 * 2 ^ 22 + satU 16 value * 2 ^ 32 +
    cls % 256 * 2 ^ 48 + mbx % 16 * 2 ^ 56 + (if late then 2 ^ 62 else 0)
  let d1 := ((d.wr64 a (BitVec.ofNat 64 c.ns)).wr64 (a + 8) (BitVec.ofNat 64 w1)).put HERDER_TR_WR_WR (wr + 1)
  let fz := (d.get HERDER_TR_CTL_FRZK).testBit kind
  match d.her.postLeft with
  | some n =>
    if n ≤ 1 then ({ d1 with her := { d1.her with postLeft := none } }).setf HERDER_TR_CTL_FROZEN
    else { d1 with her := { d1.her with postLeft := some (n - 1) } }
  | none =>
    if !fz then d1
    else if d.get HERDER_TR_CTL_POST = 0 then d1.setf HERDER_TR_CTL_FROZEN
    else { d1 with her := { d1.her with postLeft := some (d.get HERDER_TR_CTL_POST) } }

/-! Responses. -/

/-- Bytes of the result area of mailbox m (R365). -/
def resultAddr (m : Nat) : Nat := 0x40122000 + 0x200 * m

/-- The largest SEQ up to which every taken request has its final response, in stream order (R379). -/
def floorOf : List (Nat × Bool) → Option Nat → Option Nat
  | (s, true) :: r, _ => floorOf r (some s)
  | _, acc => acc

/-- Number of accepted commands of mailbox m without final response (R376). -/
def Dev.outstanding (d : Dev) (m : Nat) : Nat := (d.work.filter fun w => w.id / 65536 = m).length

/-- ADDR of a response of mailbox m: the requester on the chain for a mailbox that the Ruori link serves (R375, R378, R401). -/
def Dev.rspAddr (d : Dev) (m : Nat) (src : Byte) : Nat := if (d.get MBX_ROUTE_ROUTE).testBit m then src.toNat else 0

/-- A response entry into the queue of mailbox m, or to the chain for a mailbox the Ruori link serves (R375, R376, R378). While all 16
entries are filled it waits for one (the model's choice, log entry 28). -/
def Dev.putEntry (d : Dev) (m : Nat) (ws : List W64) : Dev :=
  if (d.get MBX_ROUTE_ROUTE).testBit m then
    { d with fab := { d.fab with flight := d.fab.flight ++ [{ brand := ws.headD 0, words := ws.drop 1 }] } }
  else
    let n := d.get (MBX_Mm_STAT_RCOUNT m)
    if 16 ≤ n then d.setMbox m { d.mbox m with late := (d.mbox m).late ++ [ws] }
    else
      let e := (d.get (MBX_Mm_STAT_RHEAD m) + n) % 16
      (d.wrWords (0x40124000 + 0x400 * m + 0x40 * e) ws).put (MBX_Mm_STAT_RCOUNT m) (n + 1)

/-- What a response carries beside its kind; `frac` is the fraction of its instant in 2^-16 ns (R9). -/
structure Rsp where
  frac : Nat := 0
  super : Bool := false
  long : Bool := false
  code : Nat := 0
  fcode : Nat := 0
  p0 : Nat := 0
  p1 : Nat := 0
  p2 : Nat := 0
  deriving DecidableEq, Repr

/-- Put a response into the queue (R374, R375): RTYPE 0 ACCEPT, 1 REFUSE, 2 DONE, 3 FAULT, at the instant its time words give; its
words, and the device. -/
def Dev.placeRsp (d : Dev) (m : Nat) (src : Byte) (opc seq rtype t : Nat) (r : Rsp := {}) : List W64 × Dev :=
  let seqNo := (d.mbox m).rspSeq
  let w0 := mkBrand (d.rspAddr m src) (0x70 + m) 0xE1 (d.get MBX_STAT_EPOCH) seqNo 0
  let w3 := BitVec.ofNat 64 (opc + rtype * 2 ^ 16 + (if r.super then 2 ^ 18 else 0) + (if r.long then 2 ^ 19 else 0) +
    r.code * 2 ^ 24 + seq * 2 ^ 32 + r.fcode * 2 ^ 48)
  let ws := [w0, BitVec.ofNat 64 t, BitVec.ofNat 64 r.frac, w3, BitVec.ofNat 64 r.p0, BitVec.ofNat 64 r.p1, BitVec.ofNat 64 r.p2]
  let ws8 := ws ++ [BitVec.ofNat 64 (crcWords ws)]
  let d1 := (d.putEntry m ws8).tell 4 ws8
  (ws8, d1.setMbox m { d1.mbox m with rspSeq := (seqNo + 1) % 65536 })

/-- The requests of mailbox m that have their final response, and FLOOR (R379). -/
def Dev.setTaken (d : Dev) (m : Nat) (tk : List (Nat × Bool)) : Dev :=
  let d1 := d.setMbox m { d.mbox m with taken := tk }
  match floorOf tk none with
  | some f => d1.put (MBX_Mm_SEQ_FLOOR m) f
  | none => d1

/-- A response to a request that was taken: it becomes the latest response of the request, and a final one closes the request (R372,
R379). -/
def Dev.respond (d : Dev) (m : Nat) (src : Byte) (opc seq rtype t : Nat) (r : Rsp := {}) : Dev :=
  let (ws, d1) := d.placeRsp m src opc seq rtype t r
  let d2 := if d.get (MBX_Mm_SEQ_LAST m) = seq then d1.setMbox m { d1.mbox m with lastRsp := ws } else d1
  let d3 := if rtype = 2 then d2.put (MBX_Mm_DONE_DSEQ m) seq else d2
  if rtype = 0 then d3 else d3.setTaken m ((d.mbox m).taken.map fun p => if p.1 = seq then (p.1, true) else p)

/-- A request that receives no further response counts as answered (R374, R379). -/
def Dev.closeReq (d : Dev) (m seq : Nat) : Dev :=
  d.setTaken m ((d.mbox m).taken.map fun p => if p.1 = seq then (p.1, true) else p)

/-- Bytes of a long result into the result area (R377). -/
def Dev.putResult (d : Dev) (m : Nat) (ws : List W64) : Dev := d.wrWords (resultAddr m) ws

/-- Final responses of one instant, the one with the greater RSEQ first (R374). -/
def rspSwapped (a b : List W64) : Bool :=
  bits64 (a.getD 3 0) 16 2 ≠ 0 && bits64 (b.getD 3 0) 16 2 ≠ 0 && a.getD 1 0 = b.getD 1 0 && a.getD 2 0 = b.getD 2 0 &&
    decide (bits64 (b.getD 3 0) 32 16 < bits64 (a.getD 3 0) 32 16)

/-- A response entry with this brand and the words 1 to 6 of `ws`: the brand counts the mailbox's responses, the CRC follows (R375). -/
def rspWith (brand : W64) (ws : List W64) : List W64 :=
  let w := brand :: (ws.drop 1).take 6
  w ++ [BitVec.ofNat 64 (crcWords w)]

/-- The youngest of n + 1 unread entries of queue m goes before those of its instant with a greater RSEQ (R374). -/
def Dev.settle (d : Dev) (m : Nat) : Nat → Dev
  | 0 => d
  | n + 1 =>
    let at_ (k : Nat) : Nat := 0x40124000 + 0x400 * m + 0x40 * ((d.get (MBX_Mm_STAT_RHEAD m) + k) % 16)
    let a := d.rdWords (at_ n) 8
    let b := d.rdWords (at_ (n + 1)) 8
    if rspSwapped a b then ((d.wrWords (at_ n) (rspWith (a.headD 0) b)).wrWords (at_ (n + 1)) (rspWith (b.headD 0) a)).settle m n else d

/-- The final response of an accepted command, once: its work ends (R374, R380). -/
def Dev.finish (d : Dev) (id rtype t : Nat) (r : Rsp := {}) : Dev :=
  match d.work.find? fun w => w.id = id with
  | none => d
  | some w =>
    let m := id / 65536
    let d1 := { d with work := d.work.filter fun w => w.id ≠ id }
    let d2 := (d1.put (MBX_Mm_STAT_OUTST m) (d1.outstanding m)).respond m w.src w.opc (id % 65536) rtype t r
    d2.settle m (d2.get (MBX_Mm_STAT_RCOUNT m) - 1)

/-- DONE for the work, if any, at instant t. -/
def Dev.finishDone (d : Dev) (id : Option Nat) (t : Nat) (r : Rsp := {}) : Dev :=
  match id with
  | some i => d.finish i 2 t r
  | none => d

/-- FAULT with a code for the work, if any, detected now (R375, R380). -/
def Dev.finishFault (d : Dev) (id : Option Nat) (c : Clock) (code : Nat) : Dev :=
  match id with
  | some i => d.finish i 3 c.ns { frac := c.frac, fcode := fcodeOf code }
  | none => d

/-- The promise of work `i`, where the instant t lies after it (R37). -/
def Dev.lateBy (d : Dev) (i t : Nat) : Option Nat :=
  match d.work.find? fun w => w.id = i with
  | some w => if w.promise < t then some w.promise else none
  | none => none

/-- The answer of a stop that ends at t (R37, R38): DONE; FAULT with FC076 at the promised instant where R257 stretched it past the promise,
as R43 says of sys.stop (log entry 89). -/
def Dev.finishBy (d : Dev) (id : Option Nat) (c : Clock) (t : Nat) : Dev :=
  match id with
  | none => d
  | some i => match d.lateBy i t with
    | some p => d.finishFault (some i) { c with tor := p * 2 ^ 48 } 76
    | none => d.finishDone (some i) t

/-! Refusals and decisions. -/

/-- What a decision comes to (R371, R374): a refusal (code, engine and class of the failed demand), also one that changes the
device (R385), a single DONE, an ACCEPT with its promise, or an ACCEPT that stays the only response. -/
inductive Verdict where
  | refuse (code : Nat) (eng : Nat) (cls : Nat)
  | refuseIn (code : Nat) (eng : Nat) (cls : Nat) (d : Dev)
  | done (r : Rsp) (d : Dev)
  | accept (promise : Nat) (d : Dev)
  | acceptOnly (promise : Nat) (d : Dev)

/-- A refusal takes the device with it. -/
def Verdict.refusing (d : Dev) : Verdict → Verdict
  | .refuse code eng cls => .refuseIn code eng cls d
  | v => v

/-- Refusal code numbers (R371). -/
def rcBadCrc : Nat := 1
def rcBadFormat : Nat := 2
def rcBadOpcode : Nat := 3
def rcBadEpoch : Nat := 4
def rcUnitAbsent : Nat := 5
def rcRegOwned : Nat := 6
def rcBadState : Nat := 7
def rcSafeHold : Nat := 8
def rcRevSpin : Nat := 9
def rcCfgZero : Nat := 10
def rcCfgConflict : Nat := 11
def rcTooLate : Nat := 12
def rcOverload : Nat := 13
def rcNotMirrored : Nat := 14

/-- The first code of a list of conditions in the order of R371 whose condition holds. -/
def firstRefusal : List (Bool × Nat) → Option Nat
  | [] => none
  | (b, c) :: r => if b then some c else firstRefusal r

/-- Refuse with the first condition that holds, or go on. -/
def refuseIf (conds : List (Bool × Nat)) (k : Unit → Verdict) : Verdict :=
  match firstRefusal conds with
  | some code => .refuse code 31 0
  | none => k ()

end Sys2Proof.Machine

namespace Sys2Proof

/-- The id of the work of a request. -/
def Request.id (q : Request) : Nat := 65536 * q.mbx.val + q.seq.toNat

/-- The launch time as the first whole-ns instant at or after it: t_ref with ASAP (R370). -/
def Request.at_ (q : Request) (tref : Nat) : Nat := if q.asap then tref else q.launch + (if q.frac = 0 then 0 else 1)

/-- A configuration command without its image (R384, R390). -/
def Request.noImage (q : Request) : Bool := q.payload.isEmpty

/-- Payload word n from 0. -/
def Request.pw (q : Request) (n : Nat) : W64 := q.payload.getD n 0

/-- A configuration image: address and value pairs (R384). -/
def Request.image (q : Request) : List (Nat × Nat) :=
  q.payload.map fun w => (w.toNat / 2 ^ 32, w.toNat % 2 ^ 32)

end Sys2Proof

namespace Sys2Proof.Machine

/-- The instant up to which the deadline lets the promise go (R367, R370); none: no deadline. -/
def deadlineOf (q : Request) (tref : Nat) : Option Nat := if q.dl = 0 then none else some (q.at_ tref + q.dl * 1000)

/-- A promise after the deadline, or a launch before t_ref (R36, R371 code 12, R383). -/
def tooLate (q : Request) (tref promise : Nat) : Bool :=
  decide (q.at_ tref < tref) || (match deadlineOf q tref with
    | some t => decide (t < promise)
    | none => false)

/-- Commands a device in MIRROR serves (R463), and those that need no mirroring outside MIRRORED (R462). -/
def mirrorServes : List Nat := [0x0000, 0x0001, 0x0002, 0x0B00, 0x0902, 0x0901]
def mirrorExempt : List Nat := [0x0000, 0x0001, 0x0002, 0x0B00, 0x0411, 0x0900, 0x0901, 0x0902]

/-- In MIRROR every other request is refused with BAD_STATE, after the codes before it (R371, R463). -/
def Dev.inMirror (d : Dev) (opc : Nat) (v : Verdict) : Verdict :=
  if d.dst ≠ .mirror ∨ mirrorServes.contains opc then v
  else match v with
    | .refuse code e k => if code < rcBadState then v else .refuse rcBadState e k
    | .refuseIn code _ _ _ => if code < rcBadState then v else .refuse rcBadState 31 0
    | _ => .refuse rcBadState 31 0

/-- The active of a pair cannot take the request as mirrored (R461, R462): in MIRRORED the standby's acknowledge must be there; in SYNCING,
DEGRADED and LOST only exempt commands and SOLOK pass. -/
def Dev.notMirrored (d : Dev) (q : Request) (opc : Nat) : Bool :=
  if d.get PAIR_STAT_ROLE ≠ 1 then false
  else match d.get PAIR_STAT_PSTATE with
    | 0 => false
    | 2 => !d.pair.held.contains (q.mbx.val, q.seq.toNat)
    | _ => !d.flag PAIR_CFG_SOLOK && !mirrorExempt.contains opc

/-- Conclude the decision of a request at t_ref (R370, R371, R374): codes below TOO_LATE stand; then TOO_LATE; then the rest, NOT_MIRRORED
last. The refusal enters the trace ring (R320). `fr` is the fraction of t_ref. -/
def Dev.conclude (d : Dev) (c : Clock) (tref fr : Nat) (q : Request) (src : Byte) (opc : Nat) (v : Verdict) : Dev :=
  let m := q.mbx.val
  let s := q.seq.toNat
  let refuse (d : Dev) (code eng cls : Nat) : Dev :=
    (d.respond m src opc s 1 tref { frac := fr, code := code }).trace { c with tor := tref * 2 ^ 48 } 4 0 eng 0 (d.depth eng) code cls m
  let add (promise : Nat) (d : Dev) : Dev :=
    let d1 := { d with work := { id := q.id, opc := opc, unit := q.target.toNat, promise := promise, src := src } :: d.work }
    d1.put (MBX_Mm_STAT_OUTST m) (d1.outstanding m)
  let bar := d.notMirrored q opc
  match d.inMirror opc v with
  | .refuse code eng cls =>
    if code < rcTooLate then refuse d code eng cls
    else if tooLate q tref tref then refuse d rcTooLate 31 0
    else refuse d code eng cls
  | .refuseIn code eng cls d' =>
    if rcTooLate ≤ code ∧ tooLate q tref tref then refuse d' rcTooLate 31 0 else refuse d' code eng cls
  | .done r d' =>
    if tooLate q tref tref then refuse d rcTooLate 31 0
    else if bar then refuse d rcNotMirrored 31 0 else d'.respond m src opc s 2 tref { r with frac := fr }
  | .accept p d' =>
    if tooLate q tref p then refuse d rcTooLate 31 0
    else if bar then refuse d rcNotMirrored 31 0 else (add p d').respond m src opc s 0 p
  | .acceptOnly p d' =>
    if tooLate q tref p then refuse d rcTooLate 31 0
    else if bar then refuse d rcNotMirrored 31 0 else (d'.respond m src opc s 0 p).closeReq m s

/-- A command's meaning before its response: from the clock, t_ref, the request and the device. -/
abbrev CmdFn := Clock → Nat → Request → Dev → Verdict

/-- A command row: the decision of that request now, answered; while the device serves no commands nothing happens
(R39). -/
def State.command (s : State) (opc : Nat) (f : CmdFn) (q : Request) : State :=
  if s.dev.dst.serves then
    { s with dev := s.dev.conclude s.clk s.clk.ns s.clk.frac q 0 opc (f s.clk s.clk.ns q s.dev) }
  else s

/-- An event on the device that leaves queue and clock alone. -/
def State.onDev (s : State) (f : Clock → Dev → Dev) : State := { s with dev := f s.clk s.dev }

/-- An event the device meets only while it serves commands (R39). -/
def State.onServing (s : State) (f : Clock → Dev → Dev) : State :=
  if s.dev.dst.serves then s.onDev f else s

/-! Ownership (R49 to R51). -/

/-- Block `blk` instance `inst` (255: the whole block) is released to the host. -/
def Dev.isReleased (d : Dev) (blk inst : Nat) : Bool :=
  d.released.contains (blk * 256 + inst) || d.released.contains (blk * 256 + 255)

/-- Any instance of the block is released. -/
def Dev.anyReleased (d : Dev) (blk : Nat) : Bool := d.released.any fun r => r / 256 = blk

end Sys2Proof.Machine
end

