-- ==== Sys2Proof/Machine/CapRecord.lean ====
section
/-! DEFINITION. The records of a recorder: where they lie and how one closes (R530, R532, R534 to R537). -/

namespace Sys2Proof.Machine

/-- Sample period of recorder r in ns (R523). -/
def Dev.capT (d : Dev) (r : Nat) : Nat := 2 * d.get (CAP_Rr_SPER_ACT_SPER r)

/-- Enabled channels of recorder r in force, ascending (R524). -/
def Dev.capChans (d : Dev) (r : Nat) : List Nat :=
  (List.range 64).filter fun cc => d.flag (CAP_CHcc_SRC_ACT_EN cc) && decide (d.get (CAP_CHcc_SRC_ACT_REC cc) = r)

/-- Bytes of a frame of n channels (R536). -/
def frameBytes (n : Nat) : Nat := 8 * ((n + 1) / 2)

/-- Frames of a ring of `seg` bytes with its header (R536). -/
def ringFrames (seg f : Nat) : Nat := if f = 0 ∨ seg < 64 then 0 else (seg - 64) / f

/-- Bytes of a segment of recorder r, and its first address (R536). -/
def Dev.capSegBytes (d : Dev) (r : Nat) : Nat := 4096 * d.get (CAP_Rr_MEM_ACT_LEN r) / 2 ^ d.get (CAP_Rr_CFG_ACT_NSEGLOG r)

def Dev.capSegBase (d : Dev) (r n : Nat) : Nat :=
  0x50000000 + 4096 * d.get (CAP_Rr_MEM_ACT_BASE r) + n * d.capSegBytes r

/-- S of recorder r in force. -/
def Dev.capRing (d : Dev) (r : Nat) : Nat := ringFrames (d.capSegBytes r) (frameBytes (d.capChans r).length)

/-- How a record closes. -/
structure CapEnd where
  stopped : Bool := false
  ovf : Bool := false
  disc : Bool := false
  deriving DecidableEq, Repr

/-- The flags of a record's header in bits 3:0. -/
def capFlags (x : CapX) (e : CapEnd) : Nat :=
  (if x.trig.isSome then 1 else 0) + (if e.stopped then 2 else 0) + (if e.ovf then 4 else 0) + (if e.disc then 8 else 0)

/-- Lowest bit of a mask of eight. -/
def lowBit (m : Nat) : Nat := ((List.range 8).find? fun i => m.testBit i).getD 0

/-- The header of the record of recorder r (R537). A record without a trigger holds every sample still in its ring (log entry 24). -/
def Dev.capHeader (d : Dev) (r : Nat) (x : CapX) (e : CapEnd) : List W64 :=
  let ring := d.capRing r
  let stored := match x.trig with
    | some g => min (g.before + 1 + x.post) ring
    | none => min x.stored ring
  let start := if ring = 0 then 0 else (x.pos + ring - stored % ring) % ring
  let mask := (x.trig.map (·.mask)).getD 0
  let oldest := if stored = 0 then 0 else x.last - (stored - 1) * d.capT r
  [BitVec.ofNat 64 (x.recno % 2 ^ 32 + capFlags x e * 2 ^ 32 + mask * 2 ^ 40 + (if mask = 0 then 0 else lowBit mask) * 2 ^ 48),
   BitVec.ofNat 64 ((x.trig.map (·.t)).getD 0), BitVec.ofInt 64 ((x.trig.map (·.teff)).getD 0 / 65536), BitVec.ofNat 64 oldest,
   BitVec.ofNat 64 (start + stored * 2 ^ 32),
   BitVec.ofNat 64 ((x.trig.map (·.before)).getD stored + (if x.trig.isSome then x.post else 0) * 2 ^ 32),
   BitVec.ofNat 64 (x.ready.getD x.last - x.deadFrom), BitVec.ofNat 64 (x.missed % 2 ^ 32 + x.late % 2 ^ 32 * 2 ^ 32)]

/-- The record of recorder r closes: header, type 0x77, REC or DISC, and its segment is full (R530, R532, R537, R560). -/
def Dev.capEnd (d : Dev) (r : Nat) (e : CapEnd) : Dev :=
  let x := d.capX r
  let seg := d.get (CAP_Rr_STAT_WSEG r)
  let d1 := d.wrWords (d.capSegBase r seg) (d.capHeader r x e)
  let d2 := d1.emit (0x58 + r) 0x77 (some ((x.trig.map (·.t)).getD 0, 0)) 0
    [BitVec.ofNat 64 (r + seg * 2 ^ 4 + capFlags x e * 2 ^ 8 + x.recno % 2 ^ 32 * 2 ^ 32)]
  let d3 := if e.disc then d2.setf (CAP_Rr_STAT_DISC r) else d2.setf (CAP_Rr_STAT_REC r)
  d3.put (CAP_Rr_STAT_FULL r) (min 16 (d.get (CAP_Rr_STAT_FULL r) + 1))

/-- The recorder goes idle. -/
def Dev.capIdle (d : Dev) (r : Nat) : Dev := (d.put (CAP_Rr_STAT_STATE r) 0).setCapX r { d.capX r with next := none }

/-- A class D fault or a takeover closes every record in progress (R535). -/
def Dev.capDiscard (d : Dev) (c : Clock) : Dev :=
  (List.range 8).foldl (fun d r =>
    if (d.capX r).next.isSome then ((d.capEnd r { disc := true }).capIdle r).record c 192 (0x58 + r) 0 else d) d

end Sys2Proof.Machine
end

