-- ==== Sys2Proof/Machine/CanQueue.lean ====
section
/-! DEFINITION. The transmit queue of a CAN channel: how an entry leaves it (R437 to R440, R448). -/

namespace Sys2Proof.Machine

/-- Unit code of channel c (R428). -/
def canUnit (ch : Nat) : Nat := 0x60 + ch

/-- TXCTL.COUNT shows the entries queued. -/
def Dev.canTxShow (d : Dev) (ch : Nat) : Dev := d.put (CAN_CHc_TXCTL_COUNT ch) (d.canX ch).tx.length

/-- The entry on the bus after entry i has left the queue. -/
def curWithout (i : Nat) : Option (Nat × Nat) → Option (Nat × Nat)
  | none => none
  | some (k, s) => if k = i then none else if i < k then some (k - 1, s) else some (k, s)

/-- Entry i of channel ch leaves the queue with a type 0x59 packet at instant t: 0 sent, 1 expired, 2 one-shot failure; bit 2 PUSH
(R440, R448). -/
def Dev.canRemove (d : Dev) (ch i t result : Nat) : Dev :=
  let x := d.canX ch
  match x.tx[i]? with
  | none => d
  | some e =>
    let d1 := (d.setCanX ch { x with tx := x.tx.eraseIdx i, cur := curWithout i x.cur }).canTxShow ch
    let d2 := if result = 0 then d1.bump (CAN_CHc_TXSTAT_SENT ch) else d1.bump (CAN_CHc_TXSTAT_UNSENT ch)
    d2.emit (canUnit ch) 0x59 (some (t, 0)) 0
      [BitVec.ofNat 64 (e.w2.toNat + e.w3.toNat * 2 ^ 32), BitVec.ofNat 64 (result % 4 + if e.work.isNone then 4 else 0)]

/-- Entries of discarded can.send commands are removed unsent; their result code is open (R471, R555; log entry 26). -/
def Dev.canDiscard (d : Dev) (c : Clock) (ids : List Nat) : Dev :=
  (List.range 8).foldl (fun d ch =>
    ((List.range 32).reverse).foldl (fun d i =>
      match (d.canX ch).tx[i]? with
      | some e =>
        if hit e.work then
          let (r, d1) := d.takeFree
          d1.canRemove ch i c.ns (1 + (r % 3).toNat)
        else d
      | none => d) d) d
where
  hit : Option Nat → Bool
    | some w => ids.contains w
    | none => false

end Sys2Proof.Machine
end

