-- ==== Sys2Proof/Machine/Pins.lean ====
section
/-! DEFINITION. DC groups and banks of the lanes, and the pins of the lanes in each output state (R175, R206, R221, R222, R226, R565). -/

namespace Sys2Proof.Machine

/-- DC group of a lane (R175): servo lanes 0 to 23, stepper lanes 24 to 31. -/
def groupOf (u : Nat) : Nat := if u < 24 then u / 6 else (u - 24) / 2

/-- Lanes of a DC group (R175). -/
def lanesOfGroup (g : Nat) : List Nat := (List.range 6).map (6 * g + ·) ++ [24 + 2 * g, 25 + 2 * g]

/-- VIO bank of a lane's pins: VIO_B for L00 to L11 and S0 to S3, VIO_C for the rest (21, pin groups). -/
def bankOf (u : Nat) : Nat := if groupOf u < 2 then 1 else 2

/-- Codes that leave a lane in FAULT at high impedance until lane.clear (R221, R490). -/
def faultZ : List Nat := [50, 70, 71, 80, 170]

/-- Forced to high impedance: FLT_Ng latched, a comparator trip, an overvoltage, or PFORCE_N (R221). -/
def Dev.forced (d : Dev) (u : Nat) : Bool :=
  (d.get PWM_FLT_STAT_LAT).testBit (groupOf u) || (d.lane u).trip || (d.groupX (groupOf u)).forced ||
    (d.groupX (groupOf u)).stoZ || d.pforce

/-- OSTATE of a lane's pins by the first row of R221 that matches: 0 high impedance, 1 driven off (coast), 2 carrier, 3 fault
pattern, 4 forced; also a lane in FAULT after FL170 is at high impedance (R490), and a survivor's until it drives (R466). -/
def Dev.ostate (d : Dev) (u : Nat) : Nat :=
  let x := d.lane u
  if d.forced u then 4
  else if d.pair.tk.isSome then 0
  else match d.dst with
    | .ready | .run =>
      match x.state with
      | .fault =>
        if x.fcode ∈ faultZ then 0
        else if u < 24 then (if d.get (PWM_Lnn_CFG_ACT_FPAT u) = 0 then 0 else 3)
        else if d.flag (PWM_Ss_CFG_ACT_FCOAST (u - 24)) then 3 else 0
      | .disabled => 0
      | .armed => 1
      | .enabled | .stopping => if x.hiZ then 0 else 2
    | _ => 0

/-- Level of pin `i` (UH, UL, VH, VL, WH, WL) when its switch is on or off (R206). -/
def Dev.swLevel (d : Dev) (l i : Nat) (on : Bool) : Bool :=
  let pol := d.flag (if i % 2 = 0 then PWM_Lnn_CFG_ACT_HPOL l else PWM_Lnn_CFG_ACT_LPOL l)
  on != pol

/-- The switch pattern a servo lane's pins show in an output state. -/
def Dev.swOn (d : Dev) (l ost i : Nat) : Bool :=
  (ost = 2 || ost = 3) && ((d.pwmX l).sw.getD i {}).on

/-- Show a servo lane's pins in PWM_Lnn_OUT (R221). -/
def Dev.showLane (d : Dev) (l : Nat) : Dev :=
  let ost := d.ostate l
  let driven := ost ≠ 0 && ost ≠ 4 && d.pow.vio.testBit (bankOf l)
  let level := (List.range 6).foldl (fun n i => n + if driven && d.swLevel l i (d.swOn l ost i) then 2 ^ i else 0) 0
  d.setReg (PWM_Lnn_OUT_LEVEL l).addr (BitVec.ofNat 32 (level + (if driven then 63 else 0) * 2 ^ 8 + ost * 2 ^ 16))

/-- Levels of pins X1 and X2 of a bridge that the lane drives (R226, R261). -/
def Bridge.pins (b : Bridge) (now : Nat) : Nat :=
  let dir (p : Bool) : Nat := if p then 1 else 2
  match b.st with
  | .coast => 0
  | .slow => 3
  | .drive => dir b.pos
  | .off => if now < b.fastEnd then dir (!(b.driven.getD b.pos)) else 3

/-- Show stepper lane s's pins in PWM_Ss_OUT (R221, R226). -/
def Dev.showStp (d : Dev) (c : Clock) (s : Nat) : Dev :=
  let u := 24 + s
  let ost := d.ostate u
  let driven := ost ≠ 0 && ost ≠ 4 && d.pow.vio.testBit (bankOf u)
  let x := d.stpX s
  let raw := if ost = 2 then x.a.pins c.ns + 4 * x.b.pins c.ns else 0
  let level := if !driven then 0 else if d.flag (PWM_Ss_CFG_ACT_POL s) then 15 - raw else raw
  d.setReg (PWM_Ss_OUT_LEVEL s).addr (BitVec.ofNat 32 (level + (if driven then 0xF0 else 0) + ost * 2 ^ 8))

/-- Show the pins of any lane. -/
def Dev.showUnit (d : Dev) (c : Clock) (u : Nat) : Dev := if u < 24 then d.showLane u else d.showStp c (u - 24)

/-- Show the pins of a DC group's lanes. -/
def Dev.showGroup (d : Dev) (c : Clock) (g : Nat) : Dev := (lanesOfGroup g).foldl (fun d u => d.showUnit c u) d

/-- The brake carrier of group g at an instant (R228): BRKg's active state. -/
def Dev.brkActive (d : Dev) (g now : Nat) : Bool :=
  let tick := 2 * 2 ^ d.get (PWM_Gg_BPWM_ACT_PRE g)
  match (d.groupX g).carrier with
  | none => false
  | some r => decide ((now - r) % max 1 (d.get (PWM_Gg_BPWM_ACT_PER g) * tick) < d.get (PWM_Gg_BON_ACT_ON g) * tick)

/-- The outputs that R451 gives to the active member only are at high impedance: PFORCE_N is low (R452), the device mirrors (R457), or a
survivor has not yet driven (R466). -/
def Dev.sharedZ (d : Dev) : Bool := d.pforce || d.dst = .mirror || d.pair.tk.isSome

/-- Level of pin BRKg at an instant, none at high impedance (R221, R452): under FLT_Ng with BRKINC bit g set, under PFORCE_N, and outside
READY and RUN; else the brake carrier with the active level that POL names. -/
def Dev.brkPin (d : Dev) (g now : Nat) : Option Bool :=
  let runs := match d.dst with
    | .ready | .run => true
    | _ => false
  if !runs || d.sharedZ || ((d.get PWM_FLT_STAT_LAT).testBit g && (d.get PWM_FLT_CFG_BRKINC).testBit g) ||
      !d.pow.vio.testBit (1 + g / 2) then none
  else some (d.brkActive g now != d.flag (PWM_Gg_BPWM_ACT_POL g))

/-- Show the pins of every lane. -/
def Dev.showAll (d : Dev) (c : Clock) : Dev := (List.range 32).foldl (fun d u => d.showUnit c u) d

end Sys2Proof.Machine
end

