-- ==== Sys2Proof/Machine/Faults.lean ====
section
/-! DEFINITION. What a fault does by its class (R549, R551, R555, R556): work in flight, lanes, and entry into SAFE. -/

namespace Sys2Proof.Machine

/-- Insert an id into an ascending list, once. -/
def insId (i : Nat) : List Nat → List Nat
  | [] => [i]
  | j :: r => if i < j then i :: j :: r else if i = j then j :: r else j :: insId i r

/-- Ids in ascending order: mailbox, then SEQ (R374). -/
def sortIds (ids : List Nat) : List Nat := ids.foldl (fun acc i => insId i acc) []

/-- Is this work among the ids? -/
def hitId (ids : List Nat) : Option Nat → Bool
  | some i => ids.contains i
  | none => false

/-! Modes of the axis slots (R235), their engines (R231) and the references to cam tables (R247). -/

def modeHold : Nat := 0
def modePosition : Nat := 1
def modeVelocity : Nat := 2
def modeGear : Nat := 3
def modeCam : Nat := 4
def modeStop : Nat := 5

/-- Mode of slot a (R235). -/
def Dev.axMode (d : Dev) (a : Nat) : Nat := d.get (TRJ_AXaa_STAT_MODE a)

/-- The trajectory engine of slot a (R231). -/
def slotEngine (a : Nat) : Nat := if a < 24 then 24 + a / 6 else if a < 32 then 24 + (a - 24) / 2 else 24 + (a - 32) / 8

/-- The cam table a master takes, as a mask. -/
def Master.camMask (m : Master) : Nat := if m.cam then 2 ^ m.table else 0

/-- Tables of engine e that a slot in CAM or a pending cam.set references, as a mask (R247). -/
def Dev.camRefs (d : Dev) (e : Nat) : Nat :=
  ((List.range 64).filter fun a => slotEngine a = e).foldl (fun n a =>
    let x := d.axX a
    let p := x.pend.foldl (fun n q => match q.op with
      | .master m => n ||| m.camMask
      | _ => n) 0
    n ||| p ||| (match x.mst with
      | some m => m.camMask
      | none => 0)) 0

/-- USE of every table of an engine (R247). -/
def Dev.camUse (d : Dev) (e : Nat) : Dev :=
  let used := d.camRefs e
  (List.range 16).foldl (fun d i => d.setf (TRJ_CAMDIR_md_USE (e - 24) i) (used.testBit i)) d

/-- A pending cam.set. -/
def AxCmd.isCam (q : AxCmd) : Bool :=
  match q.op with
  | .master m => m.cam
  | _ => false

/-- The type 0x43 packet of a slot event (R264). -/
def Dev.axEvent (d : Dev) (a t ev : Nat) (work : Option Nat) : Dev :=
  let id := work.getD 0
  d.emit a 0x43 (some (t, 0)) 0 [BitVec.ofNat 64 (ev + id / 65536 * 2 ^ 8 + id % 65536 * 2 ^ 16)]

/-- A move or a ramp not complete is in progress (R255). -/
def Dev.axMoving (d : Dev) (a : Nat) : Bool :=
  (d.axX a).tc.isSome && decide (d.axMode a = modePosition ∨ d.axMode a = modeVelocity)

/-- A slot's commands and profile in progress among the works are cancelled; the slot is marked to stop (R255). -/
def AxX.cancel (ids : List Nat) (x : AxX) : AxX :=
  let hit := hitId ids x.work || x.pend.any fun p => hitId ids p.work
  { x with
    pend := x.pend.filter fun p => !hitId ids p.work
    work := if hitId ids x.work then none else x.work
    disc := x.disc || hit }

/-- What waits on behalf of these works is cancelled (R555, R556); a slot that loses a cam.load stops too (R255). -/
def Dev.cancel (d0 : Dev) (ids : List Nat) : Dev :=
  let d := (d0.camLoads.filter fun l => ids.contains l.work).foldl (fun d l => d.setAxX l.unit { d.axX l.unit with disc := true }) d0
  let cams := d.ax.any fun p => p.2.pend.any fun q => hitId ids q.work && q.isCam
  (fun (d : Dev) => if cams then (List.range 4).foldl (fun d i => d.camUse (24 + i)) d else d)
  { d with
    ax := d.ax.mapV (fun _ => {}) (AxX.cancel ids)
    camLoads := d.camLoads.filter fun l => !ids.contains l.work
    extLoads := d.extLoads.filter fun l => !hitId ids l.work
    fbk := d.fbk.mapV (fun _ => {}) fun x => { x with setPos := x.setPos.filter fun p => !hitId ids p.2.2 }
    imgs := d.imgs.filter fun p => !hitId ids p.work
    loops := d.loops.mapV (fun _ => {}) fun x => { x with pend := x.pend.filter fun p => !hitId ids p.work }
    lanes := d.lanes.mapV (fun _ => {}) fun x => { x with chg := x.chg.filter fun g => !hitId ids g.work }
    fio := { d.fio with
      sets := d.fio.sets.filter fun x => !ids.contains x.work
      wins := d.fio.wins.filter fun x => !hitId ids x.2.2 }
    cap := d.cap.mapV (fun _ => {}) fun x => { x with
      armWork := if hitId ids x.armWork then none else x.armWork
      stop := match x.stop with
        | some (t, w) => if ids.contains w then none else some (t, w)
        | none => none }
    chain := { d.chain with enum := match d.chain.enum with
      | some (w, t) => if ids.contains w then none else some (w, t)
      | none => none }
    pair := { d.pair with join := match d.pair.join with
      | some (t, w) => if ids.contains w then none else some (t, w)
      | none => none }
    safe := { d.safe with cfg := match d.safe.cfg with
      | some (ps, w) => if ids.contains w then none else some (ps, w)
      | none => none }
    her := { d.her with demands := d.her.demands.filter fun x => !ids.contains x.2.2.2.2 } }

/-- Staging copies of segments are dropped (R352, R470). -/
def Dev.dropStages (d : Dev) : Dev :=
  let go := (List.range 16).filter fun m => d.flag (MBX_Mm_STAT_STAGE m)
  let d1 := go.foldl (fun d m => d.setf (MBX_Mm_STAT_STAGE m) false) d
  { d1 with mbx := d1.mbx.mapV (fun _ => {}) fun x => { x with stage := none } }

/-- The event of a trajectory command that is discarded (R264): axis.cfg is none. -/
def Dev.discEvent (d : Dev) (c : Clock) (id : Nat) : Dev :=
  match d.work.find? fun w => w.id = id with
  | some w => if 0x0200 ≤ w.opc ∧ w.opc ≤ 0x0212 ∧ w.opc ≠ 0x0206 then d.axEvent w.unit c.ns 3 (some id) else d
  | none => d

/-- The motion in progress of a slot is discarded: the slot is marked to stop (R255). A motion that SLS re-planned has no command
any more, and its event names none. -/
def Dev.dropMotion (d : Dev) (c : Clock) (a : Nat) : Dev :=
  if !d.axMoving a then d
  else
    let x := d.axX a
    let d1 := d.setAxX a { x with disc := true }
    if x.work.isNone then d1.axEvent a c.ns 3 none else d1

/-- A fault discards works: cancelled, and each answered FAULT with the code (R37, R380); with them the motion of the slots in its scope
(R255). -/
def Dev.discard (d : Dev) (c : Clock) (code : Nat) (ids : List Nat) (slots : List Nat := []) : Dev :=
  let d1 := slots.foldl (fun d a => d.dropMotion c a) d
  let d2 := (sortIds ids).foldl (fun d i => d.discEvent c i) d1
  (sortIds ids).foldl (fun d i => d.finish i 3 c.ns { frac := c.frac, fcode := fcodeOf code }) ((d2.canDiscard c ids).cancel ids).dropStages

/-- Ids of the outstanding works of a unit. -/
def Dev.worksOf (d : Dev) (unit : Nat) : List Nat := (d.work.filter fun w => w.unit = unit).map (·.id)

/-- Staged and in-force offsets of a servo lane's window (R214): the commit copies the first into the second. -/
def laneGroupOffs : List (Nat × Nat) :=
  ((List.range 7).map fun i => (4 * i, 0x80 + 4 * i)) ++ ((List.range 22).map fun i => (0x200 + 4 * i, 0x280 + 4 * i)) ++
    [(0x380, 0x388), (0x384, 0x38C)]

/-- Base address of servo lane l's window. -/
def laneBase (l : Nat) : Nat := 0x40040000 + 0x400 * l

/-- The compare of a gate's next firing in force. -/
def Dev.gateNext (d : Dev) (g : Nat) : Nat := d.get64 (GATE_GTnnn_NEXT_LO_NEXT g) (GATE_GTnnn_NEXT_HI_NEXT g)

/-- A commit pending since `at_` is in time for the reload at `next` and its latch point has come: staging is locked (R215). -/
def latchLocks (at_ : Option Nat) (next now : Nat) : Bool :=
  match at_ with
  | some t => decide (t + 8 ≤ next) && decide (next ≤ now + 8)
  | none => false

/-- End of the staging lock once the commit is cancelled: a lock that has begun lasts to the end of the transfer window (R215, R219). -/
def lockAfter (at_ : Option Nat) (lockUntil next now : Nat) : Nat := if latchLocks at_ next now then next + 8 else lockUntil

/-- The pending commit of a servo lane is cancelled: CANCEL set, CMT clear, staging back to the values in force (R100, R219,
R555). -/
def Dev.cancelCommit (d : Dev) (c : Clock) (l : Nat) : Dev :=
  let x := d.pwmX l
  match x.commitAt with
  | none => d
  | some _ =>
    let d1 := (d.setPwmX l { x with
      commitAt := none
      commitSk := none
      commitEpoch := none
      after := none
      lockUntil := lockAfter x.commitAt x.lockUntil (d.gateNext (48 + l)) c.ns }).setf (PWM_Lnn_CSTAT_CANCEL l)
    (d1.setf (PWM_Lnn_COMMIT_CMT l) false).copyRegs (laneGroupOffs.map fun p => (laneBase l + p.2, laneBase l + p.1))

/-- Base address of stepper lane s's window. -/
def stpBase (s : Nat) : Nat := 0x40046000 + 0x100 * s

/-- The offsets of a stepper lane's group and of its views (R227). -/
def stpOffs : List (Nat × Nat) := [(0x00, 0x40), (0x04, 0x44), (0x14, 0x54), (0x20, 0x60), (0x24, 0x64), (0x28, 0x68)]

/-- The pending commit of a stepper lane is cancelled (R225, R555). -/
def Dev.cancelStp (d : Dev) (c : Clock) (s : Nat) : Dev :=
  let x := d.stpX s
  if x.commitAt.isNone then d
  else ((d.setStpX s { x with
    commitAt := none
    after := none
    lockUntil := lockAfter x.commitAt x.lockUntil (d.gateNext (72 + s)) c.ns }).setf (PWM_Ss_COMMIT_CMT s) false).copyRegs
    (stpOffs.map fun p => (stpBase s + p.2, stpBase s + p.1))

/-- The pending commit of a lane of either kind is cancelled. -/
def Dev.cancelLane (d : Dev) (c : Clock) (u : Nat) : Dev := if u < 24 then d.cancelCommit c u else d.cancelStp c (u - 24)

/-- The register in force behind a staged register (R15), for the groups that wait for an instant of their unit. -/
def inForceOf (a : Nat) : Option Nat :=
  let o := a % 0x10000
  match a / 0x10000 with
  | 0x4004 =>
    if o < 0x6000 then (laneGroupOffs.find? fun p => p.1 = o % 0x400).map fun p => a - o % 0x400 + p.2
    else if o < 0x6800 then (stpOffs.find? fun p => p.1 = o % 0x100).map fun p => a - o % 0x100 + p.2
    else if 0x7000 ≤ o ∧ o < 0x7400 ∧ (o % 0x100 < 0x18 ∨ o % 0x100 = 0x80 ∨ o % 0x100 = 0x84) then some (a + 0x40) else none
  | 0x4005 => if 0x100 ≤ o ∧ o < 0x1300 ∧ o % 0x40 < 0x14 then some (a + 0x20) else none
  | 0x4006 =>
    if 0x100 ≤ o ∧ o < 0x500 ∧ (o % 0x100 = 0 ∨ (8 ≤ o % 0x100 ∧ o % 0x100 < 0x18)) then some (a + 0x80)
    else if 0x800 ≤ o ∧ o < 0x900 ∧ o % 0x40 < 0xC then some (a + 0x20) else none
  | 0x4007 => if o < 0x3000 ∧ o % 0x200 < 0x2C then some (a + 0x100) else none
  | 0x4008 => if o < 0x800 ∧ o % 0x100 < 0x1C then some (a + 0x80) else none
  | 0x4009 => if o < 0x4000 ∧ o % 0x100 < 0x40 then some (a + 0x80) else none
  | 0x400A => if o < 0x4000 ∧ o % 0x400 < 0x100 then some (a + 0x200) else none
  | 0x400C => if o < 0x28 then some (a + 0x80) else if 0x400 ≤ o ∧ o < 0x600 ∧ o % 0x100 < 0xC then some (a + 0x80)
    else if 0x800 ≤ o ∧ o < 0xA00 ∧ o % 0x20 < 8 then some (a + 0x10) else none
  | 0x400D => if o < 0x8000 ∧ o % 0x1000 < 0xC then some (a + 0x80) else none
  | 0x4010 => if 0x100 ≤ o ∧ o < 0x500 ∧ o % 0x20 = 0 then some (a + 0x10)
    else if 0x100 ≤ o ∧ o < 0x500 ∧ o % 0x20 = 4 then some (a + 0x14) else none
  | _ => none

/-- A commit that still waits is cancelled: CMT clears, and the staging registers of its window take the values in force (R555). -/
def Dev.cancelCmt (d : Dev) (cmt : Field) (base words : Nat) : Dev :=
  if !d.flag cmt then d
  else (d.setf cmt false).copyRegs ((List.range words).filterMap fun i => (inForceOf (base + 4 * i)).map fun a => (a, base + 4 * i))

/-- The commits that wait under unit code u are cancelled: of the port and the slot of its number, or of the loop block (R555). -/
def Dev.cancelUnit (d : Dev) (u : Nat) : Dev :=
  let d1 := if u < 24 then d.cancelCmt (FBK_nn_CTL_CMT u) (0x40070000 + 0x200 * u) 11 else d
  let d2 := if u < 64 then d1.cancelCmt (TRJ_AXaa_CTL_CMT u) (0x40090000 + 0x100 * u) 16 else d1
  if 0x40 ≤ u ∧ u < 0x50 then d2.cancelCmt (LPB_bb_CTL_CMT (u - 0x40)) (0x400A0000 + 0x400 * (u - 0x40)) 64 else d2

/-- Every commit of the device that waits is cancelled (R555). -/
def Dev.cancelAll (d : Dev) (c : Clock) : Dev :=
  let d1 := (List.range 32).foldl (fun d u => d.cancelLane c u) d
  let d2 := (List.range 80).foldl (fun d u => d.cancelUnit u) d1
  let d3 := (List.range 8).foldl (fun d s => d.cancelCmt (STR_s_CTL_CMT s) (0x40080000 + 0x100 * s) 7) d2
  let d4 := (List.range 4).foldl (fun d g => (d.cancelCmt (SAR_Gg_CTL_CMT g) (0x40060800 + 0x40 * g) 3).cancelCmt (PWM_Gg_CTL_CMT g)
    (0x40047000 + 0x100 * g) 34) d3
  let d5 := (List.range 8).foldl (fun d ch => d.cancelCmt (CAN_CHc_CTL_CMT ch) (0x400D0000 + 0x1000 * ch) 3) d4
  let d6 := (List.range 24).foldl (fun d cc => d.cancelCmt (FIO_CHcc_CTL_CMT cc) (0x40100100 + 0x20 * cc) 2) d5
  let d7 := d6.cancelCmt CHAIN_CTL_CMT 0x400C0000 640
  { d7 with chain := { d7.chain with cmtAt := none } }

/-- The work of a unit is discarded, and its waiting commits with it (R549, R555). -/
def Dev.discardUnit (d : Dev) (c : Clock) (code u : Nat) : Dev :=
  (d.discard c code (d.worksOf u) (if u < 64 then [u] else [])).cancelUnit u


/-- The code that governs a lane in FAULT after both: of R221 the row of high impedance comes first, and FL070 and FL071 act at the
coming reload (R178). -/
def worseCode (old new : Nat) : Nat :=
  if old = 70 ∨ old = 71 then old else if new = 70 ∨ new = 71 then new else if faultZ.contains old then old else new

/-- Code of the fault that the lane is in, or is about to enter at its next sample gate; 0 none. -/
def LaneX.faultCode (x : LaneX) : Nat :=
  match x.chg.find? fun g => g.target = .fault with
  | some g => g.code
  | none => if x.state = .fault then x.fcode else 0

/-- A class L fault against a lane: its discrete work is discarded, accepted changes are answered FAULT, its pending commits are
cancelled, and the lane enters FAULT at its next sample gate (R45, R48, R100, R549, R555). Of two faults before that gate the code that
comes first in R221 stays. -/
def Dev.laneFault (d : Dev) (c : Clock) (code u : Nat) : Dev :=
  let d2 := (d.discardUnit c code u).cancelLane c u
  d2.setLane u { d2.lane u with
    chg := [{ at_ := c.ns, target := .fault, work := none, code := worseCode (d.lane u).faultCode code }], faulted := true }

/-- Is this lane ARMED, ENABLED or STOPPING? -/
def Dev.laneActive (d : Dev) (u : Nat) : Bool :=
  match (d.lane u).state with
  | .armed | .enabled | .stopping => true
  | _ => false

/-- The state the lane changes already accepted produce (R45, R306). -/
def Dev.judged (d : Dev) (u : Nat) : LaneState :=
  match (d.lane u).chg.getLast? with
  | some g => g.target
  | none => (d.lane u).state

/-- A class L fault reported against a lane that acts on it only while it is ARMED, ENABLED or STOPPING (R158, R124, R134). -/
def Dev.activeFault (d : Dev) (c : Clock) (code u : Nat) (info : Nat := 0) : Dev :=
  let d1 := d.record c code u info
  if d.laneActive u then d1.laneFault c code u else d1

/-- Entry into SAFE (R39, R40, R42, R43, R373, R556): all discrete work discarded and answered FAULT in the old epoch, MBX_EPOCH up by
one, every accepted lane change, sys.stop and shutdown cancelled, a type 0x71 notice, every pin at high impedance. -/
def Dev.enterSafe (d : Dev) (c : Clock) (code : Nat) : Dev :=
  let d00 := (List.range 4).foldl (fun d g => if d.flag (PWM_Gg_BSTAT_CHOP g) then d.setf (PWM_Gg_BSTAT_CHOP g) false else d) d
  let d0 := d00.cancelAll c
  let d1 := d0.discard c code (d.work.map (·.id)) (List.range 64)
  let d2 := { d1.raise 0xFE with
    dst := .safe
    sysStop := none
    pow := { d1.pow with sleepAt := none, early := 0 }
    imgs := []
    groups := d1.groups.mapV (fun _ => {}) fun x => { x with carrier := none, chopNext := false }
    lanes := d1.lanes.mapV (fun _ => {}) fun x => { x with chg := [] }
    her := { d1.her with demands := [] }
    mbx := d1.mbx.mapV (fun _ => {}) fun x => { x with taken := [], stage := none } }
  let d3 := (List.range 16).foldl (fun d m => (d.setf (MBX_Mm_STAT_SEQV m) false).setf (MBX_Mm_STAT_STAGE m) false) d2
  let w := BitVec.ofNat 64 (DevState.safe.code + fcodeOf code * 2 ^ 16)
  (((d3.put MBX_STAT_EPOCH (d3.get MBX_STAT_EPOCH + 1)).emit 0xFE 0x71 (some (c.ns, c.frac)) 0 [w]).pairNotice c 6 0xFE 0x71 w).showAll c

/-- A device-class fault detected: record, captures closed (R535), and entry into SAFE from READY, RUN or MIRROR (R40, R549). -/
def Dev.deviceFault (d : Dev) (c : Clock) (code unit info : Nat) (stays : Bool) (inj : Bool := false) : Dev :=
  let d0 := if code = 115 then d.setf HERDER_STAT_INTEG else d
  let d1 := (d0.record c code unit info inj).capDiscard c
  let d2 := if stays ∧ code ∉ d1.flt.active then { d1 with flt := { d1.flt with active := code :: d1.flt.active } } else d1
  match d2.dst with
  | .ready | .run | .mirror => d2.enterSafe c code
  | _ => d2

end Sys2Proof.Machine
end

