-- ==== Sys2Proof/Machine/Ecc.lean ====
section
/-! DEFINITION. What a corrected or uncorrectable word does by its region (R21, R544 to R546). -/

namespace Sys2Proof.Machine

/-- A corrected word is counted and reported (R545). -/
def Dev.noteCorrected (d : Dev) (c : Clock) (a unit : Nat) (r : EccOut) : Dev :=
  if r.syn = 0 ∨ r.bad then d
  else (d.bump FLT_ECC_CORR_V).record c 200 unit a

/-- FLT_ECC_UNC, ADDR and SYN of an uncorrectable word (R545). -/
def Dev.noteUncorr (d : Dev) (a : Nat) (syn : Nat) : Dev :=
  ((d.bump FLT_ECC_UNC_V).put FLT_ECC_ADDR_V a).put FLT_ECC_SYN_SYN syn

/-- Host address in Herder slot and list memory. -/
def isHerderMem (a : Nat) : Bool := 0x40014000 ≤ a && a < 0x4001C000

/-- Host address in the Herder's trace ring (R319). -/
def Dev.isTraceRing (d : Dev) (a : Nat) : Bool := d.get HERDER_TR_BASE_BASE ≤ a && a < d.get HERDER_TR_BASE_BASE + 65536

/-- FL202 against lane or slot u of an engine: a lane fault that lane.clear repairs (R545, R546). -/
def Dev.eccLane (d : Dev) (c : Clock) (u a : Nat) : Dev :=
  let d1 := (d.record c 202 u a).laneFault c 202 u
  d1.setLane u { d1.lane u with eccFault := true }

/-- The consequence of an uncorrectable word by its region (R545). -/
def Dev.eccRegion (d : Dev) (c : Clock) (a syn : Nat) : Dev :=
  let d1 := d.noteUncorr a syn
  if 0x20000000 ≤ a ∧ a < 0x203C0000 then
    let e := (a - 0x20000000) / 0x20000
    if e < 24 then d1.eccLane c e a
    else if e < 28 then
      let mine := (List.range 64).filter fun u => slotEngine u = e
      mine.foldl (fun d u => if u < 32 then d.eccLane c u a else (d.record c 202 u a).discardUnit c 202 u) d1
    else d1.deviceFault c 203 0xFE a false
  else if isHerderMem a then d1.deviceFault c 115 0xFE a false
  else if d.isTraceRing a ∨ (0x50000000 ≤ a ∧ a < 0x50200000) then d1.record c 206 0xFE a
  else if 0x60000000 ≤ a ∧ a < 0x62000000 then d1.record c 204 0xFE a
  else d1.deviceFault c 203 0xFE a false

/-- A consumer outside the engines reads the word at `a` (R544, R545): its data, zero where uncorrectable, and what the read reports. -/
def Dev.useWord (d : Dev) (c : Clock) (a : Nat) : Nat × Dev :=
  let w := a / 8 * 8
  let r := d.rdWord w
  if r.bad then (0, d.eccRegion c w r.syn) else (r.data, d.noteCorrected c w 0xFE r)

/-- Every word of a list of 64-bit words is read by its consumer; only those with inverted bits show anything. -/
def Dev.useWords (d : Dev) (c : Clock) (lo n : Nat) : Dev :=
  ((d.ecc.map (·.1)).filter fun a => lo ≤ a && a < lo + n).foldl (fun d a => (d.useWord c a).2) d

/-- The words from `lo` on are written: their check bits are generated anew (R543). -/
def Dev.touchWords (d : Dev) (lo n : Nat) : Dev := (List.range (n / 8)).foldl (fun d i => d.touchEcc (lo + 8 * i)) d

end Sys2Proof.Machine
end

