-- ==== Sys2Proof/Machine/Gates.lean ====
section
/-! DEFINITION. Launch gates (R65 to R74): commit, firing, and the grids the firmware gives the lane-cycle gates (R83). -/

namespace Sys2Proof.Machine

/-- Setup margin in ns (R69, R70). -/
def Dev.margin (d : Dev) : Nat := 2 * d.get GATE_MARGIN_MARG

/-- Is this unit code assigned (R27)? -/
def unitValid (u : Nat) : Bool := u ≤ 0x7F || u = 0xF0 || u = 0xFE

/-- Is TARGET valid for KIND (R66, R68, R405)? -/
def gateTargetOk (kind target : Nat) : Bool :=
  match kind with
  | 0 => unitValid target
  | 1 => target < 0x20 || (0x68 ≤ target && target < 0x6C)
  | 2 => target < 0x18 || (0x68 ≤ target && target < 0x6C) || target = 0xFE
  | 3 => target < 0x18
  | 4 => target = 0x6D
  | 5 => target = 0xFE
  | 6 => 0x58 ≤ target && target < 0x60
  | _ => false

/-- The first instant of the grid `cmp + k × per × 2 ns` (k ≥ 0) that is not below `bound`, and the instants skipped. -/
def gridFrom (cmp per bound : Nat) : Nat × Nat :=
  if bound ≤ cmp ∨ per = 0 then (cmp, 0)
  else
    let n := (bound - cmp + 2 * per - 1) / (2 * per)
    (cmp + n * (2 * per), n)

/-- Put a group of CFG, PER and compare in force (R69): a one-shot compare below `bound` does not arm and sets MISSED; a
periodic gate arms at its first instant not below `bound` and counts the instants skipped. -/
def Dev.gateInForce (d : Dev) (g cfg per cmp bound : Nat) : Dev :=
  let d1 := (d.setReg (GATE_GTnnn_CFG_ACT_EN g).addr (BitVec.ofNat 32 cfg)).put (GATE_GTnnn_PER_ACT_PER g) per
  if cfg % 2 = 0 then d1.setf (GATE_GTnnn_CTL_ARMED g) false
  else if per = 0 then
    if cmp < bound then (d1.setf (GATE_GTnnn_CTL_ARMED g) false).setf (GATE_GTnnn_CTL_MISSED g)
    else (d1.put64 (GATE_GTnnn_NEXT_LO_NEXT g) (GATE_GTnnn_NEXT_HI_NEXT g) cmp).setf (GATE_GTnnn_CTL_ARMED g)
  else
    let (next, skipped) := gridFrom cmp per bound
    ((d1.put64 (GATE_GTnnn_NEXT_LO_NEXT g) (GATE_GTnnn_NEXT_HI_NEXT g) next).bump (GATE_GTnnn_CTL_SKIP g) skipped).setf
      (GATE_GTnnn_CTL_ARMED g)


/-- A group of CFG, PER and compare committed now (R69, R73): inside the margin of a pending firing it waits for that firing, and CMT
reads 1. A commit exactly the margin before the compare replaces the firing (the model's choice, log entry 56). -/
def Dev.gateGroup (d : Dev) (c : Clock) (g cfg per cmp : Nat) : Dev :=
  if d.flag (GATE_GTnnn_CTL_ARMED g) ∧ d.gateNext g < c.ns + d.margin then
    (d.setGateX g { d.gateX g with after := some (cfg, per, cmp) }).setf (GATE_GTnnn_CTL_CMT g)
  else (d.setf (GATE_GTnnn_CTL_CMT g) false).gateInForce g cfg per cmp (c.ns + d.margin)

/-- Commit of a gate's staged group (R68, R69, R73). -/
def Dev.gateCommit (d : Dev) (c : Clock) (g : Nat) : Dev :=
  let cfg := (d.reg (GATE_GTnnn_CFG_EN g).addr).toNat
  if !gateTargetOk (cfg / 16 % 16) (cfg / 256 % 256) then
    (d.setf (GATE_GTnnn_CTL_CMT g) false).setf (GATE_GTnnn_CTL_CONFLICT g)
  else d.gateGroup c g cfg (d.get (GATE_GTnnn_PER_PER g)) (d.get64 (GATE_GTnnn_CMP_LO_CMP g) (GATE_GTnnn_CMP_HI_CMP g))

/-- The first firing of a periodic gate at or after an instant (R383); the instant itself where the gate is not armed. -/
def Dev.firstFiring (d : Dev) (g bound : Nat) : Nat :=
  if d.flag (GATE_GTnnn_CTL_ARMED g) then (gridFrom (d.gateNext g) (d.get (GATE_GTnnn_PER_ACT_PER g)) bound).1 else bound

/-- The earliest commit instant of a configuration image: launch time and 50 µs of lead (R383). -/
def imageLead (q : Request) (tref : Nat) : Nat := max (q.at_ tref) (tref + 50000)

/-- The gate whose CTL register stands at an address, where it is armed. -/
def armedAt (p : Nat × W32) : Option Nat :=
  if 0x40030100 ≤ p.1 ∧ p.1 < 0x40034100 ∧ (p.1 - 0x40030100) % 0x40 = 0x20 ∧ p.2.getLsbD 1 then some ((p.1 - 0x40030100) / 0x40) else none

/-- Does gate h fire before gate g at this tick: the lower number, at the tick of a step the lower compare first (R72, R74)? -/
def Dev.gateBefore (d : Dev) (c : Clock) (h g : Nat) : Bool :=
  if d.servo.stepAt = some c.osc ∧ d.gateNext h ≠ d.gateNext g then decide (d.gateNext h < d.gateNext g) else decide (h < g)

/-- No armed gate that fires before gate g is still due. -/
def Dev.gateFirst (d : Dev) (c : Clock) (g : Nat) : Bool :=
  (d.regs.filterMap armedAt).all fun h => !(decide (d.gateNext h ≤ c.ns) && d.gateBefore c h g)

/-- Is gate g armed, of this kind, with its compare reached (R65), and the first of those due (R72)? -/
def Dev.gateDue (d : Dev) (c : Clock) (g kind : Nat) : Bool :=
  d.flag (GATE_GTnnn_CTL_ARMED g) && decide (d.get (GATE_GTnnn_CFG_ACT_KIND g) = kind) && decide (d.gateNext g ≤ c.ns) && d.gateFirst c g

/-- The firing of gate g: MARK record, next grid instant or disarm (R67), and a group that waited for this firing takes
effect as though committed at this firing (R73). -/
def Dev.gateFire (d : Dev) (c : Clock) (g : Nat) : Dev :=
  let x := d.gateX g
  let now := d.gateNext g
  let per := d.get (GATE_GTnnn_PER_ACT_PER g)
  let d1 := d.setGateX g { x with fired := c.ns, last := now, after := none }
  match x.after with
  | some (cfg, p, cmp) => (d1.setf (GATE_GTnnn_CTL_CMT g) false).gateInForce g cfg p cmp (now + 1)
  | none =>
    if per = 0 then d1.setf (GATE_GTnnn_CTL_ARMED g) false
    else d1.put64 (GATE_GTnnn_NEXT_LO_NEXT g) (GATE_GTnnn_NEXT_HI_NEXT g) (now + 2 * per)

/-- Data of a FIELD, FRAME or CAPTURE gate g at a firing (R70), kept beside gate `own`, the one the firmware arms for that data:
complete data is taken; late data sets LATE, counts and reports FL010 against the target, and waits for the next firing. The Bool says
whether the new data is used. -/
def Dev.gateData (d : Dev) (c : Clock) (g own cmp : Nat) : Bool × Dev :=
  let x := d.gateX own
  match x.dataAt with
  | none => (false, d)
  | some t =>
    if t + d.margin ≤ cmp then (true, d.setGateX own { x with dataAt := none })
    else (false, ((d.setf (GATE_GTnnn_CTL_LATE g)).bump GATE_LATE_CNT_CNT).record c 10 (d.get (GATE_GTnnn_CFG_ACT_TARGET g)) g)

/-- The firmware stages a unit's group: CFG fields, period and compare (R83). -/
def Dev.gateStage (d : Dev) (g kind target sub per cmp : Nat) : Dev :=
  ((d.setReg (GATE_GTnnn_CFG_EN g).addr (BitVec.ofNat 32 (1 + kind * 16 + target * 256 + sub * 65536))).put (GATE_GTnnn_PER_PER g) per).put64
    (GATE_GTnnn_CMP_LO_CMP g) (GATE_GTnnn_CMP_HI_CMP g) cmp

/-- The firmware's group for a unit's gate on the grid `phase + k × 2 × per`, committed now (R69, R73, R83). Its compare is the grid's
first instant from now (log entry 75). -/
def Dev.gateGrid (d : Dev) (c : Clock) (g kind target sub per phase : Nat) : Dev :=
  if per = 0 then d.gateStage g kind target sub per phase
  else (d.gateStage g kind target sub per (gridFrom (phase % (2 * per)) per c.ns).1).gateCommit c g

/-- The same group committed inside the margin of the gate's firing at t: the grid's first instant strictly after t (R73, R132). -/
def Dev.gateGridAfter (d : Dev) (t g kind target sub per phase : Nat) : Dev :=
  let next := (gridFrom (phase % (2 * per)) per (t + 1)).1
  let d1 := d.gateStage g kind target sub per (if per = 0 then phase else next)
  if per = 0 then d1
  else (d1.setf (GATE_GTnnn_CTL_CMT g) false).gateInForce g (1 + kind * 16 + target * 256 + sub * 65536) per next (t + 1)

/-- Armed gates at a step of the time of record (R74): `b` is the whole ns the tick would show without the step, `a` with
it. One-shot gates inside a forward step are marked STEPPED and fire at this tick; one with a < compare ≤ b at a backward step waits on
the new scale (the model's choice, log entry 76). Periodic gates resume at the first grid instant after the step tick that has not
fired, and count what they skipped. -/
def Dev.gateStep (d : Dev) (b a : Nat) (g : Nat) : Dev :=
  if !d.flag (GATE_GTnnn_CTL_ARMED g) then d else
  let next := d.gateNext g
  let per := d.get (GATE_GTnnn_PER_ACT_PER g)
  if per = 0 then
    if b < next ∧ next < a then d.setf (GATE_GTnnn_CTL_STEPPED g) else d
  else
    let (n, k) := gridFrom next per (a + 1)
    (d.put64 (GATE_GTnnn_NEXT_LO_NEXT g) (GATE_GTnnn_NEXT_HI_NEXT g) n).bump (GATE_GTnnn_CTL_SKIP g) k

/-- CTL.CMT of a gate, or the effect of a type 0x02 packet (R68). -/
def execGateCommit (g : Fin 256) (s : State) : Host.Outcome State Fault Refusal :=
  .next (s.onServing fun c d => d.gateCommit c g)

/-- A MARK gate fires: it records the firing instant (R66). -/
def execGateMark (g : Fin 256) (s : State) : Host.Outcome State Fault Refusal :=
  .next (s.onServing fun c d => if d.gateDue c g 0 then d.gateFire c g else d)

end Sys2Proof.Machine
end

