-- ==== Sys2Proof/Machine/TimeBase.lean ====
section
/-! DEFINITION. The time base and the network time servo (R55 to R64, R612, R613, R77). -/

namespace Sys2Proof.Machine

def servoFree : Nat := 0
def servoAcquire : Nat := 1
def servoLocked : Nat := 2
def servoHoldover : Nat := 3
def servoSlew : Nat := 4

/-- 10^6 ppb in the servo's units (R58). -/
def ppbMax : Int := 1000000 * 2 ^ 56

/-- The slew term: SLEW × 1,000 ppb with the sign of what is left to remove (R58, R64). -/
def Dev.slewTerm (d : Dev) : Int :=
  if d.get TIME_STAT_STATE ≠ servoSlew ∨ d.servo.slewRem = 0 then 0
  else (if d.servo.slewRem < 0 then -1 else 1) * (d.get TIME_HOLD_SLEW * 1000 * 2 ^ 56 : Nat)

/-- A rate in the servo's units as TIME_RATE shows it, units of 2^-40, rounded convergently (log entry 7). -/
def rateOf (y : Int) : Int := roundDiv (y * 2 ^ 40) (1000000000 * 2 ^ 56)

/-- Put y = clamp(ys + slew term) in force (R58). -/
def Dev.setRate (d : Dev) : Dev :=
  let y := d.servo.ys + d.slewTerm
  let d1 := d.putI TIME_RATE_Y (rateOf (clampI (-ppbMax) ppbMax y))
  if y < -ppbMax ∨ ppbMax < y then d1.setf TIME_STAT_RATE_LIM else d1

/-- The pending step in ns (R61). -/
def Dev.timePend (d : Dev) : Int := sInt 64 (d.get64 TIME_PEND_LO_PEND TIME_PEND_HI_PEND)

/-- Store or clear the pending step. -/
def Dev.setPend (d : Dev) (e : Int) (pending : Bool) : Dev :=
  (d.put64 TIME_PEND_LO_PEND TIME_PEND_HI_PEND (uInt 64 e)).setf TIME_STAT_STEP_PEND pending

/-- Enter a servo state. -/
def Dev.servoTo (d : Dev) (st : Nat) : Dev := d.putState 0x6E TIME_STAT_STATE st

/-- Enter HOLDOVER with y frozen at ys (R61 to R63). -/
def Dev.toHoldover (d : Dev) (c : Clock) : Dev :=
  let entering := d.get TIME_STAT_STATE ≠ servoHoldover
  let sv := if entering then { d.servo with holdFrom := c.tor, expired := false } else d.servo
  (({ d with servo := { sv with good := 0 } }).servoTo servoHoldover).setRate

/-- A refused offset (R61, R613). -/
def Dev.refuseOffset (d : Dev) (c : Clock) (e : Int) : Dev :=
  let d1 := { d with servo := { d.servo with slewRem := 0 } }
  (((d1.setf TIME_STAT_TIME_JUMP).setPend e true).toHoldover c).record c 30 0x6E 0

/-- Consecutive good offsets and the lock (R59). -/
def Dev.judgeLock (d : Dev) (e : Int) : Dev :=
  let near := e.natAbs ≤ d.get TIME_LIM_LTHR
  let good := if near then d.servo.good + 1 else 0
  let d1 := { d with servo := { d.servo with good := good } }
  if d.get TIME_STAT_STATE = servoAcquire ∧ 16 ≤ good then d1.servoTo servoLocked
  else if d.get TIME_STAT_STATE = servoLocked ∧ !near then d1.servoTo servoAcquire
  else d1

/-- The servo processes one offset e in ns, master minus local (R58 to R61). -/
def Dev.servoOffset (d : Dev) (c : Clock) (e : Int) : Dev :=
  let st := d.get TIME_STAT_STATE
  let first := !d.servo.seen
  let d0 := { d with servo := { d.servo with seen := true, watchFrom := c.ns, lossReported := false } }
  if st = servoFree ∧ first ∧ d.noLaneRunning then
    ({ d0 with servo := { d0.servo with stepNow := some e } }).servoTo servoAcquire
  else
    let ec := e * 2 ^ 48 - d.servo.slewRem
    if d.get TIME_LIM_JTHR * 10 * 2 ^ 48 < ec.natAbs then d0.refuseOffset c e
    else
      let d1 := if st = servoFree then d0.servoTo servoAcquire
        else if st = servoHoldover then (d0.setPend 0 false).servoTo servoAcquire else d0
      let integ := clampI (-ppbMax) ppbMax (d.servo.integ + d.get TIME_GAIN_KI * ec)
      let raw := d.get TIME_GAIN_KP * ec + integ
      let ys := clampI (-ppbMax) ppbMax raw
      let d2 := ({ d1 with servo := { d1.servo with integ := integ, ys := ys } }).judgeLock e
      let d3 := if raw = ys then d2 else d2.setf TIME_STAT_RATE_LIM
      d3.setRate

/-- A change of MODE restarts the servo (R612). -/
def Dev.servoRestart (d : Dev) (c : Clock) : Dev :=
  let sv : Servo := { syncNs := d.servo.syncNs, watchFrom := c.ns }
  ((({ d with servo := sv }).servoTo servoFree).setPend 0 false).putI TIME_RATE_Y 0

/-- What follows a grid of the time of record goes on at its first instant after a step back: field frames, capture samples and heartbeats
(R57, R506, R523, R454; log entry 76). -/
def Dev.gridStep (d : Dev) (after : Nat) : Dev :=
  { d with
    fio := { d.fio with lastFrame := min d.fio.lastFrame after, actedAt := min d.fio.actedAt after }
    cap := (List.range 8).foldl (fun t r => match (d.capX r).next with
      | some n => t.set (fun _ => {}) r { d.capX r with
          next := some (min n (gridFrom (2 * d.get (CAP_Rr_SPH_ACT_SPH r)) (d.get (CAP_Rr_SPER_ACT_SPER r)) (after + 1)).1) }
      | none => t) d.cap
    pair := { d.pair with sentAt := min d.pair.sentAt after, beat := min d.pair.beat (after / 2000) } }

/-- A step moves what the Herder measures from the time of record: entries into READY, decrements on their way, and the statistics windows,
which begin at multiples of WIN ms of the new time (R295, R299, R317). -/
def Dev.herderStep (d : Dev) (before after : Nat) : Dev :=
  let move (t : Nat) : Nat := t + after - before
  let win := d.get HERDER_CTRL_WIN * 1000000
  { d with
    jobs := d.jobs.mapV (fun _ => {}) fun x => { x with readyAt := move x.readyAt }
    her := { d.her with
      decs := d.her.decs.map fun x => (x.1, x.2.1, move x.2.2)
      winFrom := if win = 0 then move d.her.winFrom else after / win * win } }

/-- One tick of the 500 MHz clock (R56, R57, R64): the time of record advances by 2 ns × (1 + y) in units of 2^-48 ns, or
moves by a step accepted before, on which armed gates act under R74; a slew removes its share of the pending step. The model's choices
(log entry 76): a backward step larger than the time of record leaves it at 0; while ys + slew term is clamped at 1,000 ppm a tick
counts the whole slew term as removed. -/
def State.tick (s : State) : State :=
  let d := s.dev
  let y := d.getI TIME_RATE_Y
  let adv : Int := 2 ^ 49 + y * 2 ^ 9
  let b := (s.clk.tor + adv).toNat
  let gain := rateOf d.slewTerm * 2 ^ 9
  let left := d.servo.slewRem - gain
  let rem := if d.slewTerm = 0 then d.servo.slewRem
    else if (0 < d.servo.slewRem ∧ left ≤ 0) ∨ (d.servo.slewRem < 0 ∧ 0 ≤ left) then 0 else left
  let d1 := if rem = d.servo.slewRem then d
    else
      let d' := { d with servo := { d.servo with slewRem := rem } }
      if rem = 0 then d'.setRate else d'
  match d.servo.stepNow with
  | none => { s with clk := { osc := s.clk.osc + 1, tor := b }, dev := d1 }
  | some e =>
    let a := ((b : Int) + e * 2 ^ 48).toNat
    let d2 := { d1 with servo := { d1.servo with
      stepNow := none, stepAt := some (s.clk.osc + 1), watchFrom := ((d1.servo.watchFrom : Int) + e).toNat } }
    let d3 := (List.range 256).foldl (fun d g => d.gateStep (b / 2 ^ 48) (a / 2 ^ 48) g) d2
    { s with clk := { osc := s.clk.osc + 1, tor := a }, dev := (d3.herderStep (b / 2 ^ 48) (a / 2 ^ 48)).gridStep (a / 2 ^ 48) }

/-- Does the time base run (R55, R566, R569, R576)? Not in OFF, STANDBY, DOZE, under RESET_N or with the regulators off. -/
def Dev.timeRuns (d : Dev) : Bool :=
  (match d.dst with
    | .off | .standby | .doze => false
    | _ => true) && !d.pow.resetLow && !d.pow.hot

/-- time.cfg checks (R77): CFG_ZERO then CFG_CONFLICT, on the values the image leaves. -/
def timeCfgZero (d : Dev) : Bool :=
  d.get TIME_LIM_JTHR = 0 || d.get TIME_LIM_LTHR = 0 || d.get TIME_HOLD_HLIM = 0 || d.get TIME_HOLD_SLEW = 0 ||
    d.get GATE_MARGIN_MARG = 0

def timeCfgConflict (d : Dev) : Bool :=
  d.get TIME_LIM_JTHR < 10 || 500 < d.get TIME_HOLD_SLEW || d.get GATE_MARGIN_MARG < 8 || 512 < d.get GATE_MARGIN_MARG ||
    d.get TIME_CTRL_MODE = 3

/-- time.cfg (R77, R612). -/
def cmdTimeCfg : CmdFn := fun c _ q d =>
  let ok := imageOk (fun a => a = TIME_CTRL_MODE.addr || a = TIME_GAIN_KP.addr || a = TIME_LIM_JTHR.addr ||
    a = TIME_HOLD_HLIM.addr || a = GATE_MARGIN_MARG.addr) q.image
  let d1 := d.writePairs q.image
  refuseIf [(decide (q.target ≠ 0x6E) || q.noImage, rcBadFormat), (ok && timeCfgZero d1, rcCfgZero),
      (!ok || timeCfgConflict d1, rcCfgConflict)] fun _ =>
    .done {} (if d1.get TIME_CTRL_MODE = d.get TIME_CTRL_MODE then d1 else d1.servoRestart c)

/-- time.accept_step (R64): without a pending step, or STEP with a lane ENABLED or STOPPING, BAD_STATE. TIME_PEND reads 0 from the
acceptance on, also while the step is slewed out (the model's choice, log entry 76). -/
def cmdTimeAcceptStep : CmdFn := fun _ _ q d =>
  let slew := (q.pw 0).toNat % 2 = 1
  refuseIf [(decide (q.target ≠ 0x6E) || decide (q.payload.length ≠ 1), rcBadFormat),
      (!d.flag TIME_STAT_STEP_PEND || (!slew && !d.noLaneRunning), rcBadState)] fun _ =>
    let e := d.timePend
    let d1 := (d.setPend 0 false).setf TIME_STAT_TIME_JUMP false
    if slew then
      .done {} ((({ d1 with servo := { d1.servo with slewRem := e * 2 ^ 48, good := 0 } }).servoTo servoSlew).setRate)
    else
      .done {} (({ d1 with servo := { d1.servo with stepNow := some e, good := 0 } }).servoTo servoAcquire)

def execTimeCfg (q : Request) (s : State) : Host.Outcome State Fault Refusal := .next (s.command 0x0400 cmdTimeCfg q)

def execTimeAcceptStep (q : Request) (s : State) : Host.Outcome State Fault Refusal :=
  .next (s.command 0x0401 cmdTimeAcceptStep q)

/-- A read of TIME_NOW_LO latches TIME_NOW_HI and TIME_NOW_FRAC (R7, R57). -/
def Dev.latchNow (d : Dev) (c : Clock) : Dev :=
  ((d.put TIME_NOW_LO_NS c.ns).put TIME_NOW_HI_NS (c.ns / 2 ^ 32)).put TIME_NOW_FRAC_FRAC c.frac

def execTimeNowLatch (s : State) : Host.Outcome State Fault Refusal := .next (s.onServing fun c d => d.latchNow c)

/-- Three Sync intervals without an offset (R62, R613). TIME_PEND takes slew_rem rounded convergently to whole ns (the model's choice, log
entry 76). -/
def Dev.masterLost (d : Dev) (c : Clock) : Dev :=
  if d.get TIME_CTRL_MODE ≠ 1 ∨ d.servo.lossReported ∨ c.ns < d.servo.watchFrom + 3 * d.servo.syncNs then d else
  let st := d.get TIME_STAT_STATE
  let d0 := { d with servo := { d.servo with lossReported := true } }
  let d1 := d0.setf TIME_STAT_MASTER_LOST
  let d2 := if st = servoSlew then
      let e := roundDiv d1.servo.slewRem (2 ^ 48)
      ({ d1 with servo := { d1.servo with slewRem := 0 } }).setPend e true
    else d1
  let d3 := if st = servoFree ∨ st = servoHoldover then d2 else d2.toHoldover c
  d3.record c 33 0x6E 0

def execMasterLost (s : State) : Host.Outcome State Fault Refusal := .next (s.onServing fun c d => d.masterLost c)

/-- HOLDOVER has lasted longer than HLIM (R63). -/
def Dev.holdoverLimit (d : Dev) (c : Clock) : Dev :=
  if d.get TIME_STAT_STATE = servoHoldover ∧ !d.servo.expired ∧
      d.get TIME_HOLD_HLIM * 1000000 * 2 ^ 48 < c.tor - d.servo.holdFrom then
    ({ d with servo := { d.servo with expired := true } }).setf TIME_STAT_HOLD_EXP
  else d

/-- The step is fully removed: SLEW to ACQUIRE (R59, R64). -/
def Dev.slewComplete (d : Dev) : Dev :=
  if d.get TIME_STAT_STATE = servoSlew ∧ d.servo.slewRem = 0 then
    (({ d with servo := { d.servo with good := 0 } }).servoTo servoAcquire).setRate
  else d

def execSlewComplete (s : State) : Host.Outcome State Fault Refusal := .next (s.onServing fun _ d => d.slewComplete)

end Sys2Proof.Machine
end

