-- ==== Sys2Proof/Machine/Power.lean ====
section
/-! DEFINITION. Supplies, resets, standby and the boot sequence (R55, R564 to R583, R590). -/

namespace Sys2Proof.Machine

/-- Registers the wake island keeps through STANDBY and DOZE (R569): CAN_WAKE_CFG and STAT, CAN_CHc_WCFG to WDMASK_HI,
CAN_CHc_NBT and SYS_WAKE. -/
def isWakeReg (a : Nat) : Bool :=
  a = 0x40000058 || a = 0x400DF000 || a = 0x400DF004 ||
    (0x400D0000 ≤ a && a < 0x400D8000 &&
      (let o := a % 0x1000; o = 4 || o = 0x84 || (0x300 ≤ o && o ≤ 0x318)))

/-- Registers of the safety unit (R575). -/
def isSafeReg (a : Nat) : Bool := 0x400F0000 ≤ a && a < 0x40100000

/-- Keep the registers a reset does not reach. -/
def keptRegs (keepWake keepSafe : Bool) (r : Tab W32) : Tab W32 :=
  r.filter fun p => (keepWake && isWakeReg p.1) || (keepSafe && isSafeReg p.1)

/-- What the field die keeps when the core loses its state (R515, R516): at a core reset nothing but VFLD; else its switches, latches
and safe states, with the modes it works in. -/
def Dev.fioLost (d : Dev) (reset : Bool) : Fio :=
  let x := d.fio
  if reset then { low := x.low, fresh := true }
  else { low := x.low, fresh := x.fresh, wd := x.wd,
         ch := x.ch.foldl (fun t k => t.set (fun _ => {}) k.1
           { cmd := k.2.cmd, cut := k.2.cut, safest := k.2.safest, out := d.fioDriven k.1 }) [] }

/-- Everything else is lost: registers, memories, time of record, work in flight without a response (R569, R577); every STO_Gg is
low (R494). -/
def Dev.lost (d : Dev) (st : DevState) (keepWake keepSafe : Bool) : Dev :=
  let kept : Dev := {
    dst := st
    regs := keptRegs keepWake keepSafe d.regs
    free := d.free
    fio := d.fioLost (decide (st = .boot))
    safe := if keepSafe then { d.safe with watch := false, cfg := none, events := 0 } else {}
    safeStore := d.safeStore
    pow := { d.pow with sleepAt := none, softAt := none, early := 0 } }
  (List.range 4).foldl (fun d g => d.setf (SAFE_Gg_STAT_STOPIN g) false) kept

/-- SYS_RST bit of each reset source (R575). -/
def causePor : Nat := 1
def causeBor : Nat := 2

/-- What SYS_RST shows of an entry as at power-on: POR, with BOR if a brown-out came before (R575, R590). -/
def Dev.powerCause (d : Dev) : Nat := causePor + if d.pow.brown then causeBor else 0

def causePin : Nat := 4
def causeWdog : Nat := 8
def causeSoft : Nat := 16
def causeWake : Nat := 32

/-- Entry into BOOT (R57, R575): the time of record starts again at 0, SYS_RST holds the cause, COUNT the entries since
power-on. -/
def State.toBoot (s : State) (cause : Nat) (keepWake keepSafe : Bool) : State :=
  let count := s.dev.get SYS_RST_COUNT
  let d := (s.dev.lost .boot keepWake keepSafe).setReg SYS_RST_POR.addr
    (BitVec.ofNat 32 (cause + (if cause % 2 = 1 then 0 else satU 16 (count + 1)) * 65536))
  { s with clk := {}, dev := { d with pow := { d.pow with brown := false } } }

/-- Entry into OFF (R566): everything is lost. -/
def State.toOff (s : State) : State := { s with clk := {}, dev := s.dev.lost .off false false }

/-- VIN rises above the power-on threshold (R40, R566, R575). -/
def execPowerOn (s : State) : Host.Outcome State Fault Refusal :=
  .next (
    if s.dev.dst ≠ .off ∨ s.dev.pow.vin then s else
    let s1 := { s with dev := { s.dev with pow := { s.dev.pow with vin := true } } }
    if s.dev.pow.resetLow ∨ s.dev.pow.hot then s1
    else s1.toBoot s.dev.powerCause false false)

/-- VIN falls below the brown-out threshold (R40, R566). -/
def execBrownOut (s : State) : Host.Outcome State Fault Refusal :=
  .next (
    let s1 := s.toOff
    { s1 with dev := { s1.dev with pow := { s1.dev.pow with vin := false, brown := true } } })

/-- RESET_N low for `ns` (R576): from 1 µs the device stays as in BOOT before the regulators start; a shorter pulse is
ignored (log entry 8). -/
def execResetNLow (ns : Nat) (s : State) : Host.Outcome State Fault Refusal :=
  .next (
    if ns < 1000 then s
    else
      let low (t : State) : State := { t with dev := { t.dev with pow := { t.dev.pow with resetLow := true } } }
      if s.dev.dst = .off then low s
      else
        let count := s.dev.get SYS_RST_COUNT
        let d := (s.dev.lost .boot false false).put SYS_RST_COUNT count
        low { s with clk := {}, dev := d })

/-- RESET_N rises (R575): BOOT with PIN, safety unit and wake island reset. -/
def execResetNRise (s : State) : Host.Outcome State Fault Refusal :=
  .next (
    if !s.dev.pow.resetLow then s else
    let s1 := { s with dev := { s.dev with pow := { s.dev.pow with resetLow := false } } }
    if !s.dev.pow.vin ∨ s.dev.pow.hot then s1
    else if s.dev.dst = .off then s1.toBoot (causePor + if s.dev.pow.brown then causeBor else 0) false false
    else s1.toBoot causePin false false)

/-- The supervisor watchdog expires (R577): only while the firmware runs. The safety unit and the wake island keep their
state. -/
def execWatchdogReset (s : State) : Host.Outcome State Fault Refusal :=
  .next (if s.dev.dst.serves then s.toBoot causeWdog true true else s)

/-- 1 ms after t_ref of sys.reset or pair.leave (R575). -/
def execSoftReset (s : State) : Host.Outcome State Fault Refusal :=
  .next (match s.dev.pow.softAt with
    | some t => if t ≤ s.clk.ns then s.toBoot causeSoft true true else s
    | none => s)

/-- SYS_WAKE.EARLY (R572). -/
def wakeEarly : Nat := 512

/-- BOOT on a wake event: SYS_WAKE and CAN_WAKE_STAT show the sources; the safety unit is reset as at power-up, the wake island is not
(R571, R575). -/
def State.wake (s : State) (bits : Nat) : State :=
  let s1 := s.toBoot causeWake true false
  let d := (s1.dev.setReg SYS_WAKE_WAKEN.addr (BitVec.ofNat 32 bits)).put CAN_WAKE_STAT_SRC (bits / 4 % 64)
  { s1 with dev := d.put CAN_WAKE_STAT_FRAME (bits / 256 % 2) }

/-- A wake event with its SYS_WAKE bits: BOOT from STANDBY or DOZE; between t_ref and the entry it is held (R571, R572). -/
def State.wakeEvent (s : State) (bits : Nat) : State :=
  if s.dev.dst = .standby ∨ s.dev.dst = .doze then s.wake bits
  else match s.dev.pow.sleepAt with
    | some _ => { s with dev := { s.dev with pow := { s.dev.pow with early := s.dev.pow.early ||| bits } } }
    | none => s

/-- Entry into STANDBY or DOZE from READY 1 ms after t_ref; a wake event accepted before enters BOOT instead (R39, R569, R570, R572). -/
def execStandbyEntry (s : State) : Host.Outcome State Fault Refusal :=
  .next (match s.dev.pow.sleepAt with
    | none => s
    | some (t, st) =>
      if s.clk.ns < t ∨ s.dev.dst ≠ .ready then s
      else if s.dev.pow.early ≠ 0 then s.wake (s.dev.pow.early ||| wakeEarly)
      else { s with clk := {}, dev := s.dev.lost st true false })

/-- WAKE_N low for `ns`; below 10 µs it is ignored (R571), and so is a pin whose bank VIO_A is down (R591). -/
def execWakeN (ns : Nat) (s : State) : Host.Outcome State Fault Refusal :=
  .next (if ns < 10000 ∨ !s.dev.pow.vio.testBit 0 then s else s.wakeEvent 1)

/-- HPI_CS_N low for `ns`; accepted from 100 ns with bank VIO_A up; the transaction is lost (R358, R571, R591). -/
def execHpiCsNWake (ns : Nat) (s : State) : Host.Outcome State Fault Refusal :=
  .next (if ns < 100 ∨ !s.dev.pow.vio.testBit 0 then s else s.wakeEvent 2)

/-- Junction above 150 °C: regulators off, OFF (R590). -/
def execOverTemperature (degC : Int) (s : State) : Host.Outcome State Fault Refusal :=
  .next (
    if degC ≤ 150 ∨ s.dev.pow.hot then s else
    let s1 := s.toOff
    { s1 with dev := { s1.dev with pow := { s1.dev.pow with hot := true } } })

/-- Cooled below 130 °C: BOOT as at power-on (R590). -/
def execCoolDown (degC : Int) (s : State) : Host.Outcome State Fault Refusal :=
  .next (
    if 130 ≤ degC ∨ !s.dev.pow.hot then s else
    let s1 := { s with dev := { s.dev with pow := { s.dev.pow with hot := false } } }
    if !s.dev.pow.vin ∨ s.dev.pow.resetLow then s1
    else s1.toBoot s.dev.powerCause false false)

/-- Set a bank's supply bit. -/
def Dev.setVio (d : Dev) (bank : Nat) (up : Bool) : Dev :=
  let others := d.pow.vio - (if d.pow.vio.testBit bank then 2 ^ bank else 0)
  { d with pow := { d.pow with vio := others + if up then 2 ^ bank else 0 } }

/-- A VIO bank rises above 1.6 V: its pins take the state the device state gives (R565). -/
def execVioBankRise (bank : Fin 6) (s : State) : Host.Outcome State Fault Refusal :=
  .next (s.onDev fun c d => (d.setVio bank.val true).showAll c)

/-- A VIO bank falls below 1.6 V: its pins are at high impedance, the device runs on (R565). -/
def execVioBankFall (bank : Fin 6) (s : State) : Host.Outcome State Fault Refusal :=
  .next (s.onDev fun c d => (d.setVio bank.val false).showAll c)

/-- BOOT cannot complete (R41, R583): the device stays in BOOT with SYS_BOOT.CAUSE; 0 and 7 name no failure. -/
def execBootFailure (cause : BitVec 3) (s : State) : Host.Outcome State Fault Refusal :=
  .next (
    if s.dev.dst = .boot ∧ !s.dev.pow.resetLow ∧ cause ≠ 0 ∧ cause ≠ 7 then
      { s with dev := s.dev.put SYS_BOOT_CAUSE cause.toNat }
    else s)

/-- The JTAG instruction BOOTST: the 32-bit data register holds SYS_BOOT (R583). -/
def execBootst (s : State) : Host.Outcome State Fault Refusal :=
  .next (if s.dev.dst = .off then s else
    s.onDev fun _ d => { d with pow := { d.pow with jtagDr := d.reg SYS_BOOT_CAUSE.addr } })

/-- The tick PLL loses lock: FD034, which stays until a reset (R55). -/
def execRefLost (s : State) : Host.Outcome State Fault Refusal :=
  .next (s.onServing fun c d => d.deviceFault c 34 0x6E 0 true)

end Sys2Proof.Machine
end

