-- ==== Sys2Proof/Machine/Herder.lean ====
section
/-! DEFINITION. The Herder's job slots, counters, lists, dispatch and monitor (R289 to R321). -/

namespace Sys2Proof.Machine

def jobFree : Nat := 0
def jobWait : Nat := 1
def jobDelay : Nat := 2
def jobReady : Nat := 3
def jobRun : Nat := 4
def jobPreempted : Nat := 5

/-- Current job slot of lane l (R291). -/
def slotCurrent (l : Nat) : Nat := 4 * l
def slotPosition (l : Nat) : Nat := 4 * l + 1
def slotVelocity (l : Nat) : Nat := 4 * l + 2
def slotExt (l : Nat) : Nat := 4 * l + 3
/-- Set-point job slot of axis slot a. -/
def slotSetpoint (a : Nat) : Nat := 96 + a
/-- Loop job slot of block b. -/
def slotLoop (b : Nat) : Nat := 160 + b

/-- The unit a slot's job serves (R291, R309, R322): a cam.load block serves the slot its command names. -/
def Dev.jobUnit (d : Dev) (j : Nat) : Nat :=
  if j < 96 then j / 4 else if j < 160 then j - 96 else if j < 176 then 0x40 + (j - 160)
  else match d.camLoads.find? fun l => l.job = j with
    | some l => l.unit
    | none => 0xFE

/-- LAUNCH of a slot. -/
def Dev.jobLaunch (d : Dev) (j : Nat) : Nat := d.get64 (HERDER_JOBj_LAUNCH_LO_LAUNCH j) (HERDER_JOBj_LAUNCH_HI_LAUNCH j)

/-- Absolute deadline of a slot (R290). -/
def Dev.jobDeadline (d : Dev) (j : Nat) : Nat := d.jobLaunch j + d.get (HERDER_JOBj_DLREL_DLREL j)

/-- Latest start of a slot with LSO other than 0 (R301); of a current job t_ls, which R88 gives in ns. -/
def Dev.jobLatest (d : Dev) (j : Nat) : Option Nat :=
  let lso := d.get (HERDER_JOBj_CNT_LSO j)
  if lso = 0 then none
  else if j < 96 ∧ j % 4 = 0 then some (d.jobDeadline j - 56 - d.get (HERDER_COSTc_COST (d.get (HERDER_JOBj_CFG_CLS j))))
  else some (d.jobDeadline j - 8 * lso)

/-- Successor i of a slot: a 10-bit field of the 96-bit SUCC (R290). -/
def Dev.jobSucc (d : Dev) (j i : Nat) : Nat :=
  let w := d.get (HERDER_JOBj_SUCC0_SUCC j) + d.get (HERDER_JOBj_SUCC1_SUCC j) * 2 ^ 32 + d.get (HERDER_JOBj_SUCC2_SUCC j) * 2 ^ 64
  w / 2 ^ (10 * i) % 1024

/-- The successors of a slot. -/
def Dev.jobSuccs (d : Dev) (j : Nat) : List Nat := (List.range (min 8 (d.get (HERDER_JOBj_CFG_NSUCC j)))).map (d.jobSucc j)

def Dev.jobState (d : Dev) (j : Nat) : Nat := d.get (HERDER_JOBj_CFG_STATE j)
def Dev.jobPrio (d : Dev) (j : Nat) : Nat := d.get (HERDER_JOBj_CFG_PRIO j)

/-- Refresh the engine's status view: DEPTH, RUN, SHADOW. -/
def Dev.engStat (d : Dev) (e : Nat) : Dev :=
  let x := d.engX e
  let sh := match x.run with
    | some r => r.shadow
    | none => false
  ((d.put (HERDER_ENGe_STAT_DEPTH e) (d.depth e)).setf (HERDER_ENGe_STAT_RUN e) x.run.isSome).setf (HERDER_ENGe_STAT_SHADOW e) sh


/-- A slot enters READY at an instant (R295). -/
def Dev.jobToReady (d : Dev) (j t : Nat) : Dev :=
  let d1 := d.put (HERDER_JOBj_CFG_STATE j) jobReady
  let d2 := { d1 with her := { d1.her with ready := insId j d1.her.ready, delay := d1.her.delay.filter (· ≠ j) } }
  (d2.setJobX j { d2.jobX j with readyAt := t }).engStat (d.jobEng j)

/-- A slot's counter is 0: READY once LAUNCH has passed, DELAY before (R295). -/
def Dev.jobReleased (d : Dev) (j t : Nat) : Dev :=
  if d.jobLaunch j ≤ t then d.jobToReady j t
  else
    let d1 := d.put (HERDER_JOBj_CFG_STATE j) jobDelay
    { d1 with her := { d1.her with delay := insId j d1.her.delay } }

/-- One decrement of a slot for an instant (R293): ignored and counted in HERDER_XDEC when the slot is not in WAIT, its
counter is 0, or its instance is another. `t` is when the decrement takes effect. -/
def Dev.jobDec (d : Dev) (j inst t : Nat) : Dev :=
  let cnt := d.get (HERDER_JOBj_CNT_CNT j)
  if d.jobState j ≠ jobWait ∨ cnt = 0 ∨ (d.jobX j).inst ≠ inst then d.bump HERDER_XDEC_CNT
  else
    let d1 := d.put (HERDER_JOBj_CNT_CNT j) (cnt - 1)
    if cnt = 1 then d1.jobReleased j t else d1

/-- The type 0x03 packet of an OVERRUN, WITHDRAW or SKIP decision (R322). -/
def Dev.herderEvent (d : Dev) (c : Clock) (kind j value : Nat) : Dev :=
  let w1 := kind + j * 2 ^ 3 + d.jobEng j * 2 ^ 13 + d.jobPrio j * 2 ^ 18 + d.depth (d.jobEng j) % 1024 * 2 ^ 22 +
    satU 16 value * 2 ^ 32 + d.get (HERDER_JOBj_CFG_CLS j) * 2 ^ 48
  d.emit (d.jobUnit j) 0x03 (some (c.ns, c.frac)) 0 [BitVec.ofNat 64 w1]

/-- Trace entry about a slot. -/
def Dev.traceJob (d : Dev) (c : Clock) (kind j value : Nat) (late : Bool := false) : Dev :=
  d.trace c kind j (d.jobEng j) (d.jobPrio j) (d.depth (d.jobEng j)) value (d.get (HERDER_JOBj_CFG_CLS j)) 0 late

/-- A slot goes back to FREE and off the lists. -/
def Dev.jobToFree (d : Dev) (j : Nat) : Dev :=
  let was := d.jobState j
  let d1 := d.put (HERDER_JOBj_CFG_STATE j) jobFree
  let d2 := { d1 with her := { d1.her with ready := d1.her.ready.filter (· ≠ j), delay := d1.her.delay.filter (· ≠ j) } }
  let d3 := if 256 ≤ j ∧ was ≠ jobFree then d2.put HERDER_STAT_FREE (d2.get HERDER_STAT_FREE + 1) else d2
  d3.engStat (d.jobEng j)

/-- One withdrawal (R301): trace, type 0x03 packet, and FC113 for a slot that is not a current job. -/
def Dev.jobWithdrawOne (d : Dev) (c : Clock) (j : Nat) : Dev :=
  let d1 := ((d.traceJob c 5 j 0).herderEvent c 5 j 0)
  let d2 := if j < 96 ∧ j % 4 = 0 then d1 else d1.reportLim c 113 (d1.jobUnit j) j j
  d2.jobToFree j

/-- Withdraw a slot that is armed and not started, and in the same way every successor armed for the same instant (R294,
R301); `fuel` bounds the depth of the chain. -/
def Dev.jobWithdraw (c : Clock) : Nat → Dev → Nat → Dev
  | 0, d, _ => d
  | fuel + 1, d, j =>
    let st := d.jobState j
    if st = jobWait ∨ st = jobDelay ∨ st = jobReady then
      let inst := (d.jobX j).inst
      let d1 := d.jobWithdrawOne c j
      (d.jobSuccs j).foldl (fun d k => if (d.jobX k).inst = inst then Dev.jobWithdraw c fuel d k else d) d1
    else d

/-- Withdraw the successors of a job that did not complete (R294). -/
def Dev.withdrawSuccs (d : Dev) (c : Clock) (j : Nat) : Dev :=
  let inst := (d.jobX j).inst
  (d.jobSuccs j).foldl (fun d k => if (d.jobX k).inst = inst then Dev.jobWithdraw c 8 d k else d) d

/-- Arm a slot for an instant (R302); packets that came before no longer count as fresh for it (R330; log entry 27): an instance that has not
started is withdrawn first; one in RUN or PREEMPTED goes on and the new instance is skipped (SKIP entry, FC114), with every successor armed
for the same instant (R294). -/
def Dev.jobArm (d : Dev) (c : Clock) (j inst launch dlrel : Nat) : Dev :=
  let d0 := Dev.jobWithdraw c 8 d j
  if d0.jobState j = jobRun ∨ d0.jobState j = jobPreempted then
    let d1 := ((d0.traceJob c 6 j 0).herderEvent c 6 j 0).reportLim c 114 (d0.jobUnit j) j j
    (d1.jobSuccs j).foldl (fun d k => if (d.jobX k).inst = inst then Dev.jobWithdraw c 8 d k else d) d1
  else
    let rst := d0.get (HERDER_JOBj_CNT_RST j)
    let d1 := ((d0.put (HERDER_JOBj_CNT_CNT j) rst).put64 (HERDER_JOBj_LAUNCH_LO_LAUNCH j) (HERDER_JOBj_LAUNCH_HI_LAUNCH j)
      launch).put (HERDER_JOBj_DLREL_DLREL j) dlrel
    let k := if j < 96 then d1.get (PWM_Lnn_KIDX_K (j / 4)) else 0
    let d2 := (d1.setJobX j { d1.jobX j with inst := inst, k := k, mark := (d1.engine (d1.jobEng j)).arrivals }).put
      (HERDER_JOBj_CFG_STATE j) jobWait
    if rst = 0 then d2.jobReleased j c.ns else d2

/-- Firmware fills a slot's fixed fields: PRIO, ENG, CLS, RSRC, RST, LSO, successors (R290, R291). -/
def Dev.jobSetup (d : Dev) (j prio eng cls rsrc rst lso : Nat) (succs : List Nat) : Dev :=
  let cfg := d.jobState j + prio * 16 + eng * 256 + cls * 65536 + succs.length * 2 ^ 24 + rsrc * 2 ^ 28
  let sw := (succs.zipIdx).foldl (fun n p => n + p.1 % 1024 * 2 ^ (10 * p.2)) 0
  let d1 := d.setReg (HERDER_JOBj_CFG_STATE j).addr (BitVec.ofNat 32 cfg)
  let d2 := (d1.put (HERDER_JOBj_CNT_RST j) rst).put (HERDER_JOBj_CNT_LSO j) lso
  ((d2.put (HERDER_JOBj_SUCC0_SUCC j) sw).put (HERDER_JOBj_SUCC1_SUCC j) (sw / 2 ^ 32)).put (HERDER_JOBj_SUCC2_SUCC j) (sw / 2 ^ 64)

/-- Does slot i come before slot j in a ready list (R298)? -/
def Dev.jobBefore (d : Dev) (i j : Nat) : Bool :=
  let pi := d.jobPrio i
  let pj := d.jobPrio j
  decide (pj < pi) || (decide (pi = pj) && (decide (d.jobDeadline i < d.jobDeadline j) ||
    (decide (d.jobDeadline i = d.jobDeadline j) && decide (i < j))))

/-- The head of an engine's ready list (R298). -/
def Dev.readyHead (d : Dev) (e : Nat) : Option Nat :=
  (d.her.ready.filter fun j => d.jobEng j = e).foldl (fun h j => match h with
    | none => some j
    | some i => if d.jobBefore j i then some j else some i) none

/-- Budget in ns of a slot's job: the cost of its class, and 300 ns more for a publishing set-point job (R303, R304). -/
def Dev.jobBudget (d : Dev) (j : Nat) : Nat :=
  d.get (HERDER_COSTc_COST (d.get (HERDER_JOBj_CFG_CLS j))) +
    (if 96 ≤ j ∧ j < 160 ∧ d.flag (TRJ_AXaa_CFG_ACT_PUB (j - 96)) then 300 else 0)

/-- Execution time in ns at a tick: 2 ns for each tick, without preemption and resume (R313). -/
def RunJob.execNs (r : RunJob) (osc : Nat) : Nat := r.used + 2 * (osc - r.start)

/-- Can engine e take its head job now (R300, R301)? The head, and whether it preempts. -/
def Dev.canTake (d : Dev) (c : Clock) (e : Nat) : Option (Nat × Bool) :=
  match d.readyHead e with
  | none => none
  | some j =>
    let inTime := match d.jobLatest j with
      | some t => decide (c.ns + 32 ≤ t)
      | none => true
    if !inTime then none
    else match (d.engX e).run with
      | none => some (j, false)
      | some r => if !r.shadow && (d.engX e).preempted.isNone && decide (d.jobPrio r.slot < d.jobPrio j) then some (j, true) else none

/-- No other engine's head job comes before job j of engine e at the dispatch stage: higher priority, or equal priority and a lower engine
number (R87, R299). -/
def Dev.servedNext (d : Dev) (c : Clock) (e j : Nat) : Bool :=
  d.her.ready.all fun k =>
    let f := d.jobEng k
    f = e || (d.canTake c f).isNone || !(d.readyHead f = some k) || decide (d.jobPrio k < d.jobPrio j) ||
      (decide (d.jobPrio k = d.jobPrio j) && decide (e < f))

/-- Does the dispatch stage serve engine e now (R299): one dispatch every 4 ns? The head, and whether it preempts. -/
def Dev.canDispatch (d : Dev) (c : Clock) (e : Nat) : Option (Nat × Bool) :=
  let slotFree := match d.her.lastDispatch with
    | some t => decide (t + 2 ≤ c.osc)
    | none => true
  match d.canTake c e with
  | some (j, pre) => if slotFree && d.servedNext c e j then some (j, pre) else none
  | none => none

/-- The inbox snapshot of a job that starts (R330): bit i the buffer with the latest packet of position i, bit 8 + i whether it came after
the slot was last armed (log entry 27). -/
def Dev.inboxSnap (d : Dev) (e j : Nat) : Nat :=
  let eng := d.engine e
  (List.range 8).foldl (fun n i => if (d.jobX j).mark < eng.arrAt.get (fun _ => 0) i then n + 2 ^ (8 + i) else n) eng.inbox

/-- The bank a job starts in (R326): everything zero but X1 to X5 and PC; the reference instant is s_k or t_j, else LAUNCH. -/
def Dev.entryBank (d : Dev) (e j : Nat) : Bank :=
  let inst := if j < 160 then (d.jobX j).inst else d.jobLaunch j
  let k := (d.jobX j).k
  let x : Tab W32 := []
  let st (x : Tab W32) (r v : Nat) : Tab W32 := Tab.set (fun _ => 0) x r (BitVec.ofNat 32 v)
  { x := st (st (st (st (st x 1 j) 2 inst) 3 (inst / 2 ^ 32)) 4 k) 5 (d.inboxSnap e j)
    pc := if j < 96 ∧ j % 4 = 3 then 0xC000 + 4 * (d.engine e).entry else (Config.vendorEntry j).toNat }

/-- The slot memory of job j holds an uncorrectable word (R323). -/
def Dev.slotBad (d : Dev) (j : Nat) : Bool :=
  !d.ecc.isEmpty && (List.range 4).any fun i => (eccRead 0 (d.eccMask (0x40014000 + 32 * j + 8 * i))).bad

/-- Dispatch (R299, R300, R318, R319, R323): the head job starts 32 ns after its dispatch; a running job of lower priority in the
primary bank is preempted. -/
def Dev.dispatch (d : Dev) (c : Clock) (e : Nat) : Dev :=
  match d.canDispatch c e with
  | none => d
  | some (j, pre) =>
    if d.slotBad j then d.deviceFault c 115 0xFE (0x40014000 + 32 * j) false else
    let x := d.engX e
    let wait := c.ns + 32 - (d.jobX j).readyAt
    let d1 := if pre then
        match x.run with
        | some r => (d.traceJob c 7 j r.slot).put (HERDER_JOBj_CFG_STATE r.slot) jobPreempted
        | none => d
      else d
    let d2 := (d1.traceJob c 0 j wait).put (HERDER_JOBj_CFG_STATE j) jobRun
    let x2 := d2.engX e
    let old := x.run.map fun r => { r with used := r.execNs c.osc }
    let x3 : EngX := { x2 with
      run := some { slot := j, start := c.osc + 16, used := 0, shadow := pre, inbox := d.inboxSnap e j }
      preempted := if pre then old else x2.preempted
      wmin := min x2.wmin wait, wmax := max x2.wmax wait, wsum := x2.wsum + wait, wcnt := x2.wcnt + 1
      load := x2.load + 32 }
    let d3 := { (d2.setEngX e x3) with her := { d2.her with ready := d2.her.ready.filter (· ≠ j), lastDispatch := some c.osc } }
    let eng := d3.engine e
    let bank := d3.entryBank e j
    let d4 := if e < 30 then d3.setEngine e (if pre then { eng with shadow := bank } else { eng with primary := bank }) else d3
    d4.engStat e

/-- Does an input packet of lane l name a period before the present one (R85)? Its SEQ lies behind the first that its stream produced
since the lane's sample gate (log entry 74). -/
def Dev.namesEarlier (d : Dev) (l : Nat) (p : Packet) : Bool :=
  let first := if brandType p.brand = 0x10 then (d.lane l).seq10 else (d.lane l).seq20
  !brandTimed p.brand && decide (32768 ≤ (brandSeq p.brand + 65536 - first) % 65536)

/-- Has a job on an engine started (R299)? A dispatched one starts 32 ns later. -/
def RunJob.started (r : RunJob) (osc : Nat) : Bool := decide (r.start ≤ osc) || decide (r.used ≠ 0)

/-- A dispatched job that has not started takes its snapshot of the inbox only then (R330). -/
def Dev.snapAgain (d : Dev) (c : Clock) (e : Nat) : Dev :=
  let x := d.engX e
  match x.run with
  | some r =>
    if r.started c.osc then d else
    let n := d.inboxSnap e r.slot
    let eng := d.engine e
    let set (b : Bank) : Bank := { b with x := b.x.set (fun _ => 0) 5 (BitVec.ofNat 32 n) }
    (d.setEngX e { x with run := some { r with inbox := n } }).setEngine e
      (if r.shadow then { eng with shadow := set eng.shadow } else { eng with primary := set eng.primary })
  | none => d

/-- A decrement by an input packet, which takes effect 8 ns after it arrives at the Herder (R295). -/
def Dev.jobDecLater (d : Dev) (c : Clock) (j inst : Nat) : Dev :=
  { d with her := { d.her with decs := d.her.decs ++ [(j, inst, c.ns + 8)] } }

/-- The decrements whose instant has come (R295). -/
def Dev.takeDecs (d : Dev) (c : Clock) : Dev :=
  let due (x : Nat × Nat × Nat) : Bool := decide (x.2.2 ≤ c.ns)
  (d.her.decs.filter due).foldl (fun d x => d.jobDec x.1 x.2.1 x.2.2)
    { d with her := { d.her with decs := d.her.decs.filter fun x => !due x } }

/-- Write a packet into buffer b of inbox position `pos` of engine e (R329); one of types 0x10 and 0x20 counts toward the current job
of its period (R84, R85, R330), and one that names an earlier period is counted as ignored (R293). -/
def Dev.inboxWrite (d : Dev) (c : Clock) (e pos b : Nat) (p : Packet) : Dev :=
  let eng := d.engine e
  let bufs := eng.inbox
  let n := eng.arrivals + 1
  let d1 := (d.wrWords (0x20010000 + 0x20000 * e + 0x80 * pos + 0x40 * b) ((p.brand :: p.words).take 8)).setEngine e { eng with
    inbox := if b = 1 then bufs ||| 2 ^ pos else if bufs.testBit pos then bufs - 2 ^ pos else bufs
    arrivals := n
    arrAt := eng.arrAt.set (fun _ => 0) pos n }
  let d2 := d1.snapAgain c e
  if 24 ≤ e ∨ 2 ≤ pos then d2
  else if d.namesEarlier e p then d2.bump HERDER_XDEC_CNT
  else d2.jobDecLater c (slotCurrent e) (d.gateX e).last

/-- A packet for inbox position `pos`: into the buffer that neither a running nor a preempted job holds, the other one than the
latest first; with both held it waits in the delivery stage in place of an earlier one (R330). -/
def Dev.inboxPut (d : Dev) (c : Clock) (e pos : Nat) (p : Packet) : Dev :=
  let x := d.engX e
  let held (b : Nat) : Bool := (x.run.toList ++ x.preempted.toList).any fun r => r.started c.osc && decide (r.inbox / 2 ^ pos % 2 = b)
  let latest := (d.engine e).inbox / 2 ^ pos % 2
  if !held (1 - latest) then d.inboxWrite c e pos (1 - latest) p
  else if !held latest then d.inboxWrite c e pos latest p
  else d.setEngine e { d.engine e with waiting := (d.engine e).waiting.filter (fun w => w.1 ≠ pos) ++ [(pos, p)] }

/-- Packets in the delivery stage go on after a job has left the engine. -/
def Dev.inboxFlush (d : Dev) (c : Clock) (e : Nat) : Dev :=
  let ws := (d.engine e).waiting
  ws.foldl (fun d w => d.inboxPut c e w.1 w.2) (d.setEngine e { d.engine e with waiting := [] })

/-- The job on an engine leaves it; a preempted job resumes 8 ns later (R300). -/
def Dev.leaveEngine (d : Dev) (c : Clock) (e : Nat) (exec : Nat) : Dev :=
  let x := d.engX e
  let d1 := d.setEngX e { x with
    run := x.preempted.map fun r => { r with start := c.osc + 4 }
    preempted := none
    load := x.load + exec }
  let d2 := match x.preempted with
    | some r => d1.put (HERDER_JOBj_CFG_STATE r.slot) jobRun
    | none => d1
  let d3 := if (d2.engine e).waiting.isEmpty then d2 else d2.inboxFlush c e
  d3.engStat e

/-- Normal completion (R293, R294, R313, R314, R316, R322): COMPLETE or MARGIN_LOW entry, statistics, the type 0x00 packet,
and the decrement of each successor armed for the same instant. The slow jobs that follow a current job wait for
its commit instead (R90, R295; log entry 10). -/
def Dev.jobComplete (d : Dev) (c : Clock) (e : Nat) : Dev :=
  match (d.engX e).run with
  | none => d
  | some r =>
    let j := r.slot
    let ex := r.execNs c.osc
    let budget := d.jobBudget j
    let pm := if budget = 0 then 0 else ex * 1000 / budget
    let low := budget * 9 < ex * 10
    let late := decide (d.get (HERDER_JOBj_CNT_LSO j) = 0) && decide (d.jobDeadline j < c.ns)
    let d1 := d.traceJob c (if low then 2 else 1) j pm late
    let d2 := if low then (d1.setf (HERDER_ENGe_STAT_MARGIN_LOW e)).reportLim c 112 (d.jobUnit j) j e else d1
    let d3 := d2.put (HERDER_ENGe_DONE_DONE e) (d2.get (HERDER_ENGe_DONE_DONE e) + 1)
    let res := if late then 2 else if low then 1 else 0
    let d4 := d3.emit (d.jobUnit j) 0x00 none 0xFFFF [BitVec.ofNat 64 (j + e * 2 ^ 10 + res * 2 ^ 15 + satU 16 pm * 2 ^ 16)]
    let succs := d.jobSuccs j
    let inst := (d.jobX j).inst
    let d5 := (d4.leaveEngine c e ex).jobToFree j
    if j < 96 ∧ j % 4 = 0 then d5 else succs.foldl (fun d k => d.jobDec k inst c.ns) d5

/-- Abort of the running job (R294, R315, R345): OVERRUN entry and packet, successors withdrawn. -/
def Dev.jobAbort (d : Dev) (c : Clock) (e : Nat) : Dev :=
  match (d.engX e).run with
  | none => d
  | some r =>
    let j := r.slot
    let ex := r.execNs c.osc
    let budget := d.jobBudget j
    let pm := if budget = 0 then 0 else ex * 1000 / budget
    let d1 := (d.traceJob c 3 j pm).herderEvent c 3 j pm
    let d2 := (d1.setf (HERDER_ENGe_STAT_OVERRUN e)).withdrawSuccs c j
    (d2.leaveEngine c e ex).jobToFree j

/-- A Herder tick instant (R295, R297): slots in DELAY whose LAUNCH has passed enter READY at that instant. -/
def Dev.herderTick (d : Dev) (c : Clock) : Dev :=
  let t := d.get HERDER_CTRL_TICK * 250
  let idx := c.ns / t
  if t = 0 ∨ idx = d.her.tickDone then d
  else
    let inst := idx * t
    let go := d.her.delay.filter fun j => d.jobLaunch j ≤ inst
    let d1 := go.foldl (fun d j => d.jobToReady j inst) d
    { d1 with her := { d1.her with tickDone := idx } }

/-- End of a statistics window (R317). -/
def Dev.statWindow (d : Dev) (c : Clock) : Dev :=
  let win := d.get HERDER_CTRL_WIN * 1000000
  if c.ns < d.her.winFrom + win ∨ win = 0 then d
  else
    let one (d : Dev) (e : Nat) : Dev :=
      let x := d.engX e
      let d1 := (d.put (HERDER_ENGe_DMAX_DMAX e) x.dmax).put (HERDER_ENGe_WMIN_W e) x.wmin
      let d2 := (d1.put (HERDER_ENGe_WMAX_W e) x.wmax).put (HERDER_ENGe_WMEAN_W e) (if x.wcnt = 0 then 0 else x.wsum / x.wcnt)
      let d3 := d2.put (HERDER_ENGe_LOAD_LOAD e) (min 10000 (x.load * 10000 / win))
      d3.setEngX e { x with dmax := 0, wmin := 0xFFFFFFFF, wmax := 0, wsum := 0, wcnt := 0, load := 0 }
    let d1 := (List.range 31).foldl one d
    { d1 with her := { d1.her with winFrom := c.ns / win * win } }

/-- herder.trace (R321): KMASK, FRZK, POST and EMASK, and FROZEN clears; accepted in every state that serves commands. -/
def cmdHerderTrace : CmdFn := fun _ _ q d =>
  refuseIf [(decide (q.target ≠ 0xF0) || decide (q.payload.length ≠ 2), rcBadFormat)] fun _ =>
    let d1 := ((d.put HERDER_TR_CTL_KMASK (bits64 (q.pw 0) 0 8)).put HERDER_TR_CTL_FRZK (bits64 (q.pw 0) 8 8)).put
      HERDER_TR_CTL_POST (bits64 (q.pw 0) 16 12)
    let d2 := (d1.put HERDER_TR_EMASK_EMASK (bits64 (q.pw 1) 0 31)).setf HERDER_TR_CTL_FROZEN false
    .done {} { d2 with her := { d2.her with postLeft := none } }

def execHerderTrace (q : Request) (s : State) : Host.Outcome State Fault Refusal := .next (s.command 0x0411 cmdHerderTrace q)

/-- Latch the further registers for the reads that follow a read of the first (R154, R160, R234, R290, R370). -/
def Dev.latchRegs (d : Dev) (as : List Nat) : Dev :=
  as.foldl (fun d a => { d with latch := d.latch.set (fun _ => none) a (some (d.reg a)) }) d

/-- A read of HERDER_JOBj_LAUNCH_LO latches LAUNCH_HI (R290). -/
def execLaunchLatch (j : Fin 1024) (s : State) : Host.Outcome State Fault Refusal :=
  .next (s.onServing fun _ d => d.latchRegs [(HERDER_JOBj_LAUNCH_HI_LAUNCH j).addr])

def execHerderTick (s : State) : Host.Outcome State Fault Refusal := .next (s.onServing fun c d => d.herderTick c)

def execDispatch (e : Fin 31) (s : State) : Host.Outcome State Fault Refusal := .next (s.onServing fun c d => d.dispatch c e)

def execStatisticsWindow (s : State) : Host.Outcome State Fault Refusal := .next (s.onServing fun c d => d.statWindow c)

end Sys2Proof.Machine
end

