-- ==== Sys2Proof/Machine/Pwm.lean ====
section
/-! DEFINITION. The PWM generator of the servo lanes (R206 to R225, R616) and the checks of a lane commit (R78, R95, R96, R105,
R106, R176, R184, R204, R218). -/

namespace Sys2Proof.Machine

/-! Grid (R78 to R83, R95). -/

/-- Period in force in ticks: PER, or VPER in the variable modes (R82, R213). -/
def Dev.lanePer (d : Dev) (l : Nat) : Nat :=
  if 2 ≤ d.get (PWM_Lnn_CFG_ACT_MODE l) then d.get (PWM_Lnn_VPER_ACT_VPER l) else d.get (PWM_Lnn_PER_ACT_PER l)

/-- Phase in force: computed under AUTO (R95). -/
def autoPhase (l per : Nat) : Nat := l % 6 * per / 6

/-- Reload after sample: 2 × (P − H) ns (R80). -/
def reloadAfter (per : Nat) : Nat := 2 * (per - per / 2)

/-- Show Φ in force in ACT_PHASE, and give the lane's SAMPLE, LATCH and RELOAD gates their grid from now on (R79, R80, R83). In the
variable modes the next sample follows the last reload (R82). -/
def Dev.regrid (d : Dev) (c : Clock) (l : Nat) : Dev :=
  let per := d.lanePer l
  let phi := if d.flag (PWM_Lnn_CYC_ACT_AUTO l) then autoPhase l per else d.get (PWM_Lnn_PHASE_ACT_PHASE l)
  let d1 := d.put (PWM_Lnn_PHASE_ACT_PHASE l) phi
  let r := (d.gateX (48 + l)).last
  let s0 := if 2 ≤ d.get (PWM_Lnn_CFG_ACT_MODE l) ∧ r ≠ 0 then r + 2 * (per / 2) else 2 * phi
  ((d1.gateGrid c l 2 l 0 per s0).gateGrid c (24 + l) 3 l 0 per s0).gateGrid c (48 + l) 1 l 0 per (s0 + reloadAfter per)

/-! Commit checks. -/

/-- Modulator frequency of lane l's channels in MHz, as 500 / DIV (R107, R108). -/
def Dev.fModDiv (d : Dev) (l : Nat) : Nat := d.get (DSF_CKm_CFG_DIV (l / 4))

/-- The first enabled channel of a lane, whose main filter settings are the lane's (R116). -/
def Dev.laneChan (d : Dev) (l : Nat) : Nat :=
  ((List.range 3).map (3 * l + ·)).find? (fun ch => d.flag (DSF_Cnn_CFG_ACT_EN ch)) |>.getD (3 * l)

/-- d_min of R184 from N × OSR, SGUARD and a period. -/
def Dev.dMinOf (d : Dev) (l bits sguard per : Nat) : Rat := if per = 0 then 0 else mkRat (bits * (2 * d.fModDiv l) + 2 * sguard) (2 * per)

/-- d_min of R184 from the filter settings in force and a staged SGUARD and period. -/
def Dev.dMin (d : Dev) (l sguard per : Nat) : Rat :=
  d.dMinOf l (d.get (DSF_Cnn_CFG_ACT_ORDER (d.laneChan l)) * d.get (DSF_Cnn_CFG_ACT_OSR (d.laneChan l))) sguard per

/-- The shortest period a lane's settings in force allow, in ticks: VMIN in the variable modes (R213). -/
def Dev.shortPer (d : Dev) (l : Nat) : Nat :=
  if 2 ≤ d.get (PWM_Lnn_CFG_ACT_MODE l) then d.get (PWM_Lnn_VPER_ACT_VMIN l) else d.get (PWM_Lnn_PER_ACT_PER l)

/-- Is the feedback port in Off or Hall mode, which gives no electrical angle (R204)? -/
def noAngle (mode : Nat) : Bool := mode = 0 || mode = 2

/-- Is a feedback mode converted by a SAR (R96): sin/cos or resolver? -/
def sarMode (mode : Nat) : Bool := mode = 5 || mode = 6

/-- Sample instants of two lanes as grids (period ns, phase ns) that can come closer than `gap` ns: the distance of the phases
modulo the greatest common divisor of the periods. -/
def gridsMeet (p1 f1 p2 f2 gap : Nat) : Bool :=
  let g := Nat.gcd p1 p2
  if g = 0 then true else
  let r := (((f1 : Int) - f2) % (g : Int)).toNat
  r < gap || g - r < gap

/-- The phase a commit would put in force. -/
def Dev.stagedPhi (d : Dev) (l : Nat) : Nat :=
  if d.flag (PWM_Lnn_CYC_AUTO l) then autoPhase l (d.get (PWM_Lnn_PER_PER l)) else d.get (PWM_Lnn_PHASE_PHASE l)

/-- The sample grid of a lane in force, period and phase in ns; none in the modes with a variable period, which have no fixed grid (R82). -/
def Dev.gridOf (d : Dev) (l : Nat) : Option (Nat × Nat) :=
  if 2 ≤ d.get (PWM_Lnn_CFG_ACT_MODE l) then none
  else some (2 * d.get (PWM_Lnn_PER_ACT_PER l), 2 * d.get (PWM_Lnn_PHASE_ACT_PHASE l))

/-- The sample grid a commit would put in force. -/
def Dev.stagedGrid (d : Dev) (l : Nat) : Option (Nat × Nat) :=
  if 2 ≤ d.get (PWM_Lnn_CFG_MODE l) then none
  else some (2 * d.get (PWM_Lnn_PER_PER l), 2 * d.stagedPhi l)

/-- R96: lane l in a SAR-based feedback mode on a grid that can come closer than 400 ns to that of another such lane of its converter;
a grid that moves can meet any other. -/
def Dev.sarClash (d : Dev) (l mode : Nat) (grid : Option (Nat × Nat)) : Bool :=
  sarMode mode &&
    ((List.range 6).any fun i =>
      let m := l / 6 * 6 + i
      decide (m ≠ l) && sarMode (d.get (FBK_nn_CFG_ACT_MODE m)) &&
        match grid, d.gridOf m with
        | some a, some b => gridsMeet a.1 a.2 b.1 b.2 400
        | _, _ => true)

/-- Does the staged value of a field differ from the one in force? -/
def Dev.differs (d : Dev) (staged act : Field) : Bool := d.get staged ≠ d.get act

/-- Zero checks of a lane commit on the staged values (R78, R105, R204, R218). -/
def Dev.laneZero (d : Dev) (l : Nat) : Bool :=
  let var := 2 ≤ d.get (PWM_Lnn_CFG_MODE l)
  d.get (PWM_Lnn_PER_PER l) = 0 || (var && (d.get (PWM_Lnn_VPER_VPER l) = 0 || d.get (PWM_Lnn_VPER_VMIN l) = 0)) ||
    d.get (PWM_Lnn_CC_CFG_PP l) = 0 || d.get (PWM_Lnn_CC_IMAX_I l) = 0 ||
    (d.flag (PWM_Lnn_CC_CFG_FF l) && d.get (PWM_Lnn_CC_WBASE_WBASE l) = 0)

/-- Range checks of a lane commit (R78, R95, R96, R105, R106, R114, R176, R184, R204, R218). -/
def Dev.laneRange (d : Dev) (l : Nat) : Bool :=
  let per := d.get (PWM_Lnn_PER_PER l)
  let mode := d.get (PWM_Lnn_CFG_MODE l)
  let var := 2 ≤ mode
  let vmin := d.get (PWM_Lnn_VPER_VMIN l)
  let vper := d.get (PWM_Lnn_VPER_VPER l)
  let vdiv := d.get (PWM_Lnn_CYC_VDIV l)
  let pdiv := d.get (PWM_Lnn_CYC_PDIV l)
  let cmode := d.get (PWM_Lnn_CC_CFG_CMODE l)
  let comsrc := d.flag (PWM_Lnn_CC_CFG_COMSRC l)
  let fb := d.get (FBK_nn_CFG_ACT_MODE l)
  per < 3125 || 62500 < per ||
    (var && (vmin < 3125 || per < vmin || vper < vmin || per < vper)) ||
    d.get (PWM_Lnn_CFG_FPAT l) = 3 || (mode = 1 && d.flag (PWM_Lnn_CC_CFG_SWIN l)) ||
    (!d.flag (PWM_Lnn_CYC_AUTO l) && per ≤ d.get (PWM_Lnn_PHASE_PHASE l)) ||
    8 < vdiv || 8 < pdiv || 8 < d.get (PWM_Lnn_CYC_MISS_LIM l) ||
    (if vdiv = 0 then decide (pdiv ≠ 0) else decide (pdiv % vdiv ≠ 0)) ||
    d.sarClash l fb (d.stagedGrid l) ||
    (((List.range 3).map (3 * l + ·)).any fun ch => d.flag (DSF_Cnn_CFG_ACT_EN ch) &&
      decide ((if var then vmin else per) < d.get (DSF_Cnn_CFG_ACT_ORDER ch) * d.get (DSF_Cnn_CFG_ACT_OSR ch) * d.fModDiv l)) ||
    2 ≤ cmode || 64 < d.get (PWM_Lnn_CC_CFG_PP l) || 5 < d.get (PWM_Lnn_CC_CFG_HOFF l) || d.get (PWM_Lnn_CC_CFG_REVPOL l) = 3 ||
    decide (d.getI (PWM_Lnn_CC_IOC_I l) ≤ d.getI (PWM_Lnn_CC_IMAX_I l)) || decide (0 < d.getI (PWM_Lnn_CC_IDFW_I l)) ||
    0x8000 < d.get (PWM_Lnn_CC_MOD_MLIM l) ||
    (d.flag (PWM_Lnn_CC_CFG_SWIN l) && decide (1 ≤ d.dMin l (d.get (PWM_Lnn_CC_WIN_SGUARD l)) (if var then vmin else per))) ||
    (cmode = 0 && comsrc) || (cmode = 1 && !comsrc && fb ≠ 2) || ((cmode = 0 || (cmode = 1 && comsrc)) && noAngle fb)

/-- Changes a running or armed lane does not take (R106, R204, R218). -/
def Dev.laneStateClash (d : Dev) (l : Nat) : Bool :=
  let st := (d.lane l).state
  (st.running && (d.differs (PWM_Lnn_CFG_MODE l) (PWM_Lnn_CFG_ACT_MODE l) || d.differs (PWM_Lnn_CFG_HR l) (PWM_Lnn_CFG_ACT_HR l) ||
      d.differs (PWM_Lnn_VPER_VMIN l) (PWM_Lnn_VPER_ACT_VMIN l) ||
      d.differs (PWM_Lnn_CC_CFG_CMODE l) (PWM_Lnn_CC_CFG_ACT_CMODE l) ||
      d.differs (PWM_Lnn_CC_CFG_COMSRC l) (PWM_Lnn_CC_CFG_ACT_COMSRC l) ||
      d.differs (PWM_Lnn_CC_CFG_PP l) (PWM_Lnn_CC_CFG_ACT_PP l) || d.differs (PWM_Lnn_CC_CFG_HOFF l) (PWM_Lnn_CC_CFG_ACT_HOFF l) ||
      d.differs (PWM_Lnn_CC_ANGOFF_ANG l) (PWM_Lnn_CC_ANGOFF_ACT_ANG l))) ||
    (st ≠ .disabled && (d.differs (PWM_Lnn_CFG_HPOL l) (PWM_Lnn_CFG_ACT_HPOL l) ||
      d.differs (PWM_Lnn_CFG_LPOL l) (PWM_Lnn_CFG_ACT_LPOL l)))

/-- A change of P, AUTO, VDIV, PDIV, EXT, or of PHASE outside AUTO, of a running lane (R106). -/
def Dev.laneCycleClash (d : Dev) (l : Nat) : Bool :=
  let auto := d.flag (PWM_Lnn_CYC_AUTO l)
  (d.lane l).state.running && (d.differs (PWM_Lnn_PER_PER l) (PWM_Lnn_PER_ACT_PER l) ||
    d.differs (PWM_Lnn_CYC_AUTO l) (PWM_Lnn_CYC_ACT_AUTO l) || d.differs (PWM_Lnn_CYC_VDIV l) (PWM_Lnn_CYC_ACT_VDIV l) ||
    d.differs (PWM_Lnn_CYC_PDIV l) (PWM_Lnn_CYC_ACT_PDIV l) || d.differs (PWM_Lnn_CYC_EXT l) (PWM_Lnn_CYC_ACT_EXT l) ||
    (!auto && d.differs (PWM_Lnn_PHASE_PHASE l) (PWM_Lnn_PHASE_ACT_PHASE l)))

/-! Edges of a carrier period (R207 to R212, R616). Instants in 250 ps. -/

/-- On-time in force in eighths of a tick, and whether it was clamped (R207, R208, R212). -/
def Dev.onTime8 (d : Dev) (l : Nat) (creg : Field) : Nat × Bool :=
  let p8 := 8 * d.lanePer l
  let c8 := d.get creg
  let raw := if d.flag (PWM_Lnn_CFG_ACT_HR l) then c8 else (roundDiv c8 8).toNat * 8
  if d.get (PWM_Lnn_CFG_ACT_MODE l) = 3 then
    if p8 < c8 then (0, true) else (p8 - min raw p8, false)
  else if p8 < c8 then (p8, true) else (min raw p8, false)

/-- Start of the high-side interval after the carrier start, in eighths of a tick (R207). -/
def Dev.lead8 (d : Dev) (l n8 : Nat) : Nat :=
  let p8 := 8 * d.lanePer l
  if d.get (PWM_Lnn_CFG_ACT_MODE l) = 1 then 0
  else if d.flag (PWM_Lnn_CFG_ACT_HR l) then (p8 - n8) / 2 else (p8 - n8) / 16 * 8

/-- The commanded on-intervals of a phase within a carrier period [r, e), in order, with whether the low side is meant: high side
[r + a, r + a + n), low side the rest, the whole period with n = 0; none when the phase floats (R207, R208, R211). -/
def phaseSpans (r e a8 n8 : Nat) (float : Bool) : List (Bool × Nat × Nat) :=
  let spans := if float then [] else if n8 = 0 then [(true, r, e)]
    else [(true, r, r + a8), (false, r + a8, r + a8 + n8), (true, r + a8 + n8, e)]
  spans.filter fun p => p.2.1 < p.2.2

/-- One commanded interval of a switch: the edges it gives, and whether MINP suppressed it. `st` is its commanded start, which
may lie before this carrier; `open_` says that it continues past the end of this carrier. `dt` and `minp` in 250 ps; `pOff`
is the instant the partner was last off. `began` says that the switch is on or its turn-on is already decided. An interval of the dead time
or less gives none, wherever the partner was (R209, R210, R616). -/
def spanEdges (i st en carrierEnd dt minp pOff : Nat) (began open_ : Bool) : List Edge × Bool :=
  let on := if pOff + dt ≤ st then st else st + dt
  if began then ([⟨en, i, false⟩], false)
  else if open_ then
    if on < carrierEnd then ([⟨on, i, true⟩, ⟨en, i, false⟩], false) else ([], false)
  else if en ≤ on ∨ en ≤ st + dt then ([], false)
  else if en - on < minp then ([], true)
  else ([⟨on, i, true⟩, ⟨en, i, false⟩], false)

/-- The two switches of a phase as a plan goes through a carrier period: edges so far, whether an interval was suppressed, and both switches
as they will stand. -/
structure PhasePlan where
  edges : List Edge
  sup : Bool := false
  hi : Sw
  lo : Sw

/-- At reload instant r4 a switch that was commanded on and no longer is turns off. -/
def Sw.dropAt (s : Sw) (i r4 : Nat) (goesOn : Bool) : List Edge × Sw :=
  if s.cmd && !goesOn then
    (if s.on then [⟨r4, i, false⟩] else [], { s with cmd := false, on := false, offAt := if s.on then r4 else s.offAt })
  else ([], s)

/-- One commanded interval of a phase (R209, R210, R616): the partner of its switch turns off where the interval begins, or was off before.
An interval that reaches the end e4 of the carrier counts as continuing: its end is fixed by the next reload. -/
def PhasePlan.span (r4 e4 dt minp x : Nat) (q : PhasePlan) (p : Bool × Nat × Nat) : PhasePlan :=
  let (me, partner) := if p.1 then (q.lo, q.hi) else (q.hi, q.lo)
  let i := if p.1 then 2 * x + 1 else 2 * x
  let joined := me.cmd && p.2.1 = r4
  let st := if joined then me.cmdAt else p.2.1
  let began := joined && me.on
  let open_ := p.2.2 = e4
  let (es, sup) := spanEdges i st p.2.2 e4 dt minp (if partner.on then p.2.1 else partner.offAt) began open_
  let turns := began || !es.isEmpty
  let new : Sw := { me with
    cmd := open_
    cmdAt := st
    on := turns && open_
    offAt := if turns && !open_ then p.2.2 else me.offAt }
  { edges := q.edges ++ (if open_ then es.filter (fun g => g.on) else es)
    sup := q.sup || sup
    hi := if p.1 then q.hi else new
    lo := if p.1 then new else q.lo }

/-- Plan the edges of the carrier period of phase x that starts at reload instant `r` (ns) from the values in force: the new edges, whether
any interval was suppressed, and the switches with what they are commanded at its end. -/
def Dev.planPhase (d : Dev) (l r x : Nat) (n8 : Nat) (float : Bool) (sws : List Sw) : List Edge × Bool × List Sw :=
  let r4 := 4 * r
  let e4 := r4 + 8 * d.lanePer l
  let spans := phaseSpans r4 e4 (d.lead8 l n8) n8 float
  let sw (i : Nat) : Sw := let s := sws.getD i {}; { s with on := s.on || (d.pwmX l).edges.any fun g => g.sw = i && g.on }
  let go (low : Bool) : Bool := spans.any fun p => p.1 = low && p.2.1 = r4
  let (eh, h) := (sw (2 * x)).dropAt (2 * x) r4 (go false)
  let (el, w) := (sw (2 * x + 1)).dropAt (2 * x + 1) r4 (go true)
  let q := spans.foldl (PhasePlan.span r4 e4 (8 * d.get (PWM_Lnn_DT_ACT_DT l)) (8 * d.get (PWM_Lnn_DT_ACT_MINP l)) x)
    { edges := eh ++ el, hi := h, lo := w }
  let keep (i : Nat) (s : Sw) : Sw := { sws.getD i {} with cmd := s.cmd, cmdAt := s.cmdAt }
  (q.edges, q.sup, [keep (2 * x) q.hi, keep (2 * x + 1) q.lo])

/-- Start a carrier period at reload instant r: clamps flagged (R208), edges planned for the three phases. -/
def Dev.startCarrier (d : Dev) (c : Clock) (l r : Nat) : Dev :=
  let x := d.pwmX l
  let u := d.onTime8 l (PWM_Lnn_CU_ACT_C l)
  let v := d.onTime8 l (PWM_Lnn_CV_ACT_C l)
  let w := d.onTime8 l (PWM_Lnn_CW_ACT_C l)
  let wait := decide (d.get (PWM_Lnn_CC_STAT_START l) = 5)
  let fu := wait || d.flag (PWM_Lnn_CU_ACT_FLOAT l)
  let fv := wait || d.flag (PWM_Lnn_CV_ACT_FLOAT l)
  let fw := wait || d.flag (PWM_Lnn_CW_ACT_FLOAT l)
  let pu := d.planPhase l r 0 u.1 fu x.sw
  let pv := d.planPhase l r 1 v.1 fv x.sw
  let pw := d.planPhase l r 2 w.1 fw x.sw
  let clamped := (u.2 && !fu) || (v.2 && !fv) || (w.2 && !fw)
  let d1 := if clamped then (d.setf (PWM_Lnn_CSTAT_DUTY_CLAMP l)).reportLim c 82 l else d
  let d2 := if pu.2.1 || pv.2.1 || pw.2.1 then d1.setf (PWM_Lnn_CSTAT_MINP l) else d1
  d2.setPwmX l { d2.pwmX l with
    reloadAt := r
    edges := (d2.pwmX l).edges ++ pu.1 ++ pv.1 ++ pw.1
    sw := pu.2.2 ++ pv.2.2 ++ pw.2.2 }

/-- A switch edge at its instant (R209): the switch turns on or off. -/
def Dev.switchEdge (d : Dev) (c : Clock) (l i : Nat) (on : Bool) : Dev :=
  let x := d.pwmX l
  match x.edges.find? (fun g => g.sw = i ∧ g.on = on ∧ g.t ≤ 4 * c.ns) with
  | none => d
  | some g =>
    let old := x.sw.getD i {}
    let new : Sw := { old with on := on, offAt := if on then old.offAt else g.t, onAt := if on then g.t else old.onAt }
    let sws := (List.range 6).map fun k => if k = i then new else x.sw.getD k {}
    (d.setPwmX l { x with edges := x.edges.filter (· ≠ g), sw := sws }).showLane l

def execSwitchEdge (l : Fin 24) (sw : Fin 6) (on : Bool) (s : State) : Host.Outcome State Fault Refusal :=
  .next (s.onServing fun c d => d.switchEdge c l sw on)

/-! Commit (R214 to R219). -/

/-- A commit pending since `at_` was in time for the reload at `next`, and its latch point has passed (R215). -/
def latched (at_ : Option Nat) (next now : Nat) : Bool :=
  match at_ with
  | some t => decide (t + 8 ≤ next) && decide (next < now + 8)
  | none => false

/-- A commit of the lane's staged group becomes pending (R214); one after the latch point of a commit in time waits for the reload after
(R215). -/
def Dev.pwmCommit (d : Dev) (c : Clock) (l : Nat) (sk epoch : Option Nat) : Dev :=
  let x := d.pwmX l
  (d.setPwmX l (if latched x.commitAt (d.gateNext (48 + l)) c.ns then { x with after := some (c.ns, sk, epoch) }
    else { x with commitAt := some c.ns, commitSk := sk, commitEpoch := epoch })).setf (PWM_Lnn_COMMIT_CMT l)

def execPwmCommit (l : Fin 24) (s : State) : Host.Outcome State Fault Refusal :=
  .next (s.onServing fun c d => d.pwmCommit c l none none)

/-- The commit of period `sk` releases the slow jobs that wait for it (R90, R295). -/
def Dev.slowRelease (d : Dev) (l sk now : Nat) : Dev :=
  (d.jobSuccs (slotCurrent l)).foldl (fun d k => d.jobDec k sk now) d

/-- A type 0x01 commit packet of the lane reaches the PWM (R31, R71, R217): a packet of another epoch is discarded; one for a
reload whose latch point has passed sets CSTAT.LATE and the gate's LATE, and reports FL010; its job overran, so FL110 follows, the lane
enters FAULT and the commit is cancelled (R100, R101). SLACK shows the time to the latch point (R98 resets CONSEC at the reload). -/
def Dev.commitPacket (d : Dev) (c : Clock) (l sk epoch : Nat) : Dev :=
  if epoch ≠ (d.lane l).epoch then d.bump (TRJ_AXaa_EPSTALE_CNT l) else
  let latch := sk + reloadAfter (d.lanePer l) - 8
  let d1 := d.pwmCommit c l (some sk) (some epoch)
  if c.ns ≤ latch then
    let slack := latch - c.ns
    d1.slowRelease l sk c.ns |> fun d => (d.put (PWM_Lnn_SLACK_MIN l) (min (d.get (PWM_Lnn_SLACK_MIN l)) slack)).put
      (PWM_Lnn_SLACK_LAST l) (satU 15 slack)
  else
    let d2 := ((((d1.slowRelease l sk c.ns).setf (PWM_Lnn_CSTAT_LATE l)).setf (GATE_GTnnn_CTL_LATE (48 + l))).bump GATE_LATE_CNT_CNT).record
      c 10 l (48 + l)
    if (d2.lane l).faulted then d2.cancelCommit c l else d2.activeFault c 110 l (slotCurrent l)

def execCommitPacket (l : Fin 24) (brand : W64) (sk : W64) (s : State) : Host.Outcome State Fault Refusal :=
  .next (s.onServing fun c d => d.commitPacket c l sk.toNat (brandEpoch brand))

/-- A write of 1 to SLACK.CLR (R98). -/
def execSlackClr (l : Fin 24) (s : State) : Host.Outcome State Fault Refusal :=
  .next (s.onServing fun _ d => d.put (PWM_Lnn_SLACK_MIN l) 0xFFFF)

/-- Is the lane's staging locked (R215)? From the latch point with a pending commit to 8 ns past the gate. -/
def Dev.stagingLocked (d : Dev) (c : Clock) (l : Nat) : Bool :=
  let x := d.pwmX l
  let next := d.gateNext (48 + l)
  (decide (x.lockUntil ≠ 0) && decide (c.ns < x.lockUntil)) || latchLocks x.commitAt next c.ns

/-- A write to a lane's staging: held by its handshake while the lock lasts, STALL set (R215). -/
def Dev.stageWrite (d : Dev) (c : Clock) (l a : Nat) (v : W32) : Dev :=
  if d.stagingLocked c l then
    (d.setPwmX l { d.pwmX l with held := (d.pwmX l).held ++ [(a, v)] }).setf (PWM_Lnn_CSTAT_STALL l)
  else d.regStore a v

/-- The transfer window ends: held writes complete into staging (R215). -/
def Dev.lockEnd (d : Dev) (c : Clock) (l : Nat) : Dev :=
  let x := d.pwmX l
  if x.lockUntil = 0 ∨ c.ns < x.lockUntil then d
  else x.held.foldl (fun d p => d.regStore p.1 p.2) (d.setPwmX l { x with lockUntil := 0, held := [] })

/-- A held period (R98, R99): counters, CONSEC up to 15, FC041, and FL040 past MISS_LIM. -/
def Dev.heldPeriod (d : Dev) (c : Clock) (l sk : Nat) : Dev :=
  if (d.lane l).heldAt = some sk then d else
  let d0 := d.setLane l { d.lane l with heldAt := some sk }
  let n := min 15 (d0.get (PWM_Lnn_CYC_STAT_CONSEC l) + 1)
  let d1 := ((d0.bump (PWM_Lnn_HELD_CNT_CNT l)).put (PWM_Lnn_CYC_STAT_CONSEC l) n).setf (PWM_Lnn_CYC_STAT_HELD l)
  let d2 := d1.reportLim c 41 l
  if d2.get (PWM_Lnn_CYC_ACT_MISS_LIM l) < n then (d2.record c 40 l 0).laneFault c 40 l else d2

/-- The pending commit completed by the latch point of the reload at r (R215). -/
def PwmX.commitsBy (x : PwmX) (r : Nat) : Bool :=
  match x.commitAt with
  | some t => decide (t + 8 ≤ r)
  | none => false

/-- The commit that the reload at r takes is no longer pending; one after it is (R215). -/
def PwmX.taken (x : PwmX) (r : Nat) : PwmX :=
  let y : PwmX := { x with lockUntil := r + 8 }
  if !x.commitsBy r then y
  else match x.after with
    | some (t, sk, ep) => { y with commitAt := some t, commitSk := sk, commitEpoch := ep, after := none }
    | none => { y with commitAt := none, commitSk := none, commitEpoch := none }

/-- Registers in force of lane l's group, with their values. -/
def Dev.laneInForce (d : Dev) (l : Nat) : List (Nat × W32) := laneGroupOffs.map fun p => (laneBase l + p.2, d.reg (laneBase l + p.2))

/-- The transfer of a servo lane's group at reload instant r (R215, R218): rejected whole with CONFLICT or ZERO, or copied into
force. The code of the rejection, if any. -/
def Dev.laneTransfer (d : Dev) (c : Clock) (l r : Nat) : Option Nat × Dev :=
  let x := (d.pwmX l).taken r
  let back := d.laneActive l || (d.pwmX l).commitsBy r
  let d0 := (d.setPwmX l { x with undo := if back then some (c.osc, d.laneInForce l) else none }).setf (PWM_Lnn_COMMIT_CMT l)
    x.commitAt.isSome
  if d.laneZero l then (some rcCfgZero, d0.setf (PWM_Lnn_CSTAT_ZERO l))
  else if d.laneRange l || d.laneStateClash l || d.laneCycleClash l then (some rcCfgConflict, d0.setf (PWM_Lnn_CSTAT_CONFLICT l))
  else
    let regrids := d.differs (PWM_Lnn_PER_PER l) (PWM_Lnn_PER_ACT_PER l) || decide (d.stagedPhi l ≠ d.get (PWM_Lnn_PHASE_ACT_PHASE l)) ||
      d.differs (PWM_Lnn_CFG_MODE l) (PWM_Lnn_CFG_ACT_MODE l) || d.differs (PWM_Lnn_VPER_VPER l) (PWM_Lnn_VPER_ACT_VPER l)
    let phi := d.stagedPhi l
    let d1 := (d0.copyRegs (laneGroupOffs.map fun p => (laneBase l + p.1, laneBase l + p.2))).put (PWM_Lnn_PHASE_ACT_PHASE l) phi
    let d2 := if d1.flag (PWM_Lnn_CC_CFG_ACT_FWEN l) then d1 else (d1.putI (PWM_Lnn_CC_IFW_VAL l) 0).setf (PWM_Lnn_CC_STAT_FW l) false
    (none, if regrids then d2.regrid c l else d2)

/-- A fault input or a trip on the tick of the lane's reload wins (R120, R225): the transfer of that tick is taken back, with CANCEL. -/
def Dev.undoReload (d : Dev) (c : Clock) (l : Nat) : Dev :=
  match (d.pwmX l).undo with
  | some (t, old) =>
    if t ≠ c.osc ∨ 24 ≤ l then d
    else
      let d1 := old.foldl (fun d p => d.setReg p.1 p.2) (d.setPwmX l { d.pwmX l with undo := none })
      let d2 := (d1.setf (PWM_Lnn_CSTAT_CANCEL l)).copyRegs (laneGroupOffs.map fun p => (laneBase l + p.2, laneBase l + p.1))
      if old.any fun p => p.2 ≠ d.reg p.1 ∧ (p.1 % 0x400 = 0x84 ∨ p.1 % 0x400 = 0x80 ∨ p.1 % 0x400 = 0x98 ∨ p.1 % 0x400 = 0x38C) then d2.regrid c l
      else d2
  | none => d

/-- Accepted images whose group is this one and whose lead has passed at an instant (R383, R384). -/
def Dev.dueImages (d : Dev) (group t : Nat) : List PendImg := d.imgs.filter fun p => p.group = group ∧ p.from_ ≤ t

/-- Take due images off the list and write them into staging. -/
def Dev.takeImages (d : Dev) (group t : Nat) : List PendImg × Dev :=
  let due := d.dueImages group t
  (due, due.foldl (fun d p => d.writePairs p.pairs) { d with imgs := d.imgs.filter fun p => !(p.group = group ∧ p.from_ ≤ t) })

/-- DONE of the works of images at an instant, once no image of the work waits any more (R382 conv.cfg). -/
def Dev.doneImages (d : Dev) (ps : List PendImg) (t : Nat) : Dev :=
  ps.foldl (fun d p => if d.imgs.any (fun i => i.work = p.work) then d else d.finishDone p.work t) d

end Sys2Proof.Machine
end

