-- ==== Sys2Proof/Machine/Images.lean ====
section
/-! DEFINITION. Accepted configuration images ahead of their commits (R383, R384): the state they produce, and the instants of the gates whose
grid they change. -/

namespace Sys2Proof.Machine

/-- The device as though an accepted image were in force. -/
def Dev.imageIn (d : Dev) (p : PendImg) : Dev :=
  let d1 := (d.writePairs p.pairs).copyRegs (p.pairs.filterMap fun q => (inForceOf q.1).map fun a => (q.1, a))
  let l := (p.group - 0x40040000) / 0x400
  if 0x40040000 ≤ p.group ∧ l < 24 then d1.put (PWM_Lnn_PHASE_ACT_PHASE l) (d1.stagedPhi l) else d1

/-- Insert an image by its commit instant, after those of the same instant. -/
def insImg (p : PendImg) : List PendImg → List PendImg
  | [] => [p]
  | q :: r => if p.due < q.due then p :: q :: r else q :: insImg p r

/-- Accepted images that still wait, in the order in which they will take effect. -/
def Dev.imagesOf (d : Dev) (ok : PendImg → Bool) : List PendImg := (d.imgs.filter ok).foldl (fun acc p => insImg p acc) []

/-- The state that the accepted images produce at the commit instant t: those that commit by then (R384). -/
def Dev.imagesBy (d : Dev) (t : Nat) : Dev := (d.imagesOf fun p => p.due ≤ t).foldl (fun d p => d.imageIn p) d

/-- That state with one more image in staging: what a commit check of the image judges (R384). -/
def Dev.atCommit (d : Dev) (t : Nat) (ps : List (Nat × Nat)) : Dev := (d.imagesBy t).writePairs ps

/-- Was a work accepted before every image of a group that is due at t (log entry 93)? -/
def Dev.beforeImages (d : Dev) (group t : Nat) (work : Option Nat) : Bool :=
  let pos (w : Option Nat) : Nat := d.work.findIdx fun x => some x.id = w
  (d.dueImages group t).all fun p => decide (pos work ≤ pos p.work)

/-- The gates of servo lane l on the grid in force from the reload at t on. -/
def Dev.regridAfter (d : Dev) (t l : Nat) : Dev :=
  let per := d.lanePer l
  let s0 := if 2 ≤ d.get (PWM_Lnn_CFG_ACT_MODE l) then t + 2 * (per / 2) else 2 * d.get (PWM_Lnn_PHASE_ACT_PHASE l)
  ((d.gateGridAfter t l 2 l 0 per s0).gateGridAfter t (24 + l) 3 l 0 per s0).gateGridAfter t (48 + l) 1 l 0 per (s0 + reloadAfter per)

/-- Registers in force that place the gates of gate g's unit. -/
def Dev.gridOfGate (d : Dev) (g : Nat) : List Nat :=
  if g < 72 then [d.lanePer (g % 24), d.get (PWM_Lnn_PHASE_ACT_PHASE (g % 24)), d.get (PWM_Lnn_CFG_ACT_MODE (g % 24))]
  else if g < 80 then
    [d.get (PWM_Ss_PER_ACT_PER (g - 72)), d.get (PWM_Ss_CFG_ACT_PRE (g - 72)), d.get (PWM_Ss_PH_ACT_PH (g - 72))]
  else if 84 ≤ g ∧ g < 88 then [d.get (SAR_Gg_CFG_ACT_DCPER (g - 84)), d.get (SAR_Gg_CFG_ACT_DCPH (g - 84))]
  else []

/-- The group whose images move gate g, and the gate at which that group commits. -/
def gridGroup (g : Nat) : Nat × Nat :=
  if g < 72 then (laneBase (g % 24), 48 + g % 24)
  else if g < 80 then (stpBase (g - 72), g)
  else if 84 ≤ g ∧ g < 88 then (0x40060800 + 0x40 * (g - 84), g)
  else (0, g)

/-- The device as though an image for gate g's unit had committed at t, its gates on the new grid (R73, R80, R132, R258). -/
def Dev.imageAt (d : Dev) (g t : Nat) (p : PendImg) : Dev :=
  let d1 := d.imageIn p
  if d1.gridOfGate g = d.gridOfGate g then d1
  else if g < 72 then d1.regridAfter t (g % 24)
  else if g < 80 then
    d1.gateGridAfter t g 1 (g - 48) 0 (d1.get (PWM_Ss_PER_ACT_PER (g - 72)) * 2 ^ d1.get (PWM_Ss_CFG_ACT_PRE (g - 72)))
      (2 * d1.get (PWM_Ss_PH_ACT_PH (g - 72)))
  else d1.gateGridAfter t g 2 (g - 16) 0 (d1.get (SAR_Gg_CFG_ACT_DCPER (g - 84))) (2 * d1.get (SAR_Gg_CFG_ACT_DCPH (g - 84)))

/-- The first firing of gate g from `bound` on: on the grid in force, and past the commit of an accepted image on the image's. -/
def Dev.firingPast (d : Dev) (g bound : Nat) : List PendImg → Nat → Nat
  | [], lo => d.firstFiring g (max lo bound)
  | p :: ps, lo =>
    let τ := d.firstFiring (gridGroup g).2 (max lo p.from_)
    let t := d.firstFiring g (max lo bound)
    if t ≤ τ then t else (d.imageAt g τ p).firingPast g bound ps (τ + 1)

/-- The firing of a periodic gate at which a command with this bound acts (R45, R383, R384). -/
def Dev.firingAhead (d : Dev) (g bound : Nat) : Nat :=
  d.firingPast g bound (d.imagesOf fun p => p.group = (gridGroup g).1) 0

/-- The sample gate of a lane: GT(l) of a servo lane, the carrier start of a stepper lane. -/
def laneGate (u : Nat) : Nat := if u < 24 then u else 48 + u

/-- The gates at which the accepted changes of lane u take effect, each after the one before, with the state each leads to; and the instant
from which a further change may act (R45). ARMED of an accepted stop has the gate that was promised (R254). -/
def Dev.laneGates (d : Dev) (u : Nat) : List (Nat × LaneState) × Nat :=
  let x := d.lane u
  let armed : List (Nat × LaneState) := if x.armedAt = 0 then [] else [(x.armedAt, .armed)]
  let first := match x.changedAt with
    | some t => t + 1
    | none => 0
  let start := if x.chg.any fun g => g.target = .stopping then ([], first) else (armed, if x.armedAt = 0 then first else x.armedAt + 1)
  x.chg.foldl (fun acc g =>
    let t := d.firingAhead (laneGate u) (max g.at_ acc.2)
    if g.target = .stopping ∧ x.armedAt ≠ 0 then (acc.1 ++ [(t, .stopping)] ++ armed, x.armedAt + 1)
    else (acc.1 ++ [(t, g.target)], t + 1)) start

/-- The gate at which a change with this earliest instant takes effect, after the gates of the changes and of the stop accepted before
(R45, R254). -/
def Dev.changeGate (d : Dev) (u at_ : Nat) : Nat := d.firingAhead (laneGate u) (max at_ (d.laneGates u).2)

/-- The state of lane u at a future instant t, as the accepted lane state commands produce it (R45, R384). -/
def Dev.stateAt (d : Dev) (u t : Nat) : LaneState :=
  match ((d.laneGates u).1.filter fun p => p.1 ≤ t).getLast? with
  | some p => p.2
  | none => (d.lane u).state

end Sys2Proof.Machine
end

