-- ==== Sys2Proof/Machine/Trig.lean ====
section
/-! DEFINITION. Sine, cosine and arc tangent of angles in turns (R150, R153, R180), by exact integer series. -/

namespace Sys2Proof.Machine

/-- 2π × 2^60, rounded down. -/
def twoPi60 : Nat := 7244019458077122842

/-- Alternating Taylor terms in units of 2^-48: the term `t` of degree `k - 1` is followed by −t x² / (k (k + 1)). -/
def taylor (x2 : Int) : Nat → Nat → Int → Int
  | 0, _, _ => 0
  | n + 1, k, t => t + taylor x2 n (k + 2) (-(t * x2 / 2 ^ 48) / ((k * (k + 1) : Nat) : Int))

/-- Sine of r / 2^32 turns, r below a quarter turn, in units of 2^-48. -/
def sinQ (r : Nat) : Int :=
  let x : Int := (r * twoPi60 / 2 ^ 44 : Nat)
  taylor (x * x / 2 ^ 48) 13 2 x

/-- Cosine of r / 2^32 turns, r below a quarter turn, in units of 2^-48. -/
def cosQ (r : Nat) : Int :=
  let x : Int := (r * twoPi60 / 2 ^ 44 : Nat)
  taylor (x * x / 2 ^ 48) 13 1 (2 ^ 48)

/-- Sine of t / 2^32 turns in units of 2^-48. -/
def sinT (t : Nat) : Int :=
  let q := t / 2 ^ 30 % 4
  let r := t % 2 ^ 30
  if r = 0 then (if q = 1 then 2 ^ 48 else if q = 3 then -(2 ^ 48) else 0)
  else if q = 0 then sinQ r else if q = 1 then cosQ r else if q = 2 then -sinQ r else -cosQ r

/-- Cosine of t / 2^32 turns in units of 2^-48. -/
def cosT (t : Nat) : Int := sinT (t + 2 ^ 30)

/-- The largest quarter-turn fraction r / 2^32 whose direction does not pass (c, s), both not negative: bits from `n` down. -/
def atanAux (s c : Int) : Nat → Nat → Nat
  | 0, acc => acc
  | n + 1, acc =>
    let r := acc + 2 ^ n
    if r < 2 ^ 30 ∧ sinT r * c ≤ s * cosT r then atanAux s c n r else atanAux s c n acc

/-- atan2 in u0.32 turns, rounded down within its quadrant, and whether it is exact. -/
def atan2T (s c : Int) : Nat × Bool :=
  if s = 0 ∧ c = 0 then (0, false)
  else
    let (q, s', c') :=
      if 0 < c ∧ 0 ≤ s then (0, s, c) else if c ≤ 0 ∧ 0 < s then (1, -c, s)
      else if c < 0 ∧ s ≤ 0 then (2, -s, -c) else (3, c, -s)
    (q * 2 ^ 30 + atanAux s' c' 30 0, s' = 0 || s' = c')

end Sys2Proof.Machine
end

