-- ==== Sys2Proof/Machine/Feedback.lean ====
section
/-! DEFINITION. Feedback ports and probes (R138 to R162, R171, R172). Positions are 64.32 counts as integers in units of 2^-32. -/

namespace Sys2Proof.Machine

def fbOff : Nat := 0
def fbQuad : Nat := 1
def fbHall : Nat := 2
def fbSsi : Nat := 3
def fbSerial : Nat := 4
def fbSinCos : Nat := 5
def fbResolver : Nat := 6

/-- Mode in force of port n. -/
def Dev.fbMode (d : Dev) (n : Nat) : Nat := d.get (FBK_nn_CFG_ACT_MODE n)

/-- CPR in force (R154). -/
def Dev.cpr (d : Dev) (n : Nat) : Nat := if d.flag (FBK_nn_CFG_ACT_CPRX n) then 2 ^ 32 else d.get (FBK_nn_CPR_ACT_CPR n)

/-- A position of R8 from two words: the count, and the fraction in bits 63:32. -/
def posOf (w0 w1 : W64) : Int := w0.toInt * 2 ^ 32 + bits64 w1 32 32

/-- The two words of a position (R8). -/
def posWords (x : Int) : List W64 := [BitVec.ofInt 64 (x / 2 ^ 32), BitVec.ofNat 64 (uInt 32 x * 2 ^ 32)]

/-- D_fb from staged or in-force settings: MODE, BDIV, NB, REQB, TURN, LDLY (R138). -/
def fbDelay (mode bdiv nb reqb turn ldly : Nat) : Nat :=
  if mode = fbSsi then (nb + 1) * (2 * bdiv) + ldly + 40
  else if mode = fbSerial then (reqb + turn + nb) * (2 * bdiv) + ldly + 40
  else if mode = fbSinCos ∨ mode = fbResolver then 460
  else if mode = fbOff then 0 else 40

/-- D_fb of port n in force. -/
def Dev.dFb (d : Dev) (n : Nat) : Nat :=
  fbDelay (d.fbMode n) (d.get (FBK_nn_SER0_ACT_BDIV n)) (d.get (FBK_nn_SER0_ACT_NB n)) (d.get (FBK_nn_SER1_ACT_REQB n))
    (d.get (FBK_nn_SER1_ACT_TURN n)) (d.get (FBK_nn_LAT_ACT_LDLY n))

/-- Does port n run (R139)? -/
def Dev.portRuns (d : Dev) (n : Nat) : Bool := d.dst.serves && decide (d.fbMode n ≠ fbOff)

/-! Uncertainty, errors (R142 to R144, R157, R169). -/

/-- STAT.UNC of a port, and SRC_UNC of the Stride outputs that follow it. -/
def Dev.setUnc (d : Dev) (n : Nat) (b : Bool) : Dev :=
  (List.range 8).foldl (fun d s => if d.get (STR_s_CFG_ACT_SRC s) = n then d.setf (STR_s_STAT_SRC_UNC s) b else d)
    (d.setf (FBK_nn_STAT_UNC n) b)

/-- Clear UNC and ERUN together (R144, R155, R157). -/
def Dev.clearUnc (d : Dev) (n : Nat) : Dev :=
  let d1 := (d.setUnc n false).put (FBK_nn_STAT_ERUN n) 0
  d1.setFbkX n { d1.fbkX n with erun61 := false }

/-- The type 0x23 packet of a detected error (R171; log entry 11). -/
def Dev.errPacket (d : Dev) (c : Clock) (n code : Nat) : Dev :=
  d.emit n 0x23 (some (c.ns, c.frac)) 0
    [BitVec.ofNat 64 (code + d.get (FBK_nn_ERRC_QERR n) * 2 ^ 16 + d.get (FBK_nn_ERRC_SERR n) * 2 ^ 32)]

/-- Record a change of the count or of the edge history in the short history behind probe stamps (R159, R162). -/
def FbkX.pushHist (x : FbkX) (now : Nat) : FbkX :=
  let recent := x.hist.filter fun h => now ≤ h.1 + 512
  let older := (x.hist.filter fun h => !(now ≤ h.1 + 512)).take 1
  { x with hist := (now, x.count, x.e1, x.e0) :: (recent ++ older) }

/-- The edge history breaks: no fraction until two counting edges have followed (R145). -/
def FbkX.breakHist (x : FbkX) (now : Nat) : FbkX := { x with e0 := none, e1 := none, hallRun := 0, hallDir := 0 }.pushHist now

/-- An illegal transition (R142 to R145): the count stays, QERR and ERUN count, UNC sets, the edge history breaks, FL061 once
past QLIM. -/
def Dev.illegal (d : Dev) (c : Clock) (n code : Nat) (stamp : Nat) : Dev :=
  let d1 := ((d.bump (FBK_nn_ERRC_QERR n)).setUnc n true).bump (FBK_nn_STAT_ERUN n)
  let x := d1.fbkX n
  let d2 := (d1.setFbkX n { x.breakHist c.ns with illAt := some stamp }).reportLim c code n
  let d3 := if d2.get (FBK_nn_LIM_ACT_QLIM n) < d2.get (FBK_nn_STAT_ERUN n) ∧ !x.erun61 then
      (d2.setFbkX n { d2.fbkX n with erun61 := true }).activeFault c 61 n
    else d2
  d3.errPacket c n code

/-! Counting and interpolation (R142, R143, R145). -/

/-- Fraction of R145 at instant g from the last two counting edges, in 2^-32 counts with its sign. -/
def fracAt (interp : Bool) (e0 e1 : Option (Nat × Int)) (g : Nat) : Int :=
  match interp, e0, e1 with
  | true, some (t0, d0), some (t1, d1) =>
    if d0 = d1 ∧ t0 < t1 ∧ t1 ≤ g ∧ g - t1 ≤ 65536 then d1 * (min ((g - t1) * 2 ^ 32 / (t1 - t0)) (2 ^ 32 - 1) : Nat) else 0
  | _, _, _ => 0

/-- The count after the edges accepted at or before an instant (R159). -/
def FbkX.countAt (x : FbkX) (g : Nat) : Int :=
  match x.hist.find? fun h => h.1 ≤ g with
  | some h => h.2.1
  | none => x.count

/-- Position of a counting port at an instant, from the edges accepted at or before it; at the instant of a latch that reported a set
position, that position (R145, R157, R159, R161, R162). -/
def Dev.countPos (d : Dev) (n g : Nat) : Int :=
  let x := d.fbkX n
  let interp := d.flag (FBK_nn_CFG_ACT_INTERP n)
  let frac := match x.hist.find? fun h => h.1 ≤ g with
    | some (_, _, e1, e0) => fracAt interp e0 e1 g
    | none => fracAt interp x.e0 x.e1 g
  match x.setAt with
  | some (t, p) => if t = g then p else x.countAt g * 2 ^ 32 + frac
  | none => x.countAt g * 2 ^ 32 + frac

/-- The step of a quadrature transition from levels (a, b) to (a', b'): +1 when A leads B (R142). -/
def quadStep (a b a' b' : Bool) : Int :=
  if a ≠ a' then (if a' = b then -1 else 1) else if b ≠ b' then (if b' = a then 1 else -1) else 0

/-- Sign of DIR (R142). -/
def Dev.dirSign (d : Dev) (n : Nat) : Int := if d.flag (FBK_nn_CFG_ACT_DIR n) then -1 else 1

/-- One accepted counting edge with its stamp (R142, R145). -/
def Dev.countEdge (d : Dev) (c : Clock) (n : Nat) (step : Int) (stamp : Nat) : Dev :=
  let x := d.fbkX n
  d.setFbkX n ({ x with count := x.count + step, e0 := x.e1, e1 := some (stamp, step), lastEdge := some stamp }.pushHist c.ns)

/-- Stamp of an edge accepted now (R140). -/
def Dev.stamp (d : Dev) (c : Clock) (n : Nat) : Nat := c.ns - 2 * d.get (FBK_nn_CFG_ACT_FILT n)

/-- Position of a Hall code in the forward sequence of R143. -/
def hallIndex (code : Nat) : Option Nat := [1, 3, 2, 6, 4, 5].idxOf? code

/-! The Stride generator's units (R163 to R167). -/

/-- ORG in force or staged, in 2^-32 counts. -/
def Dev.strOrg (d : Dev) (s : Nat) : Int :=
  sInt 64 (d.get64 (STR_s_ORG_LO_ACT_ORG s) (STR_s_ORG_HI_ACT_ORG s)) * 2 ^ 32 + d.get (STR_s_ORG_FRAC_ACT_FRAC s)

/-- Threshold x_u in 2^-32 counts, rounded down (R163). -/
def Dev.strThr (d : Dev) (s : Nat) (u : Int) : Int :=
  d.strOrg s + u * d.get (STR_s_M_ACT_M s) * 2 ^ 32 / d.get (STR_s_N_ACT_N s)

/-- The last unit whose threshold is not above a position. -/
def Dev.strUnitAt (d : Dev) (s : Nat) (x : Int) : Int :=
  let n : Int := d.get (STR_s_N_ACT_N s)
  let m : Int := d.get (STR_s_M_ACT_M s)
  let u := if m = 0 then 0 else (x - d.strOrg s) * n / (m * 2 ^ 32)
  if n ≠ 0 ∧ d.strThr s (u + 1) ≤ x then u + 1 else u

/-- Edge instant of a crossing at time `t` (a rational number of ns): SHIFT added, nearest tick, ties later (R165). -/
def Dev.strInstant (d : Dev) (s : Nat) (t : Rat) : Nat :=
  (((t + (d.getI (STR_s_SHIFT_ACT_SHIFT s) : Rat) + 1) / 2).floor * 2).toNat

/-- The unit of a crossing between (x0, t0) and (x1, t1), or beyond it by extrapolation; where the position jumps, at that instant. -/
def Dev.strUnit (d : Dev) (s : Nat) (u : Int) (fwd : Bool) (x0 x1 : Int) (t0 t1 : Nat) (extrap : Bool) : StrUnit :=
  let f : Rat := if x1 = x0 then 0 else mkRat (d.strThr s u - x0) 1 / mkRat (x1 - x0) 1
  { u := u, fwd := fwd, t := d.strInstant s ((t0 : Rat) + f * ((t1 : Rat) - t0)), extrap := extrap }

/-- The unit beyond the last one planned, extrapolated from the last source edge and the last edge interval, where R166 lets it be emitted
and the source port runs (R169). The rule sets no end to the extrapolation while no edge comes (R165; log entry 86). -/
def Dev.strAhead (d : Dev) (s : Nat) : Option StrUnit :=
  let y := d.strX s
  match y.seg with
  | none => none
  | some (x0, x1, t0, t1) =>
    let fwd := decide (x0 < x1)
    let u := if fwd then y.u + 1 else y.u
    let fwdOnly := d.flag (STR_s_CFG_ACT_FWDONLY s)
    if !y.run ∨ y.stop ∨ !d.portRuns (d.get (STR_s_CFG_ACT_SRC s)) ∨ d.get (STR_s_N_ACT_N s) = 0 ∨ x0 = x1 ∨
        (fwdOnly ∧ (!fwd ∨ u ≤ y.umax)) then none
    else some (d.strUnit s u fwd x0 x1 t0 t1 true)

/-- The units crossed on the way from unit `a` to unit `b`, in the order of crossing, at most 65,536 (log entry 86). -/
def strCrossed (a b : Int) : List Int :=
  if a ≤ b then (List.range (min 65536 (b - a).toNat)).map fun (k : Nat) => a + 1 + (k : Int)
  else (List.range (min 65536 (a - b).toNat)).map fun (k : Nat) => a - (k : Int)

/-- A source of output s moves from (x0, t0) to (x1, t1), or jumps at t0 = t1: crossed units not yet emitted get their interpolated
instants, and one whose edge came less than 64 ns before the instant extrapolated for it sets EXTRAP (R165, R166). -/
def Dev.strideMove (d : Dev) (c : Clock) (s : Nat) (x0 x1 : Int) (t0 t1 : Nat) : Dev :=
  let y0 := d.strX s
  let seg := if t0 < t1 then some (x0, x1, t0, t1)
    else y0.seg.map fun g => (g.1 + (x1 - x0), g.2.1 + (x1 - x0), g.2.2)
  let y := { y0 with seg := seg }
  if !y.run ∨ y.stop ∨ d.get (STR_s_N_ACT_N s) = 0 ∨ x0 = x1 then d.setStrX s y else
  let fwd := decide (x0 < x1)
  let fwdOnly := d.flag (STR_s_CFG_ACT_FWDONLY s)
  let a := d.strUnitAt s x0
  let b := d.strUnitAt s x1
  -- units already emitted by extrapolation ahead of their crossing are not made again
  let crossed := (strCrossed a b).filter fun u => if fwd then decide (y.u < u) else decide (u ≤ y.u)
  let keep (u : Int) : Bool := !fwdOnly || (fwd && decide (y.umax < u))
  let units := crossed.filter keep
  let fresh := units.map fun u => d.strUnit s u fwd x0 x1 t0 t1 false
  let lateGuess := match y0.seg with
    | some (p0, p1, q0, q1) => t0 < t1 && decide ((p0 < p1) = (x0 < x1)) && p0 ≠ p1 &&
        units.any fun u => decide ((d.strUnit s u fwd p0 p1 q0 q1 true).t < c.ns + 64)
    | none => false
  let lag := fresh.any fun p => p.t < c.ns + 24
  let moved := fresh.map fun p => if p.t < c.ns + 24 then { p with t := (c.ns + 24 + 1) / 2 * 2 } else p
  let u' := if fwd then max y.u b else min y.u b
  let lost := (b - a).natAbs - 65536
  let d1 := if lag then d.setf (STR_s_STAT_LAG s) else d
  let d2 := if lateGuess then d1.setf (STR_s_STAT_EXTRAP s) else d1
  let d3 := if lost = 0 then d2
    else ((d2.bump (STR_s_LOSTC_CNT s) lost).setf (STR_s_STAT_LOST s)).record c 69 (0x50 + s) 0
  (d3.put (STR_s_UNITS_U s) (uInt 32 b)).setStrX s { y with pend := y.pend ++ moved, u := u', umax := max y.umax b }

/-- Every Stride output that follows port n sees the move. -/
def Dev.stridesMove (d : Dev) (c : Clock) (n : Nat) (x0 x1 : Int) (t0 t1 : Nat) : Dev :=
  (List.range 8).foldl (fun d s => if d.get (STR_s_CFG_ACT_SRC s) = n then d.strideMove c s x0 x1 t0 t1 else d) d

/-- Accepted levels of A and B change (R142, R150): one edge counts, both at one tick are illegal. -/
def Dev.quadEdge (d : Dev) (c : Clock) (n : Nat) (a b : Bool) : Dev :=
  let x := d.fbkX n
  let d0 := d.setFbkX n { x with a := a, b := b }
  let mode := d.fbMode n
  if !d.portRuns n ∨ (mode ≠ fbQuad ∧ mode ≠ fbSinCos) then d0
  else
    let st := d.stamp c n
    if x.a ≠ a ∧ x.b ≠ b then d0.illegal c n 60 st
    else
      let step := quadStep x.a x.b a b * d.dirSign n
      if step = 0 then d0
      else
        let d1 := d0.countEdge c n step st
        if mode = fbQuad then d1.stridesMove c n (x.count * 2 ^ 32) ((x.count + step) * 2 ^ 32) (x.lastEdge.getD st) st else d1

/-- An accepted change of the Hall code (R143). -/
def Dev.hallChange (d : Dev) (c : Clock) (n code : Nat) : Dev :=
  let x := d.fbkX n
  let d0 := d.setFbkX n { x with hall := code }
  if !d.portRuns n ∨ d.fbMode n ≠ fbHall ∨ code = x.hall then d0
  else
    let st := d.stamp c n
    match hallIndex x.hall, hallIndex code with
    | none, some _ => d0.setFbkX n ((d0.fbkX n).breakHist c.ns)
    | some i, some j =>
      let k := (j + 6 - i) % 6
      if k = 1 ∨ k = 5 then
        let raw : Int := if k = 1 then 1 else -1
        let step := raw * d.dirSign n
        let d1 := d0.countEdge c n step st
        let run := if x.hallDir = raw then x.hallRun + 1 else 1
        let d2 := d1.setFbkX n { d1.fbkX n with hallRun := run, hallDir := raw }
        let d3 := if 6 ≤ run then d2.clearUnc n else d2
        d3.stridesMove c n (x.count * 2 ^ 32) ((x.count + step) * 2 ^ 32) (x.lastEdge.getD st) st
      else d0.illegal c n 63 st
    | _, none => d0.illegal c n 63 st

def execQuadratureEdge (n : Fin 24) (a b : Bool) (s : State) : Host.Outcome State Fault Refusal :=
  .next (s.onServing fun c d => d.quadEdge c n a b)

def execHallChange (n : Fin 24) (code : BitVec 3) (s : State) : Host.Outcome State Fault Refusal :=
  .next (s.onServing fun c d => d.hallChange c n code.toNat)

/-! Index and alarm (R141, R155, R156). -/

/-- The integer count an index event reads: in sin/cos mode the quarter-periods in counts (log entry 12). -/
def Dev.indexCount (d : Dev) (n : Nat) : Int :=
  let x := d.fbkX n
  if d.fbMode n = fbSinCos then (x.count * 2 ^ (d.get (FBK_nn_SC_ACT_SCRES n) + 30) + x.sinOff) / 2 ^ 32 else x.count

/-- The count changes by `k` counts at stamp st (R155): a Stride output that follows the edges sees the jump. -/
def Dev.shiftCount (d : Dev) (c : Clock) (n : Nat) (k : Int) (st : Nat) : Dev :=
  let y := d.fbkX n
  if d.fbMode n = fbSinCos then d.setFbkX n { y with sinOff := y.sinOff + k * 2 ^ 32 }
  else (d.setFbkX n ({ y with count := y.count + k }.pushHist c.ns)).stridesMove c n (y.count * 2 ^ 32) ((y.count + k) * 2 ^ 32) st st

/-- An index event: accepted rising edge of pin C (R155, R156). -/
def Dev.indexEvent (d : Dev) (c : Clock) (n : Nat) : Dev :=
  let x := d.fbkX n
  let imode := d.get (FBK_nn_CFG_ACT_IMODE n)
  let mode := d.fbMode n
  if !d.portRuns n ∨ (mode ≠ fbQuad ∧ mode ≠ fbSinCos) ∨ imode = 0 ∨
      (d.flag (FBK_nn_CFG_ACT_ZQ n) ∧ !(x.a && x.b)) then d
  else
    let cpr : Int := d.cpr n
    let ci := d.indexCount n
    let st := d.stamp c n
    if imode = 1 ∧ !x.learned then
      (d.putI (FBK_nn_IREF_ACT_IREF n) (ci % cpr)).setFbkX n { x with learned := true }
    else
      let r := (ci - d.get (FBK_nn_IREF_ACT_IREF n)) % cpr
      let dv := if cpr < 2 * r then r - cpr else r
      let d1 := d.putI (FBK_nn_IDEV_D n) dv
      let pass := decide (dv.natAbs ≤ d.get (FBK_nn_LIM_ACT_IWIN n))
      let corr := pass && d.flag (FBK_nn_CFG_ACT_ICOR n) && decide (dv ≠ 0)
      let d2 := if pass then (if x.illAt = some st then d1 else d1.clearUnc n)
        else ((d1.setf (FBK_nn_STAT_IMIS n)).setUnc n true).activeFault c 62 n
      let d3 := if corr then d2.shiftCount c n (-dv) st else d2
      d3.emit n 0x21 (some (st, 0)) 0
        [BitVec.ofNat 64 (uInt 32 dv + (if pass then 2 ^ 32 else 0) + (if corr then 2 ^ 33 else 0))]

def execIndexEvent (n : Fin 24) (s : State) : Host.Outcome State Fault Refusal :=
  .next (s.onServing fun c d => d.indexEvent c n)

/-- The level of pin D judged against ALPOL (R141). -/
def Dev.judgeAlarm (d : Dev) (c : Clock) (n : Nat) : Dev :=
  if !d.flag (FBK_nn_CFG_ACT_ALEN n) then d
  else if (d.fbkX n).alarm = d.flag (FBK_nn_CFG_ACT_ALPOL n) then (d.setf (FBK_nn_STAT_ALARM n)).activeFault c 66 n
  else d.setf (FBK_nn_STAT_ALARM n) false

/-- An accepted level change of pin D (R141). -/
def Dev.alarmInput (d : Dev) (c : Clock) (n : Nat) (level : Bool) : Dev :=
  let d1 := d.setFbkX n { d.fbkX n with alarm := level }
  if d.portRuns n then d1.judgeAlarm c n else d1

def execAlarmInput (n : Fin 24) (level : Bool) (s : State) : Host.Outcome State Fault Refusal :=
  .next (s.onServing fun c d => d.alarmInput c n level)

/-! Commit (R154, R155, R172). -/

/-- Sum of the field widths a serial port checks, and the mode class. -/
def isSerialMode (m : Nat) : Bool := m = fbSsi || m = fbSerial

/-- CFG_ZERO checks of a port group (R172). -/
def Dev.fbkZero (d : Dev) (n : Nat) : Bool :=
  let m := d.get (FBK_nn_CFG_MODE n)
  (m ≠ fbOff && d.get (FBK_nn_CPR_CPR n) = 0 && !d.flag (FBK_nn_CFG_CPRX n)) ||
    (isSerialMode m && (d.get (FBK_nn_SER0_NB n) = 0 || d.get (FBK_nn_SER1_PWID n) = 0))

/-- CFG_CONFLICT checks of a port group, for a lane judged in state `st` (R96, R172). -/
def Dev.fbkConflict (d : Dev) (n : Nat) (st : LaneState) : Bool :=
  let m := d.get (FBK_nn_CFG_MODE n)
  let bdiv := d.get (FBK_nn_SER0_BDIV n)
  let nb := d.get (FBK_nn_SER0_NB n)
  let pwid := d.get (FBK_nn_SER1_PWID n)
  let imode := d.get (FBK_nn_CFG_IMODE n)
  let scres := d.get (FBK_nn_SC_SCRES n)
  let per := 2 * d.lanePer n
  let cprx := d.flag (FBK_nn_CFG_CPRX n)
  let cpr := if cprx then 2 ^ 32 else d.get (FBK_nn_CPR_CPR n)
  let active := match st with
    | .armed | .enabled | .stopping => true
    | _ => false
  m = 7 || (cprx && d.get (FBK_nn_CPR_CPR n) ≠ 0) || d.sarClash n m (d.gridOf n) ||
    (m = fbSsi && (bdiv < 50 || 5000 < bdiv)) || (m = fbSerial && (bdiv < 32 || 5000 < bdiv)) ||
    64 < nb || 64 < pwid || nb < d.get (FBK_nn_SER0_PLSB n) + pwid + d.get (FBK_nn_CRC_CLEN n) ||
    (m = fbSsi && per < (nb + 1) * (2 * bdiv) + d.get (FBK_nn_SER1_TMONO n) * 1000) ||
    (m = fbSerial && per < fbDelay m bdiv nb (d.get (FBK_nn_SER1_REQB n)) (d.get (FBK_nn_SER1_TURN n)) (d.get (FBK_nn_LAT_LDLY n))) ||
    imode = 3 || (imode ≠ 0 && (m = fbHall || isSerialMode m || m = fbResolver)) ||
    ((m = fbSinCos || m = fbResolver) && (scres < 2 || 16 < scres || cpr % 2 ^ scres ≠ 0)) ||
    d.get (FBK_nn_SC_AMAX n) ≤ d.get (FBK_nn_SC_AMIN n) ||
    (m = fbResolver && !d.flag (FBK_EXCm_CFG_EN (n / 6))) ||
    (active && (d.differs (FBK_nn_CFG_MODE n) (FBK_nn_CFG_ACT_MODE n) || d.differs (FBK_nn_CPR_CPR n) (FBK_nn_CPR_ACT_CPR n) ||
      d.differs (FBK_nn_CFG_CPRX n) (FBK_nn_CFG_ACT_CPRX n) || d.differs (FBK_nn_CFG_DIR n) (FBK_nn_CFG_ACT_DIR n) ||
      d.differs (FBK_nn_SC_SCRES n) (FBK_nn_SC_ACT_SCRES n) || d.reg (FBK_nn_SER0_BDIV n).addr ≠ d.reg (FBK_nn_SER0_ACT_BDIV n).addr ||
      d.reg (FBK_nn_SER1_PWID n).addr ≠ d.reg (FBK_nn_SER1_ACT_PWID n).addr ||
      d.reg (FBK_nn_REQ_REQ n).addr ≠ d.reg (FBK_nn_REQ_ACT_REQ n).addr || d.reg (FBK_nn_CRC_POLY n).addr ≠ d.reg (FBK_nn_CRC_ACT_POLY n).addr))

/-- Base address of port n. -/
def fbkBase (n : Nat) : Nat := 0x40070000 + 0x200 * n

/-- The staged and in-force addresses of a port. -/
def fbkGroup (n : Nat) : List (Nat × Nat) := (List.range 11).map fun i => (fbkBase n + 4 * i, fbkBase n + 0x100 + 4 * i)

/-- Quadrant of levels A and B (R150). -/
def quadrantOf (a b : Bool) : Int := if a then (if b then 0 else 1) else if b then 3 else 2

/-- The Stride outputs that follow port n run while it runs (R169); one that stops forgets the source's last interval. -/
def Dev.stridesRun (d : Dev) (n : Nat) : Dev :=
  let on := d.portRuns n
  (List.range 8).foldl (fun d s => if d.get (STR_s_CFG_ACT_SRC s) ≠ n then d else
    let y := d.strX s
    (d.setStrX s (if on then y else { y with seg := none })).setf (STR_s_STAT_RUN s) (y.run && on)) d

/-- The commit of a port's group at its LATCH gate (R141, R150, R154, R155, R172; log entry 13). A commit that puts ALEN = 0 in force
clears ALARM (the model's choice, log entry 13). -/
def Dev.fbkApply (d : Dev) (c : Clock) (n : Nat) : Dev :=
  let d0 := d.setf (FBK_nn_CTL_CMT n) false
  if d.fbkZero n then d0.setf (FBK_nn_CTL_ZERO n)
  else if d.fbkConflict n (d.lane n).state then d0.setf (FBK_nn_CTL_CONFLICT n)
  else
    let alarmNew := (d.flag (FBK_nn_CFG_ALEN n) && (!d.flag (FBK_nn_CFG_ACT_ALEN n) || d.differs (FBK_nn_CFG_ALPOL n) (FBK_nn_CFG_ACT_ALPOL n)))
    let modeNew := d.differs (FBK_nn_CFG_MODE n) (FBK_nn_CFG_ACT_MODE n)
    let d1 := d0.copyRegs (fbkGroup n)
    let x := d1.fbkX n
    let count := if d1.fbMode n = fbSinCos then x.count / 4 * 4 + quadrantOf x.a x.b else x.count
    let x1 : FbkX := { x with
      count := count, fresh := true, learned := false, raw := none, gate := none
      e0 := if modeNew then none else x.e0, e1 := if modeNew then none else x.e1
      hallRun := if modeNew then 0 else x.hallRun
      lastEdge := if modeNew then none else x.lastEdge
      sinOff := if modeNew then 0 else x.sinOff
      lat := if modeNew then [] else x.lat }
    let d2 := (d1.setFbkX n (x1.pushHist c.ns)).stridesRun n
    if alarmNew then d2.judgeAlarm c n
    else if d2.flag (FBK_nn_CFG_ACT_ALEN n) then d2 else d2.setf (FBK_nn_STAT_ALARM n) false

def execFbkCommit (n : Fin 24) (s : State) : Host.Outcome State Fault Refusal :=
  .next (s.onServing fun _ d => d.setf (FBK_nn_CTL_CMT n))

/-! Latches (R145, R149 to R154, R157, R159). -/

/-- A value in a `w`-bit signed format: the exact result where it fits, a free value where it does not (log entry 5). -/
def Dev.fit (d : Dev) (w : Nat) (x : Int) : Int × Dev :=
  if satS w x = x then (x, d) else
  let (f, d') := d.takeFree
  (sInt w (uInt w f), d')

/-- Store a probe's position registers. -/
def Dev.probePos (d : Dev) (p : Nat) (x : Int) : Dev :=
  ((d.put (FBK_PRBp_POS_LO_V p) (uInt 32 (x / 2 ^ 32))).put (FBK_PRBp_POS_HI_V p) (uInt 32 (x / 2 ^ 64))).put
    (FBK_PRBp_POS_FRAC_V p) (uInt 32 x)

/-- The type 0x22 packet of a probe event for port n, and POS for PPORT (R160, R171). -/
def Dev.probeSend (d : Dev) (p n : Nat) (rising : Bool) (tp : Nat) (x : Int) (extrap : Bool) : Dev :=
  let d1 := if (d.get FBK_PRBp_MASK_MASK_p).testBit n then
      d.emit n 0x22 (some (tp, 0)) 0 (posWords x ++
        [BitVec.ofNat 64 (p + (if rising then 0 else 8) + if extrap then 16 else 0)])
    else d
  if d.get (FBK_PRBp_CFG_PPORT p) = n then d1.probePos p x else d1
where FBK_PRBp_MASK_MASK_p : Field := FBK_PRBp_MASK_MASK p

/-- Probe events that wait for the latch of sampled port n at g (R161). -/
def Dev.probesLatch (d : Dev) (n : Nat) (x0 x1 : Int) (s0 s1 : Nat) (extrap : Bool) : Dev :=
  let one (d : Dev) (p : Nat) : Dev :=
    let y := d.prbX p
    let go (d : Dev) (w : Nat × Bool × Nat) : Dev :=
      if w.1.testBit n ∧ s0 ≤ w.2.2 ∧ w.2.2 ≤ s1 ∧ s0 < s1 then
        d.probeSend p n w.2.1 w.2.2 (x0 + (x1 - x0) * ((w.2.2 - s0 : Nat) : Int) / ((s1 - s0 : Nat) : Int)) extrap
      else d
    let rest := (y.wait.map fun w => if w.1.testBit n ∧ w.2.2 ≤ s1 then (w.1 - 2 ^ n, w.2) else w).filter fun w => w.1 ≠ 0
    (y.wait.foldl go d).setPrbX p { y with wait := rest }
  (List.range 8).foldl one d

/-! Stride commits (R168, R172). -/

/-- CFG_ZERO checks of a Stride group (R172). -/
def Dev.strZero (d : Dev) (s : Nat) : Bool := d.get (STR_s_M_M s) = 0

/-- CFG_CONFLICT checks of a Stride group (R172). -/
def Dev.strConflict (d : Dev) (s : Nat) : Bool :=
  let sh := d.getI (STR_s_SHIFT_SHIFT s)
  d.get (STR_s_CFG_FORM s) = 3 || 16 * d.get (STR_s_M_M s) < d.get (STR_s_N_N s) || sh < -100000 || 100000 < sh ||
    (d.flag (STR_s_CFG_EN s) && d.get (STR_s_CFG_PW s) = 0) || (d.flag (STR_s_CFG_FWDONLY s) && d.get (STR_s_CFG_FORM s) = 1) ||
    23 < d.get (STR_s_CFG_SRC s)

/-- Base address of Stride output s. -/
def strBase (s : Nat) : Nat := 0x40080000 + 0x100 * s

/-- Put ORG in force. -/
def Dev.putOrg (d : Dev) (s : Nat) (x : Int) : Dev :=
  (d.put64 (STR_s_ORG_LO_ACT_ORG s) (STR_s_ORG_HI_ACT_ORG s) (uInt 64 (x / 2 ^ 32))).put (STR_s_ORG_FRAC_ACT_FRAC s) (uInt 32 x)

/-- The output makes no more units; both pins return to 0 after the units already fixed and the pulse that runs (R168, R174). -/
def StrX.halt (y : StrX) : StrX :=
  let idle := y.out.isEmpty && y.pulseEnd.isNone
  { y with pend := [], stop := true, a := y.a && !idle, b := y.b && !idle }

/-- The commit of a Stride group at a LATCH gate of its source with the position x latched there (R168, R169, R174). Units already fixed
keep their instants, and the next one keeps its spacing from them (R167). ORG changes where the staged value differs from the one in force,
an equivalent origin too (the model's choice, log entry 86). -/
def Dev.strApply (d : Dev) (s : Nat) (x : Int) : Dev :=
  let d0 := d.setf (STR_s_CTL_CMT s) false
  if d.strZero s then d0.setf (STR_s_CTL_ZERO s)
  else if d.strConflict s then d0.setf (STR_s_CTL_CONFLICT s)
  else
    let was := d.flag (STR_s_CFG_ACT_EN s)
    let en := d.flag (STR_s_CFG_EN s)
    let orgNew := d.reg (strBase s + 0x0C) ≠ d.reg (strBase s + 0x8C) || d.reg (strBase s + 0x10) ≠ d.reg (strBase s + 0x90) ||
      d.reg (strBase s + 0x14) ≠ d.reg (strBase s + 0x94)
    let ratioNew := d.differs (STR_s_N_N s) (STR_s_N_ACT_N s) || d.differs (STR_s_M_M s) (STR_s_M_ACT_M s)
    let srcNew := d.differs (STR_s_CFG_SRC s) (STR_s_CFG_ACT_SRC s)
    let n0 : Int := d.get (STR_s_N_ACT_N s)
    let m0 : Int := d.get (STR_s_M_ACT_M s)
    let off := x - d.strOrg s
    let d1 := (d0.copyRegs ((List.range 7).map fun i => (strBase s + 4 * i, strBase s + 0x80 + 4 * i))).setf (STR_s_STAT_SRC_UNC s)
      (d0.flag (FBK_nn_STAT_UNC (d0.get (STR_s_CFG_SRC s))))
    let y0 := d1.strX s
    let y := if srcNew then { y0 with seg := none } else y0
    let stopped := d1.get (STR_s_N_ACT_N s) = 0
    let go (y : StrX) : StrX := if stopped then { y with run := true }.halt else { y with run := true, stop := false }
    let runs := d1.portRuns (d1.get (STR_s_CFG_ACT_SRC s))
    if !en then (d1.setStrX s { y.halt with run := false }).setf (STR_s_STAT_RUN s) false
    else if !was || orgNew then
      let u := d1.strUnitAt s x
      ((d1.setStrX s (go { y with u := u, umax := u, pend := [] })).setf (STR_s_STAT_RUN s) runs).put (STR_s_UNITS_U s) (uInt 32 u)
    else
      let n1 : Int := d1.get (STR_s_N_ACT_N s)
      let m1 : Int := d1.get (STR_s_M_ACT_M s)
      let d2 := if ratioNew then d1.putOrg s (if m0 = 0 ∨ n1 = 0 then x else x - off * n0 * m1 / (m0 * n1)) else d1
      let u := d2.strUnitAt s x
      let y1 := if ratioNew ∧ (n0 = 0 ∨ n1 = 0) then { y with u := u, umax := u }
        else if srcNew then { y with u := u, umax := max y.umax u } else y
      let d3 := (d2.setStrX s (if ratioNew then go y1 else y1)).setf (STR_s_STAT_RUN s) runs
      if ratioNew || srcNew then d3.put (STR_s_UNITS_U s) (uInt 32 u) else d3

/-- The Stride groups that wait for a latch of port n at g, with the position latched (R168): SRC as staged names the port whose gate is
awaited (the model's choice, log entry 86); a group whose SRC names no port is judged at any port's (R172). -/
def Dev.strCommits (d : Dev) (n g : Nat) : Dev :=
  (List.range 8).foldl (fun d s =>
    let (im, da) := d.takeImages (strBase s) g
    let src := da.get (STR_s_CFG_SRC s)
    if src ≠ n ∧ src < 24 then d else
    if da.flag (STR_s_CTL_CMT s) ∨ !im.isEmpty then (da.strApply s (da.fbkX n).x).doneImages im g else da) d

/-- Report a latch: registers, velocity (R154), hidden position, the type 0x20 packet, sampled Stride sources with their commits, and
probes. `pre` is the position without a set position. -/
def Dev.finishLatch (d : Dev) (c : Clock) (n g : Nat) (x pre : Int) (extrap ampl serr : Bool) : Dev :=
  let y := d.fbkX n
  let wrapped := sInt 96 (uInt 96 x)
  let (v, d1) := match y.fresh, y.at_ with
    | false, some g0 =>
      if g0 < g then d.fit 64 (roundDiv ((wrapped - y.x) * 1000000000) (g - g0)) else (0, d)
    | _, _ => (0, d)
  let d2 := d1.setFbkX n { d1.fbkX n with
    x := wrapped, at_ := some g, v := v, fresh := false, lat := (g, wrapped, extrap) :: (d1.fbkX n).lat.take 3 }
  let d3 := ((d2.put (FBK_nn_POS_LO_V n) (uInt 32 (wrapped / 2 ^ 32))).put (FBK_nn_POS_HI_V n) (uInt 32 (wrapped / 2 ^ 64))).put
    (FBK_nn_POS_FRAC_V n) (uInt 32 wrapped)
  let d4 := ((d3.put (FBK_nn_VEL_LO_V n) (uInt 32 v)).put (FBK_nn_VEL_HI_V n) (uInt 32 (v / 2 ^ 32))).putI (FBK_nn_REV_V n)
    (wrapped / 2 ^ 32 % (d.cpr n : Int))
  let d5 := (d4.setf (FBK_nn_STAT_EXTRAP n) extrap).emit n 0x20 none 0 (posWords wrapped ++ [BitVec.ofInt 64 v, BitVec.ofNat 64
    ((if d.flag (FBK_nn_STAT_UNC n) then 1 else 0) + (if extrap then 2 else 0) + (if ampl then 4 else 0) +
      (if serr then 8 else 0) + (if d.flag (FBK_nn_STAT_ALARM n) then 16 else 0))])
  let mode := d.fbMode n
  if mode = fbQuad ∨ mode = fbHall then d5
  else
    let d6 := match y.at_ with
      | some g0 => ((d5.probesLatch n y.x wrapped g0 g extrap).stridesMove c n y.x pre g0 g).stridesMove c n pre wrapped g g
      | none => d5
    if y.own then (d6.setFbkX n { d6.fbkX n with own := false }).strCommits n g else d6

/-- x_prev + v × 2P ns (R149). -/
def Dev.extrapolate (d : Dev) (n : Nat) : Int :=
  let y := d.fbkX n
  y.x + y.v * (2 * d.lanePer n : Nat) / 1000000000

/-- A set position replaces what the latch reports (R157, R154; log entry 14): the counting modes go on from its count, sin/cos keeps the
difference, and the absolute modes unwrap from it, or, where this latch has no valid frame or usable sample, start again at the
first that has one (R149, R153). `comp` is the latency compensation of the latch. -/
def Dev.takeSetPos (d : Dev) (n g : Nat) (x : Int) (usable : Bool := true) (comp : Int := 0) : Int × Dev :=
  let y := d.fbkX n
  let due := y.setPos.filter fun q => q.2.1 ≤ g
  match due.getLast? with
  | none => (x, d)
  | some (p, _) =>
    let mode := d.fbMode n
    let cnt := if mode = fbQuad ∨ mode = fbHall then p / 2 ^ 32 else y.count
    let d1 := d.setFbkX n ({ y with
      setPos := y.setPos.filter (fun q => g < q.2.1), count := cnt, xr := p + comp, raw := if usable then y.raw else none
      sinOff := y.sinOff + (p - x), setAt := some (g, p), fresh := true, learned := false }.pushHist g)
    (p, due.foldl (fun d q => d.finishDone q.2.2 g) ((d1.clearUnc n).put (FBK_nn_STAT_CONSEC n) 0))

/-- The position CONSEC of a port passes its limit: FL065 (R148, R151). -/
def Dev.consecUp (d : Dev) (c : Clock) (n limit : Nat) : Dev :=
  let d1 := d.bump (FBK_nn_STAT_CONSEC n)
  if limit < d1.get (FBK_nn_STAT_CONSEC n) then d1.activeFault c 65 n else d1

/-- The position field of a frame whose bit i is bit i of `bits`: frame bit PLSB is bit 0 of the field (log entry 15), Gray
converted where GRAY is 1 in SSI mode (R146, R148; of the other mode the model's choice, log entry 15). -/
def Dev.frameField (d : Dev) (n bits : Nat) : Nat :=
  let w := d.get (FBK_nn_SER1_ACT_PWID n)
  let f := bits / 2 ^ d.get (FBK_nn_SER0_ACT_PLSB n) % 2 ^ w
  if d.flag (FBK_nn_SER0_ACT_GRAY n) ∧ d.fbMode n = fbSsi then (List.range w).foldl (fun acc i => acc ^^^ (f / 2 ^ i)) 0 else f

/-- The CRC of a frame is right: over the bits before it in order of receipt, most significant CRC bit first (R148; log
entry 15). -/
def Dev.frameCrcOk (d : Dev) (n bits : Nat) : Bool :=
  let clen := d.get (FBK_nn_CRC_ACT_CLEN n)
  if clen = 0 ∨ 16 < clen then true else
  let nb := d.get (FBK_nn_SER0_ACT_NB n)
  let poly := d.get (FBK_nn_CRC_ACT_POLY n) % 2 ^ clen
  let init := if d.flag (FBK_nn_CRC_ACT_INIT1 n) then 2 ^ clen - 1 else 0
  let step (r i : Nat) : Nat :=
    let fb := r.testBit (clen - 1) != bits.testBit i
    (r * 2 % 2 ^ clen) ^^^ (if fb then poly else 0)
  let r := (List.range (nb - clen)).foldl step init
  let got := (List.range clen).foldl (fun acc i => acc * 2 + if bits.testBit (nb - clen + i) then 1 else 0) 0
  decide (got = if d.flag (FBK_nn_CRC_ACT_INV n) then 2 ^ clen - 1 - r else r)

/-- A serial frame completes (R146 to R149). -/
def Dev.serialFrame (d : Dev) (c : Clock) (n : Nat) (f : SerialFrame) : Dev :=
  let y := d.fbkX n
  match y.gate with
  | none => d
  | some g =>
    if !d.portRuns n ∨ c.ns + 40 < g + d.dFb n then d else
    let d0 := d.setFbkX n { y with gate := none }
    if !f.answered ∨ f.stuck ∨ !d.frameCrcOk n f.bits then
      let pre := d0.extrapolate n
      let (x, d1) := d0.takeSetPos n g pre false
      let d2 := ((d1.bump (FBK_nn_ERRC_SERR n)).reportLim c 64 n).errPacket c n 64
      (d2.consecUp c n (d.get (FBK_nn_LIM_ACT_SLIM n))).finishLatch c n g x pre true false true
    else
      let raw := d.frameField n f.bits
      let w := d.get (FBK_nn_SER1_ACT_PWID n)
      let xr : Int := match y.raw with
        | none => (raw : Int) * 2 ^ 32
        | some r0 => y.xr + sInt w (uInt w ((raw : Int) - r0)) * 2 ^ 32
      let comp := y.v * (d.get (FBK_nn_LAT_ACT_ELAT n) : Nat) / 1000000000
      let d1 := (d0.setFbkX n { d0.fbkX n with raw := some raw, xr := xr }).put (FBK_nn_STAT_CONSEC n) 0
      let (x, d2) := d1.takeSetPos n g (xr - comp) true comp
      d2.finishLatch c n g x (xr - comp) false false false

def execSerialFrame (n : Fin 24) (f : SerialFrame) (s : State) : Host.Outcome State Fault Refusal :=
  .next (s.onServing fun c d => d.serialFrame c n f)

/-- The amplitude test of R151 against m² = (s² + c²) / 32,768² with divisor e² (in 2^-96): inside the band? -/
def Dev.amplOk (d : Dev) (n : Nat) (s c : Int) (e2 : Int) : Bool :=
  let p := (s * s + c * c) * 2 ^ 16 * 2 ^ 96
  let lo : Int := d.get (FBK_nn_SC_ACT_AMIN n) * 32768
  let hi : Int := d.get (FBK_nn_SC_ACT_AMAX n) * 32768
  decide (lo * lo * e2 ≤ p) && decide (p ≤ hi * hi * e2)

/-- atan2 in u0.32 turns; the last bit of an angle that is not exact is free (log entry 16). -/
def Dev.angle (d : Dev) (s c : Int) : Nat × Dev :=
  match atan2T s c with
  | (p, true) => (p, d)
  | (p, false) =>
    let (f, d') := d.takeFree
    ((p + (f % 2).toNat) % 2 ^ 32, d')

/-- A latch out of the amplitude band, or within it (R151). -/
def Dev.judgeAmpl (d : Dev) (c : Clock) (n : Nat) (ok : Bool) : Dev :=
  if ok then d.put (FBK_nn_STAT_CONSEC n) 0
  else (d.setf (FBK_nn_STAT_AMPL n)).consecUp c n (d.get (FBK_nn_SC_ACT_ALIM n))

/-- The SAR pair of port n's latch is complete: sin/cos (R150, R151). -/
def Dev.sinCosPair (d : Dev) (c : Clock) (n g sc cc : Nat) : Dev :=
  let s : Int := (sc : Int) - d.get (FBK_nn_SCOFF_ACT_SOFF n)
  let co : Int := (cc : Int) - d.get (FBK_nn_SCOFF_ACT_COFF n)
  let (phi, d1) := d.angle s co
  let ok := d.amplOk n s co (2 ^ 96)
  let d2 := d1.judgeAmpl c n ok
  let q := (d.fbkX n).countAt g
  let big : Int := phi / 2 ^ 30
  let k := (big - q) % 4
  let scres := d.get (FBK_nn_SC_ACT_SCRES n)
  let q' := if k = 1 then q + 1 else if k = 3 then q - 1 else q
  let d3 := if k = 2 then (((d2.setf (FBK_nn_STAT_QUAD n)).setUnc n true).record c 67 n 0).errPacket c n 67 else d2
  let pre := q' / 4 * 2 ^ (32 + scres) + (phi : Int) * 2 ^ scres + (d.fbkX n).sinOff
  let (x, d4) := d3.takeSetPos n g pre
  d4.finishLatch c n g x pre false (!ok) false

/-- The level of RES_EXCm (R152): a square wave of period 4 × EXHP ns from 2 × EXPH on, high in its first half. -/
def Dev.resExc (d : Dev) (c : Clock) (m : Nat) : Bool :=
  let full := 4 * d.get (FBK_EXCm_CFG_EXHP m)
  d.flag (FBK_EXCm_CFG_EN m) && decide (2 * (((c.ns : Int) - 2 * d.get (FBK_EXCm_PH_EXPH m)) % (full : Int)) < full)

/-- The SAR pair of a resolver latch (R151, R153). -/
def Dev.resolverPair (d : Dev) (c : Clock) (n g sc cc : Nat) : Dev :=
  let m := n / 6
  let full := 4 * d.get (FBK_EXCm_CFG_EXHP m)
  let r := (((g : Int) - d.get (FBK_EXCm_DLY_EXDLY m) - 2 * d.get (FBK_EXCm_PH_EXPH m)) % (full : Int)).toNat
  let e := if full = 0 then 0 else sinT (r * 2 ^ 32 / full)
  let r' := r % (full / 2)
  let usable := full ≠ 0 && decide (full ≤ 12 * r' ∧ 12 * r' ≤ 5 * full)
  let y := d.fbkX n
  if !usable then
    let (x, d1) := d.takeSetPos n g (d.extrapolate n) false
    d1.finishLatch c n g x (d.extrapolate n) true false false
  else
    let s : Int := (sc : Int) - d.get (FBK_nn_SCOFF_ACT_SOFF n)
    let co : Int := (cc : Int) - d.get (FBK_nn_SCOFF_ACT_COFF n)
    let ok := d.amplOk n s co (e * e)
    let sg : Int := if e < 0 then -1 else 1
    let (phi, d1) := d.angle (sg * s) (sg * co)
    let scres := d.get (FBK_nn_SC_ACT_SCRES n)
    let x0 : Int := match y.raw with
      | none => (phi : Int) * 2 ^ scres
      | some p0 => y.xr + sInt 32 (uInt 32 ((phi : Int) - p0)) * 2 ^ scres
    let d2 := (d1.judgeAmpl c n ok).setFbkX n { (d1.judgeAmpl c n ok).fbkX n with raw := some phi, xr := x0 }
    let (x, d3) := d2.takeSetPos n g x0
    d3.finishLatch c n g x x0 false (!ok) false

/-! The LATCH gate. -/


/-- Instant from which the next SSI frame may start, one that starts at g (R146). -/
def Dev.ssiFree (d : Dev) (n g : Nat) : Nat :=
  g + (d.get (FBK_nn_SER0_ACT_NB n) + 1) * (2 * d.get (FBK_nn_SER0_ACT_BDIV n)) + d.get (FBK_nn_SER1_ACT_TMONO n) * 1000

/-- A serial frame or a SAR pair starts at the gate at g (R146, R147, R129). Inside the monoflop time no SSI frame starts: the port
extrapolates under R149 (the model's choice, log entry 90). -/
def Dev.frameStart (d : Dev) (c : Clock) (n g : Nat) (own : Bool) : Dev :=
  let x := d.fbkX n
  if d.fbMode n ≠ fbSsi then d.setFbkX n { x with gate := some g, own := own }
  else if g < x.monoEnd then
    let pre := d.extrapolate n
    let (y, d1) := (d.setFbkX n { x with own := own }).takeSetPos n g pre false
    d1.finishLatch c n g y pre true false false
  else d.setFbkX n { x with gate := some g, own := own, monoEnd := d.ssiFree n g }

/-- A LATCH gate of the port fires at g (R139, R154, R157, R159, R168, R172): commits, then the latch of the counting modes; a
serial frame starts; the SAR pair is held by the converters. -/
def Dev.portLatch (d : Dev) (c : Clock) (n g : Nat) (own : Bool) : Dev :=
  let (imgs, d0) := if own then d.takeImages (fbkBase n) g else ([], d)
  let d1 := if own ∧ (d0.flag (FBK_nn_CTL_CMT n) ∨ !imgs.isEmpty) then (d0.fbkApply c n).doneImages imgs g else d0
  let mode := d1.fbMode n
  let d2 :=
    if mode = fbQuad ∨ mode = fbHall then
      let pre := d1.countPos n g
      let (x, d') := d1.takeSetPos n g pre
      (d'.finishLatch c n g x pre false false false).stridesMove c n pre x g g
    else if mode = fbOff then
      (d1.takeSetPos n g 0).2
    else d1.frameStart c n g own
  if !own then d2
  else
    let d3 := d2.setFbkX n { d2.fbkX n with hallK := (d2.fbkX n).hall }
    if mode = fbOff ∨ mode = fbQuad ∨ mode = fbHall then d3.strCommits n g else d3

/-! Probes (R160 to R162). -/

/-- The two successive latches, newest first in the list, that bracket an instant (R161): instants, positions, EXTRAP of the later. -/
def latBracket (t : Nat) : List (Nat × Int × Bool) → Option (Nat × Nat × Int × Int × Bool)
  | (s1, x1, e1) :: (s0, x0, e0) :: r => if s0 ≤ t ∧ t ≤ s1 ∧ s0 < s1 then some (s0, s1, x0, x1, e1) else latBracket t ((s0, x0, e0) :: r)
  | _ => none

/-- x_k + (x_(k+1) − x_k) × (t − s_k) / (s_(k+1) − s_k) (R161). -/
def probeBetween (x0 x1 : Int) (s0 s1 t : Nat) : Int := x0 + (x1 - x0) * ((t - s0 : Nat) : Int) / ((s1 - s0 : Nat) : Int)

/-- An accepted probe edge (R160, R161). -/
def Dev.probeEvent (d : Dev) (c : Clock) (p : Nat) (rising : Bool) : Dev :=
  let d0 := d.setf (FBK_PRBp_STAT_LEVEL p) rising
  if !(d.get (FBK_PRBp_CFG_EDGE p)).testBit (if rising then 0 else 1) then d0
  else
    let tp := c.ns - 2 * d.get (FBK_PRBp_CFG_FILT p)
    let mask := d.get (FBK_PRBp_MASK_MASK p)
    let d1 := if d.flag (FBK_PRBp_STAT_NEW p) then d0.setf (FBK_PRBp_STAT_OVR p) else d0
    let d2 := ((d1.put64 (FBK_PRBp_TS_LO_V p) (FBK_PRBp_TS_HI_V p) tp).setf (FBK_PRBp_STAT_NEW p)).setf (FBK_PRBp_STAT_LAST p) (!rising)
    if mask = 0 then d2.probePos p 0
    else
      let ports := (List.range 24).filter fun n => mask.testBit n || d.get (FBK_PRBp_CFG_PPORT p) = n
      let counting := ports.filter fun n => d.fbMode n = fbQuad || d.fbMode n = fbHall
      let sampled := ports.filter fun n => 3 ≤ d.fbMode n
      let d3 := counting.foldl (fun d n => d.probeSend p n rising tp (d.countPos n tp) false) d2
      let known := sampled.filter fun n => (latBracket tp (d.fbkX n).lat).isSome
      let d4 := known.foldl (fun d n => match latBracket tp (d.fbkX n).lat with
        | some (s0, s1, x0, x1, e) => d.probeSend p n rising tp (probeBetween x0 x1 s0 s1 tp) e
        | none => d) d3
      let rest := sampled.filter fun n => !known.contains n
      if rest.isEmpty then d4
      else d4.setPrbX p { d4.prbX p with wait := (d4.prbX p).wait ++ [(rest.foldl (fun m n => m + 2 ^ n) 0, rising, tp)] }

def execProbeEvent (p : Fin 8) (rising : Bool) (s : State) : Host.Outcome State Fault Refusal :=
  .next (s.onServing fun c d => d.probeEvent c p rising)

/-- A read of FBK_nn_POS_LO latches POS_HI, POS_FRAC and VEL (R154). -/
def execFbkPosLatch (n : Fin 24) (s : State) : Host.Outcome State Fault Refusal :=
  .next (s.onServing fun _ d => d.latchRegs [(FBK_nn_POS_HI_V n).addr, (FBK_nn_POS_FRAC_V n).addr, (FBK_nn_VEL_LO_V n).addr,
    (FBK_nn_VEL_HI_V n).addr])

/-- A read of FBK_PRBp_TS_LO latches the other stamp and position registers (R160); STAT keeps its current value (R13). -/
def execProbeTsLatch (p : Fin 8) (s : State) : Host.Outcome State Fault Refusal :=
  .next (s.onServing fun _ d => d.latchRegs [(FBK_PRBp_TS_HI_V p).addr, (FBK_PRBp_POS_LO_V p).addr, (FBK_PRBp_POS_HI_V p).addr,
    (FBK_PRBp_POS_FRAC_V p).addr])

/-- A read of FBK_PRBp_POS_FRAC clears NEW (R160). -/
def execProbeFracRead (p : Fin 8) (s : State) : Host.Outcome State Fault Refusal :=
  .next (s.onServing fun _ d => d.setf (FBK_PRBp_STAT_NEW p) false)

/-! Commands fbk.cfg and fbk.set_pos (R157, R172, R382). -/

/-- fbk.cfg (R172, R384). -/
def cmdFbkCfg : CmdFn := fun _ tref q d =>
  let n := q.target.toNat
  let ok := imageOk (fun a => fbkBase n ≤ a && a < fbkBase n + 0x2C) q.image
  let t := d.firingAhead (24 + n) (imageLead q tref)
  let d1 := d.atCommit t q.image
  refuseIf [(decide (24 ≤ n) || q.noImage, rcBadFormat), (d.isReleased 7 n, rcRegOwned), (ok && d1.fbkZero n, rcCfgZero),
      (!ok || d1.fbkConflict n (d.stateAt n t), rcCfgConflict)] fun _ =>
    .accept t { d with
      imgs := d.imgs ++ [{ group := fbkBase n, from_ := imageLead q tref, due := t, pairs := q.image, work := some q.id }] }

def execFbkCfg (q : Request) (s : State) : Host.Outcome State Fault Refusal := .next (s.command 0x0108 cmdFbkCfg q)

/-- fbk.set_pos (R157): at the port's next LATCH gate. -/
def cmdFbkSetPos : CmdFn := fun _ tref q d =>
  let n := q.target.toNat
  refuseIf [(decide (24 ≤ n) || decide (q.payload.length ≠ 2), rcBadFormat), (d.isReleased 7 n, rcRegOwned)] fun _ =>
    .accept (d.firingAhead (24 + n) (q.at_ tref))
      (d.setFbkX n { d.fbkX n with setPos := (d.fbkX n).setPos ++ [(posOf (q.pw 0) (q.pw 1), q.at_ tref, some q.id)] })

def execFbkSetPos (q : Request) (s : State) : Host.Outcome State Fault Refusal := .next (s.command 0x0109 cmdFbkSetPos q)

end Sys2Proof.Machine
end

