-- ==== Sys2Proof/Machine/Motion.lean ====
section
/-! DEFINITION. The jerk-limited profiles of the trajectory engines (R239, R240, R242, R254, R617), in exact rational arithmetic
but for square roots, which are exact where rational and else rounded down at 2^-320 (log entry 18). Counts and seconds. -/

namespace Sys2Proof.Machine

/-- Bounds of a profile (R239): VMAX, AMAX while |v| rises, DMAX while it falls, JMAX. -/
structure Lims where
  v : Rat
  a : Rat
  d : Rat
  j : Rat
  deriving DecidableEq, Repr

/-- Integer square root of any size. -/
def bigSqrt (n : Nat) : Nat := isqrtAux n (n.log2 / 2 + 1) 0

/-- √r: exact for the square of a rational, else rounded down at 2^-320. -/
def ratSqrt (r : Rat) : Rat :=
  if r ≤ 0 then 0
  else
    let n := r.num.toNat
    let sn := bigSqrt n
    let sd := bigSqrt r.den
    if sn * sn = n ∧ sd * sd = r.den then mkRat sn sd else mkRat (bigSqrt (n * 2 ^ 640 / r.den)) (2 ^ 320)

/-- The state a time t later at constant jerk. -/
def Kin.move (k : Kin) (j t : Rat) : Kin :=
  { p := k.p + k.v * t + k.a * t * t / 2 + j * t * t * t / 6, v := k.v + k.a * t + j * t * t / 2, a := k.a + j * t }

/-- State and jerk a time t after the start of the segments; after the last one the velocity stays. -/
def Kin.run (k : Kin) : List Seg → Rat → Kin × Rat
  | [], t => ({ k with p := k.p + k.v * t, a := 0 }, 0)
  | (j, dt) :: r, t => if t < dt then (k.move j t, j) else Kin.run (k.move j dt) r (t - dt)

/-- Sum of the durations. -/
def segTime (ss : List Seg) : Rat := ss.foldl (fun s x => s + x.2) 0

/-- State at the end of the segments. -/
def Kin.finish (k : Kin) (ss : List Seg) : Kin := ss.foldl (fun k s => k.move s.1 s.2) k

/-- Sign as −1, 0 or 1. -/
def sgn (x : Rat) : Rat := if x < 0 then -1 else if x = 0 then 0 else 1

/-- |x|. -/
def absQ (x : Rat) : Rat := if x < 0 then -x else x

/-- Half the square of the acceleration that a change of velocity toward `u1` may hold at velocity u, both in the direction of the
change: the bound of the side of zero, reached and left at JMAX, and 0 at u1. -/
def envQ (m : Lims) (u0 u1 u : Rat) : Rat :=
  let ca := m.a * m.a / 2
  let cd := m.d * m.d / 2
  let e := m.j * (u1 - u)
  if u < 0 then (let x := min cd e; if 0 < u1 then min x (ca - m.j * u) else x)
  else (let x := min ca e; if u0 < 0 then min x (cd + m.j * u) else x)

/-- Half the squared acceleration along the change that starts at u0 with q0. A start beyond the bound falls at JMAX to it
(R240). -/
def pathQ (m : Lims) (u0 q0 u1 u : Rat) : Rat :=
  let e := envQ m u0 u1 u
  if envQ m u0 u1 u0 < q0 then max e (q0 - m.j * (u - u0)) else min e (q0 + m.j * (u - u0))

/-- Insert into a rising list, once. -/
def insQ (x : Rat) : List Rat → List Rat
  | [] => [x]
  | y :: r => if x < y then x :: y :: r else if x = y then y :: r else y :: insQ x r

/-- Velocities at which the slope of `pathQ` may change: the meets of its lines, zero, and both ends. -/
def pathKnots (m : Lims) (u0 q0 u1 : Rat) : List Rat :=
  let ca := m.a * m.a / 2
  let cd := m.d * m.d / 2
  let lines : List (Rat × Rat) := [(m.j, q0 - m.j * u0), (-m.j, q0 + m.j * u0), (-m.j, m.j * u1), (0, ca), (0, cd), (-m.j, ca), (m.j, cd)]
  let meets := lines.flatMap fun l => lines.filterMap fun k => if l.1 = k.1 then none else some ((k.2 - l.2) / (l.1 - k.1))
  ((0 :: meets).filter fun u => u0 < u ∧ u < u1).foldl (fun acc u => insQ u acc) [u0, u1]

/-- The segments between consecutive knots, in direction s. -/
def pathSegs (m : Lims) (s u0 q0 u1 : Rat) : List Rat → List Seg
  | a :: b :: r =>
    let qa := pathQ m u0 q0 u1 a
    let qb := pathQ m u0 q0 u1 b
    let slope := (qb - qa) / (b - a)
    let t := if slope = 0 then (b - a) / ratSqrt (2 * qa) else (ratSqrt (2 * qb) - ratSqrt (2 * qa)) / slope
    (s * slope, t) :: pathSegs m s u0 q0 u1 (b :: r)
  | _ => []

/-- The velocity at which the acceleration, brought to 0 at JMAX, arrives. -/
def coastV (j v a : Rat) : Rat := v + a * absQ a / (2 * j)

/-- The least-time change of velocity from v with acceleration a to v1 with none (R242, R617). -/
def velChange (m : Lims) (v a v1 : Rat) : List Seg :=
  let vc := coastV m.j v a
  let zero : List Seg := if a = 0 then [] else [(-(sgn a) * m.j, absQ a / m.j)]
  if vc = v1 then zero
  else
    let s := sgn (v1 - vc)
    if 0 < a * s then pathSegs m s (s * v) (a * a / 2) (s * v1) (pathKnots m (s * v) (a * a / 2) (s * v1))
    else zero ++ pathSegs m s (s * vc) 0 (s * v1) (pathKnots m (s * vc) 0 (s * v1))

/-- Displacement of a change of velocity. -/
def changeDist (m : Lims) (v a v1 : Rat) : Rat := (({ p := 0, v := v, a := a } : Kin).finish (velChange m v a v1)).p

/-- Distance of a profile through the peak velocity vp without cruise (R617). -/
def peakDist (m : Lims) (v a vp : Rat) : Rat := changeDist m v a vp + changeDist m vp 0 0

/-- Halve an interval n times toward the point at which `f` turns false. -/
def bisectQ (f : Rat → Bool) : Nat → Rat → Rat → Rat
  | 0, lo, _ => lo
  | n + 1, lo, hi =>
    let mid := (lo + hi) / 2
    if f mid then bisectQ f n mid hi else bisectQ f n lo mid

/-- The rational with the smallest denominator from lo to hi, both positive; n bounds the terms of its continued fraction. -/
def simpleQ : Nat → Rat → Rat → Rat
  | 0, lo, _ => lo
  | n + 1, lo, hi =>
    let f : Rat := lo.floor
    if f = lo then lo else if f + 1 ≤ hi then f + 1 else f + 1 / simpleQ n (1 / (hi - f)) (1 / (lo - f))

/-- The least-time profile over distance D from (v, a) to rest (R239, R617): the stop alone, a cruise at ±VMAX, or the largest peak
velocity in the direction of what the stop leaves, whose distance is D: a rational one where it exists, else rounded down (log entry
18). -/
def planMove (m : Lims) (v a dist : Rat) : List Seg :=
  let d0 := changeDist m v a 0
  if dist = d0 then velChange m v a 0
  else
    let s := sgn (dist - d0)
    let v' := s * v
    let a' := s * a
    let d' := s * dist
    let flip (ss : List Seg) : List Seg := ss.map fun x => (s * x.1, x.2)
    let full := peakDist m v' a' m.v
    if full ≤ d' then
      flip (velChange m v' a' m.v ++ [(0, (d' - full) / m.v)] ++ velChange m m.v 0 0)
    else
      let vc := coastV m.j v' a'
      let below (x : Rat) : Bool := peakDist m v' a' x ≤ d'
      let vp :=
        if 0 < vc ∧ vc < m.v then (if below vc then bisectQ below 320 vc m.v else bisectQ below 320 0 vc)
        else bisectQ below 320 0 m.v
      let plan (x : Rat) : List Seg := velChange m v' a' x ++ velChange m x 0 0
      let cut := mkRat 1 (2 ^ 280)
      let near := if cut < vp then simpleQ 512 (vp - cut) (vp + cut) else vp
      flip (if peakDist m v' a' near = d' then plan near else plan vp)

/-- Does the state exceed a bound at the start of a profile (R240)? -/
def exceeds (m : Lims) (v a : Rat) : Bool :=
  decide (m.v < absQ v) || decide ((if v * a < 0 then m.d else m.a) < absQ a)

/-- Do the segments end exactly at rest relative to velocity v, and at the final position where there is one? Then no duration in them was
rounded. -/
def Kin.exact (k : Kin) (segs : List Seg) (final : Option Rat) (v : Rat) : Bool :=
  let e := k.finish segs
  decide (e.v = v) && decide (e.a = 0) && (match final with
    | some p => decide (e.p = p)
    | none => true)

/-- Whole ns that a duration in s takes, rounded up (R241). Of a duration that had to be rounded and lies within 2^-128 s of a whole number
of ns, nothing here says on which side of it the exact one ends (log entry 18). -/
def upNs (exact : Bool) (t : Rat) : Nat :=
  let ns (x : Rat) : Nat := (Rat.ceil (x * 1000000000)).toNat
  let cut := mkRat 1 (2 ^ 128)
  if exact then ns t else if Config.endLater t then ns (t + cut) else ns (t - cut)

/-- The bounds of a stop (R254): SDMAX while |v| falls; while it rises |a| only falls, at SJMAX. -/
def stopLims (sd sj : Rat) : Lims := { v := 0, a := sd, d := sd, j := sj }

end Sys2Proof.Machine
end

