-- ==== Sys2Proof/Machine/Cam.lean ====
section
/-! DEFINITION. Cam tables (R247, R248): the spline fitted to the points, and its value and derivatives. Offsets are in counts. -/

namespace Sys2Proof.Machine

/-- A rational rounded down to a multiple of 2^-256: the precision of spline coefficients (log entry 20). -/
def cutQ (x : Rat) : Rat := mkRat (x * (2 ^ 256 : Nat)).floor (2 ^ 256)

/-- A row of a tridiagonal system with two right-hand sides: a x_(i-1) + b x_i + c x_(i+1) = r, and s. -/
structure TriRow where
  a : Rat
  b : Rat
  c : Rat
  r : Rat
  s : Rat

/-- Forward elimination: rows reduced to x_i + c x_(i+1) = r (and s), last row first. -/
def triFwd : List TriRow → Rat × Rat × Rat → List (Rat × Rat × Rat) → List (Rat × Rat × Rat)
  | [], _, acc => acc
  | w :: ws, (c, r, s), acc =>
    let k := w.b - w.a * c
    let row := if k = 0 then (0, 0, 0) else (cutQ (w.c / k), cutQ ((w.r - w.a * r) / k), cutQ ((w.s - w.a * s) / k))
    triFwd ws row (row :: acc)

/-- Back substitution from the last row: the solutions in order. -/
def triBack : List (Rat × Rat × Rat) → Rat × Rat → List (Rat × Rat) → List (Rat × Rat)
  | [], _, acc => acc
  | (c, r, s) :: ws, (x, y), acc =>
    let z := (cutQ (r - c * x), cutQ (s - c * y))
    triBack ws z (z :: acc)

/-- Solutions of a tridiagonal system for both right-hand sides. -/
def triSolve (ws : List TriRow) : List (Rat × Rat) := triBack (triFwd ws (0, 0, 0) []) (0, 0) []

/-- An s31.32 offset in counts. -/
def cts (x : Int) : Rat := mkRat x (2 ^ 32)

/-- Interval lengths and slopes of a table. -/
def camSteps : List (Int × Int) → List (Rat × Rat)
  | p :: q :: r => (cts (q.1 - p.1), mkRat (q.2 - p.2) 1 / mkRat (q.1 - p.1) 1) :: camSteps (q :: r)
  | _ => []

/-- Rows of the interior points: the second derivative is continuous (R248). -/
def camRows : List (Rat × Rat) → List TriRow
  | (h0, s0) :: (h1, s1) :: r => ⟨h0, 2 * (h0 + h1), h1, 6 * (s1 - s0), 0⟩ :: camRows ((h1, s1) :: r)
  | _ => []

/-- Second derivatives with y' = 0 at both ends (CLAMP). -/
def splineClamp (st : List (Rat × Rat)) : List Rat :=
  match st, st.getLast? with
  | (h0, s0) :: _, some (hn, sn) =>
    (triSolve (⟨0, 2 * h0, h0, 6 * s0, 0⟩ :: camRows st ++ [⟨hn, 2 * hn, 0, -6 * sn, 0⟩])).map (·.1)
  | _, _ => []

/-- Second derivatives with y' and y'' continuous across the period boundary (PERIODIC): the inner ones as A + B M_0, and M_0 from
the boundary. -/
def splinePeriodic (st : List (Rat × Rat)) : List Rat :=
  match st, st.getLast? with
  | (h0, s0) :: _, some (hn, sn) =>
    let rows := camRows st
    let n := rows.length
    let rows' := (rows.zipIdx).map fun p =>
      { p.1 with s := -((if p.2 = 0 then p.1.a else 0) + (if p.2 + 1 = n then p.1.c else 0)) }
    let sol := triSolve rows'
    let one := sol.headD (0, 1)
    let two := sol.getLastD (0, 1)
    let k := 2 * (hn + h0) + hn * two.2 + h0 * one.2
    let m0 := if n = 0 ∨ k = 0 then 0 else cutQ ((6 * (s0 - sn) - hn * two.1 - h0 * one.1) / k)
    m0 :: (sol.map fun z => cutQ (z.1 + z.2 * m0)) ++ [m0]
  | _, _ => []

/-- The table that a cam.load stores (R247, R248). -/
def camBuild (spline periodic : Bool) (pts : List (Int × Int)) : CamTab :=
  let st := camSteps pts
  { pts := pts, m2 := if !spline then [] else if periodic then splinePeriodic st else splineClamp st }

/-- Value and three derivatives at an offset within the table. -/
def camIn : List (Int × Int) → List Rat → Rat → Rat × Rat × Rat × Rat
  | p :: q :: r, ms, u =>
    let x0 := cts p.1
    let x1 := cts q.1
    if u ≤ x1 ∨ r.isEmpty then
      let h := x1 - x0
      let m0 := ms.headD 0
      let m1 := (ms.drop 1).headD 0
      let b := x1 - u
      let f := u - x0
      let ya := cts p.2 / h - m0 * h / 6
      let yb := cts q.2 / h - m1 * h / 6
      ((m0 * b * b * b + m1 * f * f * f) / (6 * h) + ya * b + yb * f, (m1 * f * f - m0 * b * b) / (2 * h) - ya + yb,
        (m0 * b + m1 * f) / h, (m1 - m0) / h)
    else camIn (q :: r) (ms.drop 1) u
  | [p], _, _ => (cts p.2, 0, 0, 0)
  | [], _, _ => (0, 0, 0, 0)

/-- y and its derivatives at master offset u, and whether u lies outside a clamped table (R248). -/
def camEval (t : CamTab) (periodic : Bool) (u : Rat) : (Rat × Rat × Rat × Rat) × Bool :=
  let l := match t.pts.getLast? with
    | some p => cts p.1
    | none => 0
  let rise := match t.pts.getLast?, t.pts.head? with
    | some p, some q => cts (p.2 - q.2)
    | _, _ => 0
  if periodic ∧ 0 < l then
    let k := (u / l).floor
    let y := camIn t.pts t.m2 (u - k * l)
    ((y.1 + k * rise, y.2), false)
  else if u < 0 ∨ l < u then
    let y := camIn t.pts t.m2 (if u < 0 then 0 else l)
    ((y.1, 0, 0, 0), true)
  else (camIn t.pts t.m2 u, false)

end Sys2Proof.Machine
end

