-- ==== Sys2Proof/Machine/ShostoCode.lean ====
section
/-! DEFINITION. The bit-level code of Shosto (R339, R340): which instructions are legal, the words of an instruction, and the
instruction a word spells. -/

namespace Sys2Proof.Machine

/-- Field values an instruction word of Shosto may carry (R339 to R342, R348): the encodings that are not ILLEGAL. Commands
that are no Shosto instruction have no word. -/
def shLegal : Instr → Bool
  | .shShli _ _ _ imm | .shShri _ _ _ imm | .shSrai _ _ _ imm => imm.toNat < 64
  | .shExtl _ _ xd _ => xd.toNat % 2 = 0
  | .shLdal _ _ xd _ => xd.toNat % 2 = 0
  | .shLdL _ _ xd _ | .shStL _ _ xd _ => xd.toNat % 2 = 0
  | .shLda _ _ xd _ | .shSta _ _ xd _ => xd.toNat < 2
  | .shBcc _ cond _ => cond.toNat < 12
  | .shLoop _ _ len => len.toNat ≠ 0
  | .shMfs _ _ s _ | .shMts _ _ s _ => s.toNat < 8
  | .shTimr _ xd _ _ => xd.toNat % 2 = 0
  | .shSend _ _ _ n => 1 ≤ n.toNat && n.toNat ≤ 8
  | _ => true

/-- Class 0x0 word. -/
def encAlu (op : Nat) (xd xa xb : BitVec 5) : Nat := op * 2 ^ 22 + xd.toNat * 2 ^ 17 + xa.toNat * 2 ^ 12 + xb.toNat * 2 ^ 7
/-- Class 0x1 word. -/
def encImm (op : Nat) (xd xa : BitVec 5) (imm : BitVec 14) : Nat :=
  0x10000000 + op * 2 ^ 24 + xd.toNat * 2 ^ 19 + xa.toNat * 2 ^ 14 + imm.toNat
/-- Class 0x2 word. -/
def encMul (op : Nat) (ac : BitVec 1) (xa xb : BitVec 5) (md : BitVec 2) : Nat :=
  0x20000000 + op * 2 ^ 24 + ac.toNat * 2 ^ 23 + xa.toNat * 2 ^ 18 + xb.toNat * 2 ^ 13 + md.toNat * 2 ^ 11
/-- Class 0x4 word. -/
def encAcc (op : Nat) (ac : BitVec 1) (xd : BitVec 5) (sh : BitVec 6) : Nat :=
  0x40000000 + op * 2 ^ 24 + ac.toNat * 2 ^ 23 + xd.toNat * 2 ^ 18 + sh.toNat * 2 ^ 12
/-- MODE and bits 12:0 of a class 0x5 word. -/
def encMode : MemMode → Nat
  | .base off => off.toNat
  | .post off => 1 * 2 ^ 23 + off.toNat
  | .circ cb off => 2 * 2 ^ 23 + cb.toNat * 2 ^ 11 + off.toNat
  | .index xq => 3 * 2 ^ 23 + xq.toNat * 2 ^ 8
/-- Class 0x5 word. -/
def encMem (op : Nat) (m : MemMode) (xd xp : BitVec 5) : Nat :=
  0x50000000 + op * 2 ^ 25 + encMode m + xd.toNat * 2 ^ 18 + xp.toNat * 2 ^ 13
/-- Class 0x6 word. -/
def encBr (cond : Nat) (off : BitVec 24) : Nat := 0x60000000 + cond * 2 ^ 24 + off.toNat
/-- Class 0x8 word. -/
def encSys (op : Nat) (xd s : BitVec 5) (n : BitVec 4) : Nat :=
  0x80000000 + op * 2 ^ 24 + xd.toNat * 2 ^ 19 + s.toNat * 2 ^ 14 + n.toNat * 2 ^ 10
/-- Class 0xF first word. -/
def encLong (op : Nat) (xd xa : BitVec 5) : Nat := 0xF0000000 + op * 2 ^ 24 + xd.toNat * 2 ^ 19 + xa.toNat * 2 ^ 14

/-- The first word of a Shosto instruction as a number, and the second word of the long form (R339, R340). -/
def encodeSh : Instr → Option (Nat × Option W32)
  | .shAdd _ d a b => some (encAlu 0x00 d a b, none)
  | .shAdds _ d a b => some (encAlu 0x01 d a b, none)
  | .shSub _ d a b => some (encAlu 0x02 d a b, none)
  | .shSubs _ d a b => some (encAlu 0x03 d a b, none)
  | .shAnd _ d a b => some (encAlu 0x04 d a b, none)
  | .shOr _ d a b => some (encAlu 0x05 d a b, none)
  | .shXor _ d a b => some (encAlu 0x06 d a b, none)
  | .shShl _ d a b => some (encAlu 0x07 d a b, none)
  | .shShr _ d a b => some (encAlu 0x08 d a b, none)
  | .shSra _ d a b => some (encAlu 0x09 d a b, none)
  | .shMin _ d a b => some (encAlu 0x0A d a b, none)
  | .shMax _ d a b => some (encAlu 0x0B d a b, none)
  | .shAbss _ d a b => some (encAlu 0x0C d a b, none)
  | .shNegs _ d a b => some (encAlu 0x0D d a b, none)
  | .shNorm _ d a b => some (encAlu 0x0E d a b, none)
  | .shDiv _ d a b => some (encAlu 0x0F d a b, none)
  | .shDivu _ d a b => some (encAlu 0x10 d a b, none)
  | .shShls _ d a b => some (encAlu 0x11 d a b, none)
  | .shAddi _ d a i => some (encImm 0 d a i, none)
  | .shAndi _ d a i => some (encImm 1 d a i, none)
  | .shOri _ d a i => some (encImm 2 d a i, none)
  | .shXori _ d a i => some (encImm 3 d a i, none)
  | .shShli _ d a i => some (encImm 4 d a i, none)
  | .shShri _ d a i => some (encImm 5 d a i, none)
  | .shSrai _ d a i => some (encImm 6 d a i, none)
  | .shMpy _ ac a b md => some (encMul 0 ac a b md, none)
  | .shMac _ ac a b md => some (encMul 1 ac a b md, none)
  | .shMsu _ ac a b md => some (encMul 2 ac a b md, none)
  | .shTap _ ac xs xh cb =>
    some (0x30000000 + ac.toNat * 2 ^ 27 + xs.toNat * 2 ^ 22 + xh.toNat * 2 ^ 17 + cb.toNat * 2 ^ 15, none)
  | .shClr _ ac d sh => some (encAcc 0 ac d sh, none)
  | .shExt _ ac d sh => some (encAcc 1 ac d sh, none)
  | .shExtu _ ac d sh => some (encAcc 2 ac d sh, none)
  | .shExtl _ ac d sh => some (encAcc 3 ac d sh, none)
  | .shMvg _ ac d sh => some (encAcc 4 ac d sh, none)
  | .shLdal _ ac d sh => some (encAcc 5 ac d sh, none)
  | .shLdag _ ac d sh => some (encAcc 6 ac d sh, none)
  | .shAdda _ ac d sh => some (encAcc 7 ac d sh, none)
  | .shMova _ ac d sh => some (encAcc 8 ac d sh, none)
  | .shLdW _ m d p => some (encMem 0 m d p, none)
  | .shLdL _ m d p => some (encMem 1 m d p, none)
  | .shStW _ m d p => some (encMem 2 m d p, none)
  | .shStL _ m d p => some (encMem 3 m d p, none)
  | .shLda _ m d p => some (encMem 4 m d p, none)
  | .shSta _ m d p => some (encMem 5 m d p, none)
  | .shBcc _ cond off => some (encBr cond.toNat off, none)
  | .shCall _ off => some (encBr 0xE off, none)
  | .shRet _ => some (encBr 0xF 0, none)
  | .shNop _ => some (0x70000000, none)
  | .shEnd _ => some (0x71000000, none)
  | .shRep _ n => some (0x72000000 + n.toNat * 2 ^ 12, none)
  | .shRepx _ a => some (0x73000000 + a.toNat * 2 ^ 19, none)
  | .shLoop _ n len => some (0x74000000 + n.toNat * 2 ^ 12 + len.toNat, none)
  | .shMfs _ d s n => some (encSys 0 d s n, none)
  | .shMts _ d s n => some (encSys 1 d s n, none)
  | .shTimr _ d s n => some (encSys 2 d s n, none)
  | .shSend _ d s n => some (encSys 3 d s n, none)
  | .shIold _ d s n => some (encSys 4 d s n, none)
  | .shIost _ d s n => some (encSys 5 d s n, none)
  | .shBrk _ d s n => some (encSys 6 d s n, none)
  | .shLdi _ d a imm => some (encLong 0 d a, some imm)
  | .shAddi32 _ d a imm => some (encLong 1 d a, some imm)
  | _ => none

/-- A class 0x0 instruction by its OP. -/
def decAlu (e : Fin 30) (op : Nat) (d a b : BitVec 5) : Option Instr :=
  match op with
  | 0x00 => some (.shAdd e d a b)
  | 0x01 => some (.shAdds e d a b)
  | 0x02 => some (.shSub e d a b)
  | 0x03 => some (.shSubs e d a b)
  | 0x04 => some (.shAnd e d a b)
  | 0x05 => some (.shOr e d a b)
  | 0x06 => some (.shXor e d a b)
  | 0x07 => some (.shShl e d a b)
  | 0x08 => some (.shShr e d a b)
  | 0x09 => some (.shSra e d a b)
  | 0x0A => some (.shMin e d a b)
  | 0x0B => some (.shMax e d a b)
  | 0x0C => some (.shAbss e d a b)
  | 0x0D => some (.shNegs e d a b)
  | 0x0E => some (.shNorm e d a b)
  | 0x0F => some (.shDiv e d a b)
  | 0x10 => some (.shDivu e d a b)
  | 0x11 => some (.shShls e d a b)
  | _ => none

/-- A class 0x1 instruction by its OP. -/
def decImm (e : Fin 30) (op : Nat) (d a : BitVec 5) (i : BitVec 14) : Option Instr :=
  match op with
  | 0 => some (.shAddi e d a i)
  | 1 => some (.shAndi e d a i)
  | 2 => some (.shOri e d a i)
  | 3 => some (.shXori e d a i)
  | 4 => some (.shShli e d a i)
  | 5 => some (.shShri e d a i)
  | 6 => some (.shSrai e d a i)
  | _ => none

/-- A class 0x2 instruction by its OP. -/
def decMul (e : Fin 30) (op : Nat) (ac : BitVec 1) (a b : BitVec 5) (md : BitVec 2) : Option Instr :=
  match op with
  | 0 => some (.shMpy e ac a b md)
  | 1 => some (.shMac e ac a b md)
  | 2 => some (.shMsu e ac a b md)
  | _ => none

/-- A class 0x4 instruction by its OP. -/
def decAcc (e : Fin 30) (op : Nat) (ac : BitVec 1) (d : BitVec 5) (sh : BitVec 6) : Option Instr :=
  match op with
  | 0 => some (.shClr e ac d sh)
  | 1 => some (.shExt e ac d sh)
  | 2 => some (.shExtu e ac d sh)
  | 3 => some (.shExtl e ac d sh)
  | 4 => some (.shMvg e ac d sh)
  | 5 => some (.shLdal e ac d sh)
  | 6 => some (.shLdag e ac d sh)
  | 7 => some (.shAdda e ac d sh)
  | 8 => some (.shMova e ac d sh)
  | _ => none

/-- A class 0x5 instruction by its OP. -/
def decMem (e : Fin 30) (op : Nat) (m : MemMode) (d p : BitVec 5) : Option Instr :=
  match op with
  | 0 => some (.shLdW e m d p)
  | 1 => some (.shLdL e m d p)
  | 2 => some (.shStW e m d p)
  | 3 => some (.shStL e m d p)
  | 4 => some (.shLda e m d p)
  | 5 => some (.shSta e m d p)
  | _ => none

/-- A class 0x8 instruction by its OP. -/
def decSys (e : Fin 30) (op : Nat) (d s : BitVec 5) (n : BitVec 4) : Option Instr :=
  match op with
  | 0 => some (.shMfs e d s n)
  | 1 => some (.shMts e d s n)
  | 2 => some (.shTimr e d s n)
  | 3 => some (.shSend e d s n)
  | 4 => some (.shIold e d s n)
  | 5 => some (.shIost e d s n)
  | 6 => some (.shBrk e d s n)
  | _ => none

/-- Bits `lo + n - 1` to `lo` of an instruction word. -/
def fldSh (w lo n : Nat) : BitVec n := BitVec.ofNat n (w / 2 ^ lo)

/-- MODE and offset of a class 0x5 word; mode 0b11 has zero bits 7:0. -/
def decMode (w : Nat) : Option MemMode :=
  match w / 2 ^ 23 % 4 with
  | 0 => some (.base (fldSh w 0 13))
  | 1 => some (.post (fldSh w 0 13))
  | 2 => some (.circ (fldSh w 11 2) (fldSh w 0 11))
  | _ => if w % 256 = 0 then some (.index (fldSh w 8 5)) else none

/-- The row whose fields a first word spells on engine `e`, whatever their values; `imm` is the word after it (R339, R340). None: a zero bit
set, a reserved class or OP, or a network class. -/
def decodeRaw (e : Fin 30) (w : Nat) (imm : W32) : Option Instr :=
  match w / 2 ^ 28 % 16 with
  | 0x0 => if w % 2 ^ 7 = 0 then decAlu e (w / 2 ^ 22 % 64) (fldSh w 17 5) (fldSh w 12 5) (fldSh w 7 5) else none
  | 0x1 => decImm e (w / 2 ^ 24 % 16) (fldSh w 19 5) (fldSh w 14 5) (fldSh w 0 14)
  | 0x2 => if w % 2 ^ 11 = 0 then decMul e (w / 2 ^ 24 % 16) (fldSh w 23 1) (fldSh w 18 5) (fldSh w 13 5) (fldSh w 11 2)
    else none
  | 0x3 => if w % 2 ^ 15 = 0 then some (.shTap e (fldSh w 27 1) (fldSh w 22 5) (fldSh w 17 5) (fldSh w 15 2)) else none
  | 0x4 => if w % 2 ^ 12 = 0 then decAcc e (w / 2 ^ 24 % 16) (fldSh w 23 1) (fldSh w 18 5) (fldSh w 12 6) else none
  | 0x5 =>
    match decMode w with
    | some m => decMem e (w / 2 ^ 25 % 8) m (fldSh w 18 5) (fldSh w 13 5)
    | none => none
  | 0x6 =>
    match w / 2 ^ 24 % 16 with
    | 0xE => some (.shCall e (fldSh w 0 24))
    | 0xF => if w % 2 ^ 24 = 0 then some (.shRet e) else none
    | _ => some (.shBcc e (fldSh w 24 4) (fldSh w 0 24))
  | 0x7 =>
    match w / 2 ^ 24 % 16 with
    | 0x0 => if w % 2 ^ 24 = 0 then some (.shNop e) else none
    | 0x1 => if w % 2 ^ 24 = 0 then some (.shEnd e) else none
    | 0x2 => if w % 2 ^ 12 = 0 then some (.shRep e (fldSh w 12 12)) else none
    | 0x3 => if w % 2 ^ 19 = 0 then some (.shRepx e (fldSh w 19 5)) else none
    | 0x4 => some (.shLoop e (fldSh w 12 12) (fldSh w 0 12))
    | _ => none
  | 0x8 => if w % 2 ^ 10 = 0 then decSys e (w / 2 ^ 24 % 16) (fldSh w 19 5) (fldSh w 14 5) (fldSh w 10 4) else none
  | 0xF =>
    if w % 2 ^ 14 = 0 then
      match w / 2 ^ 24 % 16 with
      | 0x0 => some (.shLdi e (fldSh w 19 5) (fldSh w 14 5) imm)
      | 0x1 => some (.shAddi32 e (fldSh w 19 5) (fldSh w 14 5) imm)
      | _ => none
    else none
  | _ => none

/-- The instruction a first word spells. None: ILLEGAL, a field value that R339 and R340 reject included. -/
def decodeSh (e : Fin 30) (w : Nat) (imm : W32) : Option Instr :=
  match decodeRaw e w imm with
  | some i => if shLegal i then some i else none
  | none => none

/-- Is the instruction of class 0x0 to 0x5, which REP may repeat (R342)? -/
def shRepeatable (i : Instr) : Bool :=
  match encodeSh i with
  | some (w, _) => w / 2 ^ 28 ≤ 5
  | none => false

/-- Worst-case execution time in units of 0.5 ns (R344). A branch counts as taken. -/
def shTime : Instr → Nat
  | .shDiv .. | .shDivu .. => 36
  | .shMpy .. | .shMac .. | .shMsu .. => 5
  | .shClr .. | .shExt .. | .shExtu .. | .shExtl .. | .shMvg .. | .shLdal .. | .shLdag .. | .shAdda .. | .shMova .. => 5
  | .shTap .. => 8
  | .shLdW .. | .shLdL .. | .shLda .. => 7
  | .shStW .. | .shStL .. | .shSta .. => 8
  | .shBcc .. | .shCall .. | .shRet .. | .shLdi .. | .shAddi32 .. => 6
  | .shTimr .. => 8
  | .shSend _ _ _ n => 12 + 4 * n.toNat
  | .shIold .. | .shIost .. => 80
  | _ => 4

end Sys2Proof.Machine
end

