-- ==== Sys2Proof/Machine/Shosto.lean ====
section
/-! DEFINITION. What each Shosto instruction does to the bank of its job and to data memory (R325 to R349). An operation
answers the device and bank after it and where the PC goes, or an exception (R345). -/

namespace Sys2Proof.Machine

/-- Causes of an exception (R345). -/
def excIllegal : Nat := 1
def excMisalign : Nat := 2
def excRange : Nat := 3
def excRstack : Nat := 4
def excSend : Nat := 5
def excEcc : Nat := 6
def excPcend : Nat := 7

/-- Where the PC goes after an instruction. -/
inductive ShPc where
  /-- To the following instruction word. -/
  | seq
  /-- Past the second word of the long form, or past an instruction skipped by REP or LOOP: this many bytes on. -/
  | skip (bytes : Nat)
  /-- To the following instruction, which runs this many times (REP). -/
  | rep (n : Nat)
  /-- A taken branch to a byte address. -/
  | jump (target : Int)
  /-- END. -/
  | stop
  deriving DecidableEq, Repr

/-- The outcome of one instruction: done, or an exception with its data address. -/
inductive ShOut where
  | ok (d : Dev) (b : Bank) (pc : ShPc)
  | exc (cause addr : Nat)

/-- What an instruction sees: engine, slot, whether the job is an extension job, clock, device and bank. -/
structure ShEnv where
  e : Nat
  slot : Nat
  ext : Bool
  shadow : Bool
  c : Clock
  d : Dev
  b : Bank

/-! Registers and flags. -/

/-- Register r of a bank; X0 reads zero (R325). -/
def Bank.xr (b : Bank) (r : BitVec 5) : W32 := if r = 0 then 0 else b.x.get (fun _ => 0) r.toNat

/-- Write register r; a write to X0 is ignored (R325). -/
def Bank.xw (b : Bank) (r : BitVec 5) (v : W32) : Bank := if r = 0 then b else { b with x := b.x.set (fun _ => 0) r.toNat v }

/-- Write a register pair X(d+1):Xd. -/
def Bank.xw2 (b : Bank) (r : BitVec 5) (v : Nat) : Bank := (b.xw r (BitVec.ofNat 32 v)).xw (r + 1) (BitVec.ofNat 32 (v / 2 ^ 32))

/-- A register pair as a 64-bit number. -/
def Bank.xr2 (b : Bank) (r : BitVec 5) : Nat := (b.xr r).toNat + (b.xr (r + 1)).toNat * 2 ^ 32

/-- Z and N from a result (R338). -/
def Bank.zn (b : Bank) (v : W32) : Bank := { b with z := v = 0, n := v.msb }

/-- Result written with Z and N (R338). -/
def Bank.setZn (b : Bank) (r : BitVec 5) (v : W32) : Bank := (b.xw r v).zn v

/-- Result of an addition with all flags (R338): C is the carry out, V the signed overflow. -/
def Bank.setAdd (b : Bank) (r : BitVec 5) (x y : W32) : Bank :=
  let v := x + y
  { (b.setZn r v) with c := 2 ^ 32 ≤ x.toNat + y.toNat, v := x.toInt + y.toInt ≠ v.toInt }

/-- Result of a subtraction with all flags (R338): C is no borrow. -/
def Bank.setSub (b : Bank) (r : BitVec 5) (x y : W32) : Bank :=
  let v := x - y
  { (b.setZn r v) with c := y.toNat ≤ x.toNat, v := x.toInt - y.toInt ≠ v.toInt }

/-- A saturated 32-bit result with SAT, Z and N (R337, R338). -/
def Bank.setSat (b : Bank) (r : BitVec 5) (x : Int) : Bank :=
  let s := satS 32 x
  let b1 := b.setZn r (BitVec.ofInt 32 s)
  { b1 with sat := b.sat || decide (s ≠ x) }

/-- Accumulator AC. -/
def Bank.acc (b : Bank) (ac : BitVec 1) : W72 := if ac = 0 then b.a0 else b.a1
def Bank.setAcc (b : Bank) (ac : BitVec 1) (v : W72) : Bank := if ac = 0 then { b with a0 := v } else { b with a1 := v }

/-- Accumulator arithmetic modulo 2^72; AV0 or AV1 is set when the exact result lies outside (R334). -/
def Bank.accTo (b : Bank) (ac : BitVec 1) (x : Int) : Bank :=
  let v := BitVec.ofInt 72 x
  let b1 := b.setAcc ac v
  let wrapped := decide (v.toInt ≠ x)
  if ac = 0 then { b1 with av0 := b.av0 || wrapped } else { b1 with av1 := b.av1 || wrapped }

/-- An operand of a product, signed or unsigned (R334). -/
def mulOperand (uns : Bool) (v : W32) : Int := if uns then (v.toNat : Int) else v.toInt

/-- The exact product under MD (R339). -/
def product (md : BitVec 2) (x y : W32) : Int :=
  mulOperand (md = 2 || md = 3) x * mulOperand (md = 1 || md = 3) y

/-- The convergently rounded right shift of R335. -/
def accShift (v : W72) (sh : Nat) : Int := roundDiv v.toInt (2 ^ sh)

/-- Circular buffer descriptor c. -/
def Bank.cb (b : Bank) (c : BitVec 2) : W32 := if c = 0 then b.cb0 else if c = 1 then b.cb1 else if c = 2 then b.cb2 else b.cb3

/-- circ(p, d, CB) as a 16-bit address (R333). -/
def circ (p : Nat) (off : Int) (cb : W32) : Nat :=
  let base : Int := (cb.toNat % 65536 : Nat)
  let len : Int := (cb.toNat / 65536 : Nat)
  uInt 16 (if len = 0 then p + off else base + ((p : Int) - base + off) % len)

/-- ST as MFS reads it (R326). -/
def Bank.st (b : Bank) (shadow : Bool) : W32 :=
  let bit (x : Bool) (k : Nat) : Nat := if x then 2 ^ k else 0
  BitVec.ofNat 32 (bit b.z 0 + bit b.n 1 + bit b.c 2 + bit b.v 3 + bit b.sat 4 + bit b.av0 5 + bit b.av1 6 +
    bit shadow 7 + bit b.loop.isSome 8)

/-- MTS to ST: BANK, LOOPA and the reserved bits ignore the write (R326). -/
def Bank.setSt (b : Bank) (w : W32) : Bank :=
  let bit (k : Nat) : Bool := w.toNat.testBit k
  { b with z := bit 0, n := bit 1, c := bit 2, v := bit 3, sat := bit 4, av0 := bit 5, av1 := bit 6 }

/-! Data memory. -/

/-- Host address of data address a of engine e (R327). -/
def dataAddr (e a : Nat) : Nat := 0x20010000 + 0x20000 * e + a

/-- May the job read (write) this data address (R328, R355)? -/
def canRead (ext : Bool) (a : Nat) : Bool := !ext || a < 0x0500 || 0xE000 ≤ a
def canWrite (ext : Bool) (a : Nat) : Bool := if ext then 0xE000 ≤ a else 0x0440 ≤ a

/-- A read of `z` bytes (4 or 8) at a data address: the value, or the cause of an exception. -/
def shRead (v : ShEnv) (a z : Nat) : Except (Nat × Nat) (Nat × Dev) :=
  if a % z ≠ 0 then .error (excMisalign, a)
  else if !canRead v.ext a then .error (excRange, a)
  else
    let h := dataAddr v.e a
    let r := v.d.rdWord h
    if r.bad then .error (excEcc, a)
    else
      let val := if z = 8 then r.data else r.data / 2 ^ (8 * (h % 8)) % 2 ^ 32
      .ok (val, v.d.noteCorrected v.c (h / 8 * 8) (v.d.jobUnit v.slot) r)

/-- May `z` bytes be written at a data address? The cause of the exception otherwise. -/
def shWriteOk (v : ShEnv) (a z : Nat) : Option (Nat × Nat) :=
  if a % z ≠ 0 then some (excMisalign, a)
  else if !canWrite v.ext a then some (excRange, a)
  else none

/-- Store at a data address that may be written (R331). -/
def Dev.shStore (d : Dev) (e a z val : Nat) : Dev :=
  if z = 8 then d.wr64 (dataAddr e a) (BitVec.ofNat 64 val) else d.wr32 (dataAddr e a) (BitVec.ofNat 32 val)

/-- The address an access uses and the pointer after it (R332). -/
def shAddr (b : Bank) (m : MemMode) (xp : BitVec 5) (z : Nat) : Nat × Option Nat :=
  let p := (b.xr xp).toNat
  match m with
  | .base off => (uInt 16 (p + off.toInt * z), none)
  | .post off => (p % 65536, some (uInt 16 (p + off.toInt * z)))
  | .circ cb off => (p % 65536, some (circ (p % 65536) (off.toInt * z) (b.cb cb)))
  | .index xq => ((p + (b.xr xq).toNat) % 65536, none)

/-- Write the pointer back (R332). -/
def Bank.ptr (b : Bank) (xp : BitVec 5) : Option Nat → Bank
  | some p => b.xw xp (BitVec.ofNat 32 p)
  | none => b

/-- A load: read, then the pointer, then the loaded value, which wins (R332). -/
def shLoad (v : ShEnv) (m : MemMode) (xp : BitVec 5) (z : Nat) (put : Bank → Nat → Bank) : ShOut :=
  let (a, p) := shAddr v.b m xp z
  match shRead v a z with
  | .error (cause, ad) => .exc cause ad
  | .ok (val, d) => .ok d (put (v.b.ptr xp p) val) .seq

/-- A store. -/
def shStore (v : ShEnv) (m : MemMode) (xp : BitVec 5) (z val : Nat) (fin : Bank → Bank) : ShOut :=
  let (a, p) := shAddr v.b m xp z
  match shWriteOk v a z with
  | some (cause, ad) => .exc cause ad
  | none => .ok (v.d.shStore v.e a z val) (fin (v.b.ptr xp p)) .seq

/-! Instructions. -/

/-- An ALU result. -/
def shAlu (v : ShEnv) (f : Bank → Bank) : ShOut := .ok v.d (f v.b) .seq

/-- How many of the bits below bit 31 equal bit 31 (NORM). -/
def normCount (x : W32) : Nat := ((List.range 31).filter fun i => x.getLsbD i = x.msb).length

/-- DIV: truncation toward zero, the stated results of a division by zero and of −2^31 / −1, with SAT (R337). -/
def Bank.divS (b : Bank) (r : BitVec 5) (x y : W32) : Bank :=
  if y = 0 then
    let q : W32 := if x = 0 then 0 else if x.msb then 0x80000000 else 0x7FFFFFFF
    { (b.setZn r q) with sat := true }
  else b.setSat r (x.toInt.tdiv y.toInt)

/-- DIVU. A zero dividend by zero yields 0 and sets SAT as every division by zero does (R337; log entry 9). -/
def Bank.divU (b : Bank) (r : BitVec 5) (x y : W32) : Bank :=
  if y = 0 then { (b.setZn r (if x = 0 then 0 else 0xFFFFFFFF)) with sat := true }
  else b.setZn r (BitVec.ofNat 32 (x.toNat / y.toNat))

/-- Shift counts of 32 or more yield 0, or the sign fill (R340). -/
def shlW (x : W32) (n : Nat) : W32 := x <<< n
def shrW (x : W32) (n : Nat) : W32 := x >>> n
def sraW (x : W32) (n : Nat) : W32 := x.sshiftRight n

/-- The branch condition (R341). -/
def branchTaken (b : Bank) (cond : BitVec 4) : Bool :=
  match cond.toNat with
  | 0x0 => true
  | 0x1 => b.z
  | 0x2 => !b.z
  | 0x3 => b.n != b.v
  | 0x4 => b.n == b.v
  | 0x5 => !b.z && (b.n == b.v)
  | 0x6 => b.z || (b.n != b.v)
  | 0x7 => !b.c
  | 0x8 => b.c
  | 0x9 => b.v
  | 0xA => !b.v
  | _ => b.sat

/-- A relative target. -/
def brTarget (b : Bank) (off : BitVec 24) : Int := (b.pc : Int) + 4 * off.toInt

/-- TAP (R343). -/
def shTapOp (v : ShEnv) (ac : BitVec 1) (xs xh : BitVec 5) (cb : BitVec 2) : ShOut :=
  let s := (v.b.xr xs).toNat % 65536
  let h := (v.b.xr xh).toNat % 65536
  match shRead v s 4 with
  | .error (cause, a) => .exc cause a
  | .ok (x, d1) =>
    match shRead { v with d := d1 } h 4 with
    | .error (cause, a) => .exc cause a
    | .ok (k, d2) =>
      let wr := circ s 4 (v.b.cb cb)
      match shWriteOk v wr 4 with
      | some (cause, a) => .exc cause a
      | none =>
        let p := (BitVec.ofNat 32 x).toInt * (BitVec.ofNat 32 k).toInt
        let b1 := v.b.accTo ac ((v.b.acc ac).toInt + p)
        let b2 := (b1.xw xs (BitVec.ofNat 32 (circ s (-4) (v.b.cb cb)))).xw xh (BitVec.ofNat 32 (uInt 16 ((h : Int) - 4)))
        .ok (d2.shStore v.e wr 4 x) b2 .seq

/-- Special register s (R326). -/
def shSpecial (v : ShEnv) (s : Nat) : W32 :=
  match s with
  | 0 => v.b.st v.shadow
  | 1 => v.b.cb0
  | 2 => v.b.cb1
  | 3 => v.b.cb2
  | 4 => v.b.cb3
  | 5 => BitVec.ofNat 32 (match v.b.loop with
      | some (_, _, n) => n
      | none => 0)
  | 6 => BitVec.ofNat 32 v.b.stack.length
  | _ => BitVec.ofNat 32 v.e

/-- MTS: the descriptors keep bits 1:0 and 17:16 at zero, and read-only numbers ignore the write (R326). -/
def Bank.setSpecial (b : Bank) (s : Nat) (w : W32) : Bank :=
  let m := w &&& 0xFFFCFFFC#32
  match s with
  | 0 => b.setSt w
  | 1 => { b with cb0 := m }
  | 2 => { b with cb1 := m }
  | 3 => { b with cb2 := m }
  | 4 => { b with cb3 := m }
  | _ => b

/-- The words SEND reads, and the device after the reads. -/
def shReadWords : Nat → ShEnv → Nat → Except (Nat × Nat) (List W64 × Dev)
  | 0, v, _ => .ok ([], v.d)
  | n + 1, v, a =>
    match shRead v (a % 65536) 8 with
    | .error x => .error x
    | .ok (w, d) =>
      match shReadWords n { v with d := d } (a + 8) with
      | .error x => .error x
      | .ok (ws, d) => .ok (BitVec.ofNat 64 w :: ws, d)

/-- SEND (R348): an extension job may send only 4 words with ADDR 0x00, KIND 0xD0 and a loop block's UNIT; EPOCH and SEQ are
the engine's. -/
def shSendOp (v : ShEnv) (xd : BitVec 5) (n : Nat) : ShOut :=
  let a := (v.b.xr xd).toNat % 65536
  match shReadWords n v a with
  | .error (cause, ad) => .exc cause ad
  | .ok ([], _) => .exc excIllegal 0
  | .ok (b :: ws, d) =>
    if !v.ext then
      .ok { d with fab := { d.fab with flight := d.fab.flight ++ [{ brand := b, words := ws }] } } v.b .seq
    else if brandAddr b ≠ 0 ∨ brandKind b ≠ 0xD0 ∨ brandUnit b < 0x40 ∨ 0x4F < brandUnit b ∨ n ≠ 4 then .exc excSend a
    else
      let key := 2 ^ 24 * (v.e + 1) + brandUnit b * 128 + 0x50
      let seq := d.fab.prodSeq.get (fun _ => 0) key
      let brand := mkBrand 0 (brandUnit b) 0xD0 (d.lane v.e).epoch seq (brandOffs b)
      .ok { d with fab := { d.fab with
          flight := d.fab.flight ++ [{ brand := brand, words := ws }]
          prodSeq := d.fab.prodSeq.set (fun _ => 0) key ((seq + 1) % 65536) } } v.b .seq

/-- Where the PC, REP and LOOP state stand after an instruction that answered `pc` (R341, R342). The Bool: the job goes on.
None: the PC leaves its region (RANGE). -/
def Bank.advance (b : Bank) (ext : Bool) (pc : ShPc) : Option Bank :=
  let go (b : Bank) (bytes : Nat) : Bank :=
    let p := b.pc + bytes
    match b.loop with
    | some (st, en, n) =>
      if p = en then (if n ≤ 1 then { b with pc := p, loop := none } else { b with pc := st, loop := some (st, en, n - 1) })
      else { b with pc := p }
    | none => { b with pc := p }
  match pc with
  | .stop => some b
  | .skip n => some (go { b with rep := none } n)
  | .rep n => some { go { b with rep := none } 4 with rep := some n }
  | .seq =>
    match b.rep with
    | some n => if 1 < n then some { b with rep := some (n - 1) } else some (go { b with rep := none } 4)
    | none => some (go b 4)
  | .jump t =>
    if t < (if ext then 0xC000 else 0) ∨ 0x10000 ≤ t then none
    else some { b with pc := t.toNat, loop := none, rep := none }

end Sys2Proof.Machine
end

