-- ==== Sys2Proof/Machine/Stride.lean ====
section
/-! DEFINITION. The Stride generator's pins and queue (R164 to R168) and its configuration (R172). -/

namespace Sys2Proof.Machine

/-- Least spacing of units in ns (R164). -/
def Dev.strSpacing (d : Dev) (s : Nat) : Nat :=
  let pw := 2 * d.get (STR_s_CFG_ACT_PW s)
  if d.get (STR_s_CFG_ACT_FORM s) = 1 then pw else 2 * pw

/-- Units queued for spacing. -/
def StrX.queued (y : StrX) : Nat := (y.out.filter fun o => o.2.2).length

/-- 24 ns before its edge instant a unit's instant is fixed (R165), a crossed one or the next by extrapolation: a unit closer than the
least spacing is queued, or lost behind 16 queued units (R167). -/
def Dev.strideFix (d : Dev) (c : Clock) (s : Nat) : Dev :=
  let y := d.strX s
  match y.pend ++ (d.strAhead s).toList with
  | [] => d
  | p :: rest =>
    let p0 := rest.foldl (fun m q => if q.t < m.t then q else m) p
    if c.ns + 24 < p0.t ∨ !d.portRuns (d.get (STR_s_CFG_ACT_SRC s)) then d else
    -- an extrapolated instant that the last edge has brought closer than 24 ns moves to the first tick 24 ns ahead
    let close := p0.extrap && decide (p0.t + 2 ≤ c.ns + 24)
    let p := if close then { p0 with t := (c.ns + 25) / 2 * 2 } else p0
    let y1 := { y with pend := y.pend.erase p0, u := if p.fwd then max y.u p.u else min y.u (p.u - 1) }
    let d00 := if p.extrap then d.setf (STR_s_STAT_EXTRAP s) else d
    let d0 := if close then d00.setf (STR_s_STAT_LAG s) else d00
    let least := match y.lastAt with
      | some t => t + d.strSpacing s
      | none => 0
    if least ≤ p.t then d0.setStrX s { y1 with out := y1.out ++ [(p.t, p.fwd, false)], lastAt := some p.t }
    else
      let d1 := (d0.setf (STR_s_STAT_LAG s)).reportLim c 68 (0x50 + s)
      if 16 ≤ y1.queued then
        (((d1.bump (STR_s_LOSTC_CNT s)).setf (STR_s_STAT_LOST s)).record c 69 (0x50 + s) 0).setStrX s y1
      else
        let y2 := { y1 with out := y1.out ++ [(least, p.fwd, true)], lastAt := some least }
        (d1.setStrX s y2).put (STR_s_STAT_QDEPTH s) y2.queued

/-- The levels of pins STRs_A and STRs_B (R164), none at high impedance (R169, R452, R457): in form 0 the direction changes PW ticks before
the first pulse of the new direction; POL inverts both, so a pin that returns to 0 then stands at level 1 (the model's choice, log
entry 86). -/
def Dev.stridePins (d : Dev) (c : Clock) (s : Nat) : Option (Bool × Bool) :=
  let y := d.strX s
  let pol := d.flag (STR_s_CFG_ACT_POL s)
  let units : List (Nat × Bool × Bool) := y.out ++ ((y.pend ++ (d.strAhead s).toList).map fun p => (p.t, p.fwd, false))
  let next : Option (Nat × Bool × Bool) := match units with
    | [] => none
    | o :: r => some (r.foldl (fun (m q : Nat × Bool × Bool) => if q.1 < m.1 then q else m) o)
  let b := if d.get (STR_s_CFG_ACT_FORM s) ≠ 0 then y.b
    else match next with
      | some (t, fwd, _) => if t ≤ c.ns + 2 * d.get (STR_s_CFG_ACT_PW s) then fwd else y.b
      | none => y.b
  if d.sharedZ then none else some (y.a != pol, b != pol)

/-- The next step of forward quadrature (R164). -/
def quadNext (a b : Bool) : Bool × Bool := (!b, a)

/-- A unit is emitted (R164); after the last fixed unit of a stopped output both pins return to 0 (R168). -/
def Dev.strideEmit (d : Dev) (c : Clock) (s : Nat) : Dev :=
  let y := d.strX s
  match y.out with
  | [] => d
  | (t, fwd, _) :: rest =>
    if c.ns < t then d else
    let form := d.get (STR_s_CFG_ACT_FORM s)
    let ends := some (t + 2 * d.get (STR_s_CFG_ACT_PW s))
    let q := quadNext y.a y.b
    let y1 : StrX :=
      if form = 0 then { y with a := true, b := fwd, pulseEnd := ends }
      else if form = 1 then
        (if y.stop ∧ rest.isEmpty then { y with a := false, b := false }
        else if fwd then { y with a := q.1, b := q.2 } else { y with a := y.b, b := !y.a })
      else if fwd then { y with a := true, pulseEnd := ends } else { y with b := true, pulseEnd := ends }
    let y2 := { y1 with out := rest }
    (d.setStrX s y2).put (STR_s_STAT_QDEPTH s) y2.queued

/-- A pulse ends (R164). -/
def Dev.stridePulseEnd (d : Dev) (c : Clock) (s : Nat) : Dev :=
  let y := d.strX s
  match y.pulseEnd with
  | none => d
  | some t =>
    if c.ns < t then d
    else
      let idle := y.stop && y.out.isEmpty
      let keepB := d.get (STR_s_CFG_ACT_FORM s) = 0 && !idle
      d.setStrX s { y with pulseEnd := none, a := false, b := y.b && keepB }

def execStrideEdgeFixed (s : Fin 8) (st : State) : Host.Outcome State Fault Refusal :=
  .next (st.onServing fun c d => d.strideFix c s)

def execStrideEdge (s : Fin 8) (st : State) : Host.Outcome State Fault Refusal :=
  .next (st.onServing fun c d => d.strideEmit c s)

def execStridePulseEnd (s : Fin 8) (st : State) : Host.Outcome State Fault Refusal :=
  .next (st.onServing fun c d => d.stridePulseEnd c s)

/-- STR_s_CTL.CMT: the group waits for the source port's next LATCH gate (R168); one whose SRC names no port is rejected at once
(R172). -/
def execStrideCommit (s : Fin 8) (st : State) : Host.Outcome State Fault Refusal :=
  .next (st.onServing fun _ d =>
    if d.get (STR_s_CFG_SRC s) < 24 then d.setf (STR_s_CTL_CMT s)
    else d.setf (if d.strZero s then STR_s_CTL_ZERO s else STR_s_CTL_CONFLICT s))

/-- str.cfg (R168, R172, R384). -/
def cmdStrCfg : CmdFn := fun _ tref q d =>
  let s := q.target.toNat - 0x50
  let ok := imageOk (fun a => strBase s ≤ a && a < strBase s + 0x1C) q.image
  let src := (d.atCommit (imageLead q tref) q.image).get (STR_s_CFG_SRC s)
  let t := d.firingAhead (24 + src) (imageLead q tref)
  let d1 := d.atCommit t q.image
  refuseIf [(decide (q.target.toNat < 0x50 ∨ 0x57 < q.target.toNat) || q.noImage, rcBadFormat), (d.isReleased 8 s, rcRegOwned),
      (ok && d1.strZero s, rcCfgZero), (!ok || d1.strConflict s, rcCfgConflict)] fun _ =>
    .accept t { d with
      imgs := d.imgs ++ [{ group := strBase s, from_ := imageLead q tref, due := t, pairs := q.image, work := some q.id }] }

def execStrCfg (q : Request) (s : State) : Host.Outcome State Fault Refusal := .next (s.command 0x010B cmdStrCfg q)

end Sys2Proof.Machine
end

