-- ==== Sys2Proof/Machine/Current.lean ====
section
/-! DEFINITION. The current job of a servo lane (R178 to R189, R351), start classes (R190 to R193), the brake law and overvoltage
response of the DC groups (R197 to R201), and CMDIN (R194 to R196). Currents and voltages are integers in units of 2^-30. -/

namespace Sys2Proof.Machine

/-- Word n of the inbox buffer of position `pos` that a job's snapshot names (R329, R330). -/
def Dev.inboxW (d : Dev) (e snap pos n : Nat) : Nat :=
  (d.rdWord (dataAddr e (0x80 * pos + 0x40 * (snap / 2 ^ pos % 2) + 8 * n))).data

/-- √3, rounded down at 2^-60. -/
def sqrt3 : Rat := mkRat (isqrt (3 * 2 ^ 120)) (2 ^ 60)

/-- √n to the nearest integer; exact, since no tie exists. -/
def roundSqrt (n : Nat) : Nat :=
  let r := isqrt n
  if r * r + r < n then r + 1 else r

/-- A rational in units of 2^-30, rounded convergently to s1.30; a value outside the format is free (R180; log entry 5). -/
def Dev.fitQ (d : Dev) (x : Rat) : Int × Dev := d.fit 32 (roundQ x)

/-- Sine and cosine of the vendor table: the true value and a free error of no more than 2^-24 (R180; log entry 17). -/
def Dev.vendorTrig (d : Dev) (v : Int) : Rat × Dev :=
  let (f, d') := d.takeFree
  let err : Int := f % (2 ^ 25 - 2 : Nat) - (2 ^ 24 - 1 : Nat)
  (mkRat (v + err) (2 ^ 48), d')

/-- What the current job reads of its period. -/
structure CurIn where
  l : Nat
  sk : Nat
  per : Nat
  iu : Int
  iv : Int
  iw : Int
  /-- Latched position in 2^-32 counts and velocity, s31.32. -/
  x : Int
  v : Int
  vdc : Int

/-- What it computes: on-times in eighths of a tick with their float flags, the report, and the exchange area's values. -/
structure CurOut where
  cu : Nat := 0
  cv : Nat := 0
  cw : Nat := 0
  float : Nat := 0
  id : Int := 0
  iq : Int := 0
  vd : Int := 0
  vq : Int := 0
  iqRef : Int := 0
  theta : Nat := 0
  depth : Bool := false
  vlim : Bool := false

/-- f_e in turns per second (R179). -/
def Dev.fElec (d : Dev) (l : Nat) (v : Int) : Rat :=
  if d.cpr l = 0 then 0 else mkRat (d.get (PWM_Lnn_CC_CFG_ACT_PP l) * v) (d.cpr l * 2 ^ 32)

/-- θ_e in u0.32 turns, truncated (R179). -/
def Dev.thetaE (d : Dev) (l : Nat) (x : Int) : Nat :=
  let cpr : Int := d.cpr l
  if cpr = 0 then d.get (PWM_Lnn_CC_ANGOFF_ACT_ANG l) else
  let xm := x % (cpr * 2 ^ 32)
  uInt 32 (d.get (PWM_Lnn_CC_CFG_ACT_PP l) * xm / cpr + d.get (PWM_Lnn_CC_ANGOFF_ACT_ANG l))

/-- θ_o (R179). -/
def Dev.thetaO (d : Dev) (l theta per : Nat) (v : Int) : Nat :=
  let adv := mkRat (d.get (PWM_Lnn_CC_MOD_ACT_ADV l)) (2 ^ 15) * d.fElec l v * mkRat (2 * per) 1000000000
  uInt 32 ((theta : Int) + roundQ (adv * (2 ^ 32 : Nat)))

/-- |v| > SPD counts per second, with v in s31.32. -/
def faster (v : Int) (spd : Nat) : Bool := decide (spd * 2 ^ 32 < v.natAbs)

/-- W = f_e / WBASE rounded to s1.30, 0 with WBASE 0 (R180, R192, R205). -/
def Dev.wRel (d : Dev) (l : Nat) (v : Int) : Int × Dev :=
  let wb := d.get (PWM_Lnn_CC_WBASE_ACT_WBASE l)
  if wb = 0 then (0, d) else d.fitQ (d.fElec l v / wb * (2 ^ 30 : Nat))

/-- An s15.16 gain times a quantity, rounded to s1.30. -/
def Dev.gain (d : Dev) (k x : Int) : Int × Dev := d.fitQ (mkRat (k * x) (2 ^ 16))

/-- Does the regeneration clamp act on a lane now (R199)? -/
def Dev.regenActs (d : Dev) (l : Nat) (v : Int) : Bool :=
  d.flag (PWM_Gg_BSTAT_REGEN (groupOf l)) && faster v (d.get (PWM_Lnn_CC_ZSPD_ACT_SPD l))

/-- i_q* clamped to the sign of f_e (R199). -/
def regenClamp (v iq : Int) : Int := if v < 0 then min iq 0 else max iq 0

/-- The current reference of a current job (R84, R91, R105): that of the velocity job, or with VDIV 0 the torque command, which no command and
no register of the spec sets: a free value (the model's choice, log entry 80). -/
def Dev.iqCommand (d : Dev) (l : Nat) : Int × Dev :=
  if d.get (PWM_Lnn_CYC_ACT_VDIV l) ≠ 0 then ((d.pwmX l).iqRef, d)
  else
    let (f, d1) := d.takeFree
    (sInt 32 (uInt 32 f), d1)

/-- ITRIM of lane l at its sample instant, in units of 2^-30 (R280, R281). -/
def Dev.iTrim (d : Dev) (l sk : Nat) : Int :=
  (List.range 16).foldl (fun n b =>
    if d.get (LPB_bb_CFG_ACT_DTYPE b) = 3 ∧ d.get (LPB_bb_DST_ACT_UNIT b) = l then
      match (d.loopX b).outs.find? fun o => o.at_ ≤ sk with
      | some o => n + roundQ (o.d * (2 ^ 30 : Nat))
      | none => n
    else n) 0

/-- PI and limit of one axis (R180 steps 5 to 7): the voltage, the integrator, and whether the limit acted. -/
def Dev.piAxis (d : Dev) (kp ki err n ff lim : Int) : (Int × Int × Bool × Int) × Dev :=
  let (p, d1) := d.gain kp err
  let (n1, d2) := d1.fitQ ((n : Rat) + mkRat (ki * err) (2 ^ 16))
  let (u, d3) := d2.fit 32 (p + n1 + ff)
  let v := clampI (-lim) lim u
  if v = u then ((v, n1, false, u), d3)
  else
    let (n2, d4) := d3.fit 32 (v - p - ff)
    ((v, n2, true, u), d4)

/-- The modulation of three phase voltages to on-times in eighths of a tick (R183). -/
def Dev.modulate (d : Dev) (l per : Nat) (vdc : Int) (dmin : Rat) (a b c : Rat) : Nat × Nat × Nat :=
  let one (dx : Rat) : Nat := (roundQ (dx * per * 8)).toNat
  if vdc ≤ 0 then (one (1 / 2), one (1 / 2), one (1 / 2)) else
  let lo := min a (min b c)
  let hi := max a (max b c)
  let s := (hi - lo) / vdc
  let m0 := (1 - s) / 2
  let m := if d.flag (PWM_Lnn_CC_CFG_ACT_SWIN l) then max m0 dmin else m0
  let duty (x : Rat) : Rat := max 0 (min 1 (m + (x - lo) / vdc))
  (one (duty a), one (duty b), one (duty c))

/-- Field-oriented control (R179 to R185), in the start class `cls` (R191). -/
def Dev.focJob (d : Dev) (s : CurIn) (cls : Nat) : CurOut × Dev :=
  let l := s.l
  let inj := decide (cls = 4)
  let te := if inj then 0 else d.thetaE l s.x
  let tho := if inj then 0 else d.thetaO l te s.per s.v
  let (ia, d) := d.fitQ (mkRat (2 * s.iu - s.iv - s.iw) 3)
  let (ib, d) := d.fitQ ((s.iv - s.iw : Int) * sqrt3 / 3)
  let (ce, d) := d.vendorTrig (cosT te)
  let (se, d) := d.vendorTrig (sinT te)
  let (id, d) := d.fitQ (ia * ce + ib * se)
  let (iq, d) := d.fitQ (ib * ce - ia * se)
  let base : CurOut := { id := id, iq := iq, theta := te }
  if cls = 3 then (base, d)
  else if cls = 5 then ({ base with float := 7 }, d)
  else
    let imax := d.getI (PWM_Lnn_CC_IMAX_ACT_I l)
    let ifw := if inj || !d.flag (PWM_Lnn_CC_CFG_ACT_FWEN l) then 0 else d.getI (PWM_Lnn_CC_IFW_VAL l)
    let idRef := clampI (-imax) imax (if inj then d.get (PWM_Lnn_CC_REV_ACT_IDCI l) * 2 ^ 14 else d.getI (PWM_Lnn_CC_IDREF_ACT_I l) + ifw)
    let iqLim : Int := roundSqrt (imax * imax - idRef * idRef).toNat
    let (cmd, d) := d.iqCommand l
    let iq0 := clampI (-iqLim) iqLim (cmd + d.iTrim l s.sk)
    let iqRef := if inj then 0 else if d.regenActs l s.v then regenClamp s.v iq0 else iq0
    let ff := d.flag (PWM_Lnn_CC_CFG_ACT_FF l)
    let (w, d) := if ff then d.wRel l s.v else (0, d)
    let (ffd, d) := if ff then d.fitQ (mkRat (-w * d.getI (PWM_Lnn_CC_XQ_ACT_X l) * iq) (2 ^ 46)) else (0, d)
    let (ffq, d) := if ff then d.fitQ (mkRat (w * (d.getI (PWM_Lnn_CC_XD_ACT_X l) * id + d.getI (PWM_Lnn_CC_EPSI_ACT_X l) * 2 ^ 30)) (2 ^ 46))
      else (0, d)
    let swin := d.flag (PWM_Lnn_CC_CFG_ACT_SWIN l)
    let dmin := if swin then d.dMin l (d.get (PWM_Lnn_CC_WIN_ACT_SGUARD l)) s.per else 0
    let mlim := mkRat (d.get (PWM_Lnn_CC_MOD_ACT_MLIM l)) (2 ^ 15)
    let mwin := 1 - dmin
    let (vl, d) := d.fitQ (min mlim mwin * s.vdc * sqrt3 / 3)
    let y := d.pwmX l
    let (rd, d) := d.piAxis (d.getI (PWM_Lnn_CC_KPD_ACT_K l)) (d.getI (PWM_Lnn_CC_KID_ACT_K l)) (idRef - id) y.nd ffd vl
    let (vd, nd, ld, ud) := rd
    let ql : Int := roundSqrt (vl * vl - vd * vd).toNat
    let (rq, d) := d.piAxis (d.getI (PWM_Lnn_CC_KPQ_ACT_K l)) (d.getI (PWM_Lnn_CC_KIQ_ACT_K l)) (iqRef - iq) y.nq ffq ql
    let (vq, nq, lq, uq) := rq
    let lim := ld || lq
    let idfw := d.getI (PWM_Lnn_CC_IDFW_ACT_I l)
    let (fwTerm, d) : Rat × Dev := if vl = 0 then (let (f, d') := d.takeFree; ((f : Rat), d')) else
      (mkRat (roundSqrt (ud * ud + uq * uq).toNat) 1 / vl - mkRat (d.get (PWM_Lnn_CC_FW_ACT_FWTHR l)) (2 ^ 15), d)
    let ifw' : Int := if inj || !d.flag (PWM_Lnn_CC_CFG_ACT_FWEN l) then 0
      else clampI idfw 0 (roundQ (ifw - mkRat (d.get (PWM_Lnn_CC_FW_ACT_KFW l)) (2 ^ 16) * fwTerm * (2 ^ 30 : Nat)))
    let (co, d) := d.vendorTrig (cosT tho)
    let (so, d) := d.vendorTrig (sinT tho)
    let (va, d) := d.fitQ (vd * co - vq * so)
    let (vb, d) := d.fitQ (vd * so + vq * co)
    let (pb, d) := d.fitQ ((-va : Int) / 2 + sqrt3 * vb / 2)
    let (pc, d) := d.fitQ ((-va : Int) / 2 - sqrt3 * vb / 2)
    let dt : Rat := if d.flag (PWM_Lnn_CC_CFG_ACT_DTC l) then s.vdc * mkRat (d.get (PWM_Lnn_DT_ACT_DT l)) s.per else 0
    let sg (i : Int) : Rat := (i.sign : Rat)
    let (cu, cv, cw) := d.modulate l s.per s.vdc dmin (va + sg s.iu * dt) (pb + sg s.iv * dt) (pc + sg s.iw * dt)
    let d := (d.setPwmX l { d.pwmX l with nd := nd, nq := nq, iqUsed := iqRef }).putI (PWM_Lnn_CC_IFW_VAL l) ifw'
    ({ base with cu := cu, cv := cv, cw := cw, vd := vd, vq := vq, iqRef := iqRef, vlim := lim, depth := (lim && swin && decide (mwin < mlim)) }, d)

/-- Phases of a sector (R187): positive, negative, floating; 0 is U. -/
def sectorPhases (s : Nat) : Nat × Nat × Nat :=
  match s with
  | 0 => (0, 1, 2)
  | 1 => (0, 2, 1)
  | 2 => (1, 2, 0)
  | 3 => (1, 0, 2)
  | 4 => (2, 0, 1)
  | _ => (2, 1, 0)

/-- Six-step drive (R186 to R189). -/
def Dev.sixStepJob (d : Dev) (s : CurIn) (cls : Nat) : CurOut × Dev :=
  let l := s.l
  let inj := decide (cls = 4)
  let te := if inj then 0 else d.thetaE l s.x
  let tho := if inj then 0 else d.thetaO l te s.per s.v
  let sec := if inj then 0
    else if d.flag (PWM_Lnn_CC_CFG_ACT_COMSRC l) then 6 * ((tho + d.get (PWM_Lnn_CC_COMADV_ACT_ANG l)) % 2 ^ 32) / 2 ^ 32
    else match hallIndex (d.fbkX l).hallK with
      | some i => (i + d.get (PWM_Lnn_CC_CFG_ACT_HOFF l)) % 6
      | none => d.get (PWM_Lnn_CC_STAT_SECTOR l)
  let d := d.put (PWM_Lnn_CC_STAT_SECTOR l) sec
  if cls = 3 then ({ theta := te }, d)
  else if cls = 5 then ({ theta := te, float := 7 }, d)
  else
    let imax := d.getI (PWM_Lnn_CC_IMAX_ACT_I l)
    let (cmd, d) := d.iqCommand l
    let ref := if inj then min ((d.get (PWM_Lnn_CC_REV_ACT_IDCI l) * 2 ^ 14 : Nat) : Int) imax
      else clampI (-imax) imax (cmd + d.iTrim l s.sk)
    let (p, n, _) := sectorPhases sec
    let (pos, neg) := if ref < 0 then (n, p) else (p, n)
    let phase (i : Nat) : Int := if i = 0 then s.iu else if i = 1 then s.iv else s.iw
    let cur := phase pos
    let vlim := roundQ (mkRat (d.get (PWM_Lnn_CC_MOD_ACT_MLIM l)) (2 ^ 15) * s.vdc)
    let (r, d) := d.piAxis (d.getI (PWM_Lnn_CC_KPQ_ACT_K l)) (d.getI (PWM_Lnn_CC_KIQ_ACT_K l)) (ref.natAbs - cur) (d.pwmX l).nq 0 vlim
    let (vq, nq, lim, _) := r
    let opposes := (decide (ref < 0) != decide (s.v < 0)) && decide (ref ≠ 0)
    let duty : Rat := if s.vdc ≤ 0 || (d.regenActs l s.v && opposes) then 0 else max 0 (min 1 ((vq : Rat) / s.vdc))
    let on := (roundQ (duty * s.per * 8)).toNat
    let c (i : Nat) : Nat := if i = pos then on else 0
    let fl := (List.range 3).foldl (fun m i => if i = pos ∨ i = neg then m else m + 2 ^ i) 0
    let d := d.setPwmX l { d.pwmX l with nq := nq, iqUsed := ref }
    let iq := if ref < 0 then -cur else cur
    ({ cu := c 0, cv := c 1, cw := c 2, float := fl, iq := iq, vq := vq, iqRef := ref, theta := te, vlim := lim }, d)

/-- Write the exchange area (R351). -/
def Dev.putExchange (d : Dev) (s : CurIn) (o : CurOut) : Dev :=
  let l := s.l
  let w (d : Dev) (a : Nat) (v : Int) : Dev := d.wr32 (dataAddr l a) (BitVec.ofInt 32 v)
  let d1 := [(0x440, s.iu), (0x444, s.iv), (0x448, s.iw), (0x44C, o.id), (0x450, o.iq), (0x454, o.vd), (0x458, o.vq),
    (0x45C, (o.theta : Int)), (0x460, s.vdc), (0x464, o.iqRef)].foldl (fun d (p : Nat × Int) => w d p.1 p.2) d
  match posWords s.x with
  | [a, b] => ((d1.wr64 (dataAddr l 0x468) a).wr64 (dataAddr l 0x470) b).wr64 (dataAddr l 0x478) (BitVec.ofInt 64 s.v)
  | _ => d1

/-- Slow jobs of lane l that run past their deadline: SLOW_MISS, and a reference that came late serves from now on (R102). -/
def Dev.slowLate (d : Dev) (c : Clock) (l : Nat) : Dev :=
  let late := (List.range 3).any fun i =>
    let j := 4 * l + 1 + i
    decide (d.jobState j = jobRun ∨ d.jobState j = jobPreempted) && decide (d.jobDeadline j < c.ns)
  let d1 := if late then d.setf (PWM_Lnn_CYC_STAT_SLOW_MISS l) else d
  match (d1.pwmX l).iqLate with
  | some i => d1.setPwmX l { d1.pwmX l with iqRef := i, iqLate := none }
  | none => d1

/-- A lane's jobs reach its outputs while it runs and no fault waits for its gate (R100). -/
def Dev.laneRuns (d : Dev) (l : Nat) : Bool := (d.lane l).state.running && !(d.lane l).faulted

/-- The current job's on-times into staging, through the lane's handshake, with the duty packet (R202, R214, R215). -/
def Dev.stageDuty (d : Dev) (c : Clock) (l : Nat) (o : CurOut) : Dev :=
  let fl (i : Nat) : Nat := if o.float.testBit i then 2 ^ 31 else 0
  let st (d : Dev) (f : Field) (v : Nat) : Dev := d.stageWrite c l f.addr (BitVec.ofNat 32 v)
  let d := st (st (st d (PWM_Lnn_CU_C l) (o.cu + fl 0)) (PWM_Lnn_CV_C l) (o.cv + fl 1)) (PWM_Lnn_CW_C l) (o.cw + fl 2)
  d.emit l 0x30 none 0 [BitVec.ofNat 64 (o.cu + o.cv * 2 ^ 32),
    BitVec.ofNat 64 (o.cw + o.float * 2 ^ 32 + if o.depth then 2 ^ 35 else 0)]

/-- What the current job of lane l does by its END (R178 to R189, R202, R217, R351): checks, control law, exchange area and report; on a lane
that runs, in a period without FL070 and FL071, staging, the duty and commit packets. -/
def Dev.currentJob (d : Dev) (c : Clock) (l : Nat) (snap : Nat) : Dev :=
  let wd (pos n : Nat) : Nat := d.inboxW l snap pos n
  let sk := (d.jobX (slotCurrent l)).inst
  let raw (i : Nat) : Int := if i = 0 then sInt 32 (wd 0 1) else if i = 1 then sInt 32 (wd 0 1 / 2 ^ 32) else sInt 32 (wd 0 2)
  let idle := (List.range 3).filter fun i => !d.flag (DSF_Cnn_CFG_ACT_EN (3 * l + i))
  let total := raw 0 + raw 1 + raw 2
  let one := decide (idle.length = 1)
  let cur (i : Nat) : Int := if one ∧ idle.contains i then raw i - total else raw i
  let vdc := max (sInt 32 (wd 3 1)) (d.getI (PWM_Gg_UVLIM_ACT_V (groupOf l)))
  let s : CurIn := {
    l := l, sk := sk, per := d.lanePer l, iu := cur 0, iv := cur 1, iw := cur 2
    x := sInt 64 (wd 1 1) * 2 ^ 32 + (wd 1 2 / 2 ^ 32 : Nat), v := sInt 64 (wd 1 3), vdc := vdc }
  let big := !one && decide (d.get (PWM_Lnn_CC_WIN_ACT_ISUM l) * 2 ^ 14 < total.natAbs)
  let sumc := if big then min 3 (d.get (PWM_Lnn_CC_STAT_SUMC l) + 1) else 0
  let d := d.put (PWM_Lnn_CC_STAT_SUMC l) sumc
  let peak := max s.iu.natAbs (max s.iv.natAbs s.iw.natAbs)
  let runs := d.laneRuns l
  let f70 := runs && decide (d.getI (PWM_Lnn_CC_IOC_ACT_I l) < peak)
  let f71 := runs && decide (sumc = 3)
  let cls := d.get (PWM_Lnn_CC_STAT_START l)
  let (o, d) := if d.get (PWM_Lnn_CC_CFG_ACT_CMODE l) = 1 then d.sixStepJob s cls else d.focJob s cls
  let d := ((((d.setf (PWM_Lnn_CC_STAT_VLIM l) o.vlim).setf (PWM_Lnn_CC_STAT_DEPTH l) o.depth).setf (PWM_Lnn_CC_STAT_FW l)
    (decide (d.getI (PWM_Lnn_CC_IFW_VAL l) < 0))).setf (PWM_Lnn_CC_STAT_REGEN l) (d.flag (PWM_Gg_BSTAT_REGEN (groupOf l))))
  let d := (((d.putI (PWM_Lnn_CC_ID_VAL l) o.id).putI (PWM_Lnn_CC_IQ_VAL l) o.iq).putI (PWM_Lnn_CC_VD_VAL l) o.vd).putI
    (PWM_Lnn_CC_VQ_VAL l) o.vq
  let d := d.putExchange s o
  let report (d : Dev) : Dev := d.emit l 0x31 none 0 [BitVec.ofNat 64 (uInt 32 o.id + uInt 32 o.iq * 2 ^ 32),
    BitVec.ofNat 64 (uInt 32 o.vd + uInt 32 o.vq * 2 ^ 32)]
  if f70 || f71 then
    let d := if f70 then ((report d).record c 70 l 0).laneFault c 70 l else report d
    (if f71 then (if f70 then d.record c 71 l 0 else (d.record c 71 l 0).laneFault c 71 l) else d).slowLate c l
  else if runs then ((report (d.stageDuty c l o)).emit l 0x01 (some (sk, 0)) 0 []).slowLate c l
  else report d

/-! Start classes (R190 to R193). -/

/-- v lies opposite to DIR. -/
def opposite (v dir : Int) : Bool := decide (dir ≠ 0) && decide (v.sign = -dir)

/-- The row of R191 a velocity meets. -/
def Dev.startClass (d : Dev) (l : Nat) (v dir : Int) : Nat :=
  let pol := d.get (PWM_Lnn_CC_CFG_ACT_REVPOL l)
  if !faster v (d.get (PWM_Lnn_CC_ZSPD_ACT_SPD l)) then 1
  else if !opposite v dir then (if !faster v (d.get (PWM_Lnn_CC_CATCH_ACT_SPD l)) then 2 else 5)
  else if !faster v (d.get (PWM_Lnn_CC_REVLIM_ACT_SPD l)) then 2
  else if pol = 1 then 3 else if pol = 2 then 4 else 5

/-- Enter a start class at s_k (R191, R192, R202): integrators, the flying preset, i_fw 0, the type 0x33 packet. -/
def Dev.enterClass (d : Dev) (l sk : Nat) (v : Int) (cls : Nat) : Dev :=
  let (w, d1) := if cls = 2 then d.wRel l v else (0, d)
  let (nq, d2) := if cls = 2 then d1.fitQ (mkRat (w * d1.getI (PWM_Lnn_CC_EPSI_ACT_X l)) (2 ^ 16)) else (0, d1)
  let six := d.get (PWM_Lnn_CC_CFG_ACT_CMODE l) = 1
  let nq' := if six then (nq.natAbs : Int) else nq
  let y := d2.pwmX l
  let d3 := d2.setPwmX l { y with nd := 0, nq := nq', velFirst := if cls = 2 then some v else none }
  let d4 := (d3.putI (PWM_Lnn_CC_IFW_VAL l) 0).setf (PWM_Lnn_CC_STAT_FW l) false
  ((d4.put (PWM_Lnn_CC_STAT_START l) cls).put (PWM_Lnn_CC_STAT_SUMC l) 0).emit l 0x33 (some (sk, 0)) 0
    [BitVec.ofNat 64 cls, BitVec.ofInt 64 v]

/-- No start within REVTMO of the enable, of a lane that is stopping too: FL073 (R193, R205). -/
def Dev.startTimeout (d : Dev) (c : Clock) (l : Nat) : Dev :=
  let x := d.lane l
  let cls := d.get (PWM_Lnn_CC_STAT_START l)
  if x.state.running ∧ !x.faulted ∧ 3 ≤ cls ∧ cls ≤ 5 ∧ x.enabledAt + d.get (PWM_Lnn_CC_REV_ACT_REVTMO l) * 1000000 ≤ c.ns then
    (d.record c 73 l 0).laneFault c 73 l
  else d

def execStartTimeout (l : Fin 24) (s : State) : Host.Outcome State Fault Refusal :=
  .next (s.onServing fun c d => d.startTimeout c l)

/-! Brake law and overvoltage (R197 to R201). -/

/-- A type 0x32 event of group g caused by the sample at instant t (R202). -/
def Dev.groupEvent (d : Dev) (t g ev : Nat) (v : Int) : Dev :=
  d.emit (0x68 + g) 0x32 (some (t, 0)) 0 [BitVec.ofNat 64 (ev + uInt 32 v * 2 ^ 32)]


/-- The chopper of group g has failed (R198, R199, R255): FC076, REGEN and CFAIL, chopper and BRKg off at once, the
discrete work of the group's slots discarded. -/
def Dev.chopperFailed (d : Dev) (c : Clock) (t g : Nat) (v : Int) : Dev :=
  if d.flag (PWM_Gg_BSTAT_CFAIL g) then d else
  let d1 := (((d.setf (PWM_Gg_BSTAT_CFAIL g)).setf (PWM_Gg_BSTAT_REGEN g)).setf (PWM_Gg_BSTAT_CHOP g) false).record c 76 (0x68 + g) 0
  let d2 := d1.setGroupX g { d1.groupX g with chopNext := false, carrier := none }
  let lost := (d2.work.filter fun w => w.opc / 256 = 2 && w.opc ≠ 0x0206 && (lanesOfGroup g).contains w.unit).map (·.id)
  ((d2.groupEvent t g 2 v).groupEvent t g 5 v).discard c 76 lost (lanesOfGroup g)

/-- What a DC-link voltage V of group g, sampled at instant t, does (R197 to R201). In MIRROR the law moves the shadow carrier only (R457,
R465). An undervoltage sends event 4 at the sample that sets UV (R202; the model's choice, log entry 91). -/
def Dev.linkLaw (d : Dev) (c : Clock) (t g : Nat) (v : Int) : Dev :=
  let x := d.groupX g
  let runs := match d.dst with
    | .ready | .run | .mirror => true
    | _ => false
  -- the brake law
  let law := d.flag (PWM_Gg_BCFG_ACT_BEN g) && runs && !d.flag (PWM_Gg_BSTAT_CFAIL g)
  let on := if !d.flag (PWM_Gg_BCFG_ACT_BEN g) then false else if !law then x.chopNext
    else if d.getI (PWM_Gg_BHI_ACT_V g) ≤ v then true
    else if v ≤ d.getI (PWM_Gg_BLO_ACT_V g) then false else x.chopNext
  let d1 := if on = x.chopNext then d
    else
      let e := d.setGroupX g { x with chopNext := on, onV := if on then v else x.onV }
      if d.dst = .mirror then e else e.groupEvent t g (if on then 0 else 1) v
  -- the rise test
  let y := d1.groupX g
  let rise := d1.flag (PWM_Gg_BSTAT_CHOP g) && decide (y.onAt + d.get (PWM_Gg_BCFG_ACT_BTIME g) * 1000 ≤ c.ns) &&
    decide (y.onV + d.getI (PWM_Gg_BRISE_ACT_V g) < v)
  let d2 := if rise then d1.chopperFailed c t g v else d1
  -- overvoltage
  let trip := decide (d.getI (PWM_Gg_OVTRIP_ACT_V g) ≤ v)
  let d3 := d2.setGroupX g { d2.groupX g with ovRun := trip, forced := trip }
  let d4 := if trip then (d3.setf (PWM_Gg_BSTAT_OVT g)).showGroup c g
    else { d3 with flt := { d3.flt with active := if x.ovRun then d3.flt.active.erase 77 else d3.flt.active } }
  let d5 := if trip && !x.ovRun then
      let act := (lanesOfGroup g).filter d.laneActive
      act.foldl (fun d u => d.laneFault c 77 u) ((d4.groupEvent t g 3 v).deviceFault c 77 (0x68 + g) 0 true)
    else d4
  -- undervoltage
  let low := (lanesOfGroup g).filter fun u => (d.lane u).state.running
  if v < d.getI (PWM_Gg_UVLIM_ACT_V g) then
    let d6 := d5.setf (PWM_Gg_BSTAT_UV g)
    let d7 := if d.flag (PWM_Gg_BSTAT_UV g) then d6 else d6.groupEvent t g 4 v
    low.foldl (fun d u => if (d.lane u).faulted then d.record c 78 u 0 else (d.record c 78 u 0).laneFault c 78 u) d7
  else d5

/-! Commit of a DC group (R204, R230). -/

def Dev.dcgZero (d : Dev) (g : Nat) : Bool :=
  (d.flag (PWM_Gg_BCFG_BISEN g) && d.get (PWM_Gg_BCFG_BIMIN g) = 0) || (d.flag (PWM_Gg_BCFG_BEN g) && d.get (PWM_Gg_BPWM_PER g) = 0)

def Dev.dcgConflict (d : Dev) (g : Nat) : Bool :=
  let v (f : Nat → Field) : Int := d.getI (f g)
  v PWM_Gg_BHI_V ≤ v PWM_Gg_BLO_V || v PWM_Gg_OVTRIP_V ≤ v PWM_Gg_BHI_V || v PWM_Gg_BLO_V ≤ v PWM_Gg_UVLIM_V ||
    d.get (PWM_Gg_BPWM_PER g) < d.get (PWM_Gg_BON_ON g)

/-- Base address of DC group g's window. -/
def groupBase (g : Nat) : Nat := 0x40047000 + 0x100 * g

/-- The commit of a DC group at its DC-link sample (R204, R230). -/
def Dev.dcgApply (d : Dev) (g : Nat) : Dev :=
  let d0 := d.setf (PWM_Gg_CTL_CMT g) false
  if d.dcgZero g then d0.setf (PWM_Gg_CTL_ZERO g)
  else if d.dcgConflict g then d0.setf (PWM_Gg_CTL_CONFLICT g)
  else d0.copyRegs (((List.range 6).map fun i => (groupBase g + 4 * i, groupBase g + 0x40 + 4 * i)) ++
    [(groupBase g + 0x80, groupBase g + 0xC0), (groupBase g + 0x84, groupBase g + 0xC4)])

def execGroupCommit (g : Fin 4) (s : State) : Host.Outcome State Fault Refusal :=
  .next (s.onServing fun _ d => d.setf (PWM_Gg_CTL_CMT g))

/-- dcg.cfg (R204, R382, R384). -/
def cmdDcgCfg : CmdFn := fun _ tref q d =>
  let g := q.target.toNat - 0x68
  let ok := imageOk (fun a => (groupBase g ≤ a && a < groupBase g + 0x18) || a = groupBase g + 0x80 || a = groupBase g + 0x84) q.image
  let t := d.firingAhead (84 + g) (imageLead q tref)
  let d1 := d.atCommit t q.image
  refuseIf [(decide (q.target.toNat < 0x68 ∨ 0x6B < q.target.toNat) || q.noImage, rcBadFormat), (d.anyReleased 4, rcRegOwned),
      (ok && d1.dcgZero g, rcCfgZero), (!ok || d1.dcgConflict g, rcCfgConflict)] fun _ =>
    .accept t { d with
      imgs := d.imgs ++ [{ group := groupBase g, from_ := imageLead q tref, due := t, pairs := q.image, work := some q.id }] }

def execDcgCfg (q : Request) (s : State) : Host.Outcome State Fault Refusal := .next (s.command 0x0106 cmdDcgCfg q)

/-- The level at pin FLT_Ng now, while PIN shows it asserted: no row of the table reports its release, so a free value tells whether it has
returned high (R224; log entry 81). -/
def Dev.fltSample (d : Dev) (g : Nat) : Dev :=
  let pin := d.get PWM_FLT_STAT_PIN
  if !pin.testBit g then d
  else
    let (f, d1) := d.takeFree
    if f % 2 = 0 then d1 else d1.put PWM_FLT_STAT_PIN (pin - 2 ^ g)

/-- dcg.clear (R200, R224): refused while V is at or above BLO or FLT_Ng is asserted. -/
def cmdDcgClear : CmdFn := fun c _ q d =>
  let g := q.target.toNat - 0x68
  let v := d.getI (SAR_Gg_VOLT_V g)
  refuseIf [(decide (q.target.toNat < 0x68 ∨ 0x6B < q.target.toNat) || decide (q.payload.length ≠ 0), rcBadFormat),
      (decide (d.getI (PWM_Gg_BLO_ACT_V g) ≤ v), rcBadState)] fun _ =>
    let d0 := d.fltSample g
    if (d0.get PWM_FLT_STAT_PIN).testBit g then .refuseIn rcBadState 31 0 d0
    else
      let lat := d0.get PWM_FLT_STAT_LAT
      let d1 := ((d0.setf (PWM_Gg_BSTAT_REGEN g) false).setf (PWM_Gg_BSTAT_CFAIL g) false).put PWM_FLT_STAT_LAT
        (if lat.testBit g then lat - 2 ^ g else lat)
      let d2 := if d0.flag (PWM_Gg_BSTAT_REGEN g) then d1.groupEvent c.ns g 6 v else d1
      .done {} (d2.showGroup c g)

def execDcgClear (q : Request) (s : State) : Host.Outcome State Fault Refusal := .next (s.command 0x0107 cmdDcgClear q)

/-- The brake reload gate GT(080 + g) fires (R197, R228): the law's state applies; a carrier starts or BRKg goes inactive. In MIRROR only the
shadow carrier of R465 follows, and in SAFE nothing starts. -/
def Dev.brakeReload (d : Dev) (g r : Nat) : Dev :=
  let y := d.groupX g
  let x := { y with turnAt := if y.carrier.isSome || y.chopNext then r else y.turnAt }
  let was := d.flag (PWM_Gg_BSTAT_CHOP g)
  if d.dst = .mirror then d.setGroupX g { x with carrier := if x.chopNext then some r else none }
  else if x.chopNext && decide (d.dst ≠ .safe) then
    ((d.setGroupX g { x with carrier := some r, onAt := if was then x.onAt else r }).setf (PWM_Gg_BSTAT_CHOP g)).bump
      (PWM_Gg_BONCNT_CNT g)
  else (d.setGroupX g { x with carrier := none }).setf (PWM_Gg_BSTAT_CHOP g) false

/-! CMDIN (R194 to R196). -/

/-- The command of input value x (R196). -/
def Dev.cmdinValue (d : Dev) (n x : Nat) : Int :=
  let dx : Int := (x : Int) - d.get (FBK_CMDc_OFFDB_OFF n)
  if dx.natAbs ≤ d.get (FBK_CMDc_OFFDB_DB n) then 0 else (dx * d.getI (FBK_CMDc_SCALE_SCALE n)).tdiv (2 ^ 16)

/-- A new input value. -/
def Dev.cmdinPut (d : Dev) (n x : Nat) : Dev := (d.put (FBK_CMDc_RAW_X n) x).putI (FBK_CMDc_VAL_CMD n) (d.cmdinValue n x)

/-- The command follows a write of OFF, DB, SCALE or MODE (R196, R205); a lost one stays 0. -/
def Dev.cmdinRefresh (d : Dev) (n : Nat) : Dev :=
  if d.flag (FBK_CMDc_RAW_LOST n) then d
  else d.putI (FBK_CMDc_VAL_CMD n) (d.cmdinValue n (d.get (FBK_CMDc_RAW_X n)))

/-- An accepted rising edge; `high` is the pulse's high time in ns between the last two rising edges (R195, R196). -/
def Dev.cmdinEdge (d : Dev) (c : Clock) (n high : Nat) : Dev :=
  let mode := d.get (FBK_CMDc_CFG_MODE n)
  if mode < 2 then d else
  let st := c.ns - 2 * d.get (FBK_CMDc_CFG_FILT n)
  let y := d.cmdX n
  let d0 := d.setf (FBK_CMDc_RAW_LOST n) false
  match y.lastEdge with
  | none =>
    let d1 := d0.setCmdX n { y with lastEdge := some st }
    if mode = 3 ∧ d.get (FBK_CMDc_FSPAN_FSPAN n) = 0 then d1.cmdinPut n 65535 else d1
  | some t0 =>
    let iv := st - t0
    let x := if iv = 0 then 65535
      else if mode = 2 then min 65535 (high * 65536 / iv)
      else if d.get (FBK_CMDc_FSPAN_FSPAN n) = 0 then 65535
      else min 65535 (1000000000 * 65536 / (iv * d.get (FBK_CMDc_FSPAN_FSPAN n)))
    (d0.setCmdX n { y with lastEdge := some st, interval := iv }).cmdinPut n x

def execCmdinEdge (n : Fin 8) (high : Nat) (s : State) : Host.Outcome State Fault Refusal :=
  .next (s.onServing fun c d => d.cmdinEdge c n high)

/-- The command converter updates the next input in turn, every 8 µs (R195). -/
def execCmdinConversion (code : BitVec 16) (s : State) : Host.Outcome State Fault Refusal :=
  .next (s.onServing fun _ d =>
    let n := d.cmdNext
    let d1 := { d with cmdNext := (n + 1) % 8 }
    if d.get (FBK_CMDc_CFG_MODE n) = 1 then d1.cmdinPut n (code.toNat % 4096 * 16) else d1)

/-- No rising edge for TMO (R196, R205). -/
def Dev.cmdinLost (d : Dev) (c : Clock) (n : Nat) : Dev :=
  let y := d.cmdX n
  let tmo := d.get (FBK_CMDc_CFG_TMO n) * 1000000
  let limit := if tmo = 0 then y.interval + 1 else tmo
  let since := y.lastEdge.getD 0
  if 2 ≤ d.get (FBK_CMDc_CFG_MODE n) ∧ !d.flag (FBK_CMDc_RAW_LOST n) ∧ since + limit ≤ c.ns then
    ((d.put (FBK_CMDc_VAL_CMD n) 0).setf (FBK_CMDc_RAW_LOST n)).record c 74 (d.get (FBK_CMDc_CFG_LANE n)) n
  else d

def execCmdinLost (n : Fin 8) (s : State) : Host.Outcome State Fault Refusal :=
  .next (s.onServing fun c d => d.cmdinLost c n)

/-- A write to FBK_CMDc_CFG, ignored in the three cases of R194. -/
def Dev.cmdinCfgWrite (d : Dev) (n : Nat) (v : W32) : Dev :=
  let mode := v.toNat % 4
  let lane := v.toNat / 16 % 32
  let old := d.get (FBK_CMDc_CFG_LANE n)
  let taken := (List.range 8).any fun k => decide (k ≠ n) && decide (d.get (FBK_CMDc_CFG_MODE k) ≠ 0) &&
    decide (d.get (FBK_CMDc_CFG_LANE k) = lane)
  let leaves := d.get (FBK_CMDc_CFG_MODE n) ≠ 0 && (mode = 0 || old ≠ lane)
  if (mode ≠ 0 && taken) || (d.lane lane).state.running || (leaves && (d.lane old).state.running) then d
  else (d.regStore (FBK_CMDc_CFG_MODE n).addr v).cmdinRefresh n

/-- Is an address in the CMDIN registers? -/
def isCmdinReg (a : Nat) : Bool := 0x40073800 ≤ a && a < 0x40073900

/-- A write to a CMDIN register (R194, R196). -/
def Dev.cmdinWrite (d : Dev) (a : Nat) (v : W32) : Dev :=
  let n := a % 0x100 / 0x20
  if a % 0x20 = 0 then d.cmdinCfgWrite n v else (d.regStore a v).cmdinRefresh n

/-- cmdin.cfg (R194, R382). -/
def cmdCmdinCfg : CmdFn := fun _ _ q d =>
  let n := q.target.toNat
  let ok := imageOk isCmdinReg q.image
  refuseIf [(decide (24 ≤ n) || q.noImage, rcBadFormat), (d.isReleased 7 n, rcRegOwned), (!ok, rcCfgConflict)] fun _ =>
    .done {} (q.image.foldl (fun d p => d.cmdinWrite p.1 (BitVec.ofNat 32 p.2)) d)

def execCmdinCfg (q : Request) (s : State) : Host.Outcome State Fault Refusal := .next (s.command 0x010C cmdCmdinCfg q)

/-- The CMDIN bound to a lane, if any (R194). -/
def Dev.cmdinOf (d : Dev) (l : Nat) : Option Nat :=
  (List.range 8).find? fun n => d.get (FBK_CMDc_CFG_MODE n) ≠ 0 && d.get (FBK_CMDc_CFG_LANE n) = l

end Sys2Proof.Machine
end

