-- ==== Sys2Proof/Machine/Converters.lean ====
section
/-! DEFINITION. The delta-sigma filter bank (R107 to R124, R614) and the SAR cluster (R125 to R135, R615), with the LATCH gate, which
holds the SAR pairs. -/

namespace Sys2Proof.Machine

/-! Modulator clocks (R107 to R109). -/

/-- Start instant of modulator clock m while it runs. -/
def Dev.clockStart (d : Dev) (m : Nat) : Option Nat := d.dsck.get (fun _ => none) m

/-- The comparator ignores its first outputs (R117). -/
def Dev.dsfIgnore (d : Dev) (ch : Nat) : Dev :=
  d.setDsfX ch { d.dsfX ch with ignore := (d.get (DSF_Cnn_CMP_ACT_CORD ch) + 1) * d.get (DSF_Cnn_CMP_ACT_COSR ch) }

/-- A modulator clock runs while a lane it serves is ARMED, ENABLED or STOPPING, or under FORCE (R109). -/
def Dev.refreshClock (d : Dev) (c : Clock) (m : Nat) : Dev :=
  let on := d.flag (DSF_CKm_CFG_FORCE m) || (List.range 4).any fun i => d.laneActive (4 * m + i)
  let was := (d.clockStart m).isSome
  if on = was then d
  else
    let d1 := { d with dsck := d.dsck.set (fun _ => none) m (if on then some c.ns else none) }
    let d2 := d1.setf (DSF_CKm_CFG_RUN m) on
    if on then (List.range 12).foldl (fun d i => d.dsfIgnore (12 * m + i)) d2 else d2

/-- A write to DSF_CKm_CFG (R109): DIV only with an even value from 20 to 100 while every lane of the clock is DISABLED. -/
def Dev.dsfCkWrite (d : Dev) (c : Clock) (m : Nat) (v : W32) : Dev :=
  let div := v.toNat % 128
  let ok := decide (div % 2 = 0 ∧ 20 ≤ div ∧ div ≤ 100) && (List.range 4).all fun i => decide ((d.lane (4 * m + i)).state = .disabled)
  let d1 := if ok then d.put (DSF_CKm_CFG_DIV m) div else d
  (d1.setf (DSF_CKm_CFG_FORCE m) (v.toNat.testBit 7)).refreshClock c m

/-- A write to the registers of excitation output m: ignored while a resolver lane of converter m is not DISABLED, or with EXHP
outside 12,500 to 125,000 (R152). -/
def Dev.excWrite (d : Dev) (m a : Nat) (v : W32) : Dev :=
  let busy := (List.range 6).any fun j => decide (d.fbMode (6 * m + j) = fbResolver ∧ (d.lane (6 * m + j)).state ≠ .disabled)
  let hp := v.toNat % 2 ^ 17
  if busy ∨ (a = (FBK_EXCm_CFG_EXHP m).addr ∧ (hp < 12500 ∨ 125000 < hp)) then d else d.regStore a v

/-! The main filter (R111, R112, R614). -/

/-- Clock period T of a channel in ns. -/
def Dev.dsfT (d : Dev) (ch : Nat) : Nat := 2 * d.get (DSF_CKm_CFG_DIV (ch / 12))

/-- From the centre of a result to the end of its window, in ns (R111). -/
def Dev.dsfHalf (d : Dev) (ch : Nat) : Nat :=
  let n := d.get (DSF_Cnn_CFG_ACT_ORDER ch)
  (n * d.get (DSF_Cnn_CFG_ACT_OSR ch) - n / 2 + (n - 1) / 2) * d.get (DSF_CKm_CFG_DIV (ch / 12))

/-- c − g of the window a sample gate at g uses: the nearest centre, the later of two (R111). -/
def Dev.dsfAlign (d : Dev) (ch g : Nat) : Int :=
  let t : Int := d.dsfT ch
  let off : Int := if d.flag (DSF_Cnn_CFG_ACT_EDGE ch) then t / 2 else 0
  let x := (off - d.dsfHalf ch - g) % t
  if t = 0 then 0 else if 2 * x ≤ t then x else x - t

/-- The time e_L of the last bit of that window. -/
def Dev.dsfEnd (d : Dev) (ch g : Nat) : Nat := ((g : Int) + d.dsfAlign ch g + d.dsfHalf ch).toNat

/-- Length of the window in ns. -/
def Dev.dsfLen (d : Dev) (ch : Nat) : Nat := d.get (DSF_Cnn_CFG_ACT_ORDER ch) * d.get (DSF_Cnn_CFG_ACT_OSR ch) * d.dsfT ch

/-- The window holds W bits taken since the start of the clock and the last restart of the bitstream (R614). -/
def Dev.dsfFull (d : Dev) (ch g : Nat) : Bool :=
  match d.clockStart (ch / 12) with
  | none => false
  | some t => decide (max t (d.dsfX ch).restart + d.dsfLen ch ≤ d.dsfEnd ch g + d.dsfT ch)

/-- OFFS and GAIN of a window that opened at an instant (R115). -/
def Dev.dsfScale (d : Dev) (ch opened : Nat) : W32 × W32 :=
  match (d.dsfX ch).old.find? fun o => opened ≤ o.1 with
  | some o => o.2
  | none => (d.reg (DSF_Cnn_OFFS_ACT_OFFS ch).addr, d.reg (DSF_Cnn_GAIN_ACT_GAIN ch).addr)

/-- A result from the weighted count of ones (R112): I in s1.30 and whether it saturated. -/
def dsfValue (order osr a : Nat) (offs gain : W32) : Int × Bool :=
  let full := osr ^ order
  let a := min a full
  let x := mkRat (2 * (a : Int) - full) full * (2 ^ 30 : Nat) - offs.toInt
  let i := roundQ (x * mkRat gain.toInt (2 ^ 28))
  (satS 32 i, decide (satS 32 i ≠ i))

/-- A result into its register (R112, R123). -/
def Dev.dsfPut (d : Dev) (ch : Nat) (i : Int) (sat : Bool) (align : Int) : Dev :=
  let x := d.dsfX ch
  let d1 := if x.unread then d.setf (DSF_Cnn_STAT_OVR ch) else d
  let d2 := if sat then d1.setf (DSF_Cnn_STAT_SAT ch) else d1
  ((d2.putI (DSF_Cnn_RES_I ch) i).putI (DSF_Cnn_STAT_ALIGN ch) align).setDsfX ch { x with unread := true }

/-- The windows of a lane's sample gate close (R111, R112, R122, R123, R614): a type 0x10 packet when every enabled channel has a
full window. With one channel short of it, no RES of the lane is updated for the gate (the model's choice, log entry 85). ALIGN of the
packet is that of the first enabled channel. -/
def Dev.dsfResult (d : Dev) (c : Clock) (l : Nat) (w : DsfWindow) : Dev :=
  let g := (d.gateX l).last
  let chs := ((List.range 3).map (3 * l + ·)).filter fun ch => d.flag (DSF_Cnn_CFG_ACT_EN ch)
  if g = 0 ∨ chs.isEmpty ∨ (d.dsfX (3 * l)).forGate = some g ∨ (chs.any fun ch => decide (c.ns < d.dsfEnd ch g + 40)) then d else
  let d0 := d.setDsfX (3 * l) { d.dsfX (3 * l) with forGate := some g }
  if !chs.all fun ch => d.dsfFull ch g then d0 else
  let count (i : Nat) : Nat := if i = 0 then w.u else if i = 1 then w.v else w.w
  let res (i : Nat) : Int × Bool :=
    let ch := 3 * l + i
    if !chs.contains ch then (0, false)
    else
      let (offs, gain) := d.dsfScale ch (d.dsfEnd ch g - d.dsfLen ch)
      dsfValue (d.get (DSF_Cnn_CFG_ACT_ORDER ch)) (d.get (DSF_Cnn_CFG_ACT_OSR ch)) (count i) offs gain
  let d1 := chs.foldl (fun d ch =>
    let r := res (ch - 3 * l)
    let d' := d.dsfPut ch r.1 r.2 (d0.dsfAlign ch g)
    if r.2 then d'.record c 51 l ch else d') d0
  let bit (i : Nat) : Nat := if (res i).2 then 2 ^ (32 + i) else 0
  d1.emit l 0x10 none 0 [BitVec.ofNat 64 (uInt 32 (res 0).1 + uInt 32 (res 1).1 * 2 ^ 32),
    BitVec.ofNat 64 (uInt 32 (res 2).1 + bit 0 + bit 1 + bit 2 + uInt 16 (d0.dsfAlign (d0.laneChan l) g) * 2 ^ 48)]

def execDsfResult (l : Fin 24) (w : DsfWindow) (s : State) : Host.Outcome State Fault Refusal :=
  .next (s.onServing fun c d => d.dsfResult c l w)

/-! Commit of a lane's filter settings (R115, R116). -/

/-- CFG_ZERO checks of lane l's staged channels (R116). A GAIN of 0 is rejected in a channel with EN = 0 as well: the table and R137
reject it without condition, although the rule's last sentence stores the main filter fields of such a channel unchecked (the model's
choice, log entry 85). -/
def Dev.dsfZero (d : Dev) (l : Nat) : Bool :=
  ((List.range 3).map (3 * l + ·)).any fun ch =>
    (d.flag (DSF_Cnn_CFG_EN ch) && (d.get (DSF_Cnn_CFG_ORDER ch) = 0 || d.get (DSF_Cnn_CFG_OSR ch) = 0)) ||
      d.get (DSF_Cnn_GAIN_GAIN ch) = 0 ||
      (d.flag (DSF_Cnn_CMP_CEN ch) && (d.get (DSF_Cnn_CMP_CORD ch) = 0 || d.get (DSF_Cnn_CMP_COSR ch) = 0))

/-- A change that restarts a channel's bitstream (R115). -/
def Dev.dsfRestarts (d : Dev) (ch : Nat) : Bool :=
  d.reg (DSF_Cnn_CFG_EN ch).addr ≠ d.reg (DSF_Cnn_CFG_ACT_EN ch).addr

/-- CFG_CONFLICT checks of lane l's staged channels, the lane in state `st` (R114, R116, R118, R184). A change of ORDER, OSR or EDGE of a
channel with EN = 0, staged and in force, is rejected as well while the lane is ENABLED or STOPPING: the table and R115 reject it, the
rule's last sentence stores such fields unchecked (the model's choice, log entry 85). -/
def Dev.dsfConflict (d : Dev) (l : Nat) (st : LaneState) : Bool :=
  let chs := (List.range 3).map (3 * l + ·)
  let en := chs.filter fun ch => d.flag (DSF_Cnn_CFG_EN ch)
  let swin := d.flag (PWM_Lnn_CC_CFG_ACT_SWIN l) && (match en with
    | [] => false
    | ch :: _ => decide (1 ≤ d.dMinOf l (d.get (DSF_Cnn_CFG_ORDER ch) * d.get (DSF_Cnn_CFG_OSR ch)) (d.get (PWM_Lnn_CC_WIN_ACT_SGUARD l))
        (d.shortPer l)))
  let div := d.get (DSF_CKm_CFG_DIV (l / 4))
  let one (ch : Nat) : Bool :=
    let order := d.get (DSF_Cnn_CFG_ORDER ch)
    let osr := d.get (DSF_Cnn_CFG_OSR ch)
    let cord := d.get (DSF_Cnn_CMP_CORD ch)
    let cosr := d.get (DSF_Cnn_CMP_COSR ch)
    (d.flag (DSF_Cnn_CFG_EN ch) && (4 < order || osr < 4 || 256 < osr || d.shortPer l < order * osr * div)) ||
      (d.flag (DSF_Cnn_CMP_CEN ch) && (3 < cord || cosr < 4 || 32 < cosr || 2000 < (cord + 1) * cosr * 2 * div + 40 ||
        decide (d.getI (DSF_Cnn_THR_HI ch) ≤ d.getI (DSF_Cnn_THR_LO ch)) || d.get (DSF_Cnn_CMP_ACT ch) = 3)) ||
      (st.running && d.dsfRestarts ch)
  (chs.any one) || swin || (match en with
    | [] => false
    | a :: r => r.any fun b => d.get (DSF_Cnn_CFG_ORDER a) ≠ d.get (DSF_Cnn_CFG_ORDER b) ||
        d.get (DSF_Cnn_CFG_OSR a) ≠ d.get (DSF_Cnn_CFG_OSR b))

/-- The commit of lane l's three channels (R115, R116). -/
def Dev.dsfCommit (d : Dev) (c : Clock) (l : Nat) : Dev :=
  let d0 := d.setf (DSF_Lnn_CTL_CMT l) false
  if d.dsfZero l then d0.setf (DSF_Lnn_CTL_ZERO l)
  else if d.dsfConflict l (d.lane l).state then d0.setf (DSF_Lnn_CTL_CONFLICT l)
  else ((List.range 3).map (3 * l + ·)).foldl (fun d ch =>
    let b := (DSF_Cnn_CFG_EN ch).addr
    let x := d.dsfX ch
    let again := d.differs (DSF_Cnn_CMP_CORD ch) (DSF_Cnn_CMP_ACT_CORD ch) || d.differs (DSF_Cnn_CMP_COSR ch) (DSF_Cnn_CMP_ACT_COSR ch)
    let y : DsfX := if d.dsfRestarts ch then { x with restart := c.ns, old := [], cmpOld := [] }
      else { x with
        old := (x.old.filter fun o => c.ns < o.1 + 2 * d.dsfLen ch) ++
          [(c.ns, d.reg (DSF_Cnn_OFFS_ACT_OFFS ch).addr, d.reg (DSF_Cnn_GAIN_ACT_GAIN ch).addr)]
        cmpOld := (x.cmpOld.filter fun o => c.ns < o.1 + 192 * d.dsfT ch) ++
          [(c.ns, d.reg (DSF_Cnn_CMP_ACT_CEN ch).addr, d.reg (DSF_Cnn_THR_ACT_HI ch).addr)] }
    let d1 := (d.setDsfX ch y).copyRegs ((List.range 5).map fun i => (b + 4 * i, b + 0x20 + 4 * i))
    if again then d1.dsfIgnore ch else d1) d0

def execDsfCommit (l : Fin 24) (s : State) : Host.Outcome State Fault Refusal := .next (s.onServing fun c d => d.dsfCommit c l)

/-- A read of DSF_Cnn_RES marks the result as read (R123). -/
def execDsfResRead (ch : Fin 72) (s : State) : Host.Outcome State Fault Refusal :=
  .next (s.onServing fun _ d => d.setDsfX ch { d.dsfX ch with unread := false })

/-! The comparator (R117 to R121) and the stuck bitstream (R124). -/

/-- A trip of unit u (R119, R120): a transfer of this very tick is taken back, the lane counts as faulted, its pins follow the table of
R221 at once. -/
def Dev.trip (d : Dev) (c : Clock) (u : Nat) : Dev :=
  let d1 := ((d.undoReload c u).setLane u { d.lane u with trip := true }).record c 50 u 0
  (d1.laneFault c 50 u).showUnit c u

/-- y of a comparator output from the weighted count of ones, s0.15 (R117). -/
def cmpValue (order osr a : Nat) : Int :=
  let full := osr ^ order
  satS 16 (roundQ (mkRat ((2 * (min a full : Nat) - (full : Int)) * 2 ^ 15) full))

/-- The time of the bit after which a channel yields its n-th comparator output: bit n × COSR − 1 (R110, R117). -/
def Dev.cmpBitAt (d : Dev) (ch n : Nat) : Nat :=
  (n * d.get (DSF_Cnn_CMP_ACT_COSR ch) - 1) * d.dsfT ch + if d.flag (DSF_Cnn_CFG_ACT_EDGE ch) then d.dsfT ch / 2 else 0

/-- Bits in a window of the comparator filter (R117). -/
def Dev.cmpLen (d : Dev) (ch : Nat) : Nat := d.get (DSF_Cnn_CMP_ACT_CORD ch) * (d.get (DSF_Cnn_CMP_ACT_COSR ch) - 1) + 1

/-- The number of the comparator output that is due (R115, R117): of the last bit of its grid, sampled since the clock started, with no bit
of its window from before the bitstream's restart, and not taken before. -/
def Dev.cmpDue (d : Dev) (c : Clock) (ch : Nat) : Option Nat :=
  let t := d.dsfT ch
  let off := if d.flag (DSF_Cnn_CFG_ACT_EDGE ch) then t / 2 else 0
  let n := ((c.ns - off) / t + 1) / d.get (DSF_Cnn_CMP_ACT_COSR ch)
  match d.clockStart (ch / 12) with
  | none => none
  | some t0 =>
    if c.ns < off ∨ t = 0 ∨ n = 0 ∨ n = (d.dsfX ch).cmpN ∨ d.cmpBitAt ch n < max t0 ((d.dsfX ch).restart + (d.cmpLen ch - 1) * t) then none
    else some n

/-- DSF_Cnn_CMP and THR for the comparator window that ends with output n: those in force when it opened (R115). -/
def Dev.cmpWords (d : Dev) (ch n : Nat) : W32 × W32 :=
  match (d.dsfX ch).cmpOld.find? fun o => d.cmpBitAt ch n ≤ o.1 + d.cmpLen ch * d.dsfT ch with
  | some o => o.2
  | none => (d.reg (DSF_Cnn_CMP_ACT_CEN ch).addr, d.reg (DSF_Cnn_THR_ACT_HI ch).addr)

/-- A comparator output with weighted count `a` of ones (R117, R119, R120, R121). -/
def Dev.comparator (d0 : Dev) (c : Clock) (ch a : Nat) : Dev :=
  match d0.cmpDue c ch with
  | none => d0
  | some n =>
  let l := ch / 3
  let x : DsfX := { d0.dsfX ch with cmpN := n }
  let d := d0.setDsfX ch x
  let (cmp, thr) := d0.cmpWords ch n
  if !(d.laneActive l) || (DSF_Cnn_CMP_ACT_CEN ch).of cmp = 0 then d
  else if x.ignore ≠ 0 then d.setDsfX ch { x with ignore := x.ignore - 1 }
  else
    let y := cmpValue (d.get (DSF_Cnn_CMP_ACT_CORD ch)) (d.get (DSF_Cnn_CMP_ACT_COSR ch)) a
    let hi := decide (sInt 16 ((DSF_Cnn_THR_ACT_HI ch).of thr) ≤ y)
    let lo := decide (y ≤ sInt 16 ((DSF_Cnn_THR_ACT_LO ch).of thr))
    if d.flag (DSF_Cnn_STAT_TRIP ch) || !(hi || lo) then d
    else
      let act := (DSF_Cnn_CMP_ACT_ACT ch).of cmp
      let d1 := (d.setf (DSF_Cnn_STAT_TRIP ch)).emit l 0x11 (some (c.ns, c.frac)) 0
        [BitVec.ofNat 64 (ch + (if hi then 0 else 1) * 2 ^ 8 + act * 2 ^ 9)]
      match act with
      | 0 => d1.record c 54 l ch
      | 1 => d1.trip c l
      | 2 => (lanesOfGroup (groupOf l)).foldl (fun d u => d.trip c u) d1
      | _ => d1

def execComparatorOutput (ch : Fin 72) (a : BitVec 16) (s : State) : Host.Outcome State Fault Refusal :=
  .next (s.onServing fun c d => d.comparator c ch a.toNat)

/-- 256 equal bits (R124): only a clock that runs samples the bitstream. The level does not matter. An idle channel (EN = 0) judges its
bitstream like any other (the model's choice, log entry 85). -/
def execModStuck (ch : Fin 72) (_level : Bool) (s : State) : Host.Outcome State Fault Refusal :=
  .next (s.onServing fun c d =>
    if (d.clockStart (ch.val / 12)).isNone then d else
    let d1 := d.setf (DSF_Cnn_STAT_STUCK ch)
    let l := ch.val / 3
    if d1.laneActive l then (d1.record c 52 l ch.val).laneFault c 52 l else d1)

/-! Holds and conversions (R128 to R131). -/

/-- Is SAR converter m enabled (R615)? -/
def Dev.sarOn (d : Dev) (m : Nat) : Bool := (d.get SAR_CTRL_EN).testBit m

/-- Show HELD and BUSY of a converter. -/
def Dev.sarShow (d : Dev) (m : Nat) : Dev :=
  let x := d.sarX m
  (d.put (SAR_CVm_STAT_HELD m) x.held.length).setf (SAR_CVm_STAT_BUSY m) (!x.held.isEmpty || !x.seqs.isEmpty)

/-- Do `n` samples find free hold stages on converter m? -/
def Dev.sarRoom (d : Dev) (m n : Nat) : Bool := (d.sarX m).held.length + n ≤ 4

/-- A gate found too few free stages (R128). -/
def Dev.sarDrop (d : Dev) (c : Clock) (m unit : Nat) : Dev := (d.setf (SAR_CVm_STAT_DROP m)).record c 56 unit m

/-- Hold samples on a converter. -/
def Dev.sarHold (d : Dev) (m : Nat) (hs : List (Nat × Nat × SarHold)) : Dev :=
  (d.setSarX m { d.sarX m with held := (d.sarX m).held ++ hs }).sarShow m

/-- A code of a sample held at `t` into SAR_CVm_RESc (R131). -/
def Dev.sarStore (d : Dev) (m ch t code : Nat) : Dev :=
  let x := d.sarX m
  let d1 := if x.unread.testBit ch then d.put (SAR_CVm_OVR_OVR m) (d.get (SAR_CVm_OVR_OVR m) ||| 2 ^ ch) else d
  (d1.put (SAR_CVm_RESc_CODE m ch) code).setSarX m { x with unread := x.unread ||| 2 ^ ch, stamps := x.stamps.set (fun _ => none) ch (some t) }

/-- The SAR converter and the two channels of lane n's feedback (R127). -/
def pairChan (n : Nat) : Nat × Nat × Nat := (n / 6, 2 * (n % 6), 2 * (n % 6) + 1)

/-- The LATCH gate of a lane in a SAR-based mode holds its two channels at instant g (R128). -/
def Dev.sarPair (d : Dev) (c : Clock) (n g : Nat) : Dev :=
  let (m, a, b) := pairChan n
  if !d.sarOn m then d
  else if !d.sarRoom m 2 then d.sarDrop c m n
  else d.sarHold m [(a, g, .pair n false), (b, g, .pair n true)]

/-- A LATCH gate fires (R139, R154, R157, R159, R168, R172, R128). -/
def Dev.gateLatch (d : Dev) (c : Clock) (g : Nat) : Dev :=
  if !d.gateDue c g 3 then d else
  let t := d.gateNext g
  let n := d.get (GATE_GTnnn_CFG_ACT_TARGET g)
  let d1 := (d.gateFire c g).portLatch c n t (g = 24 + n)
  if sarMode (d1.fbMode n) then d1.sarPair c n t else d1

def execGateLatch (g : Fin 256) (s : State) : Host.Outcome State Fault Refusal := .next (s.onServing fun c d => d.gateLatch c g)

/-- Length of sequence list j of converter m in force, and its entry i (R130). -/
def Dev.seqLen (d : Dev) (m j : Nat) : Nat := d.get (SAR_CVm_SEQLEN_ACT_LEN m) / 16 ^ j % 16
def Dev.seqChan (d : Dev) (m j i : Nat) : Nat :=
  (d.reg ((SAR_CVm_SEQ0_ACT_CH m).addr + 4 * j)).toNat / 16 ^ i % 16

/-- The gates that hold on converter m (R128): LATCH gates of its lanes in a SAR-based feedback mode, and DC-link SAMPLE gates. -/
def Dev.holdGates (d : Dev) (m : Nat) : List Nat :=
  (((List.range 6).map (6 * m + ·)).filter fun n => sarMode (d.fbMode n)).map (24 + ·) ++ [84 + m / 2 * 2, 85 + m / 2 * 2]

/-- Would 200 ns from `s` on overlap an armed hold on converter m (R130)? -/
def Dev.seqBlocked (d : Dev) (m s : Nat) : Bool :=
  (d.holdGates m).any fun g => d.flag (GATE_GTnnn_CTL_ARMED g) && decide (d.gateNext g < s + 200)

/-- Has the first waiting entry of converter m started before instant t (R130)? No held sample waits, the converter is free, and its
200 ns meet no armed hold. -/
def Dev.seqRuns (d : Dev) (m t : Nat) : Bool :=
  let x := d.sarX m
  match x.seqs with
  | (_, _, g0) :: _ => x.held.isEmpty && decide (max x.freeAt g0 < t) && !d.seqBlocked m (max x.freeAt g0)
  | [] => false

/-- A gate starts list j of converter m at instant g (R130): entries of the same list that have not started are dropped, an entry under
conversion ends. Of two lists active on one converter the one started first runs to its end before the next (the model's choice, log
entry 85). -/
def Dev.seqStart (d : Dev) (c : Clock) (m j g : Nat) : Dev :=
  if !d.sarOn m then d else
  let x := d.sarX m
  let runs := d.seqRuns m g
  let now := match x.seqs.head? with
    | some q => if runs && q.1 = j then [q] else []
    | none => []
  let others := x.seqs.filter fun q => q.1 ≠ j
  let left := (now.any fun q => !x.cut && decide (q.2.1 + 1 < d.seqLen m j)) || (x.seqs.drop now.length).any fun q => q.1 = j
  let d1 := if left then (d.setf (SAR_CVm_STAT_SEQ_OVR m)).record c 56 0xFE m else d
  (d1.setSarX m { x with
    seqs := now ++ others ++ (if d.seqLen m j = 0 then [] else [(j, 0, g)])
    cut := if now.isEmpty then x.cut && runs else true }).sarShow m

/-- The brake current of a chopper that has been on for 2 µs reads below BIMIN (R198). -/
def Dev.brakeSample (d : Dev) (c : Clock) (t g code : Nat) (on : Bool) : Dev :=
  if on && d.flag (PWM_Gg_BCFG_ACT_BISEN g) && decide (code < d.get (PWM_Gg_BCFG_ACT_BIMIN g)) then
    d.chopperFailed c t g (d.getI (SAR_Gg_VOLT_V g))
  else d

/-- The second code of a feedback pair at instant `done`: the type 0x14 packet leaves for the port (R122, R129). -/
def Dev.pairDone (d : Dev) (m n done s code : Nat) : Dev :=
  (d.setSarX m { d.sarX m with pairAt := done }).emit n 0x14 none 0 [BitVec.ofNat 64 (s + code * 2 ^ 16)]

/-- A type 0x14 packet reaches feedback port n (R129, R150, R153): the port latches for the packet's own instant, that of its gate (R30,
R33, R122). -/
def Dev.pairIn (d : Dev) (c : Clock) (n : Nat) (p : Packet) : Dev :=
  let s := bits64 (p.word 1) 0 16
  let code := bits64 (p.word 1) 16 16
  let t := d.packetNs c.ns p
  if c.ns < t + 420 then d else
  let d2 := d.setFbkX n { d.fbkX n with gate := none }
  if d2.fbMode n = fbSinCos then d2.sinCosPair c n t s code
  else if d2.fbMode n = fbResolver then d2.resolverPair c n t s code else d2

/-- The code of an input (R126): differential as two's complement, single-ended unsigned. The static
errors the converter may have are part of the voltage. -/
def Dev.sarCode (d : Dev) (ch : Nat) (x : SarInput) : Nat :=
  let r := if d.flag SAR_CTRL_REFSEL then x.vref else 2500000000
  if 14 ≤ ch then uInt 16 (satS 16 (roundQ (mkRat (x.v * 32768) r))) else (clampI 0 0xFFFF (roundQ (mkRat (x.v * 65536) r))).toNat

/-- A conversion of converter m completes (R128 to R131): the oldest held sample, or the next entry of a list when none waits and
no armed hold falls into its 200 ns. A stage is free again when its conversion ends, and an entry of a list takes none; what is held or
listed when SAR_CTRL.EN is cleared waits and is converted once EN is set again (R615; both the model's choice, log entry 85). -/
def Dev.sarConversion (d : Dev) (c : Clock) (m : Nat) (v : SarInput) : Dev :=
  let x := d.sarX m
  if !d.sarOn m then d else
  match x.held with
  | (ch, t, why) :: rest =>
    let done := max x.freeAt t + 200
    let code := d.sarCode ch v
    if c.ns < done then d else
    let d1 := d.sarStore m ch t code
    let d2 := (d1.setSarX m { d1.sarX m with held := rest, freeAt := done }).sarShow m
    match why with
    | .pair _ false => d2.setSarX m { d2.sarX m with pairS := code }
    | .pair n true => d2.pairDone m n done (d2.sarX m).pairS code
    | .link _ => d2
    | .brake g on => d2.brakeSample c t g code on
  | [] =>
    match x.seqs with
    | [] => d
    | (j, i, g0) :: rest =>
      let clash := (d.holdGates m).any fun g => d.flag (GATE_GTnnn_CTL_ARMED g) && decide (d.gateNext g < c.ns)
      if c.ns < max x.freeAt g0 + 200 ∨ clash then d else
      let ch := d.seqChan m j i
      let code := d.sarCode ch v
      let d1 := d.sarStore m ch (c.ns - 200) code
      let more := if i + 1 < d.seqLen m j ∧ !x.cut then [(j, i + 1, g0)] else []
      let d2 := (d1.setSarX m { d1.sarX m with seqs := more ++ rest, freeAt := c.ns, cut := false }).sarShow m
      d2.emit 0xFE 0x12 none ((c.ns - 200 - g0) / 2) [BitVec.ofNat 64 (m + ch * 2 ^ 4 + i * 2 ^ 8 + code * 2 ^ 16)]

def execSarConversion (m : Fin 4) (v : SarInput) (s : State) : Host.Outcome State Fault Refusal :=
  .next (s.onServing fun c d => d.sarConversion c m v)

/-- A read of SAR_CVm_RESc marks the channel as read (R131). -/
def execSarResRead (m : Fin 4) (ch : Fin 16) (s : State) : Host.Outcome State Fault Refusal :=
  .next (s.onServing fun _ d =>
    let x := d.sarX m
    if x.unread.testBit ch then d.setSarX m { x with unread := x.unread - 2 ^ ch.val } else d)

/-- A staged list of converter m is longer than 8 entries (R130). -/
def seqBad (d : Dev) (m : Nat) : Bool := (List.range 4).any fun j => 8 < d.get (SAR_CVm_SEQLEN_LEN m) / 16 ^ j % 16

/-- The commit of converter m's lists (R130). -/
def Dev.seqCommit (d : Dev) (m : Nat) : Dev :=
  let d0 := d.setf (SAR_CVm_CTL_CMT m) false
  if seqBad d m then d0.setf (SAR_CVm_STAT_CONFLICT m)
  else
    let b := (SAR_CVm_SEQLEN_LEN m).addr
    d0.copyRegs ((b, b + 0x80) :: (List.range 4).map fun j => (b + 8 + 4 * j, b + 0x88 + 4 * j))

def execSarSequenceCommit (m : Fin 4) (s : State) : Host.Outcome State Fault Refusal := .next (s.onServing fun _ d => d.seqCommit m)

/-! DC-link samples (R132 to R134, R615). -/

/-- Base address of the SAR registers of DC group g. -/
def sarGroupBase (g : Nat) : Nat := 0x40060800 + 0x40 * g

/-- The converters of group g's shared channel, and that channel (R125). -/
def linkSars (g : Nat) : List Nat := [g / 2 * 2, g / 2 * 2 + 1]
def linkChan (g : Nat) : Nat := 14 + g % 2

/-- CFG_ZERO checks of a group's staged sampling (R132, R137). -/
def Dev.sarGroupZero (d : Dev) (g : Nat) : Bool := d.get (SAR_Gg_CFG_DCPER g) = 0 || d.get (SAR_Gg_GAIN_GAIN g) = 0

/-- Can a hold on the grid (per, ph), in ticks, fall within the 200 ns before a sample of lane l (R132)? A lane without a fixed grid can
meet any (R82). -/
def Dev.holdMeets (d : Dev) (l per ph : Nat) : Bool :=
  match d.gridOf l with
  | none => true
  | some (p, f) =>
    let k := Nat.gcd (2 * per) p
    let r := (((f : Int) - 2 * ph) % (k : Int)).toNat
    decide (p ≠ 0) && decide ((if r = 0 then k else r) < 200)

/-- CFG_CONFLICT checks (R132): ranges, and a hold within the 200 ns before the sample instant of a SAR feedback lane. -/
def Dev.sarGroupConflict (d : Dev) (g : Nat) : Bool :=
  let per := d.get (SAR_Gg_CFG_DCPER g)
  let ph := d.get (SAR_Gg_CFG_DCPH g)
  let lanes := (linkSars g).flatMap fun m => (List.range 6).map (6 * m + ·)
  per < 250 || 62500 < per || per ≤ ph ||
    lanes.any fun l => sarMode (d.fbMode l) && d.holdMeets l per ph

/-- A commit of the group's sampling: rejected, or waiting for the next sample (R132). -/
def Dev.sarGroupCommit (d : Dev) (g : Nat) : Dev :=
  if d.sarGroupZero g then d.setf (SAR_Gg_CTL_ZERO g)
  else if d.sarGroupConflict g then d.setf (SAR_Gg_CTL_CONFLICT g)
  else d.setf (SAR_Gg_CTL_CMT g)

def execSarGroupCommit (g : Fin 4) (s : State) : Host.Outcome State Fault Refusal :=
  .next (s.onServing fun _ d => d.sarGroupCommit g)

/-- Gates of group g on its grid in force after the sample at t (R73, R132, R197): GT(084 + g), and GT(080 + g) 1,000 ns later. -/
def Dev.linkGrid (d : Dev) (t g : Nat) : Dev :=
  let per := d.get (SAR_Gg_CFG_ACT_DCPER g)
  let ph := 2 * d.get (SAR_Gg_CFG_ACT_DCPH g)
  (d.gateGridAfter t (84 + g) 2 (0x68 + g) 0 per ph).gateGridAfter t (80 + g) 1 (0x68 + g) 0 per (ph + 1000)

/-- The commits that take effect at a DC-link sample (R132, R204): images, CTL.CMT, and the gates on a new grid. -/
def Dev.linkCommits (d : Dev) (g t : Nat) : Dev :=
  let (im, d1) := d.takeImages (sarGroupBase g) t
  let d2 := if d1.flag (SAR_Gg_CTL_CMT g) ∨ !im.isEmpty then
      (let d0 := d1.setf (SAR_Gg_CTL_CMT g) false
       if d0.sarGroupZero g then d0.setf (SAR_Gg_CTL_ZERO g)
       else if d0.sarGroupConflict g then d0.setf (SAR_Gg_CTL_CONFLICT g)
       else
         let e := d0.copyRegs ((List.range 3).map fun i => (sarGroupBase g + 4 * i, sarGroupBase g + 0x20 + 4 * i))
         if d0.reg (SAR_Gg_CFG_ACT_DCPER g).addr = e.reg (SAR_Gg_CFG_ACT_DCPER g).addr then e else e.linkGrid t g)
    else d1
  let d3 := d2.doneImages im t
  let (ig, d4) := d3.takeImages (groupBase g) t
  if d4.flag (PWM_Gg_CTL_CMT g) ∨ !ig.isEmpty then (d4.dcgApply g).doneImages ig t else d4

/-- The holds of a DC-link gate at instant t (R128, R198, R615). -/
def Dev.linkHold (d : Dev) (c : Clock) (g t : Nat) : Dev :=
  let ms := (linkSars g).filter d.sarOn
  let brake := d.flag (PWM_Gg_BCFG_ACT_BISEN g)
  let need (m : Nat) : Nat := if brake ∧ m = g then 2 else 1
  let short := ms.filter fun m => !d.sarRoom m (need m)
  if ms.isEmpty then
    ((lanesOfGroup g).filter d.laneActive).foldl (fun d u => (d.record c 57 u 0).laneFault c 57 u) d
  else if !short.isEmpty then
    short.foldl (fun d m => d.setf (SAR_CVm_STAT_DROP m)) (d.record c 56 (0x68 + g) 0)
  else
    let on := d.flag (PWM_Gg_BSTAT_CHOP g) && decide ((d.groupX g).onAt + 2000 ≤ t)
    let d1 := ms.foldl (fun d m =>
      d.sarHold m ((linkChan g, t, SarHold.link g) :: (if brake ∧ m = g then [(13, t, SarHold.brake g on)] else []))) d
    d1.setGroupX g { d1.groupX g with dcAt := some t }

/-- A DC-link SAMPLE gate fires at t (R132, R128). -/
def Dev.linkGate (d : Dev) (c : Clock) (g t : Nat) : Dev := (d.linkCommits g t).linkHold c g t

/-- The code of group g's shared channel on converter m: converted now where it is still held and due; none while it is not
available. -/
def Dev.linkCode (d : Dev) (c : Clock) (m g code : Nat) : Option (Nat × Dev) :=
  let x := d.sarX m
  match x.held with
  | (ch, t, .link k) :: rest =>
    if k ≠ g then (if x.held.any (fun h => h.2.2 = .link g) then none else some (d.get (SAR_CVm_RESc_CODE m (linkChan g)), d))
    else
      let done := max x.freeAt t + 200
      if c.ns < done + 20 then none
      else
        let d1 := d.sarStore m ch t code
        some (code, (d1.setSarX m { d1.sarX m with held := rest, freeAt := done }).sarShow m)
  | hs => if hs.any (fun h => h.2.2 = .link g) then none else some (d.get (SAR_CVm_RESc_CODE m (linkChan g)), d)

/-- V in s1.30 from x in units of 2^-16 (R133). -/
def linkVolt (x16 : Int) (offs gain : W32) : Int :=
  satS 32 (roundQ (mkRat ((x16 * 2 ^ 14 - offs.toInt) * gain.toInt) (2 ^ 28)))

/-- The voltage of a sample held at t from its codes (R133, R134, R615): `lone` where one converter alone gave it. -/
def Dev.linkForm (d : Dev) (c : Clock) (g t a b : Nat) (lone : Option Nat) : Dev :=
  let sa := sInt 16 a
  let sb := sInt 16 b
  let plaus := lone.isNone && decide ((sa - sb).natAbs ≤ d.get SAR_XCHK_TOL)
  let x16 : Int := match lone with
    | some k => 2 * sInt 16 k
    | none => if plaus then sa + sb else 2 * max sa sb
  let v := linkVolt x16 (d.reg (SAR_Gg_OFFS_ACT_OFFS g).addr) (d.reg (SAR_Gg_GAIN_ACT_GAIN g).addr)
  let d0 := (d.setGroupX g { d.groupX g with dcAt := none }).putI (SAR_Gg_VOLT_V g) v
  let d1 := if plaus then d0.put (SAR_Gg_XSTAT_CONSEC g) 0
    else
      let n := min 15 (d0.get (SAR_Gg_XSTAT_CONSEC g) + 1)
      let e := (((d0.setf (SAR_Gg_XSTAT_IMPL g)).bump (SAR_Gg_XSTAT_XERR g)).put (SAR_Gg_XSTAT_CONSEC g) n).record c 55 (0x68 + g) 0
      if d.get SAR_XCHK_XLIM < n then (lanesOfGroup g).foldl (fun d u => d.activeFault c 57 u) e else e
  let d2 := d1.emit (0x68 + g) 0x13 none 0
    [BitVec.ofNat 64 (uInt 32 v + a * 2 ^ 32 + b * 2 ^ 48), BitVec.ofNat 64 (if plaus then 0 else 1)]
  d2.linkLaw c t g v

/-- Both codes of a DC-link sample are available (R133, R615). The code a disabled converter did not give is free in the packet. -/
def Dev.linkSample (d : Dev) (c : Clock) (g a b : Nat) : Dev :=
  match (d.groupX g).dcAt with
  | none => d
  | some t =>
    let ma := g / 2 * 2
    let mb := ma + 1
    match d.sarOn ma, d.sarOn mb with
    | true, true =>
      match d.linkCode c ma g a with
      | none => d
      | some (a', d1) =>
        match d1.linkCode c mb g b with
        | none => d
        | some (b', d2) => d2.linkForm c g t a' b' none
    | true, false =>
      match d.linkCode c ma g a with
      | none => d
      | some (a', d1) =>
        let (f, d2) := d1.takeFree
        d2.linkForm c g t a' (f % 65536).toNat (some a')
    | false, true =>
      match d.linkCode c mb g b with
      | none => d
      | some (b', d1) =>
        let (f, d2) := d1.takeFree
        d2.linkForm c g t (f % 65536).toNat b' (some b')
    | false, false => d

def execDcLinkSample (g : Fin 4) (a b : SarInput) (s : State) : Host.Outcome State Fault Refusal :=
  .next (s.onServing fun c d => d.linkSample c g (d.sarCode (linkChan g) a) (d.sarCode (linkChan g) b))

/-! conv.cfg (R382 to R384). -/

/-- Registers conv.cfg governs: DSF_CKm, the channels, SAR control, lists and groups, and the excitation outputs. -/
def isConvReg (a : Nat) : Bool :=
  (0x40050000 ≤ a && a < 0x40052000) || (0x40060000 ≤ a && a < 0x40060900) || (0x40073400 ≤ a && a < 0x40073440)

/-- DC group whose SAR registers hold this address. -/
def sarGroupOf (a : Nat) : Option Nat := if 0x40060800 ≤ a ∧ a < 0x40060900 then some ((a - 0x40060800) / 0x40) else none

/-- Lane whose filter channels hold this address. -/
def dsfLaneOf (a : Nat) : Option Nat := if 0x40050100 ≤ a ∧ a < 0x40051300 then some ((a - 0x40050100) / 0xC0) else none

/-- Converter whose lists hold this address. -/
def seqSarOf (a : Nat) : Option Nat := if 0x40060100 ≤ a ∧ a < 0x40060500 then some ((a - 0x40060100) / 0x100) else none

/-- One word of an image: the registers with write rules of their own, or a plain store. -/
def Dev.convStore (d : Dev) (c : Clock) (p : Nat × Nat) : Dev :=
  let v := BitVec.ofNat 32 p.2
  if 0x40050000 ≤ p.1 ∧ p.1 < 0x40050080 then d.dsfCkWrite c ((p.1 - 0x40050000) / 4) v
  else if 0x40073400 ≤ p.1 ∧ p.1 < 0x40073440 then d.excWrite ((p.1 - 0x40073400) / 0x10) p.1 v
  else d.regStore p.1 v

/-- The part of a conv.cfg image that commits at once: stores, then the commits of the lanes and lists it names. -/
def Dev.convApply (d : Dev) (c : Clock) (ps : List (Nat × Nat)) : Dev :=
  let d1 := ps.foldl (fun d p => d.convStore c p) d
  let lanes := (ps.filterMap fun p => dsfLaneOf p.1).dedup
  let sars := (ps.filterMap fun p => seqSarOf p.1).dedup
  sars.foldl (fun d m => d.seqCommit m) (lanes.foldl (fun d l => d.dsfCommit c l) d1)

/-- Group number of the part of an image that commits at an instant of its own. -/
def convNow : Nat := 0x40050000

/-- conv.cfg (R382, R384). -/
def cmdConvCfg : CmdFn := fun c tref q d =>
  let ps := q.image
  let ok := imageOk isConvReg ps
  let t := imageLead q tref
  let stored (t : Nat) : Dev := ps.foldl (fun d p => d.convStore c p) (d.imagesBy t)
  let gate (g : Nat) : Nat := d.firingAhead (84 + g) t
  let d1 := stored t
  let lanes := (ps.filterMap fun p => dsfLaneOf p.1).dedup
  let groups := (ps.filterMap fun p => sarGroupOf p.1).dedup
  let sars := (ps.filterMap fun p => seqSarOf p.1).dedup
  let owned := (ps.any fun p => p.1 / 0x10000 = 0x4005 && d.anyReleased 5) || (ps.any fun p => p.1 / 0x10000 = 0x4006 && d.anyReleased 6) ||
    (ps.any fun p => p.1 / 0x10000 = 0x4007 && d.anyReleased 7)
  refuseIf [(decide (q.target ≠ 0xFE) || q.noImage, rcBadFormat), (owned, rcRegOwned),
      (ok && (lanes.any d1.dsfZero || groups.any d1.sarGroupZero), rcCfgZero),
      (!ok || (lanes.any fun l => d1.dsfConflict l (d.stateAt l t)) || (groups.any fun g => (stored (gate g)).sarGroupConflict g) ||
        (sars.any fun m => seqBad d1 m), rcCfgConflict)] fun _ =>
    let now := ps.filter fun p => (sarGroupOf p.1).isNone
    let nowImg : List PendImg := if now.isEmpty then [] else [{ group := convNow, from_ := t, due := t, pairs := now, work := some q.id }]
    let gImgs : List PendImg := groups.map fun g =>
      { group := sarGroupBase g, from_ := t, due := gate g, pairs := ps.filter (fun p => sarGroupOf p.1 = some g), work := some q.id }
    .accept (groups.foldl (fun m g => max m (gate g)) t) { d with imgs := d.imgs ++ nowImg ++ gImgs }

def execConvCfg (q : Request) (s : State) : Host.Outcome State Fault Refusal := .next (s.command 0x010A cmdConvCfg q)

end Sys2Proof.Machine
end

