-- ==== Sys2Proof/Machine/LoopLane.lean ====
section
/-! DEFINITION. The process loops as the lanes see them (R268, R273, R280, R282, R284): modes, the lane a block acts on, its hold. -/

namespace Sys2Proof.Machine

def loopOff : Nat := 0
def loopManual : Nat := 1
def loopAuto : Nat := 2

/-- Base address of block b, and its unit code (R268). -/
def lpbBase (b : Nat) : Nat := 0x400A0000 + 0x400 * b
def lpbUnit (b : Nat) : Nat := 0x40 + b

def Dev.loopMode (d : Dev) (b : Nat) : Nat := d.get (LPB_bb_STAT_MODE b)

/-- The lane a block acts on: the destination lane, or that of the destination slot (R280, R284). -/
def Dev.loopLane (d : Dev) (b : Nat) : Option Nat :=
  let ty := d.get (LPB_bb_CFG_ACT_DTYPE b)
  let u := d.get (LPB_bb_DST_ACT_UNIT b)
  if (ty = 1 ∨ ty = 2) ∧ u < 32 then some u else if ty = 3 ∧ u < 24 then some u else none

/-- STAT.DHOLD (R282): the destination lane does not run, or the cascaded block is not in AUTO. -/
def Dev.loopHolds (d : Dev) (b : Nat) : Bool :=
  match d.loopLane b with
  | some u => !(d.lane u).state.running
  | none => d.get (LPB_bb_CFG_ACT_DTYPE b) = 4 && d.loopMode (d.get (LPB_bb_DST_ACT_UNIT b) - 0x40) ≠ loopAuto

/-- STAT.DHOLD of every block, after a change of a lane's state, a mode or a destination (R282). -/
def Dev.showHolds (d : Dev) : Dev := (List.range 16).foldl (fun d b => d.setf (LPB_bb_STAT_DHOLD b) (d.loopHolds b)) d

/-- The sample gate at which lane u enters ENABLED (R282): w, d and the outputs that trim it start from 0. -/
def Dev.loopReset (d : Dev) (u : Nat) : Dev :=
  (List.range 16).foldl (fun d b =>
    if d.loopLane b = some u then
      (d.setLoopX b { d.loopX b with outs := [], fresh := true }).put (LPB_bb_OUT_VAL b) 0
    else d) d

/-- The lane a block acts on enters FAULT, whatever its state (R284, R315). -/
def Dev.faultLane (d : Dev) (c : Clock) (code u : Nat) : Dev := if (d.lane u).state = .fault then d else d.laneFault c code u

end Sys2Proof.Machine
end

