-- ==== Sys2Proof/Machine/LaneState.lean ====
section
/-! DEFINITION. A lane enters a state (R44, R45, R103, R221, R222), and the pins of the stepper lanes (R226). -/

namespace Sys2Proof.Machine

/-- The switches of a servo lane in the fault pattern from an instant in 250 ps on: high sides off, low sides off or, with FPAT 0b10,
on once the partner has been off for the dead time (R221, R222). -/
def Dev.patternSw (d : Dev) (l t : Nat) : Dev :=
  let x := d.pwmX l
  let short := d.get (PWM_Lnn_CFG_ACT_FPAT l) = 2
  let dt := 8 * d.get (PWM_Lnn_DT_ACT_DT l)
  let ready (i : Nat) : Nat :=
    let p := x.sw.getD (i - 1) {}
    if p.on then t + dt else max t (p.offAt + dt)
  let go (i : Nat) : Bool := short && i % 2 = 1
  let sw (i : Nat) : Sw :=
    let s := x.sw.getD i {}
    let on := go i && (s.on || decide (ready i ≤ t))
    { cmd := go i, cmdAt := t, on := on, offAt := if s.on && !on then t else s.offAt, onAt := if on && !s.on then t else s.onAt }
  let edges := (List.range 6).filterMap fun i => if go i && !(sw i).on then some ⟨ready i, i, true⟩ else none
  d.setPwmX l { x with sw := (List.range 6).map sw, edges := edges }

/-- All switches of a servo lane off at an instant in 250 ps, nothing planned. -/
def Dev.offSw (d : Dev) (l t : Nat) : Dev :=
  let x := d.pwmX l
  let off (i : Nat) : Sw := let s := x.sw.getD i {}; { offAt := if s.on then t else s.offAt, onAt := s.onAt }
  d.setPwmX l { x with sw := (List.range 6).map off, edges := [] }

/-- Lane u enters a state at instant t (R31, R44, R45): its epoch rises, its pins, modulator clock and slot follow. `code` is the fault
behind FAULT. DISABLED by lane.clear removes the marks of the fault (R47, R119, R221). -/
def Dev.laneEnter (d : Dev) (c : Clock) (u t : Nat) (st : LaneState) (code : Nat := 0) : Dev :=
  let x := d.lane u
  let clears := decide (st = .disabled)
  let d1 := d.setLane u { x with
    state := st
    epoch := (x.epoch + 1) % 256
    fcode := if st = .fault then code else 0
    faulted := false
    hiZ := false
    trip := x.trip && !clears
    disputed := x.disputed && !clears
    armedAt := if st = .stopping then x.armedAt else 0
    changedAt := some t
    enabledAt := if st = .enabled then t else x.enabledAt }
  let d2 := if st.running then d1 else d1.setAxX u { d1.axX u with
    live := (d1.axX u).live && decide (24 ≤ u)
    laneStop := false
    faultEnd := 0
    halt := (d1.axX u).halt && decide (24 ≤ u)
    haltLane := false }
  let d3 := if u < 24 then
      (let e := if st = .fault then d2.patternSw u (4 * t) else if st.running && x.state.running then d2 else d2.offSw u (4 * t)
       e.refreshClock c (u / 4))
    else if st.running then d2
    else (let y := d2.stpX (u - 24); d2.setStpX (u - 24) { y with a := { y.a with st := .coast }, b := { y.b with st := .coast } })
  d3.showHolds.showUnit c u

end Sys2Proof.Machine
end

