-- ==== Sys2Proof/Machine/Admission.lean ====
section
/-! DEFINITION. Admission on the TRJ, PKT and LOOP engines (R306, R308, R309, R312): densities in u0.32 rounded up. -/

namespace Sys2Proof.Machine

/-- Cost of a class (R303). -/
def Dev.cost (d : Dev) (cls : Nat) : Nat := d.get (HERDER_COSTc_COST cls)

/-- A demand over a window as a density in u0.32, rounded up; no window is never admitted. -/
def densQ (term w : Nat) : Nat := if w = 0 then 2 ^ 48 else (term * 2 ^ 32 + w - 1) / w

/-- Density of a periodic job (cost, period, DLREL) under a TICK (R308). -/
def jobDensity (tick : Nat) (p : Nat × Nat × Nat) : Nat :=
  if p.1 = 0 then 0 else densQ (p.1 + 32) (min p.2.1 (p.2.2 - 250 * tick))

/-- Cap in % of the group an engine belongs to (R312). -/
def Dev.capOf (d : Dev) (e : Nat) : Nat :=
  if e < 28 then d.get HERDER_CAP_TRJ else if e < 30 then d.get HERDER_CAP_PKT else d.get HERDER_CAP_LOOP

/-- A density within a cap in %. -/
def withinCap (u cap : Nat) : Bool := decide (u * 100 ≤ cap * 2 ^ 32)

/-! Jobs that set-points and loops hold (R232, R269, R304, R308). -/

/-- T_traj in ns with the given TDIV and TPER, whatever its length. -/
def Dev.trajTof (d : Dev) (a tdiv tper : Nat) : Nat :=
  if a < 24 then 2 * d.lanePer a * d.get (PWM_Lnn_CYC_ACT_PDIV a) * tdiv else 2 * tper

/-- T_traj in force; 0: the slot has no trajectory instants. A real slot whose lane's period makes T_traj less than 25,000 ns has none (R232;
log entry 92). -/
def Dev.trajT (d : Dev) (a : Nat) : Nat :=
  let t := d.trajTof a (d.get (TRJ_AXaa_CFG_ACT_TDIV a)) (d.get (TRJ_AXaa_TPER_ACT_TPER a))
  if a < 24 ∧ t < 25000 then 0 else t

/-- Set-point class of a mode. -/
def Dev.modeClass (d : Dev) (a mode : Nat) (m : Option Master) : Nat :=
  if mode = modeHold then 0x10
  else if mode = modeGear then 0x12
  else if mode = modeCam then
    (match m with
      | some m => if d.flag (TRJ_CAMDIR_md_TYPE (slotEngine a - 24) m.table) then 0x14 else 0x13
      | none => 0x13)
  else 0x11

/-- Set-point class a command leads to; none: the class stays. -/
def Dev.opClass (d : Dev) (a : Nat) (op : AxOp) : Option Nat :=
  match op with
  | .limits .. => none
  | .master m => some (d.modeClass a (if m.cam then modeCam else modeGear) (some m))
  | _ => some 0x11

/-- Cost of a set-point class of slot a (R304). -/
def Dev.spCost (d : Dev) (a cls : Nat) : Nat := d.cost cls + (if d.flag (TRJ_AXaa_CFG_ACT_PUB a) then 300 else 0)

/-- The largest set-point cost that slot a's mode and its accepted commands hold (R306). -/
def Dev.heldCost (d : Dev) (a : Nat) : Nat :=
  let x := d.axX a
  x.pend.foldl (fun n p => match d.opClass a p.op with
    | some cls => max n (d.spCost a cls)
    | none => n) (d.spCost a (d.modeClass a (d.axMode a) x.mst))

/-- The set-point job of slot a (R233); none without trajectory instants. -/
def Dev.spJob (d : Dev) (a : Nat) : Nat × Nat × Nat :=
  if d.trajT a = 0 then (0, 0, 0) else (d.heldCost a, d.trajT a, d.trajT a - 1000)

/-- The LOOP job of block b: the cost of its law, T_loop, T_loop − 1,000 ns (R269). -/
def Dev.loopJob (d : Dev) (b : Nat) : Nat × Nat × Nat :=
  let t := 2 * d.get (LPB_bb_LPER_ACT_LPER b)
  (d.cost (if d.get (LPB_bb_CFG_ACT_LAW b) = 1 then 0x21 else 0x20), t, t - 1000)

/-- T_cyc in ns (R403). -/
def Dev.cycNs (d : Dev) : Nat := 31250 * 2 ^ d.get CHAIN_CYC_ACT_CYCLOG

/-- Base address of the CHAIN block. -/
def chainBase : Nat := 0x400C0000

/-- The periodic job of a packet engine's slot: a cycle frame, the service frame, or the receive job, admitted as NF runs per T_cyc with no
window of its own (R308, R409). -/
def Dev.pktJob (d : Dev) (j : Nat) : Nat × Nat × Nat :=
  let t := d.cycNs
  if j < 192 then (if d.flag (CHAIN_Dd_CFG_ACT_EN (j - 176)) then (d.cost 0x30, t, t - d.margin) else (0, 0, 0))
  else if j = 192 then (d.cost 0x31, t, t - d.margin)
  else (d.get CHAIN_LOAD_ACT_NF * (d.cost 0x32 + 32) - 32, t, t + 250 * 128)

/-- Groups whose images change the job of slot j: the slot's and its lane's, or the block's. -/
def jobGroups (j : Nat) : List Nat :=
  if 96 ≤ j ∧ j < 160 then (0x40090000 + 0x100 * (j - 96)) :: (if j < 120 then [laneBase (j - 96)] else [])
  else [0x400A0000 + 0x400 * (j - 160)]

/-- The job of slot j with the values in force (R231, R289, R291). -/
def Dev.jobOf (d : Dev) (j : Nat) : Nat × Nat × Nat :=
  if 96 ≤ j ∧ j < 160 then d.spJob (j - 96) else if 160 ≤ j ∧ j < 176 then d.loopJob (j - 160) else d.pktJob j

/-- The density that a set-point or loop job holds under a TICK: the largest, with the values in force and with those that each accepted image
leads to (R306, R308). -/
def Dev.heldDens (d : Dev) (tick j : Nat) : Nat :=
  ((d.imagesOf fun p => (jobGroups j).contains p.group).foldl
    (fun (acc : Nat × Dev) p => let e := acc.2.imageIn p; (max acc.1 (jobDensity tick (e.jobOf j)), e)) (jobDensity tick (d.jobOf j), d)).1

/-- The admitted periodic jobs of engine e, in the order of their slots. -/
def Dev.engJobs (d : Dev) (e : Nat) : List Nat :=
  if e = 28 then (List.range 17).map (176 + ·)
  else if e = 29 then [193]
  else d.her.admitted.filter fun j => if j < 160 then slotEngine (j - 96) = e else e = 30

/-- What the admission on engine e looks at: each job alone with every image that may change it; on a packet engine, whose jobs change
together, the state that each accepted image of the chain leads to. -/
def Dev.engDensities (d : Dev) (tick e : Nat) : List (List Nat) :=
  if e = 28 ∨ e = 29 then
    let states := (d.imagesOf fun p => p.group = chainBase).foldl (fun (acc : List Dev × Dev) p =>
      let x := acc.2.imageIn p; (acc.1 ++ [x], x)) ([d], d)
    states.1.map fun x => (d.engJobs e).map fun j => jobDensity tick (x.jobOf j)
  else [(d.engJobs e).map fun j => d.heldDens tick j]

/-- U_e under a TICK: the sum over the engine's admitted periodic jobs (R308). -/
def Dev.engDens (d : Dev) (tick e : Nat) : Nat := (d.engDensities tick e).foldl (fun m ds => max m ds.sum) 0

/-- Is the admitted density of engine e within its cap (R308)? -/
def Dev.fitsCap (d : Dev) (e : Nat) : Bool := withinCap (d.engDens (d.get HERDER_CTRL_TICK) e) (d.capOf e)

/-- The set-point or loop job of slot j counts from now on. -/
def Dev.enrol (d : Dev) (j : Nat) : Dev := { d with her := { d.her with admitted := insId j d.her.admitted } }

/-- HERDER_ENGe_ADM of an engine with a cap. -/
def Dev.admValue (d : Dev) (e : Nat) : Nat := min 0xFFFF ((d.engDens (d.get HERDER_CTRL_TICK) e + 65535) / 65536)

/-- Class of slot j's periodic job (R304, R409). -/
def Dev.jobClass (d : Dev) (j : Nat) : Nat :=
  if 96 ≤ j ∧ j < 160 then d.modeClass (j - 96) (d.axMode (j - 96)) (d.axX (j - 96)).mst
  else if 160 ≤ j ∧ j < 176 then (if d.get (LPB_bb_CFG_ACT_LAW (j - 160)) = 1 then 0x21 else 0x20)
  else if j < 192 then 0x30 else if j = 192 then 0x31 else 0x32

/-- The first periodic job of engine e, in the order of the slots, with which the sum exceeds a cap: its class (R320; log entry 87). -/
def Dev.failClass (d : Dev) (tick e cap : Nat) : Option Nat :=
  (d.engDensities tick e).findSome? fun ds =>
    (((d.engJobs e).zipIdx).find? fun p => !withinCap (ds.take (p.2 + 1)).sum cap).map fun p => d.jobClass p.1

/-- Density of the admitted one-shot demands of engine e whose windows overlap the one from `a` to `b` (R309). -/
def Dev.oneShotDens (d : Dev) (e a b : Nat) : Nat :=
  (d.her.demands.filter fun x => x.1 = e && decide (a < x.2.2.2.1) && decide (x.2.2.2.1 < b + x.2.2.1)).foldl
    (fun s x => s + densQ x.2.1 x.2.2.1) 0

/-- Does a one-shot demand of `term` over a window of `w` ns that ends at `t` fit beside density `u` (R309)? -/
def Dev.fitsOneShot (d : Dev) (e u term w t : Nat) : Bool :=
  withinCap (u + d.oneShotDens e (t - w) t + densQ term w) (d.capOf e)

/-- Hold a one-shot demand for work `id`; demands whose window has ended are free (R306). -/
def Dev.addDemand (d : Dev) (c : Clock) (e term w t id : Nat) : Dev :=
  { d with her := { d.her with demands := (d.her.demands.filter fun x => c.ns < x.2.2.2.1) ++ [(e, term, w, t, id)] } }

/-- Free the demands of a work. -/
def Dev.freeDemand (d : Dev) (id : Option Nat) : Dev :=
  { d with her := { d.her with demands := d.her.demands.filter fun x => some x.2.2.2.2 ≠ id } }

/-- Free the demand of a work whose window ends first: a block of its load has ended. -/
def Dev.freeFirst (d : Dev) (id : Nat) : Dev :=
  match d.her.demands.find? fun x => x.2.2.2.2 = id with
  | some x => { d with her := { d.her with demands := d.her.demands.erase x } }
  | none => d

/-- The first Herder tick instant after an instant (R295, R309). -/
def Dev.nextTick (d : Dev) (t : Nat) : Nat :=
  let k := 250 * d.get HERDER_CTRL_TICK
  if k = 0 then t else (t / k + 1) * k

end Sys2Proof.Machine
end

