-- ==== Sys2Proof/Machine/Traj.lean ====
section
/-! DEFINITION. The axis slots at their trajectory instants (R231 to R257, R264 to R266, R281). -/

namespace Sys2Proof.Machine

/-- Slot a takes a mode; a change raises the epoch of a virtual slot (R31; log entry 74). -/
def Dev.axSetMode (d : Dev) (a m : Nat) : Dev :=
  if 32 ≤ a then d.putState a (TRJ_AXaa_STAT_MODE a) m else d.put (TRJ_AXaa_STAT_MODE a) m

/-! Instants (R232). -/

/-- An instant of the slot's grid: the lane's phase, the last instant in the variable modes, or TPH. -/
def Dev.trajPhase (d : Dev) (a : Nat) : Nat :=
  let t := d.trajT a
  if 24 ≤ a then 2 * d.get (TRJ_AXaa_TPH_ACT_TPH a)
  else if 2 ≤ d.get (PWM_Lnn_CFG_ACT_MODE a) then (d.axX a).tj % (max t 1)
  else 2 * d.get (PWM_Lnn_PHASE_ACT_PHASE a) % (max t 1)

/-- The first trajectory instant at or after `bound`; `bound` itself for a slot without instants. -/
def Dev.axGrid (d : Dev) (a bound : Nat) : Nat :=
  let t := d.trajT a
  if t = 0 then bound
  else
    let f := d.trajPhase a
    if bound ≤ f then f - (f - bound) / t * t else f + (bound - f + t - 1) / t * t

/-- The trajectory instant that is due, if any: the latest of the grid, or the lane's sample instant in a position period whose
index is a multiple of TDIV. -/
def Dev.axDue (d : Dev) (c : Clock) (a : Nat) : Option Nat :=
  let t := d.trajT a
  let last := (d.axX a).tj
  if t = 0 then none
  else
    let now := if a < 24 then
        (let s := (d.gateX a).last
         let n := d.get (PWM_Lnn_CYC_ACT_PDIV a) * d.get (TRJ_AXaa_CFG_ACT_TDIV a)
         let k := if 2 ≤ d.get (PWM_Lnn_CFG_ACT_MODE a) then d.get (PWM_Lnn_KIDX_K a)
           else (s - 2 * d.get (PWM_Lnn_PHASE_ACT_PHASE a)) / (2 * d.lanePer a)
         if s ≠ 0 ∧ k % n = 0 then some s else none)
      else
        let f := d.trajPhase a
        if f ≤ c.ns then some (f + (c.ns - f) / t * t) else none
    match now with
    | some s => if s ≠ last ∧ (last < s ∨ s + t < last) then some s else none
    | none => none

/-! Limits. -/

/-- A u48.16 number from its two registers. -/
def u48 (n : Nat) : Rat := mkRat n (2 ^ 16)

/-- VMAX in force. -/
def Dev.axVmax (d : Dev) (a : Nat) : Rat := mkRat (d.get64 (TRJ_AXaa_VMAX_LO_ACT_V a) (TRJ_AXaa_VMAX_HI_ACT_V a)) (2 ^ 32)

/-- The bounds of a profile (R239); SLS lowers VMAX (R491). -/
def Dev.axLims (d : Dev) (a : Nat) : Lims :=
  let v := d.axVmax a
  { v := match (d.axX a).vcap with
      | some s => min v (mkRat (s * 15) 16)
      | none => v
    a := u48 (d.get64 (TRJ_AXaa_AMAX_LO_ACT_A a) (TRJ_AXaa_AMAX_HI_ACT_A a))
    d := u48 (d.get64 (TRJ_AXaa_DMAX_LO_ACT_A a) (TRJ_AXaa_DMAX_HI_ACT_A a))
    j := u48 (d.get64 (TRJ_AXaa_JMAX_LO_ACT_J a) (TRJ_AXaa_JMAX_HI_ACT_J a)) }

/-- The bounds of a stop (R254). -/
def Dev.axStopLims (d : Dev) (a : Nat) : Lims :=
  stopLims (u48 (d.get64 (TRJ_AXaa_SDMAX_LO_ACT_A a) (TRJ_AXaa_SDMAX_HI_ACT_A a)))
    (u48 (d.get64 (TRJ_AXaa_SJMAX_LO_ACT_J a) (TRJ_AXaa_SJMAX_HI_ACT_J a)))

/-- A position in counts. -/
def posQ (x : Int) : Rat := mkRat x (2 ^ 32)

/-- Seconds between two instants in ns. -/
def secs (t0 t : Nat) : Rat := mkRat ((t : Int) - t0) 1000000000

/-! Masters (R244, R249, R250, R252). -/

/-- The sample slot a uses at an instant for a master. -/
def AxX.snap (x : AxX) (m : Master) : Sample :=
  match x.snaps.find? fun p => p.1 = m.key with
  | some (_, some s) => s
  | _ => {}

/-- Age in ns of the sample in use; a master that never sent has no age below any limit. -/
def AxX.age (x : AxX) (m : Master) (t : Nat) : Nat :=
  match x.snaps.find? fun p => p.1 = m.key with
  | some (_, some s) => t - s.t
  | _ => 2 ^ 64

/-- The estimated master state at instant t (R252). -/
def Dev.mstAt (d : Dev) (a : Nat) (m : Master) (t : Nat) : Kin :=
  let x := d.axX a
  let s := x.snap m
  let aged := decide (d.get (TRJ_AXaa_MAGE_ACT_MAXAGE a) * 1000 < x.age m t)
  let acc : Rat := if aged ∨ m.typ = 2 then 0 else mkRat s.a (2 ^ 16)
  let dt := secs s.t t
  let v : Rat := mkRat s.v (2 ^ 32)
  { p := posQ s.p + v * dt + acc * dt * dt / 2, v := v + acc * dt, a := acc }

/-- Is cam table d of engine e PERIODIC? -/
def camDirEnd (d : Dev) (i : Nat) : Bool := d.flag (TRJ_CAMDIR_md_END (i / 16) (i % 16))

/-- Index of a cam table in the directory and the tables. -/
def camIdx (a table : Nat) : Nat := 16 * (slotEngine a - 24) + table

/-- The geared or cammed part g of the set-point, its jerk, and whether the master lies outside a clamped table (R244, R249). -/
def Dev.mstPart (d : Dev) (a : Nat) (m : Master) (t : Nat) : Kin × Rat × Bool :=
  let k := d.mstAt a m t
  let r : Rat := mkRat m.n m.m
  let u := (k.p - m.x0) * r
  if m.cam then
    let i := camIdx a m.table
    let ((y, y1, y2, y3), out) := camEval (d.camTab i) (camDirEnd d i) u
    let du := k.v * r
    let ddu := k.a * r
    ({ p := m.g0 + y, v := y1 * du, a := y2 * du * du + y1 * ddu }, y3 * du * du * du + 3 * y2 * du * ddu, out)
  else ({ p := m.g0 + u, v := k.v * r, a := k.a * r }, 0, false)

/-- The set-point the slot's mode gives at an instant, with its jerk (R235). -/
def Dev.axKin (d : Dev) (a t : Nat) : Kin × Rat :=
  let x := d.axX a
  let e := x.k0.run x.segs (secs x.t0 t)
  match x.mst with
  | some m =>
    let (g, j, _) := d.mstPart a m t
    ({ p := g.p + e.1.p, v := g.v + e.1.v, a := g.a + e.1.a }, j + e.2)
  | none => e

/-! Events, responses. -/


/-- The command in progress is superseded at t (R238). -/
def Dev.axSupersede (d : Dev) (a t : Nat) : Dev :=
  let x := d.axX a
  if x.tc.isNone ∨ x.mst.isSome then d
  else ((d.setAxX a { x with work := none, tc := none }).finishDone x.work t { super := true }).axEvent a t 2 x.work

/-- Start a profile from state k at t: segments, the mode, where it ends and what it answers. -/
def Dev.axProfile (d : Dev) (a t mode : Nat) (k : Kin) (segs : List Seg) (final : Option Rat) (vEnd : Rat) (work : Option Nat) : Dev :=
  let x := d.axX a
  let d1 := d.setAxX a { x with
    t0 := t
    k0 := k
    segs := segs
    final := final
    vEnd := vEnd
    mst := none
    tc := some (d.axGrid a (t + upNs (k.exact segs final vEnd) (segTime segs)))
    work := work }
  d1.axSetMode a mode

/-- LIMRED when a condition holds (R240, R254). -/
def Dev.limRed (d : Dev) (a : Nat) (b : Bool) : Dev := if b then d.setf (TRJ_AXaa_STAT_LIMRED a) else d

/-- Registers of the master in force (R250). -/
def Dev.showMaster (d : Dev) (a : Nat) (m : Option Master) : Dev :=
  match m with
  | some m => ((d.setReg (TRJ_AXaa_MSRC_TYPE a).addr (BitVec.ofNat 32 (m.typ + m.slot * 2 ^ 8 + m.addr * 2 ^ 16 +
      (if m.cam then m.table * 2 ^ 24 else 0)))).putI (TRJ_AXaa_GN_N a) m.n).put (TRJ_AXaa_GM_M a) m.m
  | none => d.setReg (TRJ_AXaa_MSRC_TYPE a).addr 0


/-- Enter STOP at t from the set-point state (R254): `lane` for the lane's own stop, `code` when the lane is to enter FAULT at its end. -/
def Dev.axStop (d : Dev) (a t : Nat) (k : Kin) (work : Option Nat) (lane : Bool) (code : Nat) : Dev :=
  let m := d.axMode a
  let fromMst := decide (m = modeGear ∨ m = modeCam) || (decide (m = modeStop) && (d.axX a).fromMst)
  let l := d.axStopLims a
  let d1 := (d.axSupersede a t).axProfile a t modeStop k (velChange l k.v k.a 0) none 0 work
  let x := d1.axX a
  let d2 := d1.setAxX a { x with fromMst := fromMst, laneStop := x.laneStop || lane, faultEnd := if code ≠ 0 then code else x.faultEnd }
  ((d2.showMaster a none).limRed a (decide (k.v * k.a < 0) && decide (l.d < absQ k.a))).axEvent a t 4 work

/-- A move to a target (R239, R241). -/
def Dev.axMove (d : Dev) (a t : Nat) (k : Kin) (target : Rat) (work : Option Nat) : Dev :=
  let l := d.axLims a
  let d1 := (d.axSupersede a t).axProfile a t modePosition k (planMove l k.v k.a (target - k.p)) (some target) 0 work
  let d2 := ((d1.showMaster a none).limRed a (exceeds l k.v k.a)).put64 (TRJ_AXaa_TGT_LO_V a) (TRJ_AXaa_TGT_HI_V a) (uInt 64 target.floor)
  d2.axEvent a t 0 work

/-- A ramp to a velocity (R242). -/
def Dev.axRamp (d : Dev) (a t : Nat) (k : Kin) (v : Rat) (work : Option Nat) : Dev :=
  let l := d.axLims a
  let v := max (-l.v) (min l.v v)
  let d1 := (d.axSupersede a t).axProfile a t modeVelocity k (velChange l k.v k.a v) none v work
  ((d1.showMaster a none).limRed a (exceeds l k.v k.a)).axEvent a t 0 work


/-- Re-plan the move or ramp in progress to the same target (R243). -/
def Dev.axReplan (d : Dev) (a t : Nat) (k : Kin) (work : Option Nat) : Dev :=
  match d.axMode a, (d.axX a).final with
  | 1, some target => d.axMove a t k target work
  | 2, _ => d.axRamp a t k (d.axX a).vEnd work
  | _, _ => d

/-- Put limits in force, staged values with them (R243; log entry 19). -/
def Dev.putLimits (d : Dev) (a v ac de j : Nat) : Dev :=
  let d1 := (((d.put64 (TRJ_AXaa_VMAX_LO_ACT_V a) (TRJ_AXaa_VMAX_HI_ACT_V a) v).put64 (TRJ_AXaa_AMAX_LO_ACT_A a) (TRJ_AXaa_AMAX_HI_ACT_A a)
    ac).put64 (TRJ_AXaa_DMAX_LO_ACT_A a) (TRJ_AXaa_DMAX_HI_ACT_A a) de).put64 (TRJ_AXaa_JMAX_LO_ACT_J a) (TRJ_AXaa_JMAX_HI_ACT_J a) j
  (((d1.put64 (TRJ_AXaa_VMAX_LO_V a) (TRJ_AXaa_VMAX_HI_V a) v).put64 (TRJ_AXaa_AMAX_LO_A a) (TRJ_AXaa_AMAX_HI_A a) ac).put64
    (TRJ_AXaa_DMAX_LO_A a) (TRJ_AXaa_DMAX_HI_A a) de).put64 (TRJ_AXaa_JMAX_LO_J a) (TRJ_AXaa_JMAX_HI_J a) j

/-- Enter GEAR or CAM at t (R244, R245, R249). The correction starts as what the set-point and g differ by (log entry 19). -/
def Dev.axFollow (d : Dev) (a t : Nat) (k : Kin) (m : Master) (work : Option Nat) : Dev :=
  let xm := d.mstAt a m t
  let m1 : Master := if m.rel then { m with x0 := xm.p, g0 := k.p } else m
  let (g, _, _) := d.mstPart a m1 t
  let m2 : Master := if m.rel then { m1 with g0 := m1.g0 + (k.p - g.p) } else m1
  let e : Kin := { p := if m.rel then 0 else k.p - g.p, v := k.v - g.v, a := k.a - g.a }
  let l := { d.axLims a with v := d.axVmax a }
  let segs := if m.toMatch then velChange l e.v e.a 0 else planMove l e.v e.a (-e.p)
  let d1 := (d.axSupersede a t).axProfile a t (if m.cam then modeCam else modeGear) e segs (if m.toMatch then none else some 0) 0 none
  let d2 := d1.setAxX a { d1.axX a with mst := some m2, mepoch := some ((d.axX a).snap m).epoch }
  let d3 := (((d2.showMaster a (some m2)).limRed a (exceeds l e.v e.a)).setf (TRJ_AXaa_STAT_SYNC a) false).axEvent a t 0 work
  d3.finishDone work t

/-- The stop of a lane's slot has ended at t and the lane is to enter a state (R45, R253, R254): at once where t is a sample gate of the lane
that has applied every change before it, else at the gate that follows the change to STOPPING. -/
def Dev.stopEnds (d : Dev) (c : Clock) (a t : Nat) (st : LaneState) (code : Nat) (work : Option Nat) : Dev :=
  let x := d.lane a
  let g : LaneChg := { at_ := t, target := st, work := work, code := code }
  if !x.state.running then d
  else if x.chg.any fun k => k.target = .stopping then
    d.setLane a { x with chg := x.chg.flatMap fun k => if k.target = .stopping then [k, g] else [k] }
  else if 24 ≤ a then d.setLane a { x with chg := g :: x.chg }
  else d.laneEnter c a t st code

/-- The profile in progress ends at its instant: HOLD at the target, the ramp's velocity, HOLD where the stop ended, or SYNC (R241, R242,
R245, R254). The work of a stepper lane's stop is answered at the carrier start at which the lane enters ARMED. -/
def Dev.axComplete (d : Dev) (c : Clock) (a t : Nat) : Dev :=
  let x := d.axX a
  match x.tc with
  | none => d
  | some tc =>
    if t < tc then d else
    let e := (x.k0.run x.segs (secs x.t0 tc)).1
    let m := d.axMode a
    if m = modePosition then
      let d1 := (d.setAxX a { x with t0 := tc, k0 := { p := x.final.getD e.p }, segs := [], tc := none, work := none }).axSetMode a
        modeHold
      (d1.finishDone x.work tc).axEvent a tc 1 x.work
    else if m = modeVelocity then
      let d1 := d.setAxX a { x with t0 := tc, k0 := { p := e.p, v := x.vEnd }, segs := [], tc := none, work := none }
      (d1.finishDone x.work tc).axEvent a tc 1 x.work
    else if m = modeStop then
      let d1 := (d.setAxX a { x with
        t0 := tc
        k0 := { p := e.p }
        segs := []
        tc := none
        work := none
        laneStop := false
        faultEnd := 0
        fromMst := false }).axSetMode a modeHold
      let arms := decide (a < 32) && x.laneStop && (d.lane a).state.running && !(d.lane a).faulted && !(d.lane a).disputed &&
        decide (x.faultEnd = 0)
      let later := if arms && decide (24 ≤ a) then x.work else none
      let d2 := ((d1.setf (TRJ_AXaa_STAT_REGEN a) false).axEvent a tc 5 x.work).finishBy (if later.isSome then none else x.work) c tc
      if 32 ≤ a then d2
      else if (d2.lane a).disputed ∧ (d2.lane a).state = .stopping then
        let d3 := d2.laneEnter c a tc .disabled
        (d3.setLane a { d3.lane a with disputed := true }).showUnit c a
      else if x.faultEnd ≠ 0 then d2.stopEnds c a tc .fault x.faultEnd none
      else if arms then d2.stopEnds c a tc .armed 0 later
      else d2
    else
      match x.mst with
      | none => d
      | some mm =>
        let mm' := if mm.toMatch then { mm with g0 := mm.g0 + e.p } else mm
        ((d.setAxX a { x with t0 := tc, k0 := {}, segs := [], tc := none, mst := some mm' }).setf (TRJ_AXaa_STAT_SYNC a)).axEvent a tc 6 none

/-- Commands of slot a that wait while its lane stops do not take effect, so that none supersedes the stop (R256): answered DONE with the
superseded flag; axis.limits stays (log entry 78). -/
def Dev.axYield (d : Dev) (a t : Nat) : Dev :=
  let x := d.axX a
  let isLim (q : AxCmd) : Bool := match q.op with
    | .limits .. => true
    | _ => false
  let go := x.pend.filter fun q => !isLim q
  let d1 := d.setAxX a { x with pend := x.pend.filter isLim }
  let d2 := go.foldl (fun d q => (d.finishDone q.work t { super := true }).axEvent a t 2 q.work) d1
  if go.any AxCmd.isCam then d2.camUse (slotEngine a) else d2

/-- A command takes effect at t (R235 to R238, R242 to R244, R254). -/
def Dev.axTake (d : Dev) (c : Clock) (a t : Nat) (q : AxCmd) : Dev :=
  let x := d.axX a
  let k := (d.axKin a t).1
  let w := q.work
  let clr (d : Dev) : Dev := d.setf (TRJ_AXaa_STAT_SYNC a) false
  let d1 := match q.op with
    | .moveAbs p => clr (d.axMove a t k (posQ p) w)
    | .retarget p => clr (d.axMove a t k (posQ p) w)
    | .moveRel p => clr (d.axMove a t k ((match d.axMode a, x.final with
        | 1, some f => f
        | _, _ => k.p) + posQ p) w)
    | .moveVel v => clr (d.axRamp a t k (mkRat v (2 ^ 32)) w)
    | .stop lane => clr (if lane then (d.axYield a t).axStop a t k w true 0 else (d.axStop a t k none false 0).finishDone w t)
    | .limits v ac de j =>
      let d' := d.putLimits a v ac de j
      if d.axMoving a then d'.axReplan a t k w else d'.finishDone w t
    | .master m => d.axFollow a t k m w
  d1.axComplete c a t

/-- Take the slot's motion to instant t: a tracking slot follows the latch (R256), the profile in progress completes, marked stops start
(R253, R255, R490). Work discarded stops a slot unless its motion is continuous state (R255). -/
def Dev.axSettle (d : Dev) (c : Clock) (a t : Nat) : Dev :=
  let x := d.axX a
  let d0 := if a < 24 ∧ !x.live then
      (let e := d.axYield a t
       ((e.setAxX a { e.axX a with t0 := t, k0 := { p := posQ (d.fbkX a).x }, segs := [], tc := none, mst := none }).axSetMode a
         modeHold).showMaster a none)
    else d.axComplete c a t
  let y := d0.axX a
  let m := d0.axMode a
  let d1 := if y.disc then (d0.setAxX a { y with disc := false }).setf (TRJ_AXaa_STAT_DISC a) else d0
  let loose := d0.axMoving a || (decide (m = modeHold) && (decide (24 ≤ a) || x.live))
  let d2 := if (y.disc && loose) || (y.halt && decide (m ≠ modeStop)) then
      ((d1.axStop a t (d1.axKin a t).1 none (y.halt && y.haltLane) 0).axComplete c a t)
    else if y.halt && y.haltLane then d1.setAxX a { d1.axX a with laneStop := true }
    else d1
  let d3 := d2.setAxX a { d2.axX a with halt := false, haltLane := false }
  if (d3.axX a).replan then
    (let d' := d3.setAxX a { d3.axX a with replan := false }
     if d'.axMode a = modePosition ∨ d'.axMode a = modeVelocity then d'.axReplan a t (d'.axKin a t).1 none else d')
  else d3

/-- The slot's accepted commands that are due at t and that `ok` picks take effect, in order (R237). -/
def Dev.axTakeDue (d : Dev) (c : Clock) (a t : Nat) (ok : AxCmd → Bool) : Dev :=
  let now (p : AxCmd) : Bool := decide (p.ta ≤ t) && ok p
  let x := d.axX a
  (x.pend.filter now).foldl (fun d p => d.axTake c a t p) (d.setAxX a { x with pend := x.pend.filter fun p => !now p })

/-- Take the slot's state to instant t, its due commands with it. -/
def Dev.axAdvance (d : Dev) (c : Clock) (a t : Nat) : Dev := (d.axSettle c a t).axTakeDue c a t fun _ => true

/-! The trim of a process loop (R281, R282). -/

/-- Trim position and velocity at instant t from the loop blocks that trim slot a. -/
def Dev.axTrim (d : Dev) (a t : Nat) : Rat × Rat :=
  if a < 32 && !(d.lane a).state.running then (0, 0) else
  (List.range 16).foldl (fun acc b =>
    let ty := d.get (LPB_bb_CFG_ACT_DTYPE b)
    if (ty = 1 ∨ ty = 2) ∧ d.get (LPB_bb_DST_ACT_UNIT b) = a then
      (match (d.loopX b).outs.find? fun o => o.at_ ≤ t with
        | some o => if ty = 1 then (acc.1 + o.d, acc.2) else (acc.1 + o.w + o.d * secs o.at_ t, acc.2 + o.d)
        | none => acc)
    else acc) (0, 0)

/-! The set-point job (R233, R234, R241, R264). -/

/-- Nearest multiple of 2^-n as an integer, ties to even. -/
def fix (n : Nat) (x : Rat) : Int := roundQ (x * (2 ^ n : Nat))

/-- What the set-point of slot a is at instant t: in motion each position is within 2^-16 count of the exact one by a free error (R241;
log entry 19). -/
def Dev.setpoint (d : Dev) (c : Clock) (a t : Nat) : Sample × Dev :=
  let w := d.axAdvance c a t
  let (k, j) := w.axKin a t
  let (tp, tv) := w.axTrim a t
  let rest := decide (w.axMode a = modeHold)
  let (f, d1) := if rest then (0, d) else d.takeFree
  let err : Int := if rest then 0 else f % (2 ^ 17 - 1) - (2 ^ 16 - 1)
  ({ t := t, p := sInt 96 (uInt 96 (fix 32 (k.p + tp) + err)), v := fix 32 (k.v + tv), a := fix 16 k.a, j := fix 16 j,
     epoch := (w.lane a).epoch }, d1)

/-- Payload words 1 to 4 of a set-point or master sample. -/
def Sample.words (s : Sample) : List W64 := posWords s.p ++ [BitVec.ofInt 64 s.v, BitVec.ofInt 64 s.a]

/-- A set-point is not sent: SP_LATE and FC090 (R233). -/
def Dev.spLate (d : Dev) (c : Clock) (a : Nat) : Dev := (d.setf (TRJ_AXaa_STAT_SP_LATE a)).reportLim c 90 a

/-- What the set-point job of slot a does by its END. -/
def Dev.setpointJob (d : Dev) (c : Clock) (a : Nat) : Dev :=
  let j := slotSetpoint a
  let t := (d.jobX j).inst
  let plan := (d.axX a).pend.filter fun p => p.ta = t
  let d0 := plan.foldl (fun d p => d.freeDemand p.work) d
  if d.jobDeadline j < c.ns then d0.spLate c a
  else
    let (s, d1) := d0.setpoint c a t
    let d2 := d1.setSample a (s :: (d1.sample a).take 3)
    if 32 ≤ a then d2 else d2.emit a 0x40 (some (t, 0)) 0 (s.words ++ [BitVec.ofInt 64 s.j])

/-! Slot groups (R266). -/

/-- Base address of slot a's registers. -/
def trjBase (a : Nat) : Nat := 0x40090000 + 0x100 * a

/-- CFG_ZERO checks. -/
def Dev.axZero (d : Dev) (a : Nat) : Bool :=
  d.get (TRJ_AXaa_CFG_TDIV a) = 0 || d.get (TRJ_AXaa_TPER_TPER a) = 0 || d.get (TRJ_AXaa_MAGE_LOSTAGE a) = 0 ||
    ((List.range 6).any fun i => d.reg (trjBase a + 0x10 + 8 * i) = 0 && d.reg (trjBase a + 0x14 + 8 * i) = 0)

/-- CFG_CONFLICT checks for a slot in HOLD or not. -/
def Dev.axConflict (d : Dev) (a : Nat) (hold : Bool) : Bool :=
  let tdiv := d.get (TRJ_AXaa_CFG_TDIV a)
  let tper := d.get (TRJ_AXaa_TPER_TPER a)
  let t := d.trajTof a tdiv tper
  let padr := d.get (TRJ_AXaa_CFG_PADDR a)
  64 < tdiv || (t < 25000 && t ≠ 0) || 2000000 < tper || tper ≤ d.get (TRJ_AXaa_TPH_TPH a) ||
    d.get (TRJ_AXaa_MAGE_LOSTAGE a) < d.get (TRJ_AXaa_MAGE_MAXAGE a) || (d.reg (TRJ_AXaa_VMAX_HI_V a).addr).msb ||
    (d.flag (TRJ_AXaa_CFG_PUBSRC a) && decide (24 ≤ a)) || (0x41 ≤ padr && padr ≤ 0xFE) ||
    (!hold && (d.differs (TRJ_AXaa_CFG_TDIV a) (TRJ_AXaa_CFG_ACT_TDIV a) ||
      ([4, 8] ++ (List.range 12).map (0x10 + 4 * ·)).any fun o => d.reg (trjBase a + o) ≠ d.reg (trjBase a + 0x80 + o)))

/-- The staged group of slot a in force, its job counted. -/
def Dev.axCopy (d : Dev) (a : Nat) : Dev :=
  (d.copyRegs ((List.range 16).map fun i => (trjBase a + 4 * i, trjBase a + 0x80 + 4 * i))).enrol (slotSetpoint a)

/-- OVERLOAD check (R308). -/
def Dev.axOverload (d : Dev) (a : Nat) : Bool := !(d.axCopy a).fitsCap (slotEngine a)

/-- The commit of a slot group (R266). -/
def Dev.axApply (d : Dev) (a : Nat) : Dev :=
  let d0 := d.setf (TRJ_AXaa_CTL_CMT a) false
  if d.axZero a then d0.setf (TRJ_AXaa_CTL_ZERO a)
  else if d.axConflict a (d.axMode a = modeHold) then d0.setf (TRJ_AXaa_CTL_CONFLICT a)
  else if d.axOverload a then d0.setf (TRJ_AXaa_CTL_OVERLOAD a)
  else d0.axCopy a

/-- Images and a pending commit of slot a take effect at t. -/
def Dev.axCommit (d : Dev) (a t : Nat) : Dev :=
  let (im, d0) := d.takeImages (trjBase a) t
  if d0.flag (TRJ_AXaa_CTL_CMT a) ∨ !im.isEmpty then (d0.axApply a).doneImages im t else d0


/-- What instant t does to a slot (R237, R255, R266): its motion settles, the commands accepted before an image of the slot take effect, its
group commits, and the commands accepted after the image take effect (log entry 93). -/
def Dev.axMoment (d : Dev) (c : Clock) (a t : Nat) : Dev :=
  (((d.axSettle c a t).axTakeDue c a t fun p => d.beforeImages (trjBase a) t p.work).axCommit a t).axTakeDue c a t fun _ => true

/-- The state at a future instant t that the accepted commands produce (R237, R384): each at its own takeover or commit instant. -/
def Dev.axTo (d : Dev) (c : Clock) (a t : Nat) : Dev :=
  let ts := ((d.axX a).pend.map (·.ta) ++ (d.imgs.filter fun p => p.group = trjBase a).map (·.due)).foldl
    (fun acc x => if x < t then insId x acc else acc) []
  (ts.foldl (fun d x => d.axMoment c a x) d).axMoment c a t

/-! The trajectory instant. -/

/-- The slot's master fails: the discrete work is discarded with the code, the slot enters STOP, and the lane of a real slot enters STOPPING
and later FAULT (R253). -/
def Dev.masterFail (d : Dev) (c : Clock) (a code : Nat) : Dev :=
  let d1 := (d.record c code a 0).discardUnit c code a
  let d2 := d1.setAxX a { d1.axX a with halt := true, haltLane := false, hold31 := false, faultEnd := if a < 24 then code else 0 }
  if a < 24 ∧ (d2.lane a).state = .enabled then
    d2.setLane a { d2.lane a with chg := [{ at_ := c.ns, target := .stopping, work := none, code := code }] }
  else d2

/-- Judge the master's age, epoch and range at t (R246, R248, R252, R253). -/
def Dev.masterJudge (d : Dev) (c : Clock) (a t : Nat) : Dev :=
  let x := d.axX a
  match x.mst with
  | none => (d.setf (TRJ_AXaa_STAT_CAMOUT a) false).setf (TRJ_AXaa_STAT_OVERLIM a) false
  | some m =>
    let age := x.age m t
    let (g, _, out) := d.mstPart a m t
    let d1 := if d.get (TRJ_AXaa_MAGE_ACT_MAXAGE a) * 1000 < age then
        ((d.setf (TRJ_AXaa_STAT_MAGED a)).reportLim c 92 a).axEvent a t 7 none
      else d
    let ep := (x.snap m).epoch
    let d2 := if m.typ = 3 ∧ x.mepoch.isSome ∧ x.mepoch ≠ some ep then d1.setf (TRJ_AXaa_STAT_MEPOCH a) else d1
    let d3 := d2.setAxX a { d2.axX a with mepoch := some ep }
    let d4 := if out ∧ !d.flag (TRJ_AXaa_STAT_CAMOUT a) then d3.axEvent a t 9 none else d3
    let d5 := if out then (d4.setf (TRJ_AXaa_STAT_CAMOUT a)).reportLim c 95 a else d4.setf (TRJ_AXaa_STAT_CAMOUT a) false
    let d6 := d5.setf (TRJ_AXaa_STAT_OVERLIM a) (!m.cam && decide (d.axVmax a < absQ g.v))
    if d.get (TRJ_AXaa_MAGE_ACT_LOSTAGE a) * 1000 < age then ((d6.masterFail c a 93).axEvent a t 8 none).axAdvance c a t else d6

/-- A stop under REGEN never decelerates faster than the coasting motor (R257). -/
def Dev.regenStop (d : Dev) (a t : Nat) : Dev :=
  if 24 ≤ a ∨ d.axMode a ≠ modeStop ∨ !d.flag (PWM_Gg_BSTAT_REGEN (groupOf a)) then d
  else
    let k := (d.axKin a t).1
    let y := d.fbkX a
    let v : Rat := mkRat y.v (2 ^ 32)
    if absQ v ≤ absQ k.v then d
    else
      let x := d.axX a
      let k' : Kin := { p := posQ y.x, v := v }
      let segs := velChange (d.axStopLims a) v 0 0
      (d.setAxX a { x with t0 := t, k0 := k', segs := segs, tc := some (d.axGrid a (t + upNs (k'.exact segs none 0) (segTime segs))) }).setf
        (TRJ_AXaa_STAT_REGEN a)

/-- Show the set-point of instant t (the SP registers): the one sent for it, or the latched position a slot tracks. -/
def Dev.showSp (d : Dev) (a t : Nat) : Dev :=
  let s := if a < 24 ∧ !(d.axX a).live then some { t := t, p := (d.fbkX a).x : Sample } else (d.sample a).find? fun s => s.t = t
  match s with
  | some s => ((d.put64 (TRJ_AXaa_SP_LO_V a) (TRJ_AXaa_SP_HI_V a) (uInt 64 (s.p / 2 ^ 32))).put (TRJ_AXaa_SP_FRAC_V a) (uInt 32 s.p)).put64
      (TRJ_AXaa_SV_LO_V a) (TRJ_AXaa_SV_HI_V a) (uInt 64 s.v)
  | none => d

/-- The type 0x42 sample of instant t (R251): the set-point sent for it, or the lane's latch. -/
def Dev.publish (d : Dev) (a t : Nat) : Dev :=
  if !d.flag (TRJ_AXaa_CFG_ACT_PUB a) then d
  else
    let src := d.flag (TRJ_AXaa_CFG_ACT_PUBSRC a)
    let y := d.fbkX a
    let s := if src then some { t := y.at_.getD t, p := y.x, v := y.v : Sample } else (d.sample a).find? fun s => s.t = t
    match s with
    | some s => d.emitTo (d.get (TRJ_AXaa_CFG_ACT_PADDR a)) 0xFE 0x42 (some (s.t, 0)) 0
        (s.words ++ [BitVec.ofNat 64 (d.streamAddr + a * 2 ^ 8 + if src then 2 ^ 16 else 0)])
    | none => d

/-- At the launch of the job for the next instant: the samples it will use, and its arming (R233, R252, R302). -/
def Dev.armSetpoint (d : Dev) (c : Clock) (a t : Nat) : Dev :=
  let x := d.axX a
  let next := t + d.trajT a
  let keys := (match x.mst with
    | some m => [m.key]
    | none => []) ++ x.pend.filterMap fun p => match p.op with
      | .master m => some m.key
      | _ => none
  let d0 := d.setAxX a { x with snaps := (keys.dedup).map fun k => (k, latestAt next (d.sample k)) }
  let j := slotSetpoint a
  let st := d0.jobState j
  let d1 := if st = jobFree then d0 else d0.spLate c a
  let cls := match x.pend.find? fun p => p.ta = next with
    | some p => (match p.op with
      | .master _ => 0x16
      | _ => 0x15)
    | none => d.modeClass a (d.axMode a) x.mst
  let d2 := if st = jobRun ∨ st = jobPreempted then d1 else d1.put (HERDER_JOBj_CFG_CLS j) cls
  d2.jobArm c j next t (d.trajT a - 1000)

/-- HOLD_EXP stops a slot that follows another device, at its position-loop instant (R63, R253): of a slot without a position loop, its
trajectory instant. -/
def Dev.holdoverAt (d : Dev) (c : Clock) (a : Nat) : Dev :=
  let x := d.axX a
  if !x.hold31 then d
  else match x.mst with
    | some m => if m.typ = 3 ∨ m.typ = 4 then d.masterFail c a 31 else d.setAxX a { x with hold31 := false }
    | none => d.setAxX a { x with hold31 := false }

/-- The trajectory instant t of slot a (R232). -/
def Dev.axInstant (d : Dev) (c : Clock) (a t : Nat) : Dev :=
  if d.idleHerd t then d.setAxX a { d.axX a with tj := t } else
  let d0 := (d.setAxX a { d.axX a with tj := t }).holdoverAt c a
  let d1 := (d0.axMoment c a t).masterJudge c a t
  let d2 := ((d1.regenStop a t).showSp a t).publish a t
  let d3 := d2.armSetpoint c a t
  if d.axMode a = modeCam ∨ d3.axMode a = modeCam then d3.camUse (slotEngine a) else d3

def execTrajectoryInstant (a : Fin 64) (s : State) : Host.Outcome State Fault Refusal :=
  .next (s.onServing fun c d => match d.axDue c a with
    | some t => d.axInstant c a t
    | none => d)

/-- TRJ_AXaa_CTL.CMT (R266): a slot without trajectory instants commits at once. -/
def execTrjCommit (a : Fin 64) (s : State) : Host.Outcome State Fault Refusal :=
  .next (s.onServing fun _ d =>
    if d.trajT a = 0 then d.axApply a else d.setf (TRJ_AXaa_CTL_CMT a))

/-- A read of TRJ_AXaa_SP_LO latches SP_HI, SP_FRAC and SV (R234). -/
def execSpLatch (a : Fin 64) (s : State) : Host.Outcome State Fault Refusal :=
  .next (s.onServing fun _ d => d.latchRegs [(TRJ_AXaa_SP_HI_V a).addr, (TRJ_AXaa_SP_FRAC_V a).addr, (TRJ_AXaa_SV_LO_V a).addr,
    (TRJ_AXaa_SV_HI_V a).addr])

/-- HOLD_EXP: every slot that follows a remote slot or a stream is to stop with FL031 (R63, R253). -/
def Dev.holdoverStop (d : Dev) (c : Clock) : Dev :=
  let d1 := d.holdoverLimit c
  if d.servo.expired ∨ !d1.servo.expired then d1
  else (List.range 64).foldl (fun d a => match (d.axX a).mst with
    | some m => if m.typ = 3 ∨ m.typ = 4 then d.setAxX a { d.axX a with hold31 := true } else d
    | none => d) d1

def execHoldoverLimit (s : State) : Host.Outcome State Fault Refusal := .next (s.onServing fun c d => d.holdoverStop c)

/-- A real slot starts at the sample gate at which its lane starts in class Standstill or Flying (R256). -/
def Dev.axStart (d : Dev) (a t cls : Nat) : Dev :=
  let y := d.fbkX a
  let v : Rat := if cls = 2 then mkRat y.v (2 ^ 32) else 0
  ((d.setAxX a { d.axX a with
    live := true
    t0 := t
    k0 := { p := posQ y.x, v := v }
    segs := []
    tc := none
    vEnd := v
    mst := none
    fromMst := false
    laneStop := false
    faultEnd := 0
    halt := false
    haltLane := false }).put (TRJ_AXaa_STAT_MODE a) (if cls = 2 then modeVelocity else modeHold)).showMaster a none

end Sys2Proof.Machine
end

