-- ==== Sys2Proof/Machine/MirrorLoad.lean ====
section
/-! DEFINITION. The mirror load of a pair (R460). -/

namespace Sys2Proof.Machine

/-- Bytes per µs of a lane with period `per` in ticks. -/
def laneLoad (mdiv per : Nat) : Rat := if per = 0 then 0 else (24 + (if mdiv = 0 then 0 else mkRat 96 mdiv)) * mkRat 1000 (2 * per)

/-- Bytes per µs of a record of `n` bytes every `t` ns. -/
def recLoad (n t : Nat) : Rat := if t = 0 then 0 else mkRat (n * 1000) t

/-- Does slot a send master records: GEAR or CAM of a remote slot or a stream (R250, R458)? -/
def Dev.remoteMaster (d : Dev) (a : Nat) : Bool :=
  match (d.axX a).mst with
  | some m => m.typ = 3 || m.typ = 4
  | none => false

/-- A slot is idle while it stands in HOLD and no configuration or command has admitted its job (R460; log entry 94). -/
def Dev.slotIdle (d : Dev) (a : Nat) : Bool := decide (d.axMode a = modeHold) && !d.her.admitted.contains (slotSetpoint a)

/-- Load of slot a. -/
def Dev.slotLoad (d : Dev) (a : Nat) : Rat :=
  (if d.slotIdle a then 0 else recLoad 64 (d.trajT a)) + if d.remoteMaster a then recLoad 56 (d.trajT a) else 0

/-- Load of block b. -/
def Dev.blockLoad (d : Dev) (b : Nat) : Rat := if d.get (LPB_bb_STAT_MODE b) = 0 then 0 else recLoad 32 (2 * d.get (LPB_bb_LPER_ACT_LPER b))

/-- B with MDIV given: the sum over lanes, slots and blocks in force. -/
def Dev.mirrorLoad (d : Dev) (mdiv : Nat) : Rat :=
  (List.range 24).foldl (fun s l => s + laneLoad mdiv (d.lanePer l)) 0 + (List.range 64).foldl (fun s a => s + d.slotLoad a) 0 +
    (List.range 16).foldl (fun s b => s + d.blockLoad b) 0

/-- In MIRRORED and SYNCING, would B exceed 200 bytes per µs once every accepted image is in force? -/
def Dev.mirrorOver (d : Dev) : Bool :=
  let st := d.get PAIR_STAT_PSTATE
  (st = 1 || st = 2) && decide (200 < ((d.imagesOf fun _ => true).foldl (fun d p => d.imageIn p) d).mirrorLoad (d.get PAIR_CFG_MDIV))

end Sys2Proof.Machine
end

