-- ==== Sys2Proof/Machine/TrajCmd.lean ====
section
/-! DEFINITION. The trajectory commands (R235 to R238, R243, R244, R247, R249, R256, R257, R309, R311, R382, R385, R388). -/

namespace Sys2Proof.Machine

/-- Slot a's first trajectory instant from `bound` on: on the grid in force, and past the instant at which an accepted image of the slot or of
its lane commits on the image's (R232, R384). -/
def Dev.axGridPast (d : Dev) (a bound : Nat) : List PendImg → Nat → Nat
  | [], lo => d.axGrid a (max lo bound)
  | p :: ps, lo =>
    let from_ := max lo p.from_
    let τ := if p.group = trjBase a then d.axGrid a from_ else d.firstFiring (48 + a) from_
    let t := d.axGrid a (max lo bound)
    if t ≤ τ then t else (d.imageAt (48 + a) τ p).axGridPast a bound ps (τ + 1)

def Dev.axGridAhead (d : Dev) (a bound : Nat) : Nat :=
  d.axGridPast a bound (d.imagesOf fun p => p.group = trjBase a || (decide (a < 24) && p.group = laneBase a)) 0

/-- The takeover instant of a command accepted at t_ref (R235). -/
def Dev.axTakeover (d : Dev) (a at_ tref : Nat) : Nat := d.axGridAhead a (max at_ (tref + d.trajT a))

/-- No command may act on the motion of slot a at t: sys.stop runs, the slot has no instants, or the lane of a real slot is not ENABLED in a
running start class, now and at t (R43, R232, R256). -/
def Dev.axClosed (d : Dev) (a t : Nat) : Bool :=
  d.sysStop.isSome || d.trajT a = 0 ||
    (a < 24 && (!(d.axX a).live || (d.lane a).state ≠ .enabled || d.stateAt a t ≠ .enabled))

/-- REGEN is set for the slot's DC group (R257). -/
def Dev.axRegen (d : Dev) (a : Nat) : Bool := a < 32 && d.flag (PWM_Gg_BSTAT_REGEN (groupOf a))

/-- Which commands a condition concerns. -/
structure AxRule where
  /-- A move, gear or cam command under R43, R232 and R256. -/
  closed : Bool := true
  /-- A move command under R257. -/
  move : Bool := false
  /-- Refused while the set-point depends on a master (R237). -/
  free : Bool := false
  /-- move.retarget (R236). -/
  retarget : Bool := false

/-- Accept a trajectory command (R235 to R238, R308, R309, R311): `pre` are its own conditions, given the state w at t_a. -/
def axCommand (len : Nat → Bool) (rule : AxRule) (plan : Nat) (op : Request → AxOp) (bad : Request → Dev → List (Bool × Nat)) : CmdFn :=
  fun c tref q d =>
    let a := q.target.toNat
    let t := d.axTakeover a (q.at_ tref) tref
    if 64 ≤ a ∨ !len q.payload.length then .refuse rcBadFormat 31 0 else
    let w := d.axTo c a t
    let x := w.axX a
    let m := w.axMode a
    let dep := x.mst.isSome || (decide (m = modeStop) && x.fromMst)
    let state := (rule.closed && d.axClosed a t) || (rule.move && d.axRegen a) || (rule.free && dep) ||
      (rule.retarget && m ≠ modePosition)
    refuseIf ((bad q w).filter (fun p => p.2 = rcBadFormat) ++ [(d.isReleased 9 a, rcRegOwned), (state, rcBadState)] ++
        (bad q w).filter (fun p => p.2 ≠ rcBadFormat)) fun _ =>
      if d.trajT a = 0 then .done {} (w.axTake c a t { op := op q, ta := t, work := none })
      else
        let after := w.axTake c a t { op := op q, ta := t, work := none }
        let ends := match op q with
          | .master _ => t
          | .stop false => t
          | .limits .. => if w.axMoving a then (after.axX a).tc.getD t else t
          | _ => (after.axX a).tc.getD t
        let e := slotEngine a
        let d1 := (d.setAxX a { d.axX a with pend := (d.axX a).pend ++ [{ op := op q, ta := t, work := some q.id }] }).enrol
          (slotSetpoint a)
        let cls := d.modeClass a m x.mst
        let term := d.cost plan - d.cost cls
        let win := w.trajT a - 1000 - 250 * d.get HERDER_CTRL_TICK
        if tooLate q tref ends then .refuse rcTooLate 31 0
        else if !d1.fitsCap e then .refuse rcOverload e ((d.opClass a (op q)).getD cls)
        else if !d1.fitsOneShot e (d1.engDens (d.get HERDER_CTRL_TICK) e) term win (t - 1000) then .refuse rcOverload e plan
        else .accept ends ((d1.addDemand c e term win (t - 1000) q.id).camUse e)

def cmdMoveAbs : CmdFn := axCommand (· = 2) { move := true, free := true } 0x15
  (fun q => .moveAbs (posOf (q.pw 0) (q.pw 1))) fun _ _ => []
def cmdMoveRel : CmdFn := axCommand (· = 2) { move := true, free := true } 0x15
  (fun q => .moveRel (posOf (q.pw 0) (q.pw 1))) fun _ _ => []
def cmdMoveRetarget : CmdFn := axCommand (· = 2) { move := true, free := true, retarget := true } 0x15
  (fun q => .retarget (posOf (q.pw 0) (q.pw 1))) fun _ _ => []

/-- move.vel: a target above VMAX refuses with CFG_CONFLICT (R242). -/
def cmdMoveVel : CmdFn := axCommand (· = 1) { move := true, free := true } 0x15 (fun q => .moveVel (q.pw 0).toInt)
  fun q w => [(decide ((w.axLims q.target.toNat).v < absQ (mkRat (q.pw 0).toInt (2 ^ 32))), rcCfgConflict)]

def cmdMoveStop : CmdFn := axCommand (· = 0) { move := true } 0x15 (fun _ => .stop false) fun _ _ => []

/-- axis.limits (R243, R256, R266). -/
def cmdAxisLimits : CmdFn := axCommand (· = 4) { closed := false } 0x15
  (fun q => .limits (q.pw 0).toNat (q.pw 1).toNat (q.pw 2).toNat (q.pw 3).toNat)
  fun q _ => [(q.payload.any (· = 0), rcCfgZero), ((q.pw 0).msb, rcCfgConflict)]

def execMoveAbs (q : Request) (s : State) : Host.Outcome State Fault Refusal := .next (s.command 0x0200 cmdMoveAbs q)
def execMoveRel (q : Request) (s : State) : Host.Outcome State Fault Refusal := .next (s.command 0x0201 cmdMoveRel q)
def execMoveRetarget (q : Request) (s : State) : Host.Outcome State Fault Refusal := .next (s.command 0x0202 cmdMoveRetarget q)
def execMoveVel (q : Request) (s : State) : Host.Outcome State Fault Refusal := .next (s.command 0x0203 cmdMoveVel q)
def execMoveStop (q : Request) (s : State) : Host.Outcome State Fault Refusal := .next (s.command 0x0204 cmdMoveStop q)
def execAxisLimits (q : Request) (s : State) : Host.Outcome State Fault Refusal := .next (s.command 0x0205 cmdAxisLimits q)

/-! gear.set and cam.set (R388). -/

/-- Samples of a master (R250): local slot, port, remote slot, or the stream addressed to slot a. -/
def masterKey (typ slot addr a : Nat) : Nat :=
  if typ = 1 then slot else if typ = 2 then 64 + slot else if typ = 3 then 256 + 64 * addr + slot else 128 + a

/-- What the payload of gear.set or cam.set says. -/
def masterOf (cam : Bool) (q : Request) : Master :=
  let w := q.pw 0
  let abs_ := bits64 w 24 1 = 1
  let typ := bits64 w 0 3
  { cam := cam
    key := masterKey typ (bits64 w 8 6) (bits64 w 16 8) q.target.toNat
    typ := typ
    slot := bits64 w 8 6
    addr := bits64 w 16 8
    table := bits64 w 28 4
    rel := !abs_
    toMatch := bits64 w 25 1 = 1
    n := sInt 32 (bits64 (q.pw 1) 0 32)
    m := bits64 (q.pw 1) 32 32
    g0 := posQ (posOf (q.pw 2) (q.pw 3))
    x0 := posQ (posOf (q.pw 4) (q.pw 5)) }

/-- Reserved bits of the master word, its TYPE, and the length that REL and ABS give (R388; log entry 19). -/
def masterFormatOk (cam : Bool) (q : Request) : Bool :=
  let w := q.pw 0
  let typ := bits64 w 0 3
  decide (1 ≤ typ) && decide (typ ≤ 4) && bits64 w 3 5 = 0 && bits64 w 14 2 = 0 && bits64 w 26 2 = 0 && bits64 w 32 32 = 0 &&
    (cam || bits64 w 28 4 = 0) && (if bits64 w 24 1 = 1 then decide (q.payload.length = 6) else decide (q.payload.length = 4))

/-- Checks of R244 to R249: M of 0, an empty table; a ratio above 2^31, MATCH with ABS, a port that does not exist. -/
def masterBad (cam : Bool) (q : Request) (d : Dev) : List (Bool × Nat) :=
  let m := masterOf cam q
  let i := camIdx q.target.toNat m.table
  [(!masterFormatOk cam q, rcBadFormat), (m.m = 0 || (cam && d.get (TRJ_CAMDIR_md_LEN (i / 16) (i % 16)) = 0), rcCfgZero),
    (decide (2 ^ 31 * m.m < m.n.natAbs) || (m.toMatch && !m.rel) || (m.typ = 2 && decide (24 ≤ m.slot)), rcCfgConflict)]

def cmdGearSet : CmdFn := axCommand (fun n => n = 4 ∨ n = 6) {} 0x16 (fun q => .master (masterOf false q)) (masterBad false)
def cmdCamSet : CmdFn := axCommand (fun n => n = 4 ∨ n = 6) {} 0x16 (fun q => .master (masterOf true q)) (masterBad true)

def execGearSet (q : Request) (s : State) : Host.Outcome State Fault Refusal := .next (s.command 0x0210 cmdGearSet q)
def execCamSet (q : Request) (s : State) : Host.Outcome State Fault Refusal := .next (s.command 0x0211 cmdCamSet q)

/-! axis.cfg (R266, R383, R384). -/

/-- axis.cfg: the commit is at the first trajectory instant after its lead. -/
def cmdAxisCfg : CmdFn := fun c tref q d =>
  let a := q.target.toNat
  if 64 ≤ a || q.noImage then .refuse rcBadFormat 31 0 else
  let ok := imageOk (fun r => trjBase a ≤ r && r < trjBase a + 0x40) q.image
  let from_ := imageLead q tref
  let t := d.axGridAhead a from_
  let hold := decide ((d.axTo c a t).axMode a = modeHold)
  let d1 := d.atCommit t q.image
  let d2 : Dev := { d.enrol (slotSetpoint a) with
    imgs := d.imgs ++ [{ group := trjBase a, from_ := from_, due := t, pairs := q.image, work := some q.id }] }
  refuseIf [(d.isReleased 9 a, rcRegOwned), (ok && d1.axZero a, rcCfgZero), (!ok || d1.axConflict a hold, rcCfgConflict)] fun _ =>
    if tooLate q tref t then .refuse rcTooLate 31 0
    else if !d2.fitsCap (slotEngine a) then .refuse rcOverload (slotEngine a) (d.modeClass a (d.axMode a) (d.axX a).mst)
    else if d2.mirrorOver then .refuse rcOverload 31 0
    else .accept t d2

def execAxisCfg (q : Request) (s : State) : Host.Outcome State Fault Refusal := .next (s.command 0x0206 cmdAxisCfg q)

/-! cam.load (R247, R309, R311, R385). -/

/-- What a segment stream comes to (R385): a refusal that drops the copy, a stored segment, or the whole copy at LAST. -/
inductive SegOut where
  | refuse (d : Dev)
  | stored (d : Dev)
  | whole (segs : List (List W64)) (d : Dev)

/-- One segment of cam.load or ext.load at mailbox m: SEGIDX and LAST given. -/
def Dev.segment (d : Dev) (m opc idx : Nat) (last : Bool) (ws : List W64) : SegOut :=
  let x := d.mbox m
  let drop : Dev := (d.setMbox m { x with stage := none }).setf (MBX_Mm_STAT_STAGE m) false
  let prev : Option (List (List W64)) :=
    if idx = 0 then some []
    else match x.stage with
      | some (o, n, segs) => if o = opc ∧ idx = n + 1 then some segs else none
      | none => none
  match prev with
  | none => .refuse drop
  | some segs =>
    if last then .whole (segs ++ [ws]) drop
    else .stored ((d.setMbox m { x with stage := some (opc, idx, segs ++ [ws]) }).setf (MBX_Mm_STAT_STAGE m))

/-- The points of a segment's payload. -/
def camPts (ws : List W64) : List (Int × Int) :=
  match ws with
  | x :: y :: r => (x.toInt, y.toInt) :: camPts r
  | _ => []

/-- Points of a whole copy: NPT of each segment. -/
def segPts (segs : List (List W64)) : List (Int × Int) :=
  segs.flatMap fun s => camPts ((s.drop 1).take (2 * bits64 (s.headD 0) 16 6))

/-- x_0 = 0 and x_i rises strictly (R247). -/
def camRises (ps : List (Int × Int)) : Bool :=
  (match ps with
    | p :: _ => p.1 = 0
    | [] => true) && (ps.zip (ps.drop 1)).all fun p => decide (p.1.1 < p.2.1)

/-- Points that an engine's other tables and loads hold. -/
def Dev.camPoints (d : Dev) (e i : Nat) : Nat :=
  let dir := (List.range 16).foldl (fun n k => if 16 * (e - 24) + k = i then n else n + d.get (TRJ_CAMDIR_md_LEN (e - 24) k)) 0
  (d.camLoads.filter fun l => l.tab / 16 = e - 24 ∧ l.tab ≠ i).foldl (fun n l => n + l.pts.length) dir

/-- The first one-shot slot that is FREE (R291, R310). -/
def Dev.freeSlot (d : Dev) : Option Nat := (List.range 768).map (256 + ·) |>.find? fun j => d.jobState j = jobFree

/-- Demands of the blocks of a load: one after another, 1 ms each (R309). -/
def Dev.blockDemands (d : Dev) (c : Clock) (e t id : Nat) : Nat → Dev
  | 0 => d
  | n + 1 => (d.blockDemands c e t id n).addDemand c e 12832 1000000 (t + (n + 1) * 1000000) id

/-- Do all blocks fit (R309)? -/
def Dev.blocksFit (d : Dev) (e t n : Nat) : Bool :=
  (List.range n).all fun i => d.fitsOneShot e (d.engDens (d.get HERDER_CTRL_TICK) e) 12832 1000000 (t + (i + 1) * 1000000)

/-- Put the next block of a load into its slot with launch t (R302, R309). -/
def Dev.armBlock (d : Dev) (c : Clock) (j e t : Nat) : Dev :=
  let d1 := d.jobSetup j 1 e 0x17 0 0 0 []
  let d2 := if d.jobState j = jobFree then d1.put HERDER_STAT_FREE (d1.get HERDER_STAT_FREE - 1) else d1
  d2.jobArm c j t t 1000000

/-- A table becomes usable, or empty (R247). -/
def Dev.camStore (d : Dev) (i : Nat) (spline periodic : Bool) (ps : List (Int × Int)) : Dev :=
  let d1 := d.setCamTab i (camBuild spline periodic ps)
  ((d1.put (TRJ_CAMDIR_md_LEN (i / 16) (i % 16)) ps.length).setf (TRJ_CAMDIR_md_TYPE (i / 16) (i % 16)) spline).setf
    (TRJ_CAMDIR_md_END (i / 16) (i % 16)) periodic

/-- cam.load (R247, R385). -/
def cmdCamLoad : CmdFn := fun c tref q d =>
  let a := q.target.toNat
  let w := q.pw 0
  let npt := bits64 w 16 6
  let last := bits64 w 6 1 = 1
  let e := slotEngine a
  let i := camIdx a (bits64 w 0 4)
  let resv := bits64 w 7 1 ≠ 0 || bits64 w 22 10 ≠ 0 || bits64 w 45 19 ≠ 0
  refuseIf [(decide (64 ≤ a) || decide (29 < npt) || decide (q.payload.length ≠ 1 + 2 * npt) || resv, rcBadFormat),
      (d.isReleased 9 a, rcRegOwned), (d.sysStop.isSome || (a < 24 && (d.trajT a = 0 || !(d.axX a).live)), rcBadState)] fun _ =>
    match d.segment q.mbx.val 0x0212 (bits64 w 8 8) last q.payload with
    | .refuse d1 => .refuseIn rcCfgConflict 31 0 d1
    | .stored d1 => .done {} d1
    | .whole segs d1 =>
      let ps := segPts segs
      let blocks := (ps.length + 63) / 64
      let t := d.nextTick tref
      let v := refuseIf [((d1.camRefs e).testBit (i % 16), rcBadState),
          (ps.length ≠ bits64 w 32 13 || ps.length = 1 || !camRises ps || decide (4096 < ps.length + d1.camPoints e i), rcCfgConflict)]
        fun _ =>
          let spline := bits64 w 4 1 = 1
          let periodic := bits64 w 5 1 = 1
          let promise := t + blocks * 1000000
          if ps.isEmpty then .done {} (d1.camStore i spline periodic [])
          else if tooLate q tref promise then .refuse rcTooLate 31 0
          else match d1.freeSlot with
            | none => .refuse rcOverload e 0x17
            | some j =>
              if !d1.blocksFit e t blocks then .refuse rcOverload e 0x17
              else
                let d2 := (d1.blockDemands c e t q.id blocks).armBlock c j e t
                .accept promise { d2 with camLoads := d2.camLoads ++ [{
                  job := j, tab := i, spline := spline, periodic := periodic, pts := ps, blocks := blocks, unit := a, work := q.id }] }
      v.refusing d1

def execCamLoad (q : Request) (s : State) : Host.Outcome State Fault Refusal := .next (s.command 0x0212 cmdCamLoad q)

/-- A block job of slot j ends (R247, R309, R311): the next block, or the table becomes usable and the load is DONE. -/
def Dev.camBlockEnd (d : Dev) (c : Clock) (j : Nat) : Dev :=
  match d.camLoads.find? fun l => l.job = j with
  | none => d
  | some l =>
    if 1 < l.blocks then
      let e := d.jobEng j
      let d1 := { d with camLoads := d.camLoads.map fun (x : CamLoad) =>
        if x.job = j then { x with blocks := x.blocks - 1 } else x }
      (d1.freeFirst l.work).armBlock c j e (d.jobLaunch j + 1000000)
    else
      let d1 := { d with camLoads := d.camLoads.filter fun x => x.job ≠ j }
      ((d1.camStore l.tab l.spline l.periodic l.pts).freeDemand (some l.work)).finishDone (some l.work) c.ns

/-- A block was aborted (R315, R345): FL110 or FL120 against the slot, whose work is discarded, the load with it (R255); the table is
deleted. -/
def Dev.camBlockFail (d : Dev) (c : Clock) (j : Nat) (code : Nat := 110) : Dev :=
  match d.camLoads.find? fun l => l.job = j with
  | none => d
  | some l =>
    ((d.record c code l.unit j).discardUnit c code l.unit).camStore l.tab false false []

end Sys2Proof.Machine
end

