-- ==== Sys2Proof/Machine/Ext.lean ====
section
/-! DEFINITION. Extension programs (R350, R352 to R354, R546): the static check, the bound W_calc, and how an image gets into an
engine. -/

namespace Sys2Proof.Machine

/-- What the paths from an instruction word come to: whether one reaches the end of the code without an END, and the largest time in
half ns to an END, if any reaches one. -/
structure PathRes where
  bad : Bool := false
  best : Option Nat := none
  deriving DecidableEq, Repr

/-- Either path. -/
def PathRes.or (x y : PathRes) : PathRes :=
  { bad := x.bad || y.bad
    best := match x.best, y.best with
      | some a, some b => some (max a b)
      | some a, none => some a
      | none, y => y }

/-- A path after `n` half ns. -/
def PathRes.after (n : Nat) (x : PathRes) : PathRes := { x with best := x.best.map (n + ·) }

/-- The instruction at word i of a code, with its length in words. -/
def codeAt (code : List W32) (i : Nat) : Option (Instr × Nat) :=
  match code.drop i with
  | w :: r =>
    match decodeSh 0 w.toNat (r.headD 0) with
    | some x => (match x with
      | .shLdi .. | .shAddi32 .. => if r.isEmpty then none else some (x, 2)
      | _ => some (x, 1))
    | none => none
  | [] => none

/-- Is an instruction admitted in an extension (R353)? A branch and a LOOP are judged with their place. -/
def extAdmits (i n : Nat) : Instr → Bool
  | .shCall .. | .shRet .. | .shRepx .. | .shIold .. | .shIost .. | .shBrk .. => false
  | .shMts _ _ s _ => s.toNat ≤ 4
  | .shBcc _ _ off => decide (1 ≤ off.toInt) && decide ((i : Int) + off.toInt < n)
  | .shLoop _ _ len => decide (i + 1 + len.toNat ≤ n)
  | _ => true

/-- Every instruction word of a code, from word i on, decodes and is admitted (R353). -/
def extWordsOk (code : List W32) : Nat → Nat → Bool
  | 0, i => decide (code.length ≤ i)
  | fuel + 1, i =>
    if code.length ≤ i then true
    else match codeAt code i with
      | some (x, n) => extAdmits i code.length x && extWordsOk code fuel (i + n)
      | none => false

/-- Time of a branch that is not taken, in half ns (R344). -/
def notTaken : Nat := 4

/-- The result at word j, given those of the words from `base` on. -/
def resAt (later : List PathRes) (base j : Nat) : PathRes := later.getD (j - base) { bad := true }

/-- One pass through a LOOP body from word i to word `stop`, no branch taken: the paths that leave it before, and the time to its end if
it can be reached, with the word reached. -/
def bodyPass (code : List W32) (later : List PathRes) (base stop : Nat) : Nat → Nat → Nat → PathRes → PathRes × Option (Nat × Nat)
  | 0, _, _, acc => (acc, none)
  | fuel + 1, i, t, acc =>
    if stop ≤ i then (acc, some (t, i))
    else match codeAt code i with
      | none => (acc, none)
      | some (x, n) =>
        match x with
        | .shEnd .. => (acc.or { best := some (t + 4) }, none)
        | .shLoop .. => (acc, none)
        | .shBcc _ cond off =>
          let acc' := acc.or ((resAt later base ((i : Int) + off.toInt).toNat).after (t + 6))
          if cond = 0 then (acc', none) else bodyPass code later base stop fuel (i + 1) (t + notTaken) acc'
        | .shRep _ k =>
          (match codeAt code (i + 1) with
            | some (y, m) => if shRepeatable y then bodyPass code later base stop fuel (i + 1 + m) (t + 4 + k.toNat * shTime y) acc
                else (acc, none)
            | none => (acc, none))
        | _ => bodyPass code later base stop fuel (i + n) (t + shTime x) acc

/-- The paths from word i, given the results of the words after it. -/
def pathAt (code : List W32) (i : Nat) (later : List PathRes) : PathRes :=
  let go (j : Nat) : PathRes := resAt later (i + 1) j
  match codeAt code i with
  | none => { bad := true }
  | some (x, n) =>
    match x with
    | .shEnd .. => { best := some 4 }
    | .shBcc _ cond off =>
      let taken := (go ((i : Int) + off.toInt).toNat).after 6
      if cond = 0 then taken else taken.or ((go (i + 1)).after notTaken)
    | .shRep _ k =>
      (match codeAt code (i + 1) with
        | some (y, m) => if shRepeatable y then (go (i + 1 + m)).after (4 + k.toNat * shTime y) else {}
        | none => { bad := true })
    | .shLoop _ k len =>
      let stop := i + 1 + len.toNat
      if k = 0 then (go stop).after 4
      else
        let (out, fin) := bodyPass code later (i + 1) stop (len.toNat + 1) (i + 1) 0 {}
        (match fin with
          | some (t, j) => if j = stop then ((out.after ((k.toNat - 1) * t)).or ((go stop).after (k.toNat * t))).after 4
              else (out.or ((go j).after t)).after 4
          | none => out.after 4)
    | _ => (go (i + n)).after (shTime x)

/-- The results of words i to the end: the head is that of word i (R354). -/
def pathsFrom (code : List W32) : Nat → List PathRes
  | 0 => []
  | k + 1 => (let later := pathsFrom code k; pathAt code (code.length - (k + 1)) later :: later)

/-- W_calc in half ns; none: the static check fails (R353, R354). -/
def ExtImg.wcalc (x : ExtImg) : Option Nat :=
  if !extWordsOk x.code x.code.length 0 then none
  else
    let r := (pathsFrom x.code x.code.length).getD x.entry { bad := true }
    if r.bad then none else r.best

/-- Host address of program address a of engine e (R327). -/
def progAddr (e a : Nat) : Nat := 0x20000000 + 0x20000 * e + a

/-- Write 32-bit words at rising addresses. -/
def Dev.wr32s (d : Dev) (a : Nat) : List W32 → Dev
  | [] => d
  | w :: ws => (d.wr32 a w).wr32s (a + 4) ws

/-- The image in the extension slot of lane l: code, initial data with zeros beyond it, entry offset, cost (R352, R305). -/
def Dev.extInstall (d : Dev) (l : Nat) (x : ExtImg) : Dev :=
  let d1 := (d.wr32s (progAddr l 0xC000) x.code).wrWords (dataAddr l 0xE000) (x.data ++ List.replicate (1024 - x.data.length) 0)
  let d2 := d1.setEngine l { d1.engine l with entry := x.entry }
  d2.setReg (HERDER_COSTc_COST (0xC0 + l)).addr (BitVec.ofNat 32 (x.cost % 2 ^ 24 + 2 ^ 31))

/-- Program memory and vendor data of engine e rewritten from the firmware's copy, the extension slot from the last image (R546). -/
def Dev.engineRestore (d : Dev) (e : Nat) : Dev :=
  let mine (a : Nat) : Bool := decide (progAddr e 0 ≤ a) && decide (a < progAddr e 0x20000)
  let code (a : Nat) : Bool := mine a && (isVendorAddr a || a % 0x20000 < 0x10000)
  let d1 := { d with
    mem := d.mem.filter fun p => !(mine p.1 && isVendorAddr p.1)
    ecc := d.ecc.filter fun p => !code p.1 }
  match d.exts.get (fun _ => {}) e with
  | x => if x.cost = 0 then d1 else d1.extInstall e x

/-- Accepted extension loads of lane l whose instant has come are installed at the sample gate at t (R352). -/
def Dev.extGate (d : Dev) (l t : Nat) : Dev :=
  let due := d.extLoads.filter fun x => x.lane = l ∧ x.from_ ≤ t
  let d1 := { d with extLoads := d.extLoads.filter fun x => !(x.lane = l ∧ x.from_ ≤ t) }
  due.foldl (fun d x => (({ (d.extInstall l x.img) with exts := d.exts.set (fun _ => {}) l x.img }).finishDone x.work t)) d1

end Sys2Proof.Machine
end

