-- ==== Sys2Proof/Machine/LaneGate.lean ====
section
/-! DEFINITION. Accepted lane state changes at a lane's sample gate, and the end of sys.stop (R43, R45). The sample gate of a stepper lane
is its carrier start. -/

namespace Sys2Proof.Machine

/-- The device enters a state, told by a type 0x71 notice (R31, R39, R40, R560); a shutdown asked for in READY lapses (log entry 77). -/
def Dev.deviceTo (d : Dev) (c : Clock) (st : DevState) : Dev :=
  (({ d with dst := st, pow := { d.pow with sleepAt := none, early := 0 } }).raise 0xFE).emit 0xFE 0x71 (some (c.ns, c.frac)) 0
    [BitVec.ofNat 64 st.code]

/-- At a sample gate at instant t (R43): READY once no lane is ENABLED or STOPPING; a stop stretched past the promise is answered
FAULT with FC076 at the promised instant. -/
def Dev.stopGate (d : Dev) (c : Clock) (t : Nat) : Dev :=
  match d.sysStop with
  | none => d
  | some (promise, w) =>
    if d.dst ≠ .run then { d with sysStop := none }
    else if d.noLaneRunning then ((({ d with sysStop := none }).finishDone w t).deviceTo c .ready).showAll c
    else if promise < t ∧ w.isSome then ({ d with sysStop := some (promise, none) }).finishFault w { c with tor := promise * 2 ^ 48 } 76
    else d

/-- What lane.clear does beside the state (R121, R123, R178, R546, R263): TRIP of its channels, the run of current sums, OPENA and OPENB, engine memory after an
uncorrectable error. -/
def Dev.laneCleared (d : Dev) (u : Nat) : Dev :=
  if u < 24 then
    let d1 := ((List.range 3).foldl (fun d i => d.setf (DSF_Cnn_STAT_TRIP (3 * u + i)) false) d).put (PWM_Lnn_CC_STAT_SUMC u) 0
    if (d.lane u).eccFault then (d1.engineRestore u).setLane u { d1.lane u with eccFault := false } else d1
  else (d.setf (PWM_Ss_STAT_OPENA (u - 24)) false).setf (PWM_Ss_STAT_OPENB (u - 24)) false

/-- A change waits for the state it starts from: what follows a stop waits for ARMED (R45, R254); what sys.clear asks for does not
(R556). -/
def LaneX.ripe (x : LaneX) (g : LaneChg) : Bool :=
  match g.target with
  | .enabled => x.state = .armed
  | .disabled => x.disputed || x.state ≠ .stopping || g.work.isNone
  | _ => true

/-- Works of lane u that a stop stretched under R257 has put past their promise (R37, R38): each is answered FAULT with FC076 at the
promised instant, as R43 answers sys.stop (log entry 89). The stop goes on; a change accepted after it is discarded. -/
def Dev.lanePromises (d : Dev) (c : Clock) (u t : Nat) : Dev :=
  let x := d.axX u
  let y := d.lane u
  let stop := if d.axMode u = modeStop ∧ x.laneStop then [x.work] else []
  let late := ((stop ++ y.chg.map (·.work)).filterMap id).filter fun i => (d.lateBy i t).isSome
  if late.isEmpty then d
  else
    let goesOn (g : LaneChg) : Bool := y.state = .stopping && g.target = .armed
    let d1 := late.foldl (fun d i => d.finishBy (some i) c t) d
    let y1 := d1.lane u
    let chg := (y1.chg.filter fun g => goesOn g || !hitId late g.work).map fun g => if hitId late g.work then { g with work := none } else g
    (d1.setLane u { y1 with chg := chg }).setAxX u { d1.axX u with work := if hitId late x.work then none else x.work }

/-- The first accepted change of lane u whose instant has come takes effect at its gate at t, and is answered; each change takes a gate of
its own (R45). -/
def Dev.laneChange (d : Dev) (c : Clock) (u t : Nat) : Dev :=
  match (d.lane u).chg with
  | [] => d
  | g :: rest =>
    if t < g.at_ ∨ (d.lane u).changedAt = some t ∨ !(d.lane u).ripe g then d
    else
      let x := d.lane u
      let d1 := d.setLane u { x with
        chg := rest
        dir := if g.target = .enabled then g.dir else x.dir }
      let d2 := if g.target = .disabled ∧ (x.state = .fault ∨ x.disputed) then d1.laneCleared u else d1
      (d2.laneEnter c u t g.target g.code).finishDone g.work t

end Sys2Proof.Machine
end

