-- ==== Sys2Proof/Machine/Stepper.lean ====
section
/-! DEFINITION. The stepper lanes (R226, R227, R230, R234, R258 to R263, R266): carrier starts, chopper, commits. -/

namespace Sys2Proof.Machine


/-- The reload gate of stepper lane s on its grid (R258). -/
def Dev.regridStp (d : Dev) (c : Clock) (s : Nat) : Dev :=
  d.gateGrid c (72 + s) 1 (24 + s) 0 (d.get (PWM_Ss_PER_ACT_PER s) * 2 ^ d.get (PWM_Ss_CFG_ACT_PRE s)) (2 * d.get (PWM_Ss_PH_ACT_PH s))

/-! The group (R227, R230, R266). -/

def Dev.stpZero (d : Dev) (s : Nat) : Bool := d.get (PWM_Ss_PER_PER s) = 0 || d.get (PWM_Ss_CHOP_TOFF s) = 0

/-- A change of MSLOG or PH of a running lane. -/
def Dev.stpClash (d : Dev) (s : Nat) : Bool :=
  (d.lane (24 + s)).state.running &&
    (d.differs (PWM_Ss_CHOP_MSLOG s) (PWM_Ss_CHOP_ACT_MSLOG s) || d.differs (PWM_Ss_PH_PH s) (PWM_Ss_PH_ACT_PH s))

def Dev.stpConflict (d : Dev) (s : Nat) : Bool :=
  let toff := d.get (PWM_Ss_CHOP_TOFF s)
  d.get (PWM_Ss_PER_PER s) < 16 || toff < 2 || 128 < toff || 16 < d.get (PWM_Ss_CHOP_FDS s) || 8 < d.get (PWM_Ss_CHOP_MSLOG s) ||
    d.stpClash s


/-- A fault input on the tick of the lane's carrier start wins (R225): the transfer of that tick is taken back. -/
def Dev.undoStp (d : Dev) (c : Clock) (s : Nat) : Dev :=
  match (d.stpX s).undo with
  | some (t, old) =>
    if t ≠ c.osc then d
    else
      let d1 := (old.foldl (fun d p => d.setReg p.1 p.2) (d.setStpX s { d.stpX s with undo := none })).copyRegs
        (stpOffs.map fun p => (stpBase s + p.2, stpBase s + p.1))
      d1.regridStp c s
  | none => d

/-- The values in force of the group, kept for the tick of the transfer (R225). -/
def Dev.keepStp (d : Dev) (c : Clock) (s : Nat) : Dev :=
  d.setStpX s { d.stpX s with undo := some (c.osc, stpOffs.map fun p => (stpBase s + p.2, d.reg (stpBase s + p.2))) }

/-- The transfer of the group at a carrier start (R215, R227): rejected whole, or in force. -/
def Dev.stpTransfer (d : Dev) (c : Clock) (s : Nat) : Dev :=
  if d.stpZero s then d.setf (PWM_Ss_CSTAT_ZERO s)
  else if d.stpConflict s then d.setf (PWM_Ss_CSTAT_CONFLICT s)
  else
    let grid := d.differs (PWM_Ss_PER_PER s) (PWM_Ss_PER_ACT_PER s) || d.differs (PWM_Ss_CFG_PRE s) (PWM_Ss_CFG_ACT_PRE s) ||
      d.differs (PWM_Ss_PH_PH s) (PWM_Ss_PH_ACT_PH s)
    let d1 := d.copyRegs (stpOffs.map fun p => (stpBase s + p.1, stpBase s + p.2))
    if grid then d1.regridStp c s else d1

/-- A commit and accepted images at the firing at r: the commit that completed by the latch point 8 ns before (R215). -/
def Dev.stpCommitAt (d : Dev) (c : Clock) (s r : Nat) : Dev :=
  let x := d.stpX s
  let inTime := match x.commitAt with
    | some t => decide (t + 8 ≤ r)
    | none => false
  let (im, d0) := d.takeImages (stpBase s) r
  if inTime then
    let d1 := ((d0.keepStp c s).setStpX s { (d0.keepStp c s).stpX s with commitAt := x.after, after := none, lockUntil := r + 8 }).setf
      (PWM_Ss_COMMIT_CMT s) x.after.isSome
    (d1.stpTransfer c s).doneImages im r
  else if im.isEmpty then d0
  else ((if d.laneActive (24 + s) then d0.keepStp c s else d0).stpTransfer c s).doneImages im r

/-- Is the lane's staging locked (R215, R227)? -/
def Dev.stpLocked (d : Dev) (c : Clock) (s : Nat) : Bool :=
  let x := d.stpX s
  let next := d.gateNext (72 + s)
  (decide (x.lockUntil ≠ 0) && decide (c.ns < x.lockUntil)) || latchLocks x.commitAt next c.ns

/-- A write to a stepper lane's staging (R215, R227). -/
def Dev.stpWrite (d : Dev) (c : Clock) (s a : Nat) (v : W32) : Dev :=
  if d.stpLocked c s then d.setStpX s { d.stpX s with held := (d.stpX s).held ++ [(a, v)] } else d.regStore a v

/-- The transfer window ends (R215, R227). -/
def Dev.stpLockEnd (d : Dev) (c : Clock) (s : Nat) : Dev :=
  let x := d.stpX s
  if x.lockUntil = 0 ∨ c.ns < x.lockUntil then d
  else x.held.foldl (fun d p => d.regStore p.1 p.2) (d.setStpX s { x with lockUntil := 0, held := [] })

/-- A commit of stepper lane s becomes pending (R227); one after the latch point of a commit in time waits for the carrier start after
(R215). -/
def Dev.stpPending (d : Dev) (c : Clock) (s : Nat) : Dev :=
  let x := d.stpX s
  (d.setStpX s (if latched x.commitAt (d.gateNext (72 + s)) c.ns then { x with after := some c.ns } else { x with commitAt := some c.ns })).setf
    (PWM_Ss_COMMIT_CMT s)

/-- PWM_Ss_COMMIT.CMT (R227). -/
def execStepperCommit (s : Fin 8) (st : State) : Host.Outcome State Fault Refusal :=
  .next (st.onServing fun c d => d.stpPending c s)

/-! The carrier start (R259 to R263). -/

/-- Set-point position at instant t from a packet (R234). -/
def Sample.posAt (s : Sample) (t : Nat) : Rat :=
  let dt := secs s.t t
  posQ s.p + mkRat s.v (2 ^ 32) * dt + mkRat s.a (2 ^ 16) * dt * dt / 2 + mkRat s.j (2 ^ 16) * dt * dt * dt / 6

/-- Set-point velocity at instant t from a packet (R234). -/
def Sample.velAt (s : Sample) (t : Nat) : Rat :=
  let dt := secs s.t t
  mkRat s.v (2 ^ 32) + mkRat s.a (2 ^ 16) * dt + mkRat s.j (2 ^ 16) * dt * dt / 2

/-- Position in 2^-32 counts and velocity s31.32 at instant t from a packet, rounded (R234; log entry 79). -/
def Sample.refAt (s : Sample) (t : Nat) : Int × Int :=
  if s.t = t then (s.p, s.v) else (roundQ (s.posAt t * (2 ^ 32 : Nat)), roundQ (s.velAt t * (2 ^ 32 : Nat)))

/-- The packet in use at instant t: of the present epoch with the latest instant; with none, the latest that came; with none at all,
position 0 (log entry 21). -/
def Dev.stpSample (d : Dev) (s t : Nat) : Sample :=
  let ps := (d.stpX s).sps
  match latestAt t (ps.filter fun p => p.epoch = (d.lane (24 + s)).epoch) with
  | some p => p
  | none => (ps.filter fun p => p.t ≤ t).headD {}

/-- S(q) in units of 2^-15 (R259). -/
def Dev.microstep (d : Dev) (q : Nat) : Int :=
  let t (r : Nat) : Int := d.get (PWM_STPTAB_r_T r)
  let r := q % 256
  match q / 256 with
  | 0 => t r
  | 1 => t (256 - r)
  | 2 => -t r
  | _ => -t (256 - r)

/-- DRIVE begins at t (R261). -/
def Bridge.drive (b : Bridge) (t blank : Nat) : Bridge :=
  { b with
    st := .drive
    driven := some b.pos
    blank := t + 2 * blank
    rev := false }

/-- OFF begins at t: TOFF × 125 ticks, of which FDS sixteenths fast decay, all of it before a reversal (R261, R262). -/
def Bridge.goOff (b : Bridge) (t toff fds : Nat) (rev : Bool) : Bridge :=
  { b with
    st := .off
    offEnd := t + 250 * toff
    fastEnd := t + (if rev then 250 * toff else 2 * (fds * toff * 125 / 16))
    rev := rev }

/-- A bridge that may start a DRIVE: at once, or after the OFF of a reversal (R262). -/
def Bridge.start (b : Bridge) (t toff fds blank : Nat) : Bridge :=
  match b.driven with
  | some p => if p = b.pos then b.drive t blank else b.goOff t toff fds true
  | none => b.drive t blank

/-- A bridge at a carrier start takes the target I_x in units of 2^-31 (R260 to R262). -/
def Bridge.carrier (b : Bridge) (t : Nat) (i : Int) (toff fds blank : Nat) : Bridge :=
  let code := min (i.natAbs * 256 / 2 ^ 31) 255
  let n : Bridge := { b with
    code := code
    pos := decide (0 ≤ i)
    trip := false }
  if code = 0 then { n with st := .slow, rev := false }
  else match b.st with
    | .drive => if b.driven = some n.pos then n else n.goOff t toff fds true
    | .off => n
    | _ => n.start t toff fds blank

/-- Consecutive carrier periods without a trip (R263). -/
def Bridge.count (b : Bridge) : Bridge :=
  if b.code = 0 then b else { b with opens := if b.trip then 0 else b.opens + 1 }

/-- The carrier start of stepper lane s at instant r (R227, R258 to R263). -/
def Dev.carrierStart (d : Dev) (c : Clock) (s r : Nat) : Dev :=
  let u := 24 + s
  let d0 := (d.laneChange c u r).stopGate c r
  let d1 := (if (d0.lane u).state.running && !(d.lane u).state.running then d0.loopReset u else d0).stpCommitAt c s r
  let mslog := min 8 (d1.get (PWM_Ss_CHOP_ACT_MSLOG s))
  let x := d1.stpX s
  let sp := d1.stpSample s r
  let m : Int := (sp.posAt r).floor
  let q := uInt 10 (m * (2 ^ (8 - mslog) : Nat))
  let jump := match x.m with
    | some m0 => decide (2 ^ mslog < (m - m0).natAbs)
    | none => false
  let moved := x.m ≠ some m
  let since := if moved then r else x.since
  let hold := !moved && decide (since + d1.get (PWM_Ss_HOLD_ACT_HOLDT s) * 1000000 ≤ r)
  let cur := d1.get (if hold then PWM_Ss_CUR_ACT_IHOLD s else PWM_Ss_CUR_ACT_IRUN s)
  let toff := d1.get (PWM_Ss_CHOP_ACT_TOFF s)
  let fds := d1.get (PWM_Ss_CHOP_ACT_FDS s)
  let blank := d1.get (PWM_Ss_CHOP_ACT_TBLANK s)
  let run := (d1.lane u).state.running && decide (d1.ostate u = 2)
  let was (b : Bridge) : Bool := match b.st with
    | .coast => false
    | _ => true
  let tick (b : Bridge) : Bridge := if was b then b.count else b
  let a1 := tick x.a
  let b1 := tick x.b
  let ia : Int := cur * d1.microstep ((q + 256) % 1024)
  let ib : Int := cur * d1.microstep q
  let y : StpX := { x with
    a := if run then a1.carrier r ia toff fds blank else { a1 with st := .coast, code := 0, trip := false, opens := 0 }
    b := if run then b1.carrier r ib toff fds blank else { b1 with st := .coast, code := 0, trip := false, opens := 0 }
    m := some m
    spUsed := (sp.refAt r).1
    spVel := (sp.refAt r).2
    since := since
    hold := hold }
  let d2 := ((d1.setStpX s y).put (PWM_Ss_STAT_Q s) q).setf (PWM_Ss_STAT_HOLD s) hold
  let d3 := if jump then (d2.setf (PWM_Ss_STAT_JUMP s)).reportLim c 91 u else d2
  let olim := d3.get (PWM_Ss_CHOP_ACT_OLIM s)
  let opA := run && decide (olim ≠ 0) && decide (olim < y.a.opens)
  let opB := run && decide (olim ≠ 0) && decide (olim < y.b.opens)
  let d4 := if opA then d3.setf (PWM_Ss_STAT_OPENA s) else d3
  let d5 := if opB then d4.setf (PWM_Ss_STAT_OPENB s) else d4
  let d6 := if (opA || opB) && !(d5.lane u).faulted then (d5.record c 94 u 0).laneFault c 94 u else d5
  d6.showStp c s

/-- Apply a change to one bridge of a stepper lane and show its pins. -/
def Dev.onBridge (d : Dev) (c : Clock) (s : Nat) (bB : Bool) (f : Bridge → Bridge) : Dev :=
  let x := d.stpX s
  (d.setStpX s (if bB then { x with b := f x.b } else { x with a := f x.a })).showStp c s

/-- The comparator of a bridge is high (R260, R261): it ends a DRIVE whose blanking has passed. -/
def execCmpinTrip (s : Fin 8) (bridgeB : Bool) (st : State) : Host.Outcome State Fault Refusal :=
  .next (st.onServing fun c d => d.onBridge c s bridgeB fun b =>
    if b.st = .drive ∧ b.blank ≤ c.ns then
      { b.goOff c.ns (d.get (PWM_Ss_CHOP_ACT_TOFF s)) (d.get (PWM_Ss_CHOP_ACT_FDS s)) false with trip := true }
    else b)

/-- Blanking ends (R261): from now on the comparator is heard. -/
def execBlankingEnd (s : Fin 8) (bridgeB : Bool) (st : State) : Host.Outcome State Fault Refusal :=
  .next (st.onServing fun c d => d.onBridge c s bridgeB fun b => if b.st = .drive ∧ b.blank ≤ c.ns then { b with blank := 0 } else b)

/-- An OFF ends (R261, R262): DRIVE, or first the OFF of a reversal. -/
def execOffTimeEnd (s : Fin 8) (bridgeB : Bool) (st : State) : Host.Outcome State Fault Refusal :=
  .next (st.onServing fun c d => d.onBridge c s bridgeB fun b =>
    if b.st = .off ∧ b.offEnd ≤ c.ns then
      if b.rev then b.drive b.offEnd (d.get (PWM_Ss_CHOP_ACT_TBLANK s))
      else b.start b.offEnd (d.get (PWM_Ss_CHOP_ACT_TOFF s)) (d.get (PWM_Ss_CHOP_ACT_FDS s)) (d.get (PWM_Ss_CHOP_ACT_TBLANK s))
    else b)

/-- m has not changed for HOLDT (R259): IHOLD from the next carrier start; with HOLDT 0 the carrier start itself decides (R267). -/
def execHoldCurrent (s : Fin 8) (st : State) : Host.Outcome State Fault Refusal :=
  .next (st.onServing fun c d =>
    let x := d.stpX s
    let t := d.get (PWM_Ss_HOLD_ACT_HOLDT s) * 1000000
    if x.m.isSome ∧ t ≠ 0 ∧ x.since + t ≤ c.ns then (d.setStpX s { x with hold := true }).setf (PWM_Ss_STAT_HOLD s) else d)

end Sys2Proof.Machine
end

