-- ==== Sys2Proof/Machine/Loops.lean ====
section
/-! DEFINITION. The process loops (R268 to R288): sources, modes, the PI/PID and band laws, gain scheduling, destinations. Values in the
loop's own units are integers in units of 2^-16. -/

namespace Sys2Proof.Machine

/-- T_loop in force in ns (R268). -/
def Dev.loopT (d : Dev) (b : Nat) : Nat := 2 * d.get (LPB_bb_LPER_ACT_LPER b)

/-- The first loop instant at or after `bound` on the grid in force (R268). -/
def Dev.loopGrid (d : Dev) (b bound : Nat) : Nat := (gridFrom (2 * d.get (LPB_bb_LPH_ACT_LPH b)) (d.get (LPB_bb_LPER_ACT_LPER b)) bound).1

/-- The loop instant that is due, if any: the latest of the grid. -/
def Dev.loopDue (d : Dev) (c : Clock) (b : Nat) : Option Nat :=
  let t := d.loopT b
  let f := 2 * d.get (LPB_bb_LPH_ACT_LPH b)
  if t = 0 ∨ c.ns < f then none
  else
    let s := f + (c.ns - f) / t * t
    if s = (d.loopX b).tj ∧ s ≠ 0 then none else some s

/-! Sources (R270 to R272). -/

/-- Keys of the loop sources among the samples. -/
def keyProbe (p : Nat) : Nat := 40000 + p
def keyTorque (l : Nat) : Nat := 41000 + l
def keyLoopStream (b : Nat) : Nat := 42000 + b

/-- The sampled raw value of a source: value, instant, and whether it carries an invalid mark. -/
structure LoopRaw where
  r : Rat
  t : Nat
  bad : Bool

/-- x taken into −PITCH/2 to PITCH/2. -/
def markRaw (x : Rat) (pitch : Nat) : Rat :=
  if pitch = 0 then x else
  let y := x - pitch * ((x / pitch).floor : Rat)
  if (pitch : Rat) / 2 ≤ y then y - pitch else y

/-- POFF of block b, signed 64-bit. -/
def Dev.loopPoff (d : Dev) (b : Nat) : Int := sInt 64 (d.get64 (LPB_bb_POFF_LO_ACT_POFF b) (LPB_bb_POFF_HI_ACT_POFF b))

/-- The latest sample of a source (R270); none: nothing has come. -/
def Dev.loopRaw (d : Dev) (b type inst : Nat) : Option LoopRaw :=
  let last (key : Nat) (f : Sample → Rat) : Option LoopRaw := (d.sample key).head?.map fun s => { r := f s, t := s.t, bad := s.bad }
  match type with
  | 1 =>
    let m := inst / 16
    let ch := inst % 16
    let code := d.get (SAR_CVm_RESc_CODE m ch)
    let v : Int := if 14 ≤ ch then sInt 16 code else code
    ((d.sarX m).stamps.get (fun _ => none) ch).map fun t => { r := v, t := t
                                                              bad := 14 ≤ ch && d.get (SAR_Gg_XSTAT_CONSEC (m / 2 * 2 + (ch - 14))) ≠ 0 }
  | 2 => last (64 + inst) fun s => mkRat s.p (2 ^ 32)
  | 3 => last (64 + inst) fun s => mkRat s.v (2 ^ 32)
  | 4 => last (keyProbe inst) fun s => markRaw (mkRat s.p (2 ^ 32) - d.loopPoff b) (d.get (LPB_bb_PITCH_ACT_P b))
  | 5 => last (keyTorque inst) fun s => mkRat s.p (2 ^ 30)
  | 7 => last (keyLoopStream b) fun s => mkRat s.p (2 ^ 16)
  | _ => none

/-- A real in loop units, saturated to s15.16 (R271). -/
def s1516 (x : Rat) : Int := satS 32 (roundQ (x * (2 ^ 16 : Nat)))

/-- Is a sample too old at t (R271)? -/
def tooOld (age t at_ : Nat) : Bool := age ≠ 0 && decide (at_ + age * 1000 < t)

/-- Sample PV and z of block b at the loop instant t (R271, R272). -/
def Dev.loopSample (d : Dev) (b t : Nat) : Dev :=
  let x := d.loopX b
  let ptype := d.get (LPB_bb_PSRC_ACT_TYPE b)
  let ztype := d.get (LPB_bb_ZSRC_ACT_TYPE b)
  let praw := d.loopRaw b ptype (d.get (LPB_bb_PSRC_ACT_INST b))
  let zraw := d.loopRaw b ztype (d.get (LPB_bb_ZSRC_ACT_INST b))
  let gain := mkRat (d.getI (LPB_bb_PGAIN_ACT_G b)) (2 ^ 16)
  let (pv, ok) := if ptype = 6 then (d.getI (LPB_bb_PVH_VAL b), true)
    else match praw with
      | none => (d.getI (LPB_bb_PV_VAL b), false)
      | some w => (s1516 ((if ptype = 4 then w.r else w.r - d.loopPoff b) * gain),
          !w.bad && !tooOld (d.get (LPB_bb_PSRC_ACT_PVAGE b)) t w.t)
  let z : Option Int := if ztype = 6 then some (d.getI (LPB_bb_ZH_VAL b))
    else match zraw with
      | none => none
      | some w => if w.bad || tooOld (d.get (LPB_bb_ZSRC_ACT_PVAGE b)) t w.t then none
          else some (s1516 ((w.r - d.getI (LPB_bb_ZOFF_ACT_Z b)) * mkRat (d.getI (LPB_bb_ZGAIN_ACT_G b)) (2 ^ 16)))
  let newMark := match praw with
    | some w => ptype = 4 && x.markT ≠ some w.t
    | none => false
  d.setLoopX b { x with
    pv := pv
    pvOk := ok
    acts := ptype ≠ 4 || newMark
    z := z }

/-- The newest probe event of a register-mark source counts as seen from this instant on, in every mode (R272). -/
def Dev.loopMark (d : Dev) (b : Nat) : Dev :=
  if d.get (LPB_bb_PSRC_ACT_TYPE b) = 4 then
    d.setLoopX b { d.loopX b with markT := (d.loopRaw b 4 (d.get (LPB_bb_PSRC_ACT_INST b))).map (·.t) }
  else d

/-! Events, faults (R284 to R286). -/

/-- A type 0x52 event of block b at instant t. -/
def Dev.loopEvent (d : Dev) (b t ev : Nat) : Dev :=
  d.emit (lpbUnit b) 0x52 (some (t, 0)) 0
    [BitVec.ofNat 64 (ev + d.loopMode b * 2 ^ 8 + d.get (LPB_bb_STAT_REGION b) * 2 ^ 12)]

/-- FC100 (R269). -/
def Dev.loopLate (d : Dev) (c : Clock) (b : Nat) : Dev := (d.setf (LPB_bb_STAT_LATE b)).reportLim c 100 (lpbUnit b)

/-- The job for an output instant has missed its deadline: reported once for that instant (R269). -/
def Dev.loopMiss (d : Dev) (c : Clock) (b : Nat) : Dev :=
  if (d.loopX b).due.isSome then (d.setLoopX b { d.loopX b with due := none }).loopLate c b else d

/-- A block enters a mode at instant t (R273, R276). -/
def Dev.loopTo (d : Dev) (b t mode : Nat) : Dev :=
  if d.loopMode b = mode then d
  else ((d.setLoopX b { d.loopX b with
    fresh := true, due := if mode = loopOff then none else (d.loopX b).due }).putState (lpbUnit b) (LPB_bb_STAT_MODE b) mode).showHolds.loopEvent b t 0

/-- PV is lost (R284): OFF, and FL102 or FC103. -/
def Dev.loopLost (d : Dev) (c : Clock) (b t : Nat) : Dev :=
  let d1 := (d.loopTo b t loopOff).loopEvent b t 3
  match d1.loopLane b with
  | some u => (d1.record c 102 u (lpbUnit b)).faultLane c 102 u
  | none => d1.record c 103 (lpbUnit b) 0

/-- The loop job overran (R315): the block's work is discarded (R549), and it enters OFF. -/
def Dev.loopOverrun (d : Dev) (c : Clock) (b t : Nat) : Dev :=
  let d1 := ((d.record c 110 (lpbUnit b) 0).discardUnit c 110 (lpbUnit b)).loopTo b t loopOff
  match d1.loopLane b with
  | some u => d1.faultLane c 110 u
  | none => d1

/-! The laws (R275 to R279). -/

/-- Regions upward: `while (r < nreg - 1 && z >= b[r + 1] + hys) r++`. -/
def regionUp (bnd : Nat → Int) (n : Nat) (z hys : Int) : Nat → Nat → Nat
  | 0, r => r
  | f + 1, r => if r + 1 < n ∧ bnd (r + 1) + hys ≤ z then regionUp bnd n z hys f (r + 1) else r

/-- Regions downward: `while (r > 0 && z < b[r] - hys) r--`. -/
def regionDown (bnd : Nat → Int) (z hys : Int) : Nat → Nat
  | 0 => 0
  | r + 1 => if z < bnd (r + 1) - hys then regionDown bnd z hys r else r + 1

/-- The region at an instant (R279): the new region, and whether it changed. -/
def Dev.loopRegion (d : Dev) (c : Clock) (b t : Nat) : Bool × Dev :=
  let x := d.loopX b
  let old := d.get (LPB_bb_STAT_REGION b)
  match x.z with
  | none =>
    let none_ := d.get (LPB_bb_ZSRC_ACT_TYPE b) = 0
    let d1 := d.setf (LPB_bb_STAT_ZBAD b) !none_
    (false, if none_ then d1 else (d1.reportLim c 104 (lpbUnit b)).loopEvent b t 5)
  | some z =>
    let bnd (i : Nat) : Int := d.getI (LPB_bb_Bi_ACT_B b (i - 1))
    let n := d.get (LPB_bb_SCHED_ACT_NREG b)
    let hys := if x.place then 0 else d.getI (LPB_bb_HYS_ACT_V b)
    let r0 := if x.place then 0 else old
    let r := regionDown bnd z hys (regionUp bnd n z hys 8 r0)
    let d1 := (((d.setf (LPB_bb_STAT_ZBAD b) false).putI (LPB_bb_Z_VAL b) z).put (LPB_bb_STAT_REGION b) r).setLoopX b { x with
      place := false }
    (decide (r ≠ old), if r ≠ old then d1.loopEvent b t 1 else d1)

/-- A product of two s15.16 numbers, rounded; outside the format free (R275; log entry 5). -/
def Dev.mul16 (d : Dev) (a b : Int) : Int × Dev := d.fit 32 (roundDiv (a * b) (2 ^ 16))

/-- The set-point a block works to: SP, or the output of its cascade (R280). -/
def Dev.loopSp (d : Dev) (b t : Nat) : Int :=
  let sp := d.getI (LPB_bb_SP_ACT_V b)
  if !d.flag (LPB_bb_CFG_ACT_SPSRC b) then sp else
  ((List.range 16).foldl (fun (acc : Option (Nat × Int)) k =>
    if d.get (LPB_bb_CFG_ACT_DTYPE k) = 4 ∧ d.get (LPB_bb_DST_ACT_UNIT k) = lpbUnit b then
      match (d.loopX k).outs.find? fun o => o.at_ ≤ t with
      | some o => (match acc with
        | some (a, _) => if a ≤ o.at_ then some (o.at_, s1516 o.d) else acc
        | none => some (o.at_, s1516 o.d))
      | none => acc
    else acc) none).map (·.2) |>.getD sp

/-- STAT.RAMP while SP_eff differs from the set-point (R277). -/
def Dev.showRamp (d : Dev) (b t : Nat) : Dev := d.setf (LPB_bb_STAT_RAMP b) (decide (d.getI (LPB_bb_SPEFF_VAL b) ≠ d.loopSp b t))

/-- SP_eff one instant on its way to SP (R277); SPRATE 0 steps. -/
def Dev.rampSp (d : Dev) (b t : Nat) : Dev :=
  let cur := d.getI (LPB_bb_SPEFF_VAL b)
  let sp := d.loopSp b t
  let rate := d.getI (LPB_bb_SPRATE_ACT_V b)
  let step := roundQ (mkRat (rate * d.loopT b) 1000000000)
  let new := if rate = 0 then sp else if sp - cur < -step then cur - step else if step < sp - cur then cur + step else sp
  let d1 := (d.putI (LPB_bb_SPEFF_VAL b) new).setf (LPB_bb_STAT_RAMP b) (decide (new ≠ sp))
  if d.flag (LPB_bb_STAT_RAMP b) ∧ new = sp then d1.loopEvent b t 4 else d1

/-- p and df of an instant (R275). -/
def Dev.loopTerms (d : Dev) (b r : Nat) (pv : Int) : (Int × Int × Int) × Dev :=
  let dir := d.flag (LPB_bb_CFG_ACT_DIR b)
  let spe := d.getI (LPB_bb_SPEFF_VAL b)
  let prev := d.getI (LPB_bb_PV_VAL b)
  let (e, d) := d.fit 32 (if dir then pv - spe else spe - pv)
  let (dm, d) := d.fit 32 (if dir then pv - prev else prev - pv)
  let (p, d) := d.mul16 (d.getI (LPB_bb_KPr_ACT_K b r)) e
  let pole : Int := d.get (LPB_bb_DPOLE_ACT_V b) % 2 ^ 16
  let kd := d.getI (LPB_bb_KDr_ACT_K b r)
  let (df, d) := d.fit 32 (roundQ (mkRat (pole * (d.loopX b).df) (2 ^ 16) + mkRat ((2 ^ 16 - pole) * kd * dm) (2 ^ 32)))
  ((e, p, df), d.setLoopX b { d.loopX b with df := df })

/-- A value under OSLEW from the previous output (R275); OSLEW 0 is no limit. -/
def slewTo (prev lim x : Int) : Int := if lim = 0 then x else clampI (prev - lim) (prev + lim) x

/-- The output of the PI/PID law or of MANUAL: clamped, slewed, its integrator tracking (R273, R275, R276). -/
def Dev.loopPid (d : Dev) (b r : Nat) (pv : Int) (manual bump : Bool) : Dev :=
  let uPrev := d.getI (LPB_bb_OUT_VAL b)
  let n0 := d.getI (LPB_bb_INTEG_VAL b)
  let ff := d.getI (LPB_bb_FFWD_ACT_V b)
  let ((e, p, df), d) := d.loopTerms b r pv
  let (ki, d) := d.mul16 (d.getI (LPB_bb_KIr_ACT_K b r)) e
  let (n, d) := d.fit 32 (if bump then uPrev - p - df - ff else n0 + ki)
  let raw := if manual then d.getI (LPB_bb_MOUT_ACT_V b) else p + n + df + ff
  let u1 := clampI (d.getI (LPB_bb_OMIN_ACT_V b)) (d.getI (LPB_bb_OMAX_ACT_V b)) raw
  let u := slewTo uPrev (d.getI (LPB_bb_OSLEW_ACT_V b)) u1
  let (n', d) := if manual || u ≠ p + n + df + ff then d.fit 32 (u - p - df - ff) else (n, d)
  let d := if u1 ≠ raw then d.setf (LPB_bb_STAT_OSAT b) else d
  let d := if u ≠ u1 then d.setf (LPB_bb_STAT_SLEW b) else d
  (d.putI (LPB_bb_OUT_VAL b) u).putI (LPB_bb_INTEG_VAL b) n'

/-- The band law (R278). -/
def Dev.loopBand (d : Dev) (b : Nat) (pv : Int) (first : Bool) : Dev :=
  let spe := d.getI (LPB_bb_SPEFF_VAL b)
  let e := if d.flag (LPB_bb_CFG_ACT_DIR b) then pv - spe else spe - pv
  let bw := d.getI (LPB_bb_BW_ACT_V b)
  let hi := d.getI (LPB_bb_OMAX_ACT_V b)
  let lo := d.getI (LPB_bb_OMIN_ACT_V b)
  let u := if first then (if 0 < e then hi else lo) else if bw < e then hi else if e < -bw then lo else d.getI (LPB_bb_OUT_VAL b)
  d.putI (LPB_bb_OUT_VAL b) u

/-- The output for o_j: the destination value, and the type 0x51 packet (R280, R285). The outputs of the last 250 µs, two of the longest lane
periods, and the one before them stay: no consumer looks further back (R281). -/
def Dev.loopSend (d : Dev) (b o : Nat) : Dev :=
  let x := d.loopX b
  let ty := d.get (LPB_bb_CFG_ACT_DTYPE b)
  let u := d.getI (LPB_bb_OUT_VAL b)
  let q : Int := u * d.getI (LPB_bb_OSCALE_ACT_V b)
  let (val, ws) : Rat × List W64 := match ty with
    | 1 => (mkRat q (2 ^ 32), posWords q)
    | 2 => (mkRat q (2 ^ 32), [BitVec.ofInt 64 q])
    | 3 => (let v := satS 32 (roundDiv q 4); (mkRat v (2 ^ 30), [BitVec.ofNat 64 (uInt 32 v)]))
    | 6 => (let on := decide (u = d.getI (LPB_bb_OMAX_ACT_V b)); (if on then 1 else 0, [if on then 1 else 0]))
    | _ => (let v := satS 32 (roundDiv q (2 ^ 16)); (mkRat v (2 ^ 16), [BitVec.ofNat 64 (uInt 32 v)]))
  let w : Rat := match x.outs.head? with
    | some p => p.w + p.d * mkRat ((o : Int) - p.at_) 1000000000
    | none => 0
  let w' := if ty = 2 then w else 0
  let tail := if ty = 2 then posWords (roundQ (w' * (2 ^ 32 : Nat))) else []
  let recent (p : LoopOut) : Bool := decide (o < p.at_ + 250000)
  let d1 := d.setLoopX b { x with outs := { at_ := o, w := w', d := val } :: (x.outs.takeWhile recent ++ (x.outs.dropWhile recent).take 1) }
  d1.emitTo (if ty = 5 then d.get (LPB_bb_DST_ACT_ADDR b) else 0) (lpbUnit b) 0x51 (some (o, 0)) 0 (BitVec.ofNat 64 (uInt 32 u) ::
    (ws ++ tail))

/-- STAT.PVBAD and CONSEC at an instant (R272, R284): an AUTO instant with an invalid PV counts, a valid one in any mode clears, and
one without a new register mark is neither. -/
def Dev.loopJudgePv (d : Dev) (b : Nat) (auto : Bool) : Dev :=
  let x := d.loopX b
  if !x.acts then d
  else if x.pvOk then (d.setf (LPB_bb_STAT_PVBAD b) false).put (LPB_bb_STAT_CONSEC b) 0
  else if auto then (d.setf (LPB_bb_STAT_PVBAD b)).put (LPB_bb_STAT_CONSEC b) (min 255 (d.get (LPB_bb_STAT_CONSEC b) + 1))
  else d

/-- An AUTO instant that holds output and integrator (R272, R282, R284): SP_eff still moves, and a region change waits with its bump for
the next instant at which the law acts (R276, R277; log entry 84). -/
def Dev.loopHeld (d : Dev) (b t : Nat) (changed : Bool) : Dev :=
  let d1 := d.setLoopX b { d.loopX b with gains := (d.loopX b).gains || changed }
  if (d1.loopX b).fresh then d1.showRamp b t else d1.rampSp b t

/-- The computation for the loop instant t (R271 to R284). -/
def Dev.loopCompute (d : Dev) (c : Clock) (b t : Nat) : Dev :=
  let x := d.loopX b
  let auto := decide (d.loopMode b = loopAuto)
  let hold := d.loopHolds b
  let (changed, d1) := d.loopRegion c b t
  let d2 := (d1.loopJudgePv b auto).setf (LPB_bb_STAT_DHOLD b) hold
  let r := d2.get (LPB_bb_STAT_REGION b)
  let show_ (d : Dev) : Dev := d.putI (LPB_bb_PV_VAL b) x.pv
  let o := t + d.loopT b
  if auto ∧ x.acts ∧ !x.pvOk then
    let d3 := ((d2.reportLim c 101 (lpbUnit b)).loopEvent b t 2).loopHeld b t changed
    if d3.get (LPB_bb_PVLIM_ACT_V b) < d3.get (LPB_bb_STAT_CONSEC b) then d3.loopLost c b t else d3.loopSend b o
  else
    let d3 := d2
    if auto ∧ (hold || !x.acts) then ((if x.acts then show_ d3 else d3).loopHeld b t changed).loopSend b o
    else
      let first := auto && x.fresh
      let d4 := if !auto || first then
          (d3.putI (LPB_bb_SPEFF_VAL b) x.pv).setf (LPB_bb_STAT_RAMP b) (decide (x.pv ≠ d3.loopSp b t))
        else d3.rampSp b t
      let bump := first || changed || x.gains
      let d5 := if d4.get (LPB_bb_CFG_ACT_LAW b) = 1 ∧ auto then d4.loopBand b x.pv first else d4.loopPid b r x.pv (!auto) (bump && auto)
      let d6 := if auto then d5.setLoopX b { d5.loopX b with fresh := false, gains := false } else d5
      (show_ d6).loopSend b o

/-! Commit (R287). -/

def Dev.loopZero (d : Dev) (b : Nat) : Bool :=
  d.get (LPB_bb_LPER_LPER b) = 0 || d.get (LPB_bb_PGAIN_G b) = 0 || d.get (LPB_bb_OSCALE_V b) = 0 || d.get (LPB_bb_SCHED_NREG b) = 0 ||
    ((d.get (LPB_bb_PSRC_TYPE b) = 4 || d.get (LPB_bb_ZSRC_TYPE b) = 4) && d.get (LPB_bb_PITCH_P b) = 0) || d.get (LPB_bb_PSRC_TYPE b) = 0

/-- Is a source's instance absent? -/
def loopSrcAbsent (type inst : Nat) : Bool :=
  match type with
  | 2 | 3 | 5 => decide (24 ≤ inst)
  | 4 => decide (8 ≤ inst)
  | _ => false

/-- Is a destination absent, out of range or reserved? -/
def loopDstAbsent (ty unit addr : Nat) : Bool :=
  match ty with
  | 1 | 2 => decide (64 ≤ unit)
  | 3 => decide (24 ≤ unit)
  | 4 => decide (unit < 0x40) || decide (0x50 ≤ unit)
  | 5 => decide (0x40 < addr) && decide (addr ≠ 0xFF)
  | 6 => decide (32 ≤ unit)
  | 7 => true
  | _ => false

/-- Following cascades from a block's staged destination comes back to block b. -/
def Dev.loopCycle (d : Dev) (b : Nat) : Nat → Nat → Bool
  | 0, _ => true
  | f + 1, k =>
    if k = b then true
    else if d.get (LPB_bb_CFG_ACT_DTYPE k) = 4 then d.loopCycle b f (d.get (LPB_bb_DST_ACT_UNIT k) - 0x40) else false

/-- The checks of a staged group that reject with CFG_CONFLICT (R287). A slot, a lane, a block or a channel takes one block per DTYPE; a
packet's address is no such destination. -/
def Dev.loopConflict (d : Dev) (b : Nat) (mode : Nat) : Bool :=
  let per := d.get (LPB_bb_LPER_LPER b)
  let ty := d.get (LPB_bb_CFG_DTYPE b)
  let unit := d.get (LPB_bb_DST_UNIT b)
  let n := d.get (LPB_bb_SCHED_NREG b)
  let differs (a : Nat) : Bool := d.reg (lpbBase b + a) ≠ d.reg (lpbBase b + 0x200 + a)
  per < 12500 || 50000000 < per || per ≤ d.get (LPB_bb_LPH_LPH b) || 8 < n ||
    ((List.range (n - 2)).any fun i => decide (d.getI (LPB_bb_Bi_B b (i + 1)) ≤ d.getI (LPB_bb_Bi_B b i))) ||
    decide (d.getI (LPB_bb_OMAX_V b) < d.getI (LPB_bb_OMIN_V b)) || (ty = 6 && d.get (LPB_bb_CFG_LAW b) = 0) ||
    loopDstAbsent ty unit (d.get (LPB_bb_DST_ADDR b)) ||
    loopSrcAbsent (d.get (LPB_bb_PSRC_TYPE b)) (d.get (LPB_bb_PSRC_INST b)) ||
    loopSrcAbsent (d.get (LPB_bb_ZSRC_TYPE b)) (d.get (LPB_bb_ZSRC_INST b)) ||
    (1 ≤ ty && ty ≠ 5 && (List.range 16).any fun k => decide (k ≠ b) && d.get (LPB_bb_CFG_ACT_DTYPE k) = ty &&
      d.get (LPB_bb_DST_ACT_UNIT k) = unit) ||
    (ty = 4 && d.loopCycle b 17 (unit - 0x40)) ||
    (mode ≠ loopOff && (differs 0x08 || differs 0x0C || differs 0x10 || differs 0x14 || differs 0x04 ||
      d.differs (LPB_bb_CFG_DTYPE b) (LPB_bb_CFG_ACT_DTYPE b) || d.differs (LPB_bb_CFG_SPSRC b) (LPB_bb_CFG_ACT_SPSRC b)))

/-- The staged group into the views in force. -/
def Dev.loopCopy (d : Dev) (b : Nat) : Dev := d.copyRegs ((List.range 64).map fun i => (lpbBase b + 4 * i, lpbBase b + 0x200 + 4 * i))

/-- The staged group in force at t (R276, R277, R279, R287). -/
def Dev.loopApply (d : Dev) (b t : Nat) : Dev :=
  let d0 := d.setf (LPB_bb_CTL_CMT b) false
  if d.loopZero b then d0.setf (LPB_bb_CTL_ZERO b)
  else if d.loopConflict b (d.loopMode b) then d0.setf (LPB_bb_CTL_CONFLICT b)
  else
    let x := d.loopX b
    let at_ (a : Nat) : Bool := d.reg (lpbBase b + a) ≠ d.reg (lpbBase b + 0x200 + a)
    let gains := at_ 0x3C || (List.range 24).any fun i => at_ (0x80 + 0x10 * (i / 3) + 4 * (i % 3))
    let dst := at_ 0x04 || d.differs (LPB_bb_CFG_DTYPE b) (LPB_bb_CFG_ACT_DTYPE b)
    (((d0.loopCopy b).touchWords (lpbBase b + 0x200) 0x100).setLoopX b { x with
      gains := x.gains || gains
      place := true
      outs := if dst then [] else x.outs }).showHolds.showRamp b t

def execLoopCommit (b : Fin 16) (s : State) : Host.Outcome State Fault Refusal :=
  .next (s.onServing fun _ d => d.setf (LPB_bb_CTL_CMT b))

/-! The instant, the job and the output (R268, R269, R274). -/

/-- An accepted loop.mode or loop.set takes effect at t (R274). -/
def Dev.loopTake (d : Dev) (b t : Nat) (q : LoopCmd) : Dev :=
  let d1 := match q.mode with
    | some (m, mout) => ((d.setReg (LPB_bb_MOUT_V b).addr mout).setReg (LPB_bb_MOUT_ACT_V b).addr mout).loopTo b t m
    | none => (d.setReg (LPB_bb_SP_V b).addr q.sp).setReg (LPB_bb_SP_ACT_V b).addr q.sp
  (d1.showRamp b t).finishDone q.work t

/-- The accepted commands of block b that are due at t and that `ok` picks take effect, in order. -/
def Dev.loopTakeDue (d : Dev) (b t : Nat) (ok : LoopCmd → Bool) : Dev :=
  let now (p : LoopCmd) : Bool := decide (p.ta ≤ t) && ok p
  let x := d.loopX b
  (x.pend.filter now).foldl (fun d p => d.loopTake b t p) (d.setLoopX b { x with pend := x.pend.filter fun p => !now p })

/-- The loop instant t of block b: its storage read; the commands accepted before an image of the block, the commit, the commands after it
(log entry 93); samples, arming (R21, R268, R271, R274, R287, R302). -/
def Dev.loopInstant (d : Dev) (c : Clock) (b t : Nat) : Dev :=
  let d00 := (d.useWords c (lpbBase b) 0x400).loopMiss c b
  let (imgs, d0) := (d00.loopTakeDue b t fun p => d00.beforeImages (lpbBase b) t p.work).takeImages (lpbBase b) t
  let d1 := if d0.flag (LPB_bb_CTL_CMT b) ∨ !imgs.isEmpty then (d0.loopApply b t).doneImages imgs t else d0
  let d3 := (d1.setLoopX b { d1.loopX b with tj := t }).loopTakeDue b t fun _ => true
  if d3.loopMode b = loopOff ∨ d3.idleHerd t then d3.loopMark b
  else
    let j := slotLoop b
    let st := d3.jobState j
    let busy := st = jobRun ∨ st = jobPreempted
    let d5 := (if busy then d3
      else (d3.loopSample b t).jobSetup j 4 30 (if d3.get (LPB_bb_CFG_ACT_LAW b) = 1 then 0x21 else 0x20) 2 0 0 []).loopMark b
    let d6 := d5.setLoopX b { d5.loopX b with due := some (t + d5.loopT b) }
    d6.jobArm c j t t (d6.loopT b - 1000)

def execLoopInstant (b : Fin 16) (s : State) : Host.Outcome State Fault Refusal :=
  .next (s.onServing fun c d => match d.loopDue c b with
    | some t => d.loopInstant c b t
    | none => d)

/-- The job of the instant t has ended in time: its output is not missed, and the block's state words are written (R21, R269). -/
def Dev.loopStored (d : Dev) (b : Nat) : Dev :=
  (d.setLoopX b { d.loopX b with due := none }).touchWords (lpbBase b + 0x100) 0x20

/-- The loop engine completes the job of block b (R269, R275). -/
def Dev.loopComplete (d : Dev) (c : Clock) (b : Nat) : Dev :=
  match (d.engX 30).run with
  | some r =>
    if r.slot = slotLoop b then
      let t := (d.jobX r.slot).inst
      let d1 := if d.jobDeadline r.slot < c.ns then d.loopMiss c b
        else if d.loopMode b = loopOff then d.loopStored b else (d.loopCompute c b t).loopStored b
      d1.jobComplete c 30
    else d
  | none => d

def execLoopJobComplete (b : Fin 16) (s : State) : Host.Outcome State Fault Refusal :=
  .next (s.onServing fun c d => d.loopComplete c b)

/-- The output instant o_j (R269, R280): where the job has not ended in time the output is late; the destination keeps the previous
one. A block in OFF computes none. -/
def Dev.loopOutputAt (d : Dev) (c : Clock) (b : Nat) : Dev :=
  match (d.loopX b).due with
  | some o =>
    if c.ns < o then d
    else if d.loopMode b = loopOff then d.setLoopX b { d.loopX b with due := none }
    else d.loopMiss c b
  | none => d

def execLoopOutput (b : Fin 16) (s : State) : Host.Outcome State Fault Refusal :=
  .next (s.onServing fun c d => d.loopOutputAt c b)

/-! Commands (R274, R287, R382). -/

/-- The mode that the accepted commands lead to at t (R287, R384). -/
def Dev.loopJudged (d : Dev) (b t : Nat) : Nat :=
  ((d.loopX b).pend.filter fun p => p.ta ≤ t).foldl (fun m p => match p.mode with
    | some (k, _) => k
    | none => m) (d.loopMode b)

/-- The accepted images of a block that still wait, in the order in which they will take effect. -/
def Dev.loopImgs (d : Dev) (b : Nat) : List PendImg :=
  d.imagesOf fun p => p.group = lpbBase b

/-- The device as though an accepted image of block b were in force. -/
def Dev.withLoopImg (d : Dev) (b : Nat) (p : PendImg) : Dev := (d.writePairs p.pairs).loopCopy b

/-- The first loop instant from `bound` on, on the grid in force and, past the instant at which an accepted image takes effect, on
the image's (R268, R274, R287). -/
def Dev.loopAhead (d : Dev) (b bound : Nat) : List PendImg → Nat → Nat
  | [], lo => d.loopGrid b (max lo bound)
  | p :: ps, lo =>
    let τ := d.loopGrid b (max lo p.from_)
    let t := d.loopGrid b (max lo bound)
    if t ≤ τ then t else (d.withLoopImg b p).loopAhead b bound ps (τ + 1)

/-- The loop instant at which a command with this bound takes effect. -/
def Dev.loopNext (d : Dev) (now b bound : Nat) : Nat := d.loopAhead b bound (d.loopImgs b) now

/-- loop.cfg (R287). -/
def cmdLoopCfg : CmdFn := fun c tref q d =>
  let b := q.target.toNat - 0x40
  let ok := imageOk (fun a => lpbBase b ≤ a && a < lpbBase b + 0x100) q.image
  let from_ := imageLead q tref
  let t := d.loopNext c.ns b from_
  let d1 := d.atCommit t q.image
  let bad := decide (q.target.toNat < 0x40 ∨ 0x4F < q.target.toNat)
  refuseIf [(bad || q.noImage, rcBadFormat), (d.isReleased 10 b, rcRegOwned), (ok && d1.loopZero b, rcCfgZero),
      (!ok || d1.loopConflict b (d.loopJudged b t), rcCfgConflict)] fun _ =>
    let d2 : Dev := { d.enrol (slotLoop b) with
      imgs := d.imgs ++ [{ group := lpbBase b, from_ := from_, due := t, pairs := q.image, work := some q.id }] }
    if tooLate q tref t then .refuse rcTooLate 31 0
    else if !d2.fitsCap 30 then .refuse rcOverload 30 (if d1.get (LPB_bb_CFG_LAW b) = 1 then 0x21 else 0x20)
    else if d2.mirrorOver then .refuse rcOverload 31 0
    else .accept t d2

/-- loop.mode and loop.set (R274). -/
def loopCommand (bad : Request → Bool) (mk : Request → Nat → LoopCmd) : CmdFn := fun c tref q d =>
  let b := q.target.toNat - 0x40
  let t := d.loopNext c.ns b (max (q.at_ tref) (tref + d.loopT b))
  refuseIf [(decide (q.target.toNat < 0x40 ∨ 0x4F < q.target.toNat) || decide (q.payload.length ≠ 1) || bad q, rcBadFormat),
      (d.isReleased 10 b, rcRegOwned)] fun _ =>
    let d1 := (d.setLoopX b { d.loopX b with pend := (d.loopX b).pend ++ [mk q t] }).enrol (slotLoop b)
    if tooLate q tref t then .refuse rcTooLate 31 0
    else if !d1.fitsCap 30 then .refuse rcOverload 30 (d.jobClass (slotLoop b))
    else .accept t d1

def cmdLoopMode : CmdFn := loopCommand (fun q => bits64 (q.pw 0) 0 2 = 3 || bits64 (q.pw 0) 2 30 ≠ 0)
  fun q t => { ta := t, mode := some (bits64 (q.pw 0) 0 2, BitVec.ofNat 32 (bits64 (q.pw 0) 32 32)), work := some q.id }

def cmdLoopSet : CmdFn := loopCommand (fun q => bits64 (q.pw 0) 32 32 ≠ 0)
  fun q t => { ta := t, sp := BitVec.ofNat 32 (bits64 (q.pw 0) 0 32), work := some q.id }

def execLoopCfg (q : Request) (s : State) : Host.Outcome State Fault Refusal := .next (s.command 0x0300 cmdLoopCfg q)
def execLoopMode (q : Request) (s : State) : Host.Outcome State Fault Refusal := .next (s.command 0x0301 cmdLoopMode q)
def execLoopSet (q : Request) (s : State) : Host.Outcome State Fault Refusal := .next (s.command 0x0302 cmdLoopSet q)

end Sys2Proof.Machine
end

