-- ==== Sys2Proof/Machine/Reload.lean ====
section
/-! DEFINITION. The reload of a servo lane (R80, R215 to R220), the check of the lane state table (R47, R557, R558), and the fault inputs
(R223 to R225). -/

namespace Sys2Proof.Machine

/-- The lane's state table against the data path at a reload (R557): OSTATE permitted for the state, and in ENABLED and
STOPPING the EPOCH of the commit applied equal to the table's. -/
def Dev.agrees (d : Dev) (l : Nat) (epoch : Option Nat) : Bool :=
  let ost := d.get (PWM_Lnn_OUT_OSTATE l)
  let x := d.lane l
  let permitted := match x.state with
    | .disabled => decide (ost = 0)
    | .armed => decide (ost = 1) || decide (ost = 0)
    | .enabled | .stopping => decide (ost = 2) || decide (ost = 0)
    | .fault => decide (ost = 0) || decide (ost = 3)
  decide (ost = 4) || (permitted && (!x.state.running || (match epoch with
    | some e => decide (e = x.epoch)
    | none => true)))

/-- Marking as DISPUTED (R47, R549, R557, R558): FL205, the lane's discrete work and its accepted changes discarded; a lane with OSTATE 2 stops
its real slot in STOPPING, any other goes to high impedance at once; the lane takes the state DISABLED at the end. -/
def Dev.markDisputed (d : Dev) (c : Clock) (l : Nat) : Dev :=
  let ost := d.get (PWM_Lnn_OUT_OSTATE l)
  let d1 := (d.record c 205 l 0).discardUnit c 205 l
  let x := d1.lane l
  if ost = 2 then
    let d2 := d1.setLane l { x with disputed := true, disputedAt := c.ns, chg := [], armedAt := 0 }
    let d3 := if x.state = .stopping then d2 else (d2.raise l).setLane l { (d2.raise l).lane l with state := .stopping }
    (d3.setAxX l { d3.axX l with halt := true }).showHolds.refreshClock c (l / 4)
  else
    let d2 := (d1.setLane l { x with chg := [] }).laneEnter c l c.ns .disabled
    (d2.setLane l { d2.lane l with disputed := true, disputedAt := c.ns }).showUnit c l

/-- A RELOAD of servo lane l at instant r (R80, R215 to R220, R225): the commit that completed by the latch point
transfers, accepted images with it; a running lane without one has a held period; a new carrier starts. -/
def Dev.reloadLane (d : Dev) (c : Clock) (l r : Nat) : Dev :=
  let x := d.pwmX l
  let sk := r - reloadAfter (d.lanePer l)
  let (imgs, d0) := d.takeImages (laneBase l) r
  let inTime := x.commitsBy r
  let (res, d1) := if inTime || !imgs.isEmpty then
      (let (rej, d') := d0.laneTransfer c l r
       ((some rej), d'.doneImages imgs r))
    else (none, d0)
  let running := (d1.lane l).state.running && !(d1.lane l).faulted && !d1.idleHerd sk
  let applied := inTime && res = some none
  let d2 := if applied then d1.put (PWM_Lnn_CYC_STAT_CONSEC l) 0
    else if running && decide (d.get (PWM_Lnn_CC_STAT_START l) ≠ 5) then d1.heldPeriod c l sk else d1
  let hz := (d2.lane l).faulted && decide ((d2.lane l).fcode = 0) && (d2.lane l).chg.any (fun g => g.code = 70 || g.code = 71)
  let d3 := if hz then d2.setLane l { d2.lane l with hiZ := true } else d2
  let d4 := (if (d3.lane l).state.running then d3.startCarrier c l r else d3.setPwmX l { d3.pwmX l with reloadAt := r }).showLane l
  let y := d4.lane l
  if d4.agrees l (if applied then x.commitEpoch else none) then d4.setLane l { y with disagree := 0 }
  else if y.disagree + 1 < 3 ∨ y.disputed then d4.setLane l { y with disagree := y.disagree + 1 }
  else (d4.setLane l { y with disagree := 0 }).markDisputed c l

/-! Fault inputs (R223 to R225). -/

/-- A commit that lane u's reload takes on this very tick is cancelled, whichever of the two came first (R219, R225). -/
def Dev.tickCommit (d : Dev) (c : Clock) (u : Nat) : Dev :=
  let d1 := if u < 24 then d.undoReload c u else d.undoStp c (u - 24)
  if d1.gateNext (48 + u) ≤ c.ns then d1.cancelLane c u else d1

/-- FLT_Ng accepted low (R223 to R225): LAT and PIN set, pins forced, FL080 against the group's active lanes, or FC081. -/
def Dev.fltAsserted (d : Dev) (c : Clock) (g : Nat) : Dev :=
  let lat := d.get PWM_FLT_STAT_LAT
  let pin := d.get PWM_FLT_STAT_PIN
  let d1 := (d.put PWM_FLT_STAT_LAT (lat ||| 2 ^ g)).put PWM_FLT_STAT_PIN (pin ||| 2 ^ g)
  let act := (lanesOfGroup g).filter d.laneActive
  let d2 := (lanesOfGroup g).foldl (fun d u => d.tickCommit c u) d1
  let d3 := if act.isEmpty then d2.record c 81 (0x68 + g) 0 else act.foldl (fun d u => (d.record c 80 u 0).laneFault c 80 u) d2
  d3.showGroup c g

def execFltNAsserted (g : Fin 4) (s : State) : Host.Outcome State Fault Refusal :=
  .next (s.onServing fun c d => d.fltAsserted c g)

end Sys2Proof.Machine
end

