-- ==== Sys2Proof/Machine/Lanes.lean ====
section
/-! DEFINITION. The lane cycle (R78 to R106): admission, lane commands (R44 to R48, R190, R254), the sample gate, reloads, withdrawal and
overrun of jobs (R97 to R102, R301, R315), herder.cfg and ext.load. -/

namespace Sys2Proof.Machine

/-! Admission of a lane (R87, R88, R93). -/

/-- What the timing of a lane's cycle depends on. -/
structure LaneT where
  /-- P (VMIN in the variable modes) and Φ in ticks. -/
  per : Nat
  phi : Nat
  var : Bool
  ccls : Nat
  vdiv : Nat
  pdiv : Nat
  ext : Nat
  deriving DecidableEq, Repr

/-- The values in force of lane l. -/
def Dev.laneTAct (d : Dev) (l : Nat) : LaneT :=
  let var := 2 ≤ d.get (PWM_Lnn_CFG_ACT_MODE l)
  { per := if var then d.get (PWM_Lnn_VPER_ACT_VMIN l) else d.get (PWM_Lnn_PER_ACT_PER l)
    phi := d.get (PWM_Lnn_PHASE_ACT_PHASE l)
    var := var
    ccls := if d.get (PWM_Lnn_CC_CFG_ACT_CMODE l) = 1 then 2 else 1
    vdiv := d.get (PWM_Lnn_CYC_ACT_VDIV l)
    pdiv := d.get (PWM_Lnn_CYC_ACT_PDIV l)
    ext := d.get (PWM_Lnn_CYC_ACT_EXT l) }

/-- The staged values of lane l. -/
def Dev.laneTStaged (d : Dev) (l : Nat) : LaneT :=
  let var := 2 ≤ d.get (PWM_Lnn_CFG_MODE l)
  { per := if var then d.get (PWM_Lnn_VPER_VMIN l) else d.get (PWM_Lnn_PER_PER l)
    phi := d.stagedPhi l
    var := var
    ccls := if d.get (PWM_Lnn_CC_CFG_CMODE l) = 1 then 2 else 1
    vdiv := d.get (PWM_Lnn_CYC_VDIV l)
    pdiv := d.get (PWM_Lnn_CYC_PDIV l)
    ext := d.get (PWM_Lnn_CYC_EXT l) }

/-- Can lane i's sample instant lie within 96 ns before or at lane l's (R87)? A lane of variable period has no grid and can. -/
def near (tl ti : LaneT) : Bool :=
  tl.var || ti.var || (let g := Nat.gcd tl.per ti.per
    g = 0 || decide ((((tl.phi : Int) - ti.phi) % (g : Int)).toNat ≤ 48))

/-- q of lane l over the timing `t` of every lane (R87). -/
def laneQ (t : Nat → LaneT) (l : Nat) : Nat := ((List.range l).filter fun i => near (t l) (t i)).length

/-- D_dsf in ns (R86). -/
def Dev.dDsf (d : Dev) (l : Nat) : Nat :=
  let ch := d.laneChan l
  d.get (DSF_Cnn_CFG_ACT_ORDER ch) * d.get (DSF_Cnn_CFG_ACT_OSR ch) * d.fModDiv l + d.fModDiv l + 40

/-- t_rel in ns (R87). -/
def Dev.tRel (d : Dev) (l : Nat) : Nat := max (d.dDsf l) (d.dFb l) + 32

/-- Classes of the slow jobs of the period in which most of them fall (R93). -/
def LaneT.slow (t : LaneT) (l : Nat) : List Nat :=
  (if t.pdiv ≠ 0 then [3] else []) ++ (if t.vdiv ≠ 0 then [4] else []) ++
    (if t.ext = 1 ∨ (t.ext = 2 ∧ t.vdiv ≠ 0) ∨ (t.ext = 3 ∧ t.pdiv ≠ 0) then [0xC0 + l] else [])

/-- Σ (C_j + 32 ns) of those jobs. -/
def Dev.slowSum (d : Dev) (t : LaneT) (l : Nat) (extCost : Option Nat) : Nat :=
  (t.slow l).foldl (fun s cls => s + 32 + (match extCost with
    | some n => if 0xC0 ≤ cls then n else d.cost cls
    | none => d.cost cls)) 0

/-- t_st + C_cur + 56 ns of lane l: its commit completes by then (R87, R88). -/
def Dev.commitBy (d : Dev) (t : Nat → LaneT) (l : Nat) : Nat := d.tRel l + 4 * laneQ t l + 32 + d.cost (t l).ccls + 56

/-- The current job of lane l comes too late for the latch point (R88). -/
def Dev.laneLate (d : Dev) (t : Nat → LaneT) (l : Nat) : Bool := decide (reloadAfter (t l).per < d.commitBy t l + 8)

/-- The slow jobs of lane l do not fit their window (R93); an extension that is not loaded has no defined class (R303). -/
def Dev.laneOver (d : Dev) (t : Nat → LaneT) (l : Nat) (extCost : Option Nat := none) : Bool :=
  let x := t l
  ((x.slow l).contains (0xC0 + l) && extCost.isNone && decide (d.cost (0xC0 + l) = 0)) ||
    decide (2 * x.per + d.tRel l < d.slowSum x l extCost + d.commitBy t l)

/-- HERDER_ENGe_ADM of an axis engine (R308, 10): B / T rounded up. -/
def Dev.showLaneAdm (d : Dev) (l : Nat) : Dev :=
  let x := d.laneTAct l
  let b := d.cost x.ccls + 88 + d.slowSum x l none
  d.put (HERDER_ENGe_ADM_ADM l) (if x.per = 0 then 0xFFFF else min 0xFFFF ((b * 65536 + 2 * x.per - 1) / (2 * x.per)))

/-! lane.cfg (R78, R88, R93, R106, R194, R383, R384). -/


/-- The refusal of R88 or R93 for lane l with its staged values, and for each lane above whose q changes: the lane and the code, TOO_LATE of
any lane before OVERLOAD (R371). -/
def Dev.laneCfgAdmit (d d1 : Dev) (l : Nat) : Option (Nat × Nat) :=
  let old := d.laneTAct
  let new (i : Nat) : LaneT := if i = l then d1.laneTStaged l else d.laneTAct i
  let on := (List.range 24).filter fun i => i = l ∨ (l < i ∧ laneQ old i ≠ laneQ new i)
  match on.find? (d.laneLate new) with
  | some i => some (i, rcTooLate)
  | none => (on.find? (d.laneOver new)).map fun i => (i, rcOverload)


def cmdLaneCfgServo : CmdFn := fun _ tref q d =>
  let l := q.target.toNat
  let ok := imageOk (fun a => laneGroupOffs.any fun p => a = laneBase l + p.1) q.image
  let t := d.firingAhead (48 + l) (imageLead q tref)
  let d0 := d.imagesBy t
  let d1 := (d.atCommit t q.image).setLane l { d.lane l with state := d.stateAt l t }
  let bound := (d.cmdinOf l).isSome && d1.get (PWM_Lnn_CYC_PDIV l) ≠ 0
  refuseIf [(d.isReleased 4 l, rcRegOwned), (ok && d1.laneCycleClash l, rcBadState), (ok && d1.laneZero l, rcCfgZero),
      (!ok || d1.laneRange l || d1.laneStateClash l || bound, rcCfgConflict)] fun _ =>
    let d2 : Dev := { d with
      imgs := d.imgs ++ [{ group := laneBase l, from_ := imageLead q tref, due := t, pairs := q.image, work := some q.id }] }
    if tooLate q tref t then .refuse rcTooLate 31 0
    else match d0.laneCfgAdmit d1 l with
      | some (i, code) => .refuse code i (if i = l then (d1.laneTStaged l).ccls else (d0.laneTAct i).ccls)
      | none =>
        if !d2.fitsCap (slotEngine l) then .refuse rcOverload (slotEngine l) (d.jobClass (slotSetpoint l))
        else if d2.mirrorOver then .refuse rcOverload 31 0
        else .accept t d2

def cmdLaneCfgStepper : CmdFn := fun _ tref q d =>
  let u := q.target.toNat
  let s := u - 24
  let ok := imageOk (fun a => stpOffs.any fun p => a = stpBase s + p.1) q.image
  let t := d.firingAhead (72 + s) (imageLead q tref)
  let d1 := (d.atCommit t q.image).setLane u { d.lane u with state := d.stateAt u t }
  refuseIf [(d.isReleased 4 u, rcRegOwned), (ok && d1.stpZero s, rcCfgZero), (!ok || d1.stpConflict s, rcCfgConflict)] fun _ =>
    .accept t { d with
      imgs := d.imgs ++ [{ group := stpBase s, from_ := imageLead q tref, due := t, pairs := q.image, work := some q.id }] }

/-- lane.cfg. -/
def cmdLaneCfg : CmdFn := fun c tref q d =>
  if 32 ≤ q.target.toNat || q.noImage then .refuse rcBadFormat 31 0
  else if q.target.toNat < 24 then cmdLaneCfgServo c tref q d
  else cmdLaneCfgStepper c tref q d

def execLaneCfg (q : Request) (s : State) : Host.Outcome State Fault Refusal := .next (s.command 0x0100 cmdLaneCfg q)

/-! Lane state commands (R44 to R47, R51, R190, R254). -/


/-- Lane.stop is accepted for the lane and not yet complete: what the accepted commands lead to is ARMED. -/
def Dev.stopAhead (d : Dev) (u : Nat) : Bool :=
  let x := d.axX u
  (x.laneStop && decide (d.axMode u = modeStop)) || x.haltLane || x.pend.any fun p => match p.op with
    | .stop lane => lane
    | _ => false

/-- The state the accepted lane state commands produce (R45): a stop leads to ARMED. -/
def Dev.laneLeads (d : Dev) (u : Nat) : LaneState :=
  match d.judged u with
  | .stopping => if (d.lane u).disputed then .disabled else if d.stopAhead u then .armed else .stopping
  | st => st

/-- The marker DISPUTED as the accepted lane state commands leave it: lane.clear removes it (R45, R47). -/
def LaneX.staysDisputed (x : LaneX) : Bool := x.disputed && !x.chg.any fun g => g.target = .disabled

/-- Accept one change of a lane's state. -/
def Dev.accChange (d : Dev) (u at_ id : Nat) (st : LaneState) (dir : Int := 0) : Verdict :=
  let x := d.lane u
  .accept (d.changeGate u at_) (d.setLane u { x with chg := x.chg ++ [{ at_ := at_, target := st, work := some id, dir := dir }] })

/-- The checks every lane state command shares: TARGET and payload length. -/
def laneFormat (q : Request) (len : Nat) : Bool := decide (32 ≤ q.target.toNat) || decide (q.payload.length ≠ len)

/-- A released instance block of the lane (R51). -/
def Dev.laneReleased (d : Dev) (u : Nat) : Bool :=
  d.isReleased 4 u || d.isReleased 9 u || (u < 24 && (d.isReleased 5 u || d.isReleased 6 (u / 6) || d.isReleased 7 u))

/-- Both converters of the lane's group are disabled (R615). -/
def Dev.linkDark (d : Dev) (g : Nat) : Bool := !d.sarOn (g / 2 * 2) && !d.sarOn (g / 2 * 2 + 1)

def cmdLaneArm : CmdFn := fun _ tref q d =>
  let u := q.target.toNat
  let dev := match d.dst with
    | .ready | .run => true
    | _ => false
  refuseIf [(laneFormat q 0, rcBadFormat), (d.laneReleased u, rcRegOwned),
      (!dev || d.laneLeads u ≠ .disabled || (d.lane u).staysDisputed || (d.get PWM_FLT_STAT_LAT).testBit (groupOf u) ||
          d.linkDark (groupOf u),
        rcBadState)] fun _ => d.accChange u (q.at_ tref) q.id .armed

def cmdLaneEnable : CmdFn := fun _ tref q d =>
  let u := q.target.toNat
  let code := bits64 (q.pw 0) 0 2
  let dir : Int := if code = 1 then 1 else if code = 3 then -1 else 0
  let v := (d.fbkX u).v
  let servo := decide (u < 24)
  let slow := !faster v (d.get (PWM_Lnn_CC_ZSPD_ACT_SPD u))
  let back := opposite v dir
  refuseIf [(laneFormat q 1 || code = 2 || bits64 (q.pw 0) 2 62 ≠ 0, rcBadFormat),
      (d.dst ≠ .run || d.laneLeads u ≠ .armed || (d.lane u).staysDisputed || d.sysStop.isSome ||
        (servo && !slow && !back && faster v (d.get (PWM_Lnn_CC_CATCH_ACT_SPD u))), rcBadState),
      (d.get (SAFE_Gg_STAT_STATE (groupOf u)) ≠ 3, rcSafeHold),
      (servo && !slow && back && d.get (PWM_Lnn_CC_CFG_ACT_REVPOL u) = 0 && faster v (d.get (PWM_Lnn_CC_REVLIM_ACT_SPD u)), rcRevSpin),
      (servo && (List.range 3).all (fun i => !d.flag (DSF_Cnn_CFG_ACT_EN (3 * u + i))), rcCfgConflict)] fun _ =>
    d.accChange u (q.at_ tref) q.id .enabled dir

def cmdLaneDisable : CmdFn := fun _ tref q d =>
  let u := q.target.toNat
  refuseIf [(laneFormat q 0, rcBadFormat), (d.laneLeads u ≠ .armed, rcBadState)] fun _ => d.accChange u (q.at_ tref) q.id .disabled

def cmdLaneClear : CmdFn := fun _ tref q d =>
  let u := q.target.toNat
  refuseIf [(laneFormat q 0, rcBadFormat), (d.laneLeads u ≠ .fault && !(d.lane u).staysDisputed, rcBadState)] fun _ =>
    d.accChange u (q.at_ tref) q.id .disabled

/-- The gate at which lane u enters ARMED after a stop that its slot enters at `ta` (R254). -/
def Dev.stopGateAt (d : Dev) (c : Clock) (u ta : Nat) : Nat :=
  let w := (d.axTo c u ta).axTake c u ta { op := .stop true, ta := ta, work := none }
  d.firstFiring (laneGate u) ((w.axX u).tc.getD ta)

/-- The stop of an ENABLED lane (R43, R254): STOPPING at its gate, STOP on its slot at the takeover instant, ARMED when the stop ends; the
instant of that. A lane whose slot has no trajectory instants has no profile to run: ARMED follows at the next gate (log entry 19). -/
def Dev.planStop (d : Dev) (c : Clock) (u at_ tref : Nat) (work : Option Nat) : Nat × Dev :=
  let x := d.lane u
  let g : LaneChg := { at_ := at_, target := .stopping, work := none }
  if d.trajT u = 0 then
    let d1 := d.setLane u { x with chg := x.chg ++ [g] }
    let t := d1.changeGate u at_
    (t, d1.setLane u { x with chg := x.chg ++ [g, { at_ := at_, target := .armed, work := work }] })
  else
    let ta := d.axTakeover u at_ tref
    let t := d.stopGateAt c u ta
    let d1 := d.setLane u { x with chg := x.chg ++ [g], armedAt := t }
    (t, d1.setAxX u { d1.axX u with pend := (d1.axX u).pend ++ [{ op := .stop true, ta := ta, work := work }] })

def cmdLaneStop : CmdFn := fun c tref q d =>
  let u := q.target.toNat
  refuseIf [(laneFormat q 0, rcBadFormat), (d.laneLeads u ≠ .enabled, rcBadState)] fun _ =>
    let (t, d1) := d.planStop c u (q.at_ tref) tref (some q.id)
    .accept t d1

def execLaneArm (q : Request) (s : State) : Host.Outcome State Fault Refusal := .next (s.command 0x0101 cmdLaneArm q)
def execLaneEnable (q : Request) (s : State) : Host.Outcome State Fault Refusal := .next (s.command 0x0102 cmdLaneEnable q)
def execLaneDisable (q : Request) (s : State) : Host.Outcome State Fault Refusal := .next (s.command 0x0103 cmdLaneDisable q)
def execLaneStop (q : Request) (s : State) : Host.Outcome State Fault Refusal := .next (s.command 0x0104 cmdLaneStop q)
def execLaneClear (q : Request) (s : State) : Host.Outcome State Fault Refusal := .next (s.command 0x0105 cmdLaneClear q)

/-! The sample gate of a servo lane (R45, R84, R89, R90, R103, R191, R193, R302). -/

/-- What the LATCH gate of the same tick will give: the port's position and velocity at t (R83). -/
def Dev.latchAhead (d : Dev) (c : Clock) (l t : Nat) : FbkX := (d.portLatch c l t true).fbkX l

/-- The lane enters a start class at t; in Standstill or Flying its slot starts too (R191, R193, R256). -/
def Dev.startAs (d : Dev) (l t cls : Nat) (y : FbkX) : Dev :=
  let d1 := d.enterClass l t y.v cls
  if cls = 1 ∨ cls = 2 then ((d1.setFbkX l y).axStart l t cls).setFbkX l (d1.fbkX l) else d1

/-- The start class at t: at the enabling gate, and while the lane waits in low-side brake, DC injection or wait. -/
def Dev.laneStart (d : Dev) (c : Clock) (l t : Nat) (entered : Bool) : Dev :=
  let x := d.lane l
  let cls := d.get (PWM_Lnn_CC_STAT_START l)
  if entered then
    let y := d.latchAhead c l t
    (d.loopReset l).startAs l t (d.startClass l y.v x.dir) y
  else if x.state.running ∧ 3 ≤ cls ∧ cls ≤ 5 then
    let y := d.latchAhead c l t
    let new := d.startClass l y.v x.dir
    if new = cls then d else d.startAs l t new y
  else d

/-- k of the sample gate at t (R79); in the variable modes gates are counted. -/
def Dev.periodIndex (d : Dev) (l t : Nat) : Nat :=
  let per := d.lanePer l
  if 2 ≤ d.get (PWM_Lnn_CFG_ACT_MODE l) ∨ per = 0 then d.get (PWM_Lnn_KIDX_K l) + 1
  else (t - 2 * d.get (PWM_Lnn_PHASE_ACT_PHASE l)) / (2 * per)

/-- Arm one slow job: an instance that has not started by then, or runs past its deadline, has missed (R102, R302). -/
def Dev.armSlow (d : Dev) (c : Clock) (l t j prio cls : Nat) (succs : List Nat) : Dev :=
  let st := d.jobState j
  let goes := decide (st = jobRun ∨ st = jobPreempted) && decide (c.ns ≤ d.jobDeadline j)
  let d1 := if st = jobFree ∨ goes then d else d.setf (PWM_Lnn_CYC_STAT_SLOW_MISS l)
  (d1.jobSetup j prio l cls 1 1 0 succs).jobArm c j t t (2 * d.lanePer l + d.tRel l)

/-- The jobs of period k of a running lane (R84, R88, R89, R90, R93), successors first, so that a skipped job withdraws them (R294). -/
def Dev.armLane (d : Dev) (c : Clock) (l t k : Nat) : Dev :=
  let x := d.laneTAct l
  let pos := x.pdiv ≠ 0 && k % x.pdiv = 0
  let vel := x.vdiv ≠ 0 && k % x.vdiv = 0
  let ext := x.ext = 1 || (x.ext = 2 && vel) || (x.ext = 3 && pos)
  let ej (n : Nat) : List Nat := if ext && x.ext = n then [slotExt l] else []
  let head := (if pos then [slotPosition l] else if vel then [slotVelocity l] else []) ++ ej 1
  let cur := d.cost x.ccls
  let dlrel := reloadAfter (d.lanePer l) - 8
  let j := slotCurrent l
  let d1 := if ext then d.armSlow c l t (slotExt l) 8 (0xC0 + l) [] else d
  let d2 := if vel then d1.armSlow c l t (slotVelocity l) 9 4 (ej 2) else d1
  let d3 := if pos then d2.armSlow c l t (slotPosition l) 10 3 ((if vel then [slotVelocity l] else []) ++ ej 3) else d2
  (d3.jobSetup j 15 l x.ccls 1 2 ((56 + cur + 7) / 8) head).jobArm c j t t dlrel

/-- Instances of a lane that no longer runs are withdrawn. -/
def Dev.dropLaneJobs (d : Dev) (c : Clock) (l : Nat) : Dev :=
  (List.range 4).foldl (fun d i => Dev.jobWithdraw c 8 d (4 * l + i)) d

/-- The lane's input streams begin a new period: SEQ of their next packets (R85; log entry 74). -/
def Dev.markSeqs (d : Dev) (l : Nat) : Dev :=
  let seq (type : Nat) : Nat := d.fab.prodSeq.get (fun _ => 0) (l * 128 + type)
  d.setLane l { d.lane l with seq10 := seq 0x10, seq20 := seq 0x20 }

/-- The sample gate of servo lane l at t; a position instant where k is a multiple of PDIV (R63). -/
def Dev.laneSample (d : Dev) (c : Clock) (l t : Nat) : Dev :=
  let k := d.periodIndex l t
  let d0 := (d.put (PWM_Lnn_KIDX_K l) k).markSeqs l
  let pdiv := d.get (PWM_Lnn_CYC_ACT_PDIV l)
  let d1 := ((if pdiv ≠ 0 ∧ k % pdiv = 0 then d0.holdoverAt c l else d0).lanePromises c l t).laneChange c l t
  let d2 := (d1.stopGate c t).extGate l t
  let entered := (d2.lane l).state = .enabled && (d.lane l).state ≠ .enabled
  let off := d2.idleHerd t
  let d3 := if off then d2 else d2.laneStart c l t entered
  let d4 := if (d3.lane l).state.running && !off then d3.armLane c l t k else d3.dropLaneJobs c l
  d4.showLaneAdm l

/-- A gate that is not the unit's own of R83 fires for the unit: the unit's reference instant is this firing (R30, R66). -/
def Dev.actsFor (d : Dev) (own g t : Nat) : Dev := if own = g then d else d.setGateX own { d.gateX own with last := t }

/-- A SAMPLE gate fires (R66, R83): it samples a lane, a DC group, or starts a sequence list, as its TARGET and SUB give. -/
def Dev.sampleGate (d : Dev) (c : Clock) (g : Nat) : Dev :=
  let t := d.gateNext g
  let target := d.get (GATE_GTnnn_CFG_ACT_TARGET g)
  let sub := d.get (GATE_GTnnn_CFG_ACT_SUB g)
  let d1 := d.gateFire c g
  if target < 24 then (d1.actsFor target g t).laneSample c target t
  else if 0x68 ≤ target ∧ target < 0x6C then (d1.actsFor (84 + target - 0x68) g t).linkGate c (target - 0x68) t
  else if target = 0xFE ∧ 0x10 ≤ sub ∧ sub < 0x20 then d1.seqStart c (sub % 16 / 4) (sub % 4) t
  else d1

def execGateSample (g : Fin 256) (s : State) : Host.Outcome State Fault Refusal :=
  .next (s.onServing fun c d => if d.gateDue c g 2 then d.sampleGate c g else d)

/-! Reloads (R83, R215, R227, R228). -/

/-- A RELOAD gate fires for its TARGET (R66). -/
def Dev.reloadGate (d : Dev) (c : Clock) (g : Nat) : Dev :=
  let t := d.gateNext g
  let target := d.get (GATE_GTnnn_CFG_ACT_TARGET g)
  let d1 := d.gateFire c g
  if target < 24 then (d1.actsFor (48 + target) g t).reloadLane c target t
  else if target < 32 then (d1.actsFor (48 + target) g t).carrierStart c (target - 24) t
  else if 0x68 ≤ target ∧ target < 0x6C then (d1.actsFor (80 + target - 0x68) g t).brakeReload (target - 0x68) t
  else d1

def execReload (g : Fin 256) (s : State) : Host.Outcome State Fault Refusal :=
  .next (s.onServing fun c d => if d.gateDue c g 1 then d.reloadGate c g else d)

/-- The transfer window of gate g's lane ends (R215). -/
def execStagingLockEnd (g : Fin 256) (s : State) : Host.Outcome State Fault Refusal :=
  .next (s.onServing fun c d =>
    if 48 ≤ g.val ∧ g.val < 72 then d.lockEnd c (g.val - 48)
    else if 72 ≤ g.val ∧ g.val < 80 then d.stpLockEnd c (g.val - 72)
    else d)

/-- 1 s after the marking a DISPUTED lane goes to high impedance (R558). -/
def Dev.disputedTimeout (d : Dev) (c : Clock) (l : Nat) : Dev :=
  let x := d.lane l
  if x.disputed ∧ x.state = .stopping ∧ x.disputedAt + 1000000000 ≤ c.ns then
    let d1 := d.laneEnter c l c.ns .disabled
    (d1.setLane l { d1.lane l with disputed := true }).showUnit c l
  else d

def execDisputedTimeout (l : Fin 24) (s : State) : Host.Outcome State Fault Refusal :=
  .next (s.onServing fun c d => d.disputedTimeout c l)

/-! Withdrawal and overrun (R97 to R100, R294, R301, R315). -/

/-- Slot j has not started by its latest start (R301): a current job's period is held with its slow jobs withdrawn (R97, R98). -/
def Dev.withdraw (d : Dev) (c : Clock) (j : Nat) : Dev :=
  let st := d.jobState j
  let due := match d.jobLatest j with
    | some t => decide (t ≤ c.ns)
    | none => false
  if !due || !(st = jobWait || st = jobDelay || st = jobReady) then d
  else
    let inst := (d.jobX j).inst
    let slow := !(d.jobSuccs j).isEmpty
    let d1 := Dev.jobWithdraw c 8 d j
    if j < 96 ∧ j % 4 = 0 then
      let l := j / 4
      let d2 := if slow then d1.setf (PWM_Lnn_CYC_STAT_SLOW_MISS l) else d1
      if (d2.lane l).state.running then d2.heldPeriod c l inst else d2
    else if j < 96 then d1.setf (PWM_Lnn_CYC_STAT_SLOW_MISS (j / 4))
    else if j < 160 then d1.spLate c (j - 96)
    else d1

def execWithdraw (j : Fin 1024) (s : State) : Host.Outcome State Fault Refusal :=
  .next (s.onServing fun c d => d.withdraw c j)

/-- What follows the abort of slot j's job on engine e (R315, R345): `code` is FL110 or FL120, `dcode` FD111 or FD121. -/
def Dev.overrunOf (d : Dev) (c : Clock) (e j : Nat) (code : Nat := 110) (dcode : Nat := 111) : Dev :=
  if j < 96 then d.activeFault c code (j / 4) j
  else if j < 160 then
    let a := j - 96
    let d1 := d.record c code a j
    let d2 := d1.spLate c a
    if a < 32 ∧ (d2.lane a).state ≠ .fault then d2.laneFault c code a else d2.discardUnit c code a
  else if j < 176 then d.loopOverrun c (j - 160) (d.jobX j).inst
  else if j < 256 ∨ e = 28 ∨ e = 29 then d.deviceFault c dcode 0xFE j false
  else d.camBlockFail c j code

/-- The monitor of engine e aborts its job at the tick at which its time exceeds the budget (R315). -/
def Dev.overrun (d : Dev) (c : Clock) (e : Nat) : Dev :=
  match (d.engX e).run with
  | some r => if d.jobBudget r.slot < r.execNs c.osc then (d.jobAbort c e).overrunOf c e r.slot else d
  | none => d

def execJobOverrun (e : Fin 31) (s : State) : Host.Outcome State Fault Refusal :=
  .next (s.onServing fun c d => d.overrun c e)

/-! herder.cfg (R296, R308, R312, R324). -/

/-- The admitted demands as a new TICK gives them (R296, R309): the window of a planning instance is T_traj − 1,000 − 250 × TICK ns, the
1 ms of a cam.load block stays. -/
def Dev.demandsAt (d : Dev) (tick : Nat) : Dev :=
  { d with her := { d.her with demands := d.her.demands.map fun x =>
    if x.2.1 = 12832 ∧ x.2.2.1 = 1000000 then x
    else (x.1, x.2.1, x.2.2.1 + 250 * d.get HERDER_CTRL_TICK - 250 * tick, x.2.2.2.1, x.2.2.2.2) } }

/-- Class of an admitted one-shot demand (R309). -/
def Dev.demandClass (d : Dev) (x : Nat × Nat × Nat × Nat × Nat) : Nat :=
  if x.2.1 = 12832 ∧ x.2.2.1 = 1000000 then 0x17
  else match d.work.find? fun w => w.id = x.2.2.2.2 with
    | some w => if w.opc = 0x0210 ∨ w.opc = 0x0211 then 0x16 else 0x15
    | none => 0x15

/-- The class of the first admitted job or demand of engine e that does not fit under a TICK and a cap (R296, R312, R320). -/
def Dev.engineMisfit (d : Dev) (tick e cap : Nat) (oneShot : Bool) : Option Nat :=
  let u := d.engDens tick e
  let d1 := d.demandsAt tick
  match d.failClass tick e cap with
  | some cls => some cls
  | none =>
    if !oneShot then none
    else ((d1.her.demands.filter fun x => x.1 = e).find? fun x =>
      !withinCap (u + d1.oneShotDens e (x.2.2.2.1 - x.2.2.1) x.2.2.2.1) cap).map d.demandClass

def cmdHerderCfg : CmdFn := fun c _ q d =>
  let w := q.pw 0
  let tick := bits64 w 0 7
  let win := bits64 w 16 10
  let trj := bits64 w 32 8
  let pkt := bits64 w 40 8
  let loop := bits64 w 48 8
  let capFor (e : Nat) : Nat := if e < 28 then trj else if e < 30 then pkt else loop
  let newTick := tick ≠ d.get HERDER_CTRL_TICK
  let resv := bits64 w 7 9 ≠ 0 || bits64 w 26 6 ≠ 0 || bits64 w 56 8 ≠ 0
  let capBad (n : Nat) : Bool := decide (n < 50 ∨ 100 < n)
  refuseIf [(decide (q.target ≠ 0xF0) || decide (q.payload.length ≠ 1) || resv, rcBadFormat),
      (newTick && d.dst ≠ .ready, rcBadState),
      (tick = 0 || win = 0 || trj = 0 || pkt = 0 || loop = 0, rcCfgZero),
      (decide (64 < tick) || decide (1000 < win) || capBad trj || capBad pkt || capBad loop, rcCfgConflict)] fun _ =>
    match ((List.range 7).map (24 + ·)).findSome? fun e => (d.engineMisfit tick e (capFor e) newTick).map fun cls => (e, cls) with
    | some (e, cls) => .refuse rcOverload e cls
    | none =>
      let newWin := win ≠ d.get HERDER_CTRL_WIN
      let d1 := (((((d.demandsAt tick).put HERDER_CTRL_TICK tick).put HERDER_CTRL_WIN win).put HERDER_CAP_TRJ trj).put HERDER_CAP_PKT pkt).put
        HERDER_CAP_LOOP loop
      let d2 : Dev := { d1 with her := { d1.her with
        tickDone := if newTick then c.ns / (tick * 250) else d1.her.tickDone
        winFrom := if newWin then c.ns / (win * 1000000) * (win * 1000000) else d1.her.winFrom } }
      .done {} d2

def execHerderCfg (q : Request) (s : State) : Host.Outcome State Fault Refusal := .next (s.command 0x0410 cmdHerderCfg q)

/-! ext.load (R352 to R354, R385). -/

/-- Two instructions of a code word, the lower address in bits 31:0. -/
def codeHalves (w : W64) : List W32 := [BitVec.ofNat 32 w.toNat, BitVec.ofNat 32 (w.toNat / 2 ^ 32)]

/-- The image of a whole staging copy: header fields, code and data; the lengths the segments carry. -/
def extImage (segs : List (List W64)) : Option (ExtImg × Nat × Nat × Nat × Nat) :=
  let seg (w : List W64) : Nat := bits64 (w.headD 0) 0 2
  match segs.find? fun w => seg w = 0 with
  | none => none
  | some h =>
    let w1 := h.getD 1 0
    let code := (segs.filter fun w => seg w = 1).flatMap fun w => (w.drop 1).flatMap codeHalves
    let data := (segs.filter fun w => seg w = 2).flatMap fun w => w.drop 1
    let n := bits64 w1 16 13
    some ({ entry := bits64 w1 0 12, code := code.take n, data := data, cost := bits64 (h.getD 2 0) 0 32 },
      n, bits64 w1 32 14, code.length, data.length)

/-- One segment of ext.load is well formed: SEG, NW and LEN agree, reserved bits are 0. -/
def extSegOk (ws : List W64) : Bool :=
  let w := ws.headD 0
  let seg := bits64 w 0 2
  let nw := bits64 w 16 6
  seg ≠ 3 && bits64 w 3 5 = 0 && bits64 w 22 42 = 0 && decide (nw ≤ 58) &&
    (if seg = 0 then ws.length = 3 && bits64 (ws.getD 1 0) 12 4 = 0 && bits64 (ws.getD 1 0) 29 3 = 0 && bits64 (ws.getD 1 0) 46 18 = 0 &&
      bits64 (ws.getD 2 0) 32 32 = 0
    else ws.length = 1 + nw)

def cmdExtLoad : CmdFn := fun _ tref q d =>
  let l := q.target.toNat
  let w := q.pw 0
  refuseIf [(decide (24 ≤ l) || !extSegOk q.payload, rcBadFormat), (d.isReleased 4 l, rcRegOwned)] fun _ =>
    match d.segment q.mbx.val 0x0A00 (bits64 w 8 8) (bits64 w 2 1 = 1) q.payload with
    | .refuse d1 => .refuseIn rcCfgConflict 31 0 d1
    | .stored d1 => .done {} d1
    | .whole segs d1 =>
      let run := (d.judged l).running
      let v := match extImage segs with
        | none => refuseIf [(run, rcBadState)] fun _ => .refuse rcCfgConflict 31 0
        | some (img, n, dl, have_, dhave) =>
          refuseIf [(run, rcBadState), (n = 0 || img.cost = 0, rcCfgZero),
              (decide (n ≤ img.entry) || decide (4096 < n) || decide (8192 < dl) || dl % 8 ≠ 0 || decide ((n + 1) / 2 * 2 ≠ have_) ||
                decide (dl / 8 ≠ dhave) || decide (2 ^ 24 ≤ img.cost) || (match img.wcalc with
                  | some h => decide (2 * img.cost < h)
                  | none => true), rcCfgConflict)] fun _ =>
            let t := d.firingAhead l (q.at_ tref)
            if tooLate q tref t then .refuse rcTooLate 31 0
            else if d.laneOver (d.imagesBy t).laneTAct l (some img.cost) then .refuse rcOverload l (0xC0 + l)
            else
              let ld : ExtLoad := { lane := l, from_ := q.at_ tref, img := img, work := some q.id }
              .accept t { d1 with extLoads := d1.extLoads ++ [ld] }
      v.refusing d1

def execExtLoad (q : Request) (s : State) : Host.Outcome State Fault Refusal := .next (s.command 0x0A00 cmdExtLoad q)

end Sys2Proof.Machine
end

