-- ==== Sys2Proof/Machine/Field.lean ====
section
/-! DEFINITION. The 24 V field inputs and outputs (R503 to R521): the frame, input filters, output updates on gates, protection, readback,
diagnostics, watchdog, io.cfg, io.set and io.diag. -/

namespace Sys2Proof.Machine

/-- Base address of the block, and its unit code (R27). -/
def fioBase : Nat := 0x40100000
def fioUnit : Nat := 0x6D


/-- The channels. -/
def fioAll : List Nat := List.range 32

def isFioIn (m : Nat) : Bool := m = 1 || m = 2

/-- The command to the switch at a frame instant (R509, R514). -/
def FioCh.cmdBy (x : FioCh) (f : Nat) : Bool := if f < x.cmdAt then x.was else x.cmd

/-- The instant from which that command holds. -/
def FioCh.cmdSince (x : FioCh) (f : Nat) : Nat := if f < x.cmdAt then x.wasAt else x.cmdAt

/-- The switch of an output is on: commanded, not switched off by its protection, VFLD up. -/
def Dev.fioOn (d : Dev) (cc : Nat) : Bool :=
  (d.fioCh cc).cmd && (d.fioCh cc).cut.isNone && !d.fio.low && d.fioDriven cc

/-- Protection had switched the channel off by the instant f (R511). -/
def FioCh.cutBy (x : FioCh) (f : Nat) : Bool :=
  match x.cut with
  | some t => t ≤ f
  | none => false

/-- Protection switches channel cc off at t: LATCH shows it (R511). -/
def Dev.fioCut (d : Dev) (cc t : Nat) : Dev :=
  (d.setf (FIO_CHcc_OUT_LATCH cc)).setFioCh cc { d.fioCh cc with cut := some ((d.fioCh cc).cut.getD t) }

/-- A type 0x55 packet at a frame instant (R519). -/
def Dev.fioDiag (d : Dev) (f cc cause : Nat) : Dev := d.emit fioUnit 0x55 (some (f, 0)) 0 [BitVec.ofNat 64 (cc + cause * 256)]

/-! Power (R505). -/

/-- Channels in output mode, test-pulse sources included. -/
def Dev.nOut (d : Dev) : Nat := (fioAll.filter fun cc => d.fioMode cc = 3).length

/-- 2 × P_cfg in mW. -/
def Dev.pCfg2 (d : Dev) : Nat :=
  (fioAll.filter fun cc => isFioIn (d.fioMode cc)).foldl (fun s cc => s + 6 * d.get (FIO_CHcc_CFG_ACT_ILIM cc)) (520 + 75 * d.nOut)

/-- FIO_PWR shows P_cfg; how it shows half a mW is open (log entry 22). -/
def Dev.showPwr (d : Dev) : Dev :=
  let p := d.pCfg2
  if p % 2 = 0 then d.put FIO_PWR_PWR (p / 2)
  else (let (x, d1) := d.takeFree; d1.put FIO_PWR_PWR (p / 2 + (x % 2).toNat))

/-! The diagnostic window (R512). -/

/-- Is the window open at instant t? -/
def Dev.windowAt (d : Dev) (t : Nat) : Bool := d.fio.winBoot || d.fio.wins.any fun w => w.1 ≤ t

/-- FIO_STAT.WIN at instant t; a window that opens clears the values of the last one. -/
def Dev.showWindow (d : Dev) (t : Nat) : Dev :=
  let now := d.windowAt t
  let d1 := if now && !d.flag FIO_STAT_WIN then fioAll.foldl (fun d cc => d.setReg (FIO_CHcc_DIAG_OVL cc).addr 0) d else d
  d1.setf FIO_STAT_WIN now

/-- A window from `a` to `b`. -/
def Dev.openWindow (d : Dev) (t a b : Nat) (work : Option Nat) : Dev :=
  ({ d with fio := { d.fio with wins := d.fio.wins ++ [(a, b, work)] } }).showWindow t

/-- The masks of the last window: P0 and P1 of io.diag (R518). -/
def Dev.diagMask (d : Dev) (f : Nat → Field) : Nat := fioAll.foldl (fun m cc => m + if d.flag (f cc) then 2 ^ cc else 0) 0

def Dev.diagRsp (d : Dev) : Rsp :=
  { p0 := d.diagMask FIO_CHcc_DIAG_OVL + d.diagMask FIO_CHcc_DIAG_OPEN * 2 ^ 32
    p1 := d.diagMask FIO_CHcc_DIAG_OTEMP + d.get FIO_RBERR_RBERR * 2 ^ 32 }

/-- Windows whose end has come close; io.diag is answered (R512, R518). -/
def Dev.windowEnd (d : Dev) (c : Clock) : Dev :=
  let ended := d.fio.wins.filter fun w => w.2.1 ≤ c.ns
  let d1 := ({ d with fio := { d.fio with wins := d.fio.wins.filter fun w => !(w.2.1 ≤ c.ns) } }).showWindow c.ns
  ended.foldl (fun d w => d.finishDone w.2.2 w.2.1 d.diagRsp) d1

def execDiagnosticWindowEnd (s : State) : Host.Outcome State Fault Refusal := .next (s.onServing fun c d => d.windowEnd c)

/-! Configuration (R503, R508, R517). -/

/-- Offsets of the registers common to all channels: staged and in force. -/
def fioCommonRegs : List (Nat × Nat) :=
  (0x10, 0x14) :: (List.range 4).flatMap fun k => [(0x80 + 0x10 * k, 0x88 + 0x10 * k), (0x84 + 0x10 * k, 0x8C + 0x10 * k)]

/-- Those of channel cc. -/
def fioChRegs (cc : Nat) : List (Nat × Nat) := [(0x100 + 0x20 * cc, 0x110 + 0x20 * cc), (0x104 + 0x20 * cc, 0x118 + 0x20 * cc)]

/-- The staged values of these channels, and of the common registers, as though in force. -/
def Dev.fioCandidate (d : Dev) (common : Bool) (chs : List Nat) : Dev :=
  d.copyRegs (((if common then fioCommonRegs else []) ++ chs.flatMap fioChRegs).map fun p => (fioBase + p.1, fioBase + p.2))

/-- Gate k is used by an output channel. -/
def Dev.gateUsed (d : Dev) (k : Nat) : Bool :=
  (List.range 24).any fun cc => decide (d.fioMode cc = 3) && decide (d.get (FIO_CHcc_CFG_ACT_GATE cc) = k)

/-- CFG_ZERO of R517, on the values in force. -/
def Dev.fioZero (d : Dev) : Bool :=
  d.get FIO_WDT_ACT_WDT = 0 || (List.range 4).any fun k => decide (d.get (FIO_GTk_PER_ACT_PER k) = 0) && d.gateUsed k

/-- Channel cc is the FIELD destination of a loop block; `live`: of one that is not OFF (R280). -/
def Dev.loopFeeds (d : Dev) (cc : Nat) (live : Bool) : Bool :=
  (List.range 16).any fun b => decide (d.get (LPB_bb_CFG_ACT_DTYPE b) = 6) && decide (d.get (LPB_bb_DST_ACT_UNIT b) = cc) &&
    (!live || decide (d.loopMode b ≠ loopOff))

/-- CFG_CONFLICT of R517, on the values in force of `d` beside those of `old`. -/
def Dev.fioConflict (d old : Dev) : Bool :=
  ((List.range 24).any fun cc => decide (d.get (FIO_CHcc_CFG_ACT_ILIM cc) < 15) || decide (30 < d.get (FIO_CHcc_CFG_ACT_ILIM cc))) ||
    ((List.range 4).any fun k =>
      (let p := d.get (FIO_GTk_PER_ACT_PER k)
       decide (p ≠ 0) && (decide (p < 2500) || decide (50000000 < p) || decide (p ≤ d.get (FIO_GTk_PH_ACT_PH k))))) ||
    decide (16 < d.nOut) || decide (4600 < d.pCfg2) ||
    (List.range 24).any fun cc => decide (old.fioMode cc = 3) && decide (d.fioMode cc ≠ 3) && d.loopFeeds cc false

/-- FIELD gate k on its grid (R508); with PER = 0 the firmware commits a group with EN = 0 (R73; the model's choice, log entry 75). -/
def Dev.regridField (d : Dev) (c : Clock) (k : Nat) : Dev :=
  let per := d.get (FIO_GTk_PER_ACT_PER k)
  if per = 0 then (d.setReg (GATE_GTnnn_CFG_EN (236 + k)).addr 0).gateCommit c (236 + k)
  else d.gateGrid c (236 + k) 4 fioUnit k per (2 * d.get (FIO_GTk_PH_ACT_PH k))

/-- Give the switch of channel cc a command from an instant on; a change starts the readback anew (R514). -/
def Dev.fioCmd (d : Dev) (cc t : Nat) (v : Bool) : Dev :=
  let x := d.fioCh cc
  if x.cmd = v then d
  else d.setFioCh cc { x with cmd := v, cmdAt := t, was := x.cmd, wasAt := x.cmdAt }

/-- A configuration in force at instant f (R517): an output that leaves its mode turns off, the die learns its safe states. -/
def Dev.fioInForce (d old : Dev) (c : Clock) (f : Nat) : Dev :=
  let d1 := (List.range 24).foldl (fun d cc =>
    let was := old.fioMode cc = 3
    let is_ := d.fioMode cc = 3
    let e := if was ∧ !is_ then (d.fioCmd cc f false).setf (FIO_CHcc_OUT_ACT cc) false else d
    let x := e.fioCh cc
    e.setFioCh cc { x with safest := decide is_ && d.flag (FIO_CHcc_CFG_ACT_SAFEST cc), held := if was ∧ !is_ then none else x.held }) d
  let d2 : Dev := { d1 with fio := { d1.fio with fresh := false } }
  ((List.range 4).foldl (fun d k =>
    if d.get (FIO_GTk_PER_ACT_PER k) = old.get (FIO_GTk_PER_ACT_PER k) ∧ d.get (FIO_GTk_PH_ACT_PH k) = old.get (FIO_GTk_PH_ACT_PH k) then d
    else d.regridField c k) d2).showPwr

/-- Channels the firmware holds. -/
def Dev.fioOwn (d : Dev) : List Nat := (List.range 24).filter fun cc => !d.isReleased 0x10 cc

/-- CTL.CMT of channel cc takes effect at the frame instant f (R517). -/
def Dev.fioCommitCh (d : Dev) (c : Clock) (f cc : Nat) : Dev :=
  if !d.flag (FIO_CHcc_CTL_CMT cc) then d else
  let d0 := d.setf (FIO_CHcc_CTL_CMT cc) false
  let d1 := d0.fioCandidate false [cc]
  if d1.fioZero then d0.setf (FIO_CHcc_CTL_ZERO cc)
  else if d1.fioConflict d0 then d0.setf (FIO_CHcc_CTL_CONFLICT cc)
  else d1.fioInForce d0 c f

/-- Commits and io.cfg images due at the frame instant f (R517). -/
def Dev.fioCommits (d : Dev) (c : Clock) (f : Nat) : Dev :=
  let (imgs, d0) := d.takeImages fioBase f
  let d1 := if imgs.isEmpty then d0 else (((d0.fioCandidate true d0.fioOwn).fioInForce d0 c f).doneImages imgs f)
  (List.range 24).foldl (fun d cc => d.fioCommitCh c f cc) d1

/-- A write of FIO_CHcc_CTL.CMT: the commit waits for the next frame instant; FIO24 to FIO31 have none (R503, R517). -/
def execFioCommit (ch : Fin 32) (s : State) : Host.Outcome State Fault Refusal :=
  .next (s.onServing fun _ d => if ch.val < 24 then d.setf (FIO_CHcc_CTL_CMT ch.val) else d)

/-! The frame (R506, R507, R511 to R516). -/

/-- An accepted input level (R507). -/
def Dev.fioAccept (d : Dev) (cc stamp : Nat) (s : Bool) : Dev :=
  (d.setf ⟨FIO_IN_IN.addr, cc, 1⟩ s).emit fioUnit 0x53 (some (stamp, 0)) 0 [BitVec.ofNat 64 (cc + if s then 256 else 0)]

/-- Readback of output cc with a sample of the frame instant f against the command of that instant; a change of the command starts a run
anew (R514). -/
def Dev.fioReadback (d : Dev) (c : Clock) (f cc : Nat) (s : Bool) : Dev :=
  let x := d.fioCh cc
  let n := d.get (FIO_CHcc_RB_ACT_RBCNT cc)
  let since := x.cmdSince f
  if cc < 24 ∧ d.dieMode cc = 3 ∧ n ≠ 0 ∧ since + 1000 * d.get (FIO_CHcc_RB_ACT_RBDLY cc) ≤ f then
    let run := if s = x.cmdBy f then 0 else if x.rbAt = since then min 15 (x.rb + 1) else 1
    let d1 := d.setFioCh cc { x with rb := run, rbAt := since }
    if n ≤ run then
      ((d1.setf ⟨FIO_RBERR_RBERR.addr, cc, 1⟩).fioDiag f cc 4).reportLim c 184 fioUnit cc (key := fioUnit + 256 * cc)
    else d1
  else d

/-- A sample of channel cc at the frame instant f: filter, wire break, over-temperature, readback (R507, R511, R513, R514). -/
def Dev.fioSample (d : Dev) (c : Clock) (f : Nat) (i : FieldIn) (cc : Nat) : Dev :=
  let m := d.dieMode cc
  let x := d.fioCh cc
  let s := i.levels.getLsbD cc && m ≠ 0
  let hot := i.otemp.getLsbD cc && m ≠ 0
  let same := x.samp = s ∧ x.run ≠ 0
  let run := if same then min 256 (x.run + 1) else 1
  let since := if same then x.since else f
  let on := x.cmdBy f && !x.cutBy f && !d.fio.low && m = 3
  let watch := d.flag (FIO_CHcc_CFG_ACT_WBEN cc) && ((isFioIn m && !s) || on)
  let d1 := d.setFioCh cc { x with
    samp := s, run := run, since := since
    low := if watch && i.low.getLsbD cc then min 10 (x.low + 1) else 0
    otemp := hot }
  let d2 := if hot then d1.fioCut cc f else d1
  let shown := d2.get FIO_IN_IN / 2 ^ cc % 2 = 1
  let d3 := if isFioIn m then
      (if d2.get (FIO_CHcc_CFG_ACT_FILT cc) + 1 ≤ run ∧ (shown ↔ s = false) then d2.fioAccept cc since s else d2)
    else if m = 0 then d2.setf ⟨FIO_IN_IN.addr, cc, 1⟩ false
    else d2
  d3.fioReadback c f cc s

/-- One cause of channel cc while the window is open: bit, packet and report when it appears (R512). -/
def Dev.fioCause (d : Dev) (c : Clock) (f cc : Nat) (bit : Field) (cause code : Nat) (now : Bool) : Dev :=
  if now && !d.flag bit then ((d.setf bit).fioDiag f cc cause).record c code fioUnit cc else d

/-- The causes of channel cc (R512). -/
def Dev.fioCauses (d : Dev) (c : Clock) (f cc : Nat) : Dev :=
  let x := d.fioCh cc
  ((d.fioCause c f cc (FIO_CHcc_DIAG_OVL cc) 1 181 (x.ovl && x.cutBy f)).fioCause c f cc (FIO_CHcc_DIAG_OPEN cc) 2 182
    (decide (10 ≤ x.low))).fioCause c f cc (FIO_CHcc_DIAG_OTEMP cc) 3 183 x.otemp

/-- The common fault bit that the frame of instant f carries in normal service (R511). -/
def Dev.fioCommon (d : Dev) (f : Nat) (dieHot : Bool) : Bool :=
  dieHot || fioAll.any fun cc => (d.fioCh cc).cutBy f || decide (10 ≤ (d.fioCh cc).low)

/-- What the device state commands output cc to (R452, R516); leaving MIRROR, it stays off until its gate fires (R471). -/
def Dev.fioTarget (d : Dev) (cc : Nat) : Bool :=
  let x := d.fioCh cc
  if d.pforce then x.safest
  else match d.dst with
    | .safe => x.safest
    | .mirror => false
    | _ => x.held.getD (d.flag (FIO_CHcc_OUT_ACT cc))

/-- The command of output cc by the device state, from an instant on. -/
def Dev.fioFollow (d : Dev) (t cc : Nat) : Dev :=
  if d.dieMode cc ≠ 3 then d else
  let d1 := if d.dst = .mirror then d.setFioCh cc { d.fioCh cc with held := some false } else d
  d1.fioCmd cc t (d1.fioTarget cc)

/-- The link resumes after the watchdog expired (R515). -/
def Dev.fioResume (d : Dev) (c : Clock) (f : Nat) : Dev :=
  if !d.fio.wd then d else
  let d1 : Dev := { d with fio := { d.fio with wd := false } }
  let d2 := (List.range 24).foldl (fun d cc =>
    if d.fioMode cc = 3 then d.setFioCh cc { d.fioCh cc with held := some (d.fioCh cc).safest } else d) d1
  ((d2.setf FIO_STAT_WDEXP).record c 185 fioUnit 0).fioDiag f 0 5

/-- The frame of instant f arrives in the core (R506). -/
def Dev.fieldFrame (d : Dev) (c : Clock) (i : FieldIn) : Dev :=
  let f := (c.ns - 1500) / 5000 * 5000
  if c.ns < 1500 ∨ f ≤ d.fio.lastFrame then d else
  let d0 : Dev := { d with fio := { d.fio with lastFrame := f } }
  let d1 := (d0.fioResume c f).showWindow f
  let d2 := fioAll.foldl (fun d cc => d.fioSample c f i cc) d1
  let win := d2.flag FIO_STAT_WIN
  let d3 := if win then fioAll.foldl (fun d cc => d.fioCauses c f cc) d2 else d2
  let bit := !win && d3.fioCommon f i.dieHot
  let d4 := if bit && !d3.fio.common then ((d3.setf FIO_STAT_CFLT).record c 180 fioUnit 0).fioDiag f 0 0 else d3
  { d4 with fio := { d4.fio with common := bit } }

/-- A frame instant: changed device states and waiting commits act (R516, R517). -/
def Dev.fioDue (d : Dev) (c : Clock) : Dev :=
  let f := c.ns / 5000 * 5000
  if f ≤ d.fio.actedAt then d
  else
    let d1 : Dev := { d with fio := { d.fio with actedAt := f } }
    (if d1.fio.wd then d1 else (List.range 24).foldl (fun d cc => d.fioFollow f cc) d1).fioCommits c f

def execFieldFrame (i : FieldIn) (s : State) : Host.Outcome State Fault Refusal := .next (s.onServing fun c d => d.fieldFrame c i)

/-! The gates (R509). -/

/-- Due io.set entries write their values for the channels of gate k into the staging (R510). -/
def Dev.fioSets (d : Dev) (k t : Nat) : Dev :=
  let mine (x : FioSet) (cc : Nat) : Bool := x.from_ ≤ t && x.mask.testBit cc && d.get (FIO_CHcc_CFG_ACT_GATE cc) = k
  let d1 := d.fio.sets.foldl (fun d x => (List.range 24).foldl (fun d cc =>
    if mine x cc then d.setf (FIO_CHcc_OUT_OUT cc) (x.vals.testBit cc) else d) d) d
  { d1 with fio := { d1.fio with sets := d1.fio.sets.map fun x =>
      { x with mask := (List.range 24).foldl (fun m cc => if mine x cc then m - 2 ^ cc else m) x.mask } } }

/-- io.set entries without a channel left are done at t. -/
def Dev.fioSetsDone (d : Dev) (t : Nat) : Dev :=
  let ended := d.fio.sets.filter fun x => x.mask = 0
  ended.foldl (fun d x => d.finishDone (some x.work) t)
    { d with fio := { d.fio with sets := d.fio.sets.filter fun x => x.mask ≠ 0 } }

/-- The latest output of a loop block with FIELD destination cc by instant t, into the staging (R280, R510). -/
def Dev.fioLoop (d : Dev) (t cc : Nat) : Dev :=
  (List.range 16).foldl (fun d b =>
    if d.get (LPB_bb_CFG_ACT_DTYPE b) = 6 ∧ d.get (LPB_bb_DST_ACT_UNIT b) = cc then
      (match (d.loopX b).outs.find? fun o => o.at_ ≤ t with
       | some o => d.setf (FIO_CHcc_OUT_OUT cc) (decide (o.d ≠ 0))
       | none => d)
    else d) d

/-- OUT of channel cc passes into force at the gate instant t (R509, R511). -/
def Dev.fioApply (d : Dev) (t cc : Nat) : Dev :=
  let out := d.flag (FIO_CHcc_OUT_OUT cc)
  let x := d.fioCh cc
  let d1 := if out then d else (d.setf (FIO_CHcc_OUT_LATCH cc) false).setFioCh cc { x with ovl := false, cut := none }
  if d1.fioMode cc ≠ 3 then d1
  else
    let d2 := (d1.setf (FIO_CHcc_OUT_ACT cc) out).setFioCh cc { d1.fioCh cc with held := if d.dst = .mirror then some false else none }
    if d2.fio.wd then d2 else d2.fioCmd cc (t + 2000) (d2.fioTarget cc)

/-- FIELD gate g with SUB k fires (R508 to R511). -/
def Dev.fieldGate (d : Dev) (c : Clock) (g : Nat) : Dev :=
  let t := d.gateNext g
  let k := d.get (GATE_GTnnn_CFG_ACT_SUB g)
  let d0 := d.gateFire c g
  let (use, d1) := if (d0.gateX (236 + k)).dataAt = none then (true, d0) else d0.gateData c g (236 + k) t
  if !use then d1
  else
    let chs := (List.range 24).filter fun cc => d1.get (FIO_CHcc_CFG_ACT_GATE cc) = k
    let was := d1.diagMask FIO_CHcc_OUT_ACT
    let d2 := chs.foldl (fun d cc => d.fioApply t cc) (chs.foldl (fun d cc => d.fioLoop t cc) (d1.fioSets k t))
    let now := d2.diagMask FIO_CHcc_OUT_ACT
    let d3 := if now = was then d2
      else d2.emit fioUnit 0x54 (some (t, 0)) 0 [BitVec.ofNat 64 (now + (now ^^^ was) * 2 ^ 32)]
    d3.fioSetsDone t

def execGateField (g : Fin 256) (s : State) : Host.Outcome State Fault Refusal :=
  .next (s.onServing fun c d => if d.gateDue c g 4 then d.fieldGate c g else d)

/-- A host write of OUT: the word of the channel's gate is complete now (R70, R509). -/
def Dev.fioOutWrite (d : Dev) (c : Clock) (cc : Nat) (v : W32) : Dev :=
  let g := 236 + d.get (FIO_CHcc_CFG_ACT_GATE cc)
  (d.regStore (FIO_CHcc_OUT_OUT cc).addr v).setGateX g { d.gateX g with dataAt := some c.ns }

/-! Protection, watchdog, supply (R511, R515, R516). -/

/-- An output or input is switched off by its protection (R511). -/
def Dev.fioTrip (d : Dev) (c : Clock) (cc : Nat) (input : Bool) : Dev :=
  let m := d.dieMode cc
  if (if input then isFioIn m else decide (m = 3)) then
    (let d1 := d.fioCut cc c.ns; d1.setFioCh cc { d1.fioCh cc with ovl := true })
  else d

def execOutputOverload (ch : Fin 32) (s : State) : Host.Outcome State Fault Refusal :=
  .next (s.onServing fun c d => d.fioTrip c ch false)

def execInputOverload (ch : Fin 32) (s : State) : Host.Outcome State Fault Refusal :=
  .next (s.onServing fun c d => d.fioTrip c ch true)

/-- The die's watchdog cannot have expired: in service, less than 0.95 × WDT ms since the last frame that came (R515). -/
def Dev.fioFed (d : Dev) (c : Clock) : Bool := d.dst.serves && decide (c.ns < d.fio.lastFrame + 950000 * d.get FIO_WDT_ACT_WDT)

/-- No valid frame for WDT ms: every output goes to its safe state, the test-pulse sources with it (R515). -/
def Dev.fioWatchdog (d : Dev) (c : Clock) : Dev :=
  if d.fio.wd || d.fioFed c then d else
  let d1 : Dev := { d with fio := { d.fio with wd := true } }
  fioAll.foldl (fun d cc => d.fioCmd cc c.ns (d.fioCh cc).safest) d1

def execFieldWatchdog (s : State) : Host.Outcome State Fault Refusal := .next (s.onDev fun c d => d.fioWatchdog c)

/-- VFLD below its undervoltage threshold: every channel off, VLOW, FC186 (R516). -/
def Dev.vfldLow (d : Dev) (c : Clock) : Dev :=
  if d.fio.low then d else
  let d1 : Dev := { d with fio := { d.fio with low := true } }
  if d.dst.serves then ((d1.setf FIO_STAT_VLOW).record c 186 fioUnit 0).fioDiag (c.ns / 5000 * 5000) 0 6 else d1

def execVfldLow (s : State) : Host.Outcome State Fault Refusal := .next (s.onDev fun c d => d.vfldLow c)

/-- VFLD is back above that threshold. -/
def execVfldRestored (s : State) : Host.Outcome State Fault Refusal :=
  .next (s.onDev fun _ d => { d with fio := { d.fio with low := false } })

/-- The field die resets: every channel off, its latches clear (R516). -/
def Dev.fieldDieReset (d : Dev) : Dev :=
  fioAll.foldl (fun d cc => d.setf (FIO_CHcc_OUT_LATCH cc) false)
    { d with fio := { d.fio with ch := [], common := false, fresh := true, wd := false } }

def execFieldDieReset (s : State) : Host.Outcome State Fault Refusal := .next (s.onDev fun _ d => d.fieldDieReset)

/-! Commands (R510, R517, R518). -/

/-- Registers io.cfg governs. -/
def isFioCfg (a : Nat) : Bool :=
  (fioCommonRegs.any fun p => a = fioBase + p.1) || fioAll.any fun cc => (fioChRegs cc).any fun p => a = fioBase + p.1

/-- The channel of a channel register. -/
def fioChOf (a : Nat) : Option Nat := if fioBase + 0x100 ≤ a then some ((a - fioBase - 0x100) / 0x20) else none

/-- Writes to FIO24 to FIO31 are ignored (R503). -/
def fioKept (p : Nat × Nat) : Bool :=
  match fioChOf p.1 with
  | some cc => cc < 24
  | none => true

/-- io.cfg. -/
def cmdIoCfg : CmdFn := fun _ tref q d =>
  let ps := q.image.filter fioKept
  let ok := imageOk isFioCfg q.image
  let owned := ps.any fun p => match fioChOf p.1 with
    | some cc => d.isReleased 0x10 cc
    | none => false
  let t := (imageLead q tref + 4999) / 5000 * 5000
  let d0 := d.atCommit t ps
  let d1 := d0.fioCandidate true d0.fioOwn
  refuseIf [(decide (q.target ≠ 0x6D) || q.noImage, rcBadFormat), (owned, rcRegOwned), (ok && d1.fioZero, rcCfgZero),
      (!ok || d1.fioConflict (d.imagesBy t), rcCfgConflict)] fun _ =>
    .accept t { d with imgs := d.imgs ++ [{ group := fioBase, from_ := imageLead q tref, due := t, pairs := ps, work := some q.id }] }

/-- The first firing of channel cc's gate from `bound` on: by the configuration in force, and past the frame instant at which an accepted
io.cfg commits by the image's (R383, R510, R517). -/
def Dev.fioFiring (d : Dev) (cc bound : Nat) : List PendImg → Nat → Nat
  | [], lo => d.firstFiring (236 + d.get (FIO_CHcc_CFG_ACT_GATE cc)) (max lo bound)
  | p :: ps, lo =>
    let τ := (p.from_ + 4999) / 5000 * 5000
    let t := d.firstFiring (236 + d.get (FIO_CHcc_CFG_ACT_GATE cc)) (max lo bound)
    if t < τ then t
    else (((d.writePairs p.pairs).fioCandidate true d.fioOwn).fioInForce d { osc := 0, tor := τ * 2 ^ 48 } τ).fioFiring cc bound ps τ

/-- io.set: word 0 holds the mask in bits 31:0 and the values in bits 63:32 (log entry 23). -/
def cmdIoSet : CmdFn := fun _ tref q d =>
  let mask := bits64 (q.pw 0) 0 32
  let chs := fioAll.filter fun cc => mask.testBit cc
  let dev := match d.dst with
    | .safe | .mirror => true
    | _ => false
  let bad (cc : Nat) : Bool := decide (24 ≤ cc) || decide (d.fioMode cc ≠ 3) || d.loopFeeds cc true || d.isReleased 0x10 cc
  refuseIf [(decide (q.target ≠ 0x6D) || decide (q.payload.length ≠ 1), rcBadFormat), (dev || chs.any bad, rcBadState)] fun _ =>
    let from_ := max (q.at_ tref) (tref + 10000)
    if mask = 0 then .done {} d
    else
      let imgs := d.imagesOf fun p => p.group = fioBase
      let t := chs.foldl (fun m cc => max m (d.fioFiring cc from_ imgs 0)) from_
      .accept t { d with fio := { d.fio with
        sets := d.fio.sets ++ [{ from_ := from_, mask := mask, vals := bits64 (q.pw 0) 32 32, work := q.id }] } }

/-- io.diag: DWIN in bits 15:0 of word 0. -/
def cmdIoDiag : CmdFn := fun c tref q d =>
  let dwin := bits64 (q.pw 0) 0 16
  let dev := match d.dst with
    | .ready | .run => true
    | _ => false
  refuseIf [(decide (q.target ≠ 0x6D) || decide (q.payload.length ≠ 1) || decide (bits64 (q.pw 0) 16 48 ≠ 0), rcBadFormat),
      (!dev, rcBadState)] fun _ =>
    if dwin = 0 then .done d.diagRsp d
    else (let a := q.at_ tref; .accept (a + dwin * 1000000) (d.openWindow c.ns a (a + dwin * 1000000) (some q.id)))

def execIoCfg (q : Request) (s : State) : Host.Outcome State Fault Refusal := .next (s.command 0x0600 cmdIoCfg q)
def execIoSet (q : Request) (s : State) : Host.Outcome State Fault Refusal := .next (s.command 0x0601 cmdIoSet q)
def execIoDiag (q : Request) (s : State) : Host.Outcome State Fault Refusal := .next (s.command 0x0602 cmdIoDiag q)

end Sys2Proof.Machine
end

