-- ==== Sys2Proof/Machine/Capture.lean ====
section
/-! DEFINITION. Trigger and acquisition (R522 to R541): effective instants, samples, trigger units, records, cap.cfg, cap.arm, cap.stop. -/

namespace Sys2Proof.Machine

/-- Unit code of recorder r and its CAPTURE gate (R522, R531). -/
def capUnit (r : Nat) : Nat := 0x58 + r
def capGate (r : Nat) : Nat := 240 + r

/-! Values (R524, R525, R526). -/

/-- The instant of a packet in 2^-16 ns (R29, R30). -/
def Dev.packetInstant (d : Dev) (now : Nat) (p : Packet) : Nat :=
  d.packetNs now p * 65536 + if brandTimed p.brand then bits64 (p.words.getD 1 0) 0 16 else 0

/-- The device's own path delay of a packet in ns (R525). -/
def pathDelay (p : Packet) : Int :=
  if brandType p.brand = 0x10 then -sInt 16 (bits64 (p.word 2) 48 16) else if brandType p.brand = 0x53 then 2500 else 0

/-- Effective instant in 2^-16 ns for channel cc (R525). -/
def Dev.capEff (d : Dev) (now cc : Nat) (p : Packet) : Int :=
  (d.packetInstant now p : Int) - (pathDelay p + d.getI (CAP_CHcc_TRIM_ACT_TRIM cc)) * 65536

/-- Channel cc selects this packet (R524). -/
def Dev.capSelects (d : Dev) (cc : Nat) (p : Packet) : Bool :=
  d.flag (CAP_CHcc_SRC_ACT_EN cc) && decide (d.get (CAP_CHcc_SRC_ACT_UNIT cc) = brandUnit p.brand) &&
    decide (d.get (CAP_CHcc_SRC_ACT_TYPE cc) = brandType p.brand)

/-- The latest sample of recorder r whose write instant has passed, its row in the queue or not (R526). -/
def Dev.capPassed (d : Dev) (c : Clock) (r : Nat) : Option Nat :=
  let x := d.capX r
  let lag := 1000 * d.get (CAP_Rr_CFG_ACT_RLAG r)
  match x.next with
  | some n =>
    if n + lag < c.ns then some (if d.capT r = 0 then n else n + (c.ns - 1 - lag - n) / d.capT r * d.capT r)
    else if !x.first && decide (x.last + lag < c.ns) then some x.last
    else none
  | none => none

/-- A value of channel cc arrives (R524, R526). -/
def Dev.capValue (d : Dev) (c : Clock) (cc : Nat) (p : Packet) : Dev :=
  let y := d.capChX cc
  let field := brandType p.brand = 0x53
  let w := p.word (d.get (CAP_CHcc_SRC_ACT_WSEL cc))
  let bits := if field then
      (let ch := bits64 (p.word 1) 0 5; insBits y.bits ch 1 (bits64 (p.word 1) 8 1))
    else y.bits
  let v := if field then bits else BitVec.ofNat 32 (if d.flag (CAP_CHcc_SRC_ACT_HALF cc) then bits64 w 32 32 else bits64 w 0 32)
  let r := d.get (CAP_CHcc_SRC_ACT_REC cc)
  let x := d.capX r
  let e := d.capEff c.ns cc p
  if x.next.isNone then d.setCapChX cc { y with bits := bits }
  else
    let d1 := d.setCapChX cc { bits := bits, vals := { e := e, at_ := c.ns, v := v } :: y.vals }
    if (d.capPassed c r).any fun t => decide (e ≤ (t * 65536 : Nat)) then
      ((d1.setCapX r { x with late := x.late + 1 }).bump (CAP_CHcc_LATE_CNT cc)).reportLim c 191 (capUnit r) cc
        (key := capUnit r + 256 * cc)
    else d1

/-- Capture sees a packet (R524). -/
def Dev.capture (d : Dev) (c : Clock) (p : Packet) : Dev :=
  ((List.range 64).filter fun cc => d.capSelects cc p).foldl (fun d cc => d.capValue c cc p) d

/-- The value channel cc records for the sample at t written with this lag: latest effective instant, then later arrival (R526). -/
def CapCh.at_ (y : CapCh) (t lag : Nat) : Option CapVal :=
  y.vals.foldl (fun (best : Option CapVal) v =>
    if v.e ≤ ((t * 65536 : Nat) : Int) ∧ v.at_ ≤ t + lag then
      (match best with
       | some b => if b.e < v.e then some v else best
       | none => some v)
    else best) none

/-- Values a later sample can still use. -/
def CapCh.prune (y : CapCh) (t lag : Nat) (used : Option CapVal) : CapCh :=
  { y with vals := y.vals.filter fun v => decide (((t * 65536 : Nat) : Int) < v.e) || decide (t + lag < v.at_) || decide (some v = used) }

/-! Trigger units (R527). -/

/-- What a trigger unit meets: the effective instant it names. -/
def Dev.unitMet (d : Dev) (r u t lag : Nat) : Option Int :=
  let x := d.capX r
  let ch := d.get (CAP_Tu_CFG_ACT_CHAN u)
  let y := d.capChX ch
  let val := y.at_ t lag
  let num (w : W32) : Int := if d.flag (CAP_Tu_CFG_ACT_SIGNED u) then w.toInt else w.toNat
  let raw : W32 := (val.map (·.v)).getD 0
  let v := num raw
  let p := num (x.prev.get (fun _ => 0) ch)
  let aw := d.reg (CAP_Tu_A_ACT_V u).addr
  let bw := d.reg (CAP_Tu_B_ACT_V u).addr
  let a := num aw
  let b := num bw
  let before : Int := (t : Int) - d.capT r
  let here : Int := (val.map (·.e)).getD ((t * 65536 : Nat) : Int)
  let plain (m : Bool) : Option Int := if m then some here else none
  match d.get (CAP_Tu_CFG_ACT_KIND u) with
  | 1 => plain (decide (a < v))
  | 2 => plain (decide (v < a))
  | 3 => plain (decide (a ≤ v) && decide (v ≤ b))
  | 4 => plain (decide (v < a) || decide (b < v))
  | 5 => plain (!x.first && decide (p < a) && decide (a ≤ v))
  | 6 => plain (!x.first && decide (a ≤ p) && decide (v < a))
  | 7 => plain (decide (raw &&& bw = aw))
  | 8 => (match val with
    | some w => if before * 65536 < w.e then some w.e else none
    | none => none)
  | 9 =>
    let tt : Int := (aw.toNat + bw.toNat * 2 ^ 32 : Nat)
    if before < tt ∧ tt ≤ t then some (tt * 65536) else none
  | _ => none

/-- Mask of the units met, and the instant of the lowest. -/
def Dev.unitsMet (d : Dev) (r t lag : Nat) : Nat × Int :=
  let tm := d.get (CAP_Rr_CFG_ACT_TMASK r)
  (List.range 8).reverse.foldl (fun acc u =>
    if tm.testBit u then
      (match d.unitMet r u t lag with
       | some e => (acc.1 + 2 ^ u, e)
       | none => acc)
    else acc) (0, 0)

/-! Samples (R526, R528 to R534, R536). -/

/-- Two 32-bit values to a word, the last padded with zero (R536). -/
def frameWords : List W32 → List W64
  | [] => []
  | [a] => [a.zeroExtend 64]
  | a :: b :: r => (b ++ a : BitVec 64) :: frameWords r

/-- The recorder goes on in the next segment, or stops where none is free (R532). -/
def Dev.capNext (d : Dev) (c : Clock) (r : Nat) : Dev :=
  let nseg := 2 ^ d.get (CAP_Rr_CFG_ACT_NSEGLOG r)
  let x := d.capX r
  if d.get (CAP_Rr_CFG_ACT_MODE r) ≠ 2 then (d.capEnd r {}).capIdle r
  else if nseg ≤ d.get (CAP_Rr_STAT_FULL r) + 1 then
    (((d.capEnd r { ovf := true }).capIdle r).setf (CAP_Rr_STAT_OVF r)).record c 190 (capUnit r) 0
  else
    let d1 := d.capEnd r {}
    let d2 := (d1.put (CAP_Rr_STAT_WSEG r) ((d.get (CAP_Rr_STAT_WSEG r) + 1) % nseg)).putState (capUnit r) (CAP_Rr_STAT_STATE r)
      (if d.get (CAP_Rr_PRE_ACT_N r) = 0 then 2 else 1)
    d2.setCapX r { x with recno := x.recno + 1, pos := 0, stored := 0, count := 0, post := 0, deadFrom := x.last, ready := none,
                          trig := none, missed := 0, late := 0 }

/-- What follows the sample just written: end of the record, cap.stop, or the next sample (R530, R532, R534). -/
def Dev.capAfter (d : Dev) (c : Clock) (r t : Nat) : Dev :=
  let x := d.capX r
  let full := x.trig.isSome && decide (d.get (CAP_Rr_POST_ACT_N r) ≤ x.post)
  match x.stop with
  | some (at_, w) =>
    if at_ ≤ t then
      (((d.capEnd r { stopped := true }).capIdle r).setCapX r { x with next := none, stop := none }).finishDone (some w)
        (t + 1000 * d.get (CAP_Rr_CFG_ACT_RLAG r))
    else if full then d.capNext c r else d
  | none => if full then d.capNext c r else d

/-- Recorder r writes the sample at t (R526). -/
def Dev.capSample (d : Dev) (c : Clock) (r t : Nat) : Dev :=
  let x := d.capX r
  let lag := 1000 * d.get (CAP_Rr_CFG_ACT_RLAG r)
  let chs := d.capChans r
  let vals := chs.map fun cc => (cc, (d.capChX cc).at_ t lag)
  let (met, teff) := d.unitsMet r t lag
  let ring := d.capRing r
  let pre := d.get (CAP_Rr_PRE_ACT_N r)
  let base := d.capSegBase r (d.get (CAP_Rr_STAT_WSEG r)) + 64 + x.pos * frameBytes chs.length
  let d1 := d.wrWords base (frameWords (vals.map fun p => (p.2.map (·.v)).getD 0))
  let d2 := vals.foldl (fun d p => d.setCapChX p.1 ((d.capChX p.1).prune t lag p.2)) d1
  let able := x.trig.isNone && decide (pre ≤ x.count)
  let fires := able && decide (met ≠ 0)
  let hits := ((List.range 8).filter fun u => met.testBit u).length
  let y : CapX := { x with
    armWork := none
    next := some (t + d.capT r)
    first := false
    last := t
    pos := if ring = 0 then 0 else (x.pos + 1) % ring
    stored := min ring (x.stored + 1)
    count := x.count + 1
    post := if x.trig.isSome then x.post + 1 else 0
    ready := if able && x.ready.isNone then some t else x.ready
    trig := if fires then some { t := t, teff := teff, mask := met, before := pre } else x.trig
    missed := if fires then x.missed else x.missed + hits
    prev := vals.foldl (fun q p => Tab.set (fun _ => (0 : W32)) q p.1 ((p.2.map (·.v)).getD 0)) [] }
  let st := if y.trig.isSome then 3 else if pre ≤ y.count then 2 else 1
  let d3 := ((d2.setCapX r y).putState (capUnit r) (CAP_Rr_STAT_STATE r) st).finishDone x.armWork t
  d3.capAfter c r t

/-- The first sample instant of recorder r at or after `bound` (R523). -/
def Dev.capGrid (d : Dev) (r bound : Nat) : Nat :=
  (gridFrom (2 * d.get (CAP_Rr_SPH_ACT_SPH r)) (d.get (CAP_Rr_SPER_ACT_SPER r)) bound).1

/-- A cap.stop whose instant comes while nothing records is done then. -/
def Dev.capStopIdle (d : Dev) (c : Clock) (r : Nat) : Dev :=
  let x := d.capX r
  match x.stop with
  | some (at_, w) =>
    let t := d.capGrid r at_ + 1000 * d.get (CAP_Rr_CFG_ACT_RLAG r)
    if t ≤ c.ns then (d.setCapX r { x with stop := none }).finishDone (some w) t else d
  | none => d

def execCaptureSample (r : Fin 8) (s : State) : Host.Outcome State Fault Refusal :=
  .next (s.onServing fun c d => match (d.capX r).next with
    | some t => if t + 1000 * d.get (CAP_Rr_CFG_ACT_RLAG r.val) ≤ c.ns then d.capSample c r t else d
    | none => d.capStopIdle c r)

/-- REL frees the oldest full segment (R532). -/
def Dev.segRelease (d : Dev) (r : Nat) : Dev :=
  let n := d.get (CAP_Rr_STAT_FULL r)
  if n = 0 then d
  else (d.put (CAP_Rr_STAT_FULL r) (n - 1)).put (CAP_Rr_STAT_RSEG r)
    ((d.get (CAP_Rr_STAT_RSEG r) + 1) % 2 ^ d.get (CAP_Rr_CFG_ACT_NSEGLOG r))

def execSegmentRelease (r : Fin 8) (s : State) : Host.Outcome State Fault Refusal := .next (s.onServing fun _ d => d.segRelease r)

/-! Arming (R531). -/

/-- The recorder starts at the first sample instant at or after the gate instant t, in the segment after the full ones; where none is free
it takes the oldest (R531, R532; log entry 24). -/
def Dev.capStart (d : Dev) (r t : Nat) : Dev :=
  let x := d.capX r
  let nseg := 2 ^ d.get (CAP_Rr_CFG_ACT_NSEGLOG r)
  let d0 := if nseg ≤ d.get (CAP_Rr_STAT_FULL r) then d.segRelease r else d
  let d1 := d0.put (CAP_Rr_STAT_WSEG r) ((d0.get (CAP_Rr_STAT_RSEG r) + d0.get (CAP_Rr_STAT_FULL r)) % nseg)
  let d2 := (d1.putState (capUnit r) (CAP_Rr_STAT_STATE r) (if d.get (CAP_Rr_PRE_ACT_N r) = 0 then 2 else 1)).setCapX r
    { armWork := x.armWork, stop := x.stop, next := some (d.capGrid r t), deadFrom := t }
  (d.capChans r).foldl (fun d cc => d.setCapChX cc { d.capChX cc with vals := [] }) d2

/-- A CAPTURE gate fires (R531). -/
def Dev.captureGate (d : Dev) (c : Clock) (g : Nat) : Dev :=
  let t := d.gateNext g
  let r := d.get (GATE_GTnnn_CFG_ACT_TARGET g) - 0x58
  let (use, d1) := (d.gateFire c g).gateData c g g t
  if use && (d1.capX r).armWork.isSome then d1.capStart r t else d1

def execGateCapture (g : Fin 256) (s : State) : Host.Outcome State Fault Refusal :=
  .next (s.onServing fun c d => if d.gateDue c g 6 then d.captureGate c g else d)

/-- TARGET names a recorder. -/
def capTarget (q : Request) : Bool := decide (0x58 ≤ q.target.toNat) && decide (q.target.toNat < 0x60)

/-- Recorder r records. -/
def Dev.capBusy (d : Dev) (r : Nat) : Bool := (d.capX r).next.isSome

def cmdCapArm : CmdFn := fun c tref q d =>
  let r := q.target.toNat - 0x58
  let at_ := q.at_ tref
  refuseIf [(!capTarget q || decide (q.payload.length ≠ 0), rcBadFormat),
      (d.capBusy r || (d.capX r).armWork.isSome || decide (d.get (CAP_Rr_CFG_ACT_MODE r) = 0), rcBadState),
      (decide (at_ < tref + 10000), rcTooLate)] fun _ =>
    let g := capGate r
    let cfg := 1 + 6 * 16 + capUnit r * 256
    let d1 := ((d.setReg (GATE_GTnnn_CFG_EN g).addr (BitVec.ofNat 32 cfg)).put (GATE_GTnnn_PER_PER g) 0).put64
      (GATE_GTnnn_CMP_LO_CMP g) (GATE_GTnnn_CMP_HI_CMP g) at_
    let d2 := d1.gateGroup c g cfg 0 at_
    let d3 := d2.setGateX g { d2.gateX g with dataAt := some c.ns }
    .accept (d.capGrid r at_) (d3.setCapX r { d3.capX r with armWork := some q.id })

def cmdCapStop : CmdFn := fun _ tref q d =>
  let r := q.target.toNat - 0x58
  refuseIf [(!capTarget q || decide (q.payload.length ≠ 0), rcBadFormat),
      ((!d.capBusy r && (d.capX r).armWork.isNone) || (d.capX r).stop.isSome, rcBadState)] fun _ =>
    .accept (d.capGrid r (q.at_ tref) + 1000 * d.get (CAP_Rr_CFG_ACT_RLAG r))
      (d.setCapX r { d.capX r with stop := some (q.at_ tref, q.id) })

/-- The first sample instant of an armed recorder has come: cap.arm is done (R531). -/
def Dev.capArmed (d : Dev) (c : Clock) (r : Nat) : Dev :=
  let x := d.capX r
  match x.next, x.armWork with
  | some t, some w => if x.first ∧ t ≤ c.ns then (d.setCapX r { x with armWork := none }).finishDone (some w) t else d
  | _, _ => d

def execCapArm (q : Request) (s : State) : Host.Outcome State Fault Refusal := .next (s.command 0x0501 cmdCapArm q)
def execCapStop (q : Request) (s : State) : Host.Outcome State Fault Refusal := .next (s.command 0x0502 cmdCapStop q)

/-! The staged group (R538, R539). -/

/-- Staged channels and trigger units of recorder r. -/
def Dev.capStagedChans (d : Dev) (r : Nat) : List Nat := (List.range 64).filter fun cc => d.get (CAP_CHcc_SRC_REC cc) = r
def Dev.capStagedUnits (d : Dev) (r : Nat) : List Nat := (List.range 8).filter fun u => (d.get (CAP_Rr_CFG_TMASK r)).testBit u

/-- The staged group of recorder r in force; the segments of another region hold no record (log entry 24). -/
def Dev.capCopy (d : Dev) (r : Nat) : Dev :=
  let regs := (List.range 6).map (fun i => 0x400B0000 + 0x40 * r + 4 * i) ++
    (d.capStagedChans r).flatMap (fun cc => [0x400B0400 + 0x10 * cc, 0x400B0404 + 0x10 * cc]) ++
    (d.capStagedUnits r).flatMap fun u => [0x400B0800 + 0x10 * u, 0x400B0804 + 0x10 * u, 0x400B0808 + 0x10 * u]
  let d1 := d.copyRegs (regs.map fun a => (a, a + 0x1000))
  let seg (d : Dev) : List Nat := [d.get (CAP_Rr_CFG_ACT_NSEGLOG r), d.get (CAP_Rr_MEM_ACT_BASE r), d.get (CAP_Rr_MEM_ACT_LEN r)]
  if seg d1 = seg d then d1
  else ((d1.put (CAP_Rr_STAT_FULL r) 0).put (CAP_Rr_STAT_WSEG r) 0).put (CAP_Rr_STAT_RSEG r) 0

def Dev.capZero (d : Dev) (r : Nat) : Bool :=
  d.get (CAP_Rr_SPER_SPER r) = 0 || (d.get (CAP_Rr_CFG_MODE r) ≠ 0 &&
    (d.get (CAP_Rr_MEM_LEN r) = 0 || (d.capStagedChans r).all fun cc => !d.flag (CAP_CHcc_SRC_EN cc)))

/-- CFG_CONFLICT of R539. -/
def Dev.capConflict (d : Dev) (r : Nat) : Bool :=
  let sper := d.get (CAP_Rr_SPER_SPER r)
  let mode := d.get (CAP_Rr_CFG_MODE r)
  let lag := d.get (CAP_Rr_CFG_RLAG r)
  let base := d.get (CAP_Rr_MEM_BASE r)
  let len := d.get (CAP_Rr_MEM_LEN r)
  let log_ := d.get (CAP_Rr_CFG_NSEGLOG r)
  let chs := d.capStagedChans r
  let en := chs.filter fun cc => d.flag (CAP_CHcc_SRC_EN cc)
  let units := d.capStagedUnits r
  let others := (List.range 8).filter fun k => k ≠ r
  let overlaps (k : Nat) : Bool := decide (d.get (CAP_Rr_CFG_ACT_MODE k) ≠ 0) &&
    (let b := d.get (CAP_Rr_MEM_ACT_BASE k); decide (base < b + d.get (CAP_Rr_MEM_ACT_LEN k)) && decide (b < base + len))
  let kind (u : Nat) : Nat := d.get (CAP_Tu_CFG_KIND u)
  decide (50000000 < sper) || decide (sper < 500) || decide (sper ≤ d.get (CAP_Rr_SPH_SPH r)) || decide (lag = 0) || decide (1000 < lag) ||
    decide (mode = 3) || (units.any fun u => decide (10 ≤ kind u)) ||
    decide (512 < base + len) || (others.any overlaps) || decide (4 < log_) || decide (mode = 1 ∧ log_ ≠ 0) ||
    (decide (mode ≠ 0) && decide (ringFrames (4096 * len / 2 ^ log_) (frameBytes en.length) <
      d.get (CAP_Rr_PRE_N r) + d.get (CAP_Rr_POST_N r) + 1)) ||
    (units.any fun u => others.any fun k => (d.get (CAP_Rr_CFG_ACT_TMASK k)).testBit u) ||
    (units.any fun u => decide (kind u ≠ 9) && !en.contains (d.get (CAP_Tu_CFG_CHAN u))) ||
    chs.any fun cc => decide (d.get (CAP_CHcc_SRC_WSEL cc) = 0) || decide (100000 < (d.getI (CAP_CHcc_TRIM_TRIM cc)).natAbs)

/-- Bytes per µs of recorder r in force (R538). -/
def Dev.capLoad (d : Dev) (r : Nat) : Rat :=
  if d.get (CAP_Rr_CFG_ACT_MODE r) = 0 ∨ d.capT r = 0 then 0 else mkRat (1000 * frameBytes (d.capChans r).length) (d.capT r)

/-- R538 fails with the staged group in force. -/
def Dev.capOverload (d : Dev) (r : Nat) : Bool :=
  let d1 := d.capCopy r
  decide ((400 : Rat) < (List.range 8).foldl (fun s k => s + d1.capLoad k) 0)

/-- CAP_Rr_CTL.CMT (R539); a recorder that records and a load beyond R538 show as CONFLICT (log entry 24). -/
def Dev.capCommit (d : Dev) (r : Nat) : Dev :=
  let d0 := d.setf (CAP_Rr_CTL_CMT r) false
  if d.capBusy r then d0.setf (CAP_Rr_CTL_CONFLICT r)
  else if d.capZero r then d0.setf (CAP_Rr_CTL_ZERO r)
  else if d.capConflict r || d.capOverload r then d0.setf (CAP_Rr_CTL_CONFLICT r)
  else d0.capCopy r

def execCapCommit (r : Fin 8) (s : State) : Host.Outcome State Fault Refusal := .next (s.onServing fun _ d => d.capCommit r)

/-- Registers cap.cfg of recorder r governs. -/
def isCapCfg (r a : Nat) : Bool :=
  (0x400B0000 + 0x40 * r ≤ a && a < 0x400B0018 + 0x40 * r) || (0x400B0400 ≤ a && a < 0x400B0880)

/-- cap.cfg: in force at acceptance (R539). -/
def cmdCapCfg : CmdFn := fun _ _ q d =>
  let r := q.target.toNat - 0x58
  let ok := imageOk (isCapCfg r) q.image
  let d1 := d.writePairs q.image
  refuseIf [(!capTarget q || q.noImage, rcBadFormat), (d.capBusy r, rcBadState), (ok && d1.capZero r, rcCfgZero),
      (!ok || d1.capConflict r, rcCfgConflict), (d1.capOverload r, rcOverload)] fun _ => .done {} (d1.capCopy r)

def execCapCfg (q : Request) (s : State) : Host.Outcome State Fault Refusal := .next (s.command 0x0500 cmdCapCfg q)

end Sys2Proof.Machine
end

