-- ==== Sys2Proof/Machine/SafetyUnit.lean ====
section
/-! DEFINITION. The safety unit (R477 to R502): inputs and test pulses, group states, STO and SS1, speed monitoring, diagnostics, safe.cfg and
safe.status. Sample k of 25 µs lies 25 k µs after the unit's reset, by its own oscillator. -/

namespace Sys2Proof.Machine

/-- Unit code of the safety unit (R27). -/
def safeUnit : Nat := 0x6C

/-- Group states (R486). -/
def sgInit : Nat := 0
def sgSto : Nat := 1
def sgWait : Nat := 2
def sgEnable : Nat := 3
def sgSs1 : Nat := 4

def Dev.sg (d : Dev) (g : Nat) : Nat := d.get (SAFE_Gg_STAT_STATE g)

/-- Inputs in use (TYPE 0b01 or 0b10) and test-pulse sources (R481). -/
def Dev.siUsed (d : Dev) (i : Nat) : Bool := (let t := d.get (SAFE_SIi_CFG_ACT_TYPE i); t = 1 || t = 2)

def Dev.siSources (d : Dev) : List Nat := (List.range 8).filter fun i => d.get (SAFE_SIi_CFG_ACT_TYPE i) = 3

/-- D of R483 in µs for NS sources. -/
def pulseGap (ns : Nat) : Nat := if ns = 0 then 1000 else 25 * (40 / ns)

/-! STO outputs (R480, R490). -/

/-- STO_Gg is high (R480). -/
def Dev.stoHigh (d : Dev) (g : Nat) : Bool :=
  (d.sg g = sgEnable || d.sg g = sgSs1) && !d.flag SAFE_STAT_DIAG &&
    (match d.dst with
     | .ready | .run | .mirror => true
     | _ => false)

/-- STO_Gg follows R480; where it goes low, the direct path puts the group's outputs at high impedance, and every lane that runs reports
FL170. -/
def Dev.stoDrive (d : Dev) (c : Clock) (g : Nat) : Dev :=
  let was := d.flag (SAFE_Gg_STAT_STOPIN g)
  let now := d.stoHigh g
  let d1 := (d.setf (SAFE_Gg_STAT_STOPIN g) now).setGroupX g { d.groupX g with stoZ := if now then false else (d.groupX g).stoZ || was }
  let d2 := if was && !now && d.dst.serves then
      (lanesOfGroup g).foldl (fun d u => if (d.lane u).state.running then (d.record c 170 u 0).laneFault c 170 u else d) d1
    else d1
  if was = now then d2 else (lanesOfGroup g).foldl (fun d u => d.showUnit c u) d2

def Dev.stoDriveAll (d : Dev) (c : Clock) : Dev := (List.range 4).foldl (fun d g => d.stoDrive c g) d

/-- Group g enters a state. -/
def Dev.sgTo (d : Dev) (g st : Nat) : Dev := d.putState 0x6C (SAFE_Gg_STAT_STATE g) st

/-! Diagnostics (R496). -/

/-- A diagnostic fails: the latch, every group to STO, FD175. -/
def Dev.safetyDiag (d : Dev) (c : Clock) (cause : Nat) : Dev :=
  if d.flag SAFE_STAT_DIAG then d else
  let d1 := (d.setf SAFE_STAT_DIAG).put SAFE_DIAG_CAUSE cause
  let d2 := (List.range 4).foldl (fun d g => d.sgTo g sgSto) d1
  (if d.dst.serves then d2.deviceFault c 175 safeUnit cause true else d2).stoDriveAll c

/-- The safety unit is powered (R479). -/
def State.onSafety (s : State) (f : Clock → Dev → Dev) : State := if s.dev.timeRuns then s.onDev f else s

def execOscCheck (ok : Bool) (s : State) : Host.Outcome State Fault Refusal :=
  .next (s.onSafety fun c d => if ok then d else d.safetyDiag c 4)

/-- `rom`, `cfg`: the CRCs of the safety program and of the stored configuration are right. -/
def execSafetyCrcCheck (rom cfg : Bool) (s : State) : Host.Outcome State Fault Refusal :=
  .next (s.onSafety fun c d => if !rom then d.safetyDiag c 1 else if !cfg then d.safetyDiag c 3 else d)

/-- The supervisor heartbeat is absent for 3 ms while it is checked (R493, R494). -/
def execSupsil (s : State) : Host.Outcome State Fault Refusal :=
  .next (s.onSafety fun c d => if d.safe.watch && d.dst.serves then d.safetyDiag c 7 else d)

/-! Stopping (R487, R490). -/

/-- SS1 begins for a group: what the supervisor does with lane u (R45, R255, R490). -/
def Dev.safeStopLane (d : Dev) (c : Clock) (u : Nat) : Dev :=
  if (d.lane u).state.running then
    let d1 := (d.record c 174 u 0).discardUnit c 174 u
    let x := d1.lane u
    let fresh := x.state = .enabled && !x.chg.any fun g => g.target = .stopping
    let chg := if fresh then
        x.chg ++ [{ at_ := c.ns, target := .stopping, work := none }] ++
          (if d1.trajT u = 0 then [{ at_ := c.ns, target := .armed, work := none }] else [])
      else x.chg
    let d2 := d1.setAxX u { d1.axX u with halt := true, haltLane := decide (d1.trajT u ≠ 0) }
    let armed := if fresh ∧ d1.trajT u ≠ 0 then d2.stopGateAt c u (d1.axGrid u (c.ns + 1)) else x.armedAt
    d2.setLane u { x with chg := chg, armedAt := armed }
  else if 24 ≤ u then d.setAxX u { d.axX u with halt := true }
  else d

/-- Group g enters SS1 at this cycle: timer and stop request. -/
def Dev.ss1Begin (d : Dev) (c : Clock) (g : Nat) : Dev :=
  let d1 := (d.sgTo g sgSs1)
  let d2 : Dev := { d1 with safe := { d1.safe with ss1 := d1.safe.ss1.set (fun _ => none) g (some d1.safe.n) } }
  if d.dst.serves then (lanesOfGroup g).foldl (fun d u => d.safeStopLane c u) d2 else d2

/-- SS1T expires (R486). -/
def Dev.ss1Expiry (d : Dev) (c : Clock) (g : Nat) : Dev :=
  match d.safe.ss1.get (fun _ => none) g with
  | some n =>
    if d.sg g = sgSs1 ∧ 10 * d.get (SAFE_Gg_SS1T_ACT_SS1T g) ≤ d.safe.n - n then (d.sgTo g sgSto).stoDrive c g else d
  | none => d

def execSs1Expiry (g : Fin 4) (s : State) : Host.Outcome State Fault Refusal := .next (s.onSafety fun c d => d.ss1Expiry c g)

/-! Inputs (R483 to R485, R488, R489). -/

/-- What a sample of an input is within its source's schedule: masked, last sample in the own pulse, first sample of another source's
pulse, sample in another source's pulse (R483, R484). -/
structure PulseView where
  masked : Bool
  last : Bool
  otherFirst : Bool
  other : Bool
  deriving DecidableEq, Repr

/-- The view of input i, a contact of source SIsrc, at phase `ph` µs of the 1 ms. -/
def Dev.pulseView (d : Dev) (i ph : Nat) : PulseView :=
  let srcs := d.siSources
  let gap := pulseGap srcs.length
  let w := d.get SAFE_TP_ACT_TPW
  let own := d.get (SAFE_SIi_CFG_ACT_SRC i)
  let inside (j : Nat) : Bool := decide (j * gap ≤ ph) && decide (ph < j * gap + w)
  let rank := srcs.findIdx fun s => s = own
  let mine := srcs.contains own && inside rank
  let others := (List.range srcs.length).filter fun j => !(srcs.contains own && decide (j = rank))
  { masked := srcs.contains own && decide (rank * gap ≤ ph) && decide (ph ≤ rank * gap + w + d.get SAFE_TP_ACT_TPSET)
    last := mine && !inside (if ph + 25 < rank * gap + w then rank else srcs.length + 1000)
    otherFirst := !mine && others.any fun j => j * gap = ph
    other := !mine && others.any inside }

/-- A test of input i failed or passed (R484). With TFAIL the input counts as a permanent demand: a press ends without effect, and the
demand of a GUARD ends when TFAIL clears. -/
def Dev.siTest (d : Dev) (c : Clock) (i : Nat) (pass : Bool) : Dev :=
  let x := d.safeIn i
  if pass then
    let n := min 8 (x.clean + 1)
    let d1 := (d.bump (SAFE_SIi_STAT_TPASS i)).setSafeIn i { x with clean := n }
    if 8 ≤ n then (d1.setf (SAFE_SIi_STAT_TFAIL i) false).setSafeIn i
        { d1.safeIn i with guard := if x.guard = 1 ∧ !d.flag (SAFE_SIi_STAT_DEM i) then 2 else x.guard }
      else d1
  else
    let d1 := (((d.put (SAFE_SIi_STAT_TPASS i) 0).bump (SAFE_SIi_STAT_TFCNT i)).setf (SAFE_SIi_STAT_TFAIL i)).setSafeIn i
      { x with clean := 0, before := false, press := none }
    d1.record c 171 safeUnit i

/-- A demand of input i is accepted at sample k (R485, R488, R489); the Bool says whether a valid reset edge follows. -/
def Dev.siDemand (d : Dev) (i k : Nat) : Bool × Dev :=
  let x := d.safeIn i
  let role := d.get (SAFE_SIi_CFG_ACT_ROLE i)
  let d1 := d.setf (SAFE_SIi_STAT_DEM i)
  if role = 3 then
    let edge := match x.press with
      | some p => decide (4000 ≤ k - p) && decide (k - p ≤ 80000)
      | none => false
    let d2 := d1.setSafeIn i { x with press := none, stuck := false }
    (edge, d2.setf SAFE_STAT_STUCK ((List.range 8).any fun j => (d2.safeIn j).stuck))
  else (false, if role = 1 ∧ x.guard = 0 then d1.setSafeIn i { x with guard := 1 } else d1)

/-- A demand of input i ends at sample k; with TFAIL it stays a permanent one (R484). -/
def Dev.siRelease (d : Dev) (i k : Nat) : Dev :=
  let x := d.safeIn i
  let role := d.get (SAFE_SIi_CFG_ACT_ROLE i)
  let d1 := d.setf (SAFE_SIi_STAT_DEM i) false
  if d.flag (SAFE_SIi_STAT_TFAIL i) then d1
  else if role = 3 then d1.setSafeIn i { x with press := some k }
  else if role = 1 ∧ x.guard = 1 then d1.setSafeIn i { x with guard := 2 }
  else d1

/-- An unmasked sample of input i (R485). -/
def Dev.siCount (d : Dev) (i k : Nat) (level : Bool) : Bool × Dev :=
  let x := d.safeIn i
  let filt := d.get SAFE_TP_ACT_DFILT
  let dem := d.flag (SAFE_SIi_STAT_DEM i)
  let y : SafeIn := if level then { x with highs := min 15 (x.highs + 1), lows := 0 }
    else { x with lows := min 15 (x.lows + 1), highs := 0, clean := 0 }
  let d1 := (d.setf (SAFE_SIi_STAT_LEVEL i) level).setSafeIn i y
  if !level && !dem && decide (filt ≤ y.lows) then d1.siDemand i k
  else if level && dem && decide (filt ≤ y.highs) then (false, d1.siRelease i k)
  else (false, d1)

/-- Sample k of input i (R483, R484). -/
def Dev.siSample (d : Dev) (c : Clock) (i k : Nat) (level : Bool) : Bool × Dev :=
  let ty := d.get (SAFE_SIi_CFG_ACT_TYPE i)
  if ty = 1 then
    let w := d.pulseView i (25 * (k % 40))
    let d1 := if w.otherFirst then d.setSafeIn i { d.safeIn i with before := d.flag (SAFE_SIi_STAT_LEVEL i) } else d
    let d2 := if w.last then d1.siTest c i (!level) else d1
    let d3 := if w.other && !level && (d2.safeIn i).before then d2.siTest c i false else d2
    if w.masked then (false, d3) else d3.siCount i k level
  else if ty = 2 then
    let x := d.safeIn i
    let fall := if level then none else if x.fall.isSome then x.fall else some k
    let d1 := d.setSafeIn i { x with fall := fall }
    let masked := match fall with
      | some f => decide (25 * (k - f) < d.get SAFE_TP_ACT_OSSDW)
      | none => false
    if masked then (false, d1) else d1.siCount i k level
  else (false, d)

/-- The four samples of a cycle. -/
def Dev.siCycle (d : Dev) (c : Clock) (i : SafetyIn) : Bool × Dev :=
  let n := d.safe.n
  [i.s0, i.s1, i.s2, i.s3].zipIdx.foldl (fun acc s => (List.range 8).foldl (fun (acc : Bool × Dev) si =>
    (let (e, d') := acc.2.siSample c si (4 * n + s.2) (s.1.getLsbD si)
     (acc.1 || e, d'))) acc) (false, d)

/-- A press lasts 2,000 ms (R489). -/
def Dev.resetStuck (d : Dev) (c : Clock) (i : Nat) : Dev :=
  let x := d.safeIn i
  match x.press with
  | some p => if 80000 ≤ 4 * d.safe.n - p then
      ((d.setSafeIn i { x with press := none, stuck := true }).setf SAFE_STAT_STUCK).record c 172 safeUnit i else d
  | none => d

def execResetStuck (i : Fin 8) (s : State) : Host.Outcome State Fault Refusal := .next (s.onSafety fun c d => d.resetStuck c i)

/-- A test-pulse source switches off or back on (R481, R483). -/
def Dev.testPulse (d : Dev) (c : Clock) (on : Bool) (src : Nat) : Dev :=
  if d.get (SAFE_SIi_CFG_ACT_TYPE src) = 3 then d.fioCmd (24 + src) c.ns on else d

def execTestPulse (on : Bool) (src : Fin 8) (s : State) : Host.Outcome State Fault Refusal :=
  .next (s.onSafety fun c d => d.testPulse c on src)

/-! Speed (R491, R492). -/

/-- The count the tap of port n reads. -/
def Dev.tapCount (d : Dev) (n : Nat) : Int :=
  if d.fbMode n = fbQuad ∨ d.fbMode n = fbHall then (d.fbkX n).count else (d.fbkX n).x / 2 ^ 32

/-- The speed of lane n over its window, and whether it is above SLSV; its feedback (R491, R492). The register shows whole counts per
second, rounded down. -/
def Dev.slsSpeed (d : Dev) (c : Clock) (n : Nat) : Dev :=
  if !d.flag (SAFE_Lnn_SLS_ACT_EN n) then d else
  let win := d.get SAFE_SLS_ACT_SLSWIN
  let cs := ((d.tapCount n) :: d.safe.counts.get (fun _ => []) n).take (win + 1)
  let diff := (cs.headD 0 - cs.getD win (cs.getLastD 0)).natAbs
  let inv := d.flag (FBK_nn_STAT_UNC n) || d.flag (FBK_nn_STAT_ALARM n) || d.safe.noPass.get (fun _ => false) n
  let d1 : Dev := { d with safe := { d.safe with counts := d.safe.counts.set (fun _ => []) n cs } }
  let d2 := d1.put (SAFE_Lnn_SPD_SPD n) (min 0x7FFFFFFF (diff * 10000 / win))
  let d3 := if inv && !d.flag (SAFE_Lnn_SPD_INV n) then d2.record c 176 n 0 else d2
  d3.setf (SAFE_Lnn_SPD_INV n) inv

/-- Lane n violates its limit (R491, R492). -/
def Dev.slsOver (d : Dev) (n : Nat) : Bool :=
  let win := d.get SAFE_SLS_ACT_SLSWIN
  let cs := d.safe.counts.get (fun _ => []) n
  d.flag (SAFE_Lnn_SLS_ACT_EN n) && (d.flag (SAFE_Lnn_SPD_INV n) ||
    decide (d.get (SAFE_Lnn_SLS_ACT_SLSV n) * win < (cs.headD 0 - cs.getD win (cs.getLastD 0)).natAbs * 10000))

/-- Input i asks for limited speed in group g. -/
def Dev.slsAsked (d : Dev) (g : Nat) : Bool :=
  (List.range 8).any fun i => d.siUsed i && decide (d.get (SAFE_SIi_CFG_ACT_ROLE i) = 2) && (d.get (SAFE_SIi_CFG_ACT_GMASK i)).testBit g &&
    (d.flag (SAFE_SIi_STAT_DEM i) || d.flag (SAFE_SIi_STAT_TFAIL i))

/-- SLS of group g becomes active or ends: the monitored real slots are re-planned with VMAX no higher than SLSV × 15 / 16 (R491). -/
def Dev.slsActive (d : Dev) (g : Nat) : Dev :=
  let now := d.slsAsked g
  if now = d.flag (SAFE_Gg_STAT_SLSACT g) then d
  else
    let d1 : Dev := { d with safe := { d.safe with
      sls := d.safe.sls.set (fun _ => none) g (if now then some d.safe.n else none)
      ramped := d.safe.ramped.set (fun _ => false) g (now && decide (d.get SAFE_SLS_ACT_SLSRAMP = 0)) } }
    ((List.range 6).map (6 * g + ·)).foldl (fun d l =>
      if d.flag (SAFE_Lnn_SLS_ACT_EN l) then
        d.setAxX l { d.axX l with vcap := if now then some (d.get (SAFE_Lnn_SLS_ACT_SLSV l)) else none, replan := now || (d.axX l).replan }
      else d) (d1.setf (SAFE_Gg_STAT_SLSACT g) now)

/-- SLSRAMP ms after the demand, monitoring begins (R491). -/
def Dev.slsRampEnd (d : Dev) (g : Nat) : Dev :=
  match d.safe.sls.get (fun _ => none) g with
  | some n => if 10 * d.get SAFE_SLS_ACT_SLSRAMP ≤ d.safe.n - n then
      { d with safe := { d.safe with ramped := d.safe.ramped.set (fun _ => false) g true } } else d
  | none => d

def execSlsRampEnd (g : Fin 4) (s : State) : Host.Outcome State Fault Refusal := .next (s.onSafety fun _ d => d.slsRampEnd g)

/-- Lane l enters or leaves violation: FL173 against it at the entry, and its discrete work ends (R491, R549). -/
def Dev.slsViolation (d : Dev) (c : Clock) (l : Nat) (now : Bool) : Dev :=
  let d1 : Dev := { d with safe := { d.safe with viol := d.safe.viol.set (fun _ => false) l now } }
  if now && !d.safe.viol.get (fun _ => false) l then (d1.record c 173 l 0).discardUnit c 173 l else d1

/-- Violations of group g: whether a lane is in violation (R491, R492). -/
def Dev.slsViolations (d : Dev) (c : Clock) (g : Nat) : Bool × Dev :=
  let on := d.flag (SAFE_Gg_STAT_SLSACT g) && d.safe.ramped.get (fun _ => false) g
  let lanes := (List.range 6).map (6 * g + ·)
  (lanes.any fun l => on && d.slsOver l, lanes.foldl (fun e l => e.slsViolation c l (on && d.slsOver l)) d)

/-! The cycle (R480, R486 to R488). -/

/-- A demand on group g by ESTOP and GUARD inputs with this ACT (R484, R485). -/
def Dev.sgDemand (d : Dev) (g : Nat) (ss1 : Bool) : Bool :=
  (List.range 8).any fun i => d.siUsed i && decide (d.get (SAFE_SIi_CFG_ACT_ROLE i) < 2) && (d.get (SAFE_SIi_CFG_ACT_GMASK i)).testBit g &&
    decide (d.flag (SAFE_SIi_CFG_ACT_ACT i) = ss1) && (d.flag (SAFE_SIi_STAT_DEM i) || d.flag (SAFE_SIi_STAT_TFAIL i))

/-- An input of group g has TFAIL. -/
def Dev.sgTfail (d : Dev) (g : Nat) : Bool :=
  (List.range 8).any fun i => d.siUsed i && (d.get (SAFE_SIi_CFG_ACT_GMASK i)).testBit g && d.flag (SAFE_SIi_STAT_TFAIL i)

/-- The start-up test is complete (R488). -/
def Dev.guardsSeen (d : Dev) : Bool :=
  (List.range 8).all fun i => !(d.siUsed i && decide (d.get (SAFE_SIi_CFG_ACT_ROLE i) = 1)) || decide ((d.safeIn i).guard = 2)

/-- Group g at a cycle: STO demands, then SS1 demands, then reset (R486, R487, R493). -/
def Dev.sgCycle (d : Dev) (c : Clock) (g : Nat) (reset : Bool) : Dev :=
  let (over_, d0) := d.slsViolations c g
  let slsSs1 := d0.flag SAFE_SLS_ACT_SLSACT
  let sto := d0.sgDemand g false || d0.safe.events.testBit g || (over_ && !slsSs1) || d0.flag SAFE_STAT_DIAG
  let ss1 := d0.sgDemand g true || (over_ && slsSs1)
  let st := d0.sg g
  if st = sgInit then (if d0.guardsSeen && !sto && !ss1 then d0.sgTo g sgWait else d0)
  else if st = sgSto then (if !sto && !ss1 && !d0.sgTfail g then d0.sgTo g sgWait else d0)
  else if st = sgWait then (if sto || ss1 then d0.sgTo g sgSto else if reset then d0.sgTo g sgEnable else d0)
  else if sto then d0.sgTo g sgSto
  else if st = sgEnable ∧ ss1 then d0.ss1Begin c g
  else d0

/-- SAFE_STAT shows the inputs. -/
def Dev.showSafe (d : Dev) : Dev :=
  let mask (f : Nat → Field) : Nat := (List.range 8).foldl (fun m i => m + if d.flag (f i) then 2 ^ i else 0) 0
  ((d.put SAFE_STAT_SIDEM (mask SAFE_SIi_STAT_DEM)).put SAFE_STAT_SIFAIL (mask SAFE_SIi_STAT_TFAIL)).setf SAFE_STAT_GSEEN d.guardsSeen

/-- Configuration registers of the block (R498). -/
def safeCfgRegs : List Nat :=
  ((List.range 4).map fun g => 0x400F0020 + 4 * g) ++ [0x400F0040, 0x400F0044, 0x400F0048] ++
    ((List.range 8).map fun i => 0x400F0080 + 8 * i) ++ (List.range 24).map fun n => 0x400F0100 + 8 * n

/-- Input i under a new configuration: its start-up test begins anew (R488); one that is no RESET input has no press, and a channel that
is no input reads as no demand (R481). A source is on. -/
def Dev.siApply (d : Dev) (c : Clock) (i : Nat) : Dev :=
  let x := d.safeIn i
  let type := d.get (SAFE_SIi_CFG_ACT_TYPE i)
  let isIn := type = 1 ∨ type = 2
  let keeps := isIn ∧ d.get (SAFE_SIi_CFG_ACT_ROLE i) = 3
  let d1 := d.setSafeIn i (if isIn then
    { x with guard := 0, press := if keeps then x.press else none, stuck := x.stuck && decide keeps } else {})
  let d2 := if isIn then d1 else (d1.setf (SAFE_SIi_STAT_DEM i) false).setf (SAFE_SIi_STAT_LEVEL i) false
  d2.fioCmd (24 + i) c.ns (decide (type = 3))

/-- The staged configuration in force: every group in INIT (R488, R498). -/
def Dev.safeApply (d : Dev) (c : Clock) : Dev :=
  let d1 := d.copyRegs (safeCfgRegs.map fun a => (a, a + 0x200))
  let d2 := (List.range 4).foldl (fun d g => d.sgTo g sgInit) d1
  let d3 := (List.range 8).foldl (fun d i => d.siApply c i) d2
  (d3.setf SAFE_STAT_STUCK ((List.range 8).any fun i => (d3.safeIn i).stuck)).showPwr

/-- An accepted safe.cfg takes effect at the cycle (R498). -/
def Dev.safeTake (d : Dev) (c : Clock) : Dev :=
  match d.safe.cfg with
  | some (_, w) => (({ d with safe := { d.safe with cfg := none } }).safeApply c).finishDone (some w) c.ns
  | none => d

/-- A cycle of 100 µs (R480, R487, R496). -/
def Dev.safetyCycle (d : Dev) (c : Clock) (i : SafetyIn) : Dev :=
  let d0 := d.safeTake c
  let pins := (List.range 4).all fun g => i.sto.getLsbD g = d0.flag (SAFE_Gg_STAT_STOPIN g)
  let d1 := if !i.ram then d0.safetyDiag c 2 else if !pins then d0.safetyDiag c 5 else if !i.flow then d0.safetyDiag c 6
    else if !i.field then d0.safetyDiag c 8 else d0
  let (reset, d2) := d1.siCycle c i
  let d3 := (List.range 24).foldl (fun d n => d.slsSpeed c n) d2
  let d4 := (List.range 4).foldl (fun d g => (d.slsActive g).sgCycle c g reset) d3
  let d5 := d4.showSafe.stoDriveAll c
  { d5 with safe := { d5.safe with n := d5.safe.n + 1, events := 0 } }

def execSafetyCycle (i : SafetyIn) (s : State) : Host.Outcome State Fault Refusal := .next (s.onSafety fun c d => d.safetyCycle c i)

/-! Packets from the rest of the device (R492, R493). -/

/-- The safety unit receives a packet. -/
def Dev.safetySees (d : Dev) (p : Packet) : Dev :=
  let u := brandUnit p.brand
  let g := u - 0x68
  let event (m : Nat) : Dev := { d with safe := { d.safe with events := d.safe.events ||| m } }
  let group := decide (0x68 ≤ u ∧ u < 0x6C)
  match brandType p.brand with
  | 0x32 => if group && bits64 (p.word 1) 0 8 = 3 then event (2 ^ g) else d
  | 0x13 =>
    if group then
      let impl := bits64 (p.word 2) 0 1 = 1
      let n := if impl then min 8 (d.safe.implausible.get (fun _ => 0) g + 1) else 0
      let high := d.getI SAFE_SOVLIM_ACT_V ≤ sInt 32 (bits64 (p.word 1) 0 32)
      let d1 : Dev := { d with safe := { d.safe with implausible := d.safe.implausible.set (fun _ => 0) g n } }
      if impl ∧ (high ∨ 8 ≤ n) then { d1 with safe := { d1.safe with events := d1.safe.events ||| 2 ^ g } } else d1
    else d
  | 0x21 => { d with safe := { d.safe with noPass := d.safe.noPass.set (fun _ => false) u (decide (bits64 (p.word 1) 32 1 = 0)) } }
  | 0x71 => if bits64 (p.word 1) 0 3 = DevState.safe.code then event 15 else d
  | _ => d

/-! Commands (R498, R500). -/

/-- Staged type, role and mask of the inputs. -/
def Dev.stUsed (d : Dev) : List Nat := (List.range 8).filter fun i => (let t := d.get (SAFE_SIi_CFG_TYPE i); t = 1 || t = 2)

def Dev.safeZero (d : Dev) : Bool :=
  d.get SAFE_TP_TPW = 0 || d.get SAFE_TP_TPSET = 0 || d.get SAFE_TP_DFILT = 0 || d.get SAFE_SLS_SLSWIN = 0 ||
    ((List.range 4).any fun g => decide (d.get (SAFE_Gg_SS1T_SS1T g) = 0) && d.stUsed.any fun i =>
      decide (d.get (SAFE_SIi_CFG_ROLE i) < 2) && d.flag (SAFE_SIi_CFG_ACT i) && (d.get (SAFE_SIi_CFG_GMASK i)).testBit g) ||
    (List.range 24).any fun n => d.flag (SAFE_Lnn_SLS_EN n) && decide (d.get (SAFE_Lnn_SLS_SLSV n) = 0)

/-- t_in above 1,000 µs for input i, in units of 1/100 µs (R495). -/
def Dev.tInLong (d : Dev) (i : Nat) : Bool :=
  let pulse := if d.get (SAFE_SIi_CFG_TYPE i) = 2 then d.get SAFE_TP_OSSDW else d.get SAFE_TP_TPW + d.get SAFE_TP_TPSET
  decide (100000 < 102 * (25 + pulse + 25 * d.get SAFE_TP_DFILT + 130))

def Dev.safeConflict (d : Dev) : Bool :=
  let used := d.stUsed
  let srcs := (List.range 8).filter fun i => d.get (SAFE_SIi_CFG_TYPE i) = 3
  let w := d.get SAFE_TP_TPW
  let st := d.get SAFE_TP_TPSET
  let role (i : Nat) : Nat := d.get (SAFE_SIi_CFG_ROLE i)
  (!used.any fun i => role i = 1) || (used.any fun i => d.get (SAFE_SIi_CFG_TYPE i) = 1 && !srcs.contains (d.get (SAFE_SIi_CFG_SRC i))) ||
    (used.any fun i => d.tInLong i) || decide (w < 50) || decide (400 < w) || decide (st < 25) || decide (400 < st) ||
    (!srcs.isEmpty && decide (pulseGap srcs.length - 25 < w + st)) || decide (8 < d.get SAFE_TP_DFILT) ||
    decide (1000 < d.get SAFE_TP_OSSDW) ||
    used.any fun i => decide (role i = 2) && !(List.range 24).any fun n =>
      (d.get (SAFE_SIi_CFG_GMASK i)).testBit (n / 6) && d.flag (SAFE_Lnn_SLS_EN n)

/-- safe.cfg: stored in flash, CRC recomputed (how the stored bytes lie is open: log entry 25), in force at the next cycle. -/
def cmdSafeCfg : CmdFn := fun _ tref q d =>
  let ok := imageOk (fun a => safeCfgRegs.contains a) q.image
  let d1 := d.writePairs q.image
  let busy := (List.range 4).any fun g => d.sg g = sgEnable || d.sg g = sgSs1
  refuseIf [(decide (q.target ≠ 0x6C) || q.noImage, rcBadFormat), (busy || d.safe.cfg.isSome, rcBadState), (ok && d1.safeZero, rcCfgZero),
      (!ok || d1.safeConflict, rcCfgConflict)] fun _ =>
    let (x, d2) := d1.takeFree
    let d3 := d2.put SAFE_CFGCRC_CRC (x % 2 ^ 32).toNat
    .accept (tref + 200000000) { d3 with
      safeStore := (SAFE_CFGCRC_CRC.addr :: safeCfgRegs).map fun a => (a, (d3.reg a).toNat)
      safe := { d3.safe with cfg := some (q.image, q.id) } }

/-- At the end of BOOT the stored configuration is loaded, and a safety unit that was reset works by it (R479, R582). -/
def Dev.safeLoad (d : Dev) (c : Clock) (was : Bool) : Dev :=
  let d1 := d.safeStore.foldl (fun d p => d.setReg p.1 (BitVec.ofNat 32 p.2)) d
  let d2 := if was then d1.safeApply c else d1
  let d3 := d2.setf SAFE_STAT_CFGOK
  { d3 with safe := { d3.safe with watch := true } }

def cmdSafeStatus : CmdFn := fun _ _ q d =>
  refuseIf [(decide (q.target ≠ 0x6C) || decide (q.payload.length ≠ 0), rcBadFormat)] fun _ =>
    .done { p0 := d.sg 0 + d.sg 1 * 2 ^ 8 + d.sg 2 * 2 ^ 16 + d.sg 3 * 2 ^ 24
            p1 := (d.reg SAFE_STAT_GSEEN.addr).toNat
            p2 := d.get SAFE_CFGCRC_CRC } d

def execSafeCfg (q : Request) (s : State) : Host.Outcome State Fault Refusal := .next (s.command 0x0700 cmdSafeCfg q)
def execSafeStatus (q : Request) (s : State) : Host.Outcome State Fault Refusal := .next (s.command 0x0701 cmdSafeStatus q)

end Sys2Proof.Machine
end

