-- ==== Sys2Proof/Machine/Can.lean ====
section
/-! DEFINITION. The CAN FD channels (R428 to R450, R569 to R573): receive ring, transmit queue, fault confinement, modes, wake. -/

namespace Sys2Proof.Machine

/-- Base address of channel c's window. -/
def canBase (ch : Nat) : Nat := 0x400D0000 + 0x1000 * ch

/-! Modes (R441) and states of STAT.STATE. -/

def canOff : Nat := 0
def canNormal : Nat := 1
def canListen : Nat := 2
def canSleep : Nat := 3

def stOff : Nat := 0
def stInteg : Nat := 1
def stActive : Nat := 2
def stPassive : Nat := 3
def stBusOff : Nat := 4
def stSleep : Nat := 5
def stListen : Nat := 6

/-- Mode in force. -/
def Dev.canMode (d : Dev) (ch : Nat) : Nat := d.get (CAN_CHc_CFG_ACT_MODE ch)

def Dev.canState (d : Dev) (ch : Nat) : Nat := d.get (CAN_CHc_STAT_STATE ch)

/-! Bit times and frame times in half ns (R430, R439). -/

/-- Data bytes of a frame: from DLC under ISO 11898-1; 0 for a remote frame (R434). -/
def canBytes (dlc : Nat) (fdf rtr : Bool) : Nat :=
  if rtr then 0
  else if dlc ≤ 8 then dlc
  else if !fdf then 8
  else match dlc with
    | 9 => 12 | 10 => 16 | 11 => 20 | 12 => 24 | 13 => 32 | 14 => 48 | _ => 64

/-- Bytes of a transmit entry from its words. -/
def w2Bytes (w2 w3 : W32) : Nat := canBytes (w3.toNat % 16) (w3.getLsbD 4) (w2.getLsbD 30)

/-- A bit in half ns: BRP × (1 + TSEG1 + TSEG2) clocks of 12.5 ns. -/
def bitTime (brp t1 t2 : Nat) : Nat := 25 * brp * (1 + t1 + t2)

def Dev.tNom (d : Dev) (ch : Nat) : Nat :=
  bitTime (d.get (CAN_CHc_NBT_ACT_BRP ch)) (d.get (CAN_CHc_NBT_ACT_TSEG1 ch)) (d.get (CAN_CHc_NBT_ACT_TSEG2 ch))

def Dev.tData (d : Dev) (ch : Nat) : Nat :=
  bitTime (d.get (CAN_CHc_DBT_ACT_BRP ch)) (d.get (CAN_CHc_DBT_ACT_TSEG1 ch)) (d.get (CAN_CHc_DBT_ACT_TSEG2 ch))

/-- T_w of a frame with n data bytes (R439). -/
def Dev.canTw (d : Dev) (ch n : Nat) (fdf brs : Bool) : Nat :=
  if !fdf then (80 + 10 * n) * d.tNom ch
  else if !brs then (110 + 10 * n) * d.tNom ch
  else 70 * d.tNom ch + (40 + 10 * n) * d.tData ch

/-! Fault confinement (R446). -/

/-- A type 0x5A packet (R448). -/
def Dev.canNotice (d : Dev) (c : Clock) (ch : Nat) : Dev :=
  d.emit (canUnit ch) 0x5A (some (c.ns, c.frac)) 0
    [BitVec.ofNat 64 (d.canState ch + d.get (CAN_CHc_ERRC_TEC ch) * 2 ^ 8 + d.get (CAN_CHc_ERRC_REC ch) * 2 ^ 24)]

/-- A change of STATE: FC151 on entry into error passive, FC152 and the BUSOFF count on entry into bus-off; a recovery that CTL.REC had started
ends with bus-off (R446). -/
def Dev.canTo (d : Dev) (c : Clock) (ch st : Nat) : Dev :=
  if d.canState ch = st then d else
  let d0 := if d.canState ch = stBusOff then (d.setCanX ch { d.canX ch with recov := false }).setf (CAN_CHc_CTL_REC ch) false else d
  let d1 := (d0.putState (0x60 + ch) (CAN_CHc_STAT_STATE ch) st).canNotice c ch
  if st = stPassive then d1.reportLim c 151 (canUnit ch)
  else if st = stBusOff then (d1.bump (CAN_CHc_EVCNT1_BUSOFF ch)).reportLim c 152 (canUnit ch)
  else d1

/-- The state of a channel on the bus by its counters. -/
def Dev.canConfined (d : Dev) (ch : Nat) : Nat :=
  let tec := d.get (CAN_CHc_ERRC_TEC ch)
  if 256 ≤ tec then stBusOff
  else if 128 ≤ tec ∨ 128 ≤ d.get (CAN_CHc_ERRC_REC ch) then stPassive
  else stActive

/-- The channel takes part in the bus. -/
def canOnBus (st : Nat) : Bool := st = stActive || st = stPassive

/-- Re-judge the state after a change of a counter. -/
def Dev.canJudge (d : Dev) (c : Clock) (ch : Nat) : Dev :=
  if canOnBus (d.canState ch) then d.canTo c ch (d.canConfined ch) else d

/-! Receiving (R432 to R436). -/

/-- The window shows the oldest entry (R435). -/
def Dev.canShow (d : Dev) (ch : Nat) : Dev :=
  let x := d.canX ch
  let head := x.rx.headD []
  (List.range 20).foldl (fun d w => d.setReg (CAN_CHc_RXWw_W ch w).addr (head.getD w 0)) (d.put (CAN_CHc_RXSTAT_COUNT ch) x.rx.length)

/-- Data bytes as 32-bit words, byte 0 lowest (R434). -/
def canWords (n : Nat) (bs : List Byte) : List W32 :=
  (List.range ((n + 3) / 4)).map fun w =>
    let b (i : Nat) : Nat := if 4 * w + i < n then (bs.getD (4 * w + i) 0).toNat else 0
    BitVec.ofNat 32 (b 0 + b 1 * 2 ^ 8 + b 2 * 2 ^ 16 + b 3 * 2 ^ 24)

/-- W2 and the low half of W3 of a frame (R434). -/
def CanFrame_w2 (f : CanFrame) : Nat := f.id.toNat + (if f.ide then 2 ^ 29 else 0) + (if f.rtr then 2 ^ 30 else 0)

def CanFrame_w3 (f : CanFrame) : Nat :=
  f.dlc.toNat + (if f.fdf then 16 else 0) + (if f.brs then 32 else 0) + (if f.esi then 64 else 0)

/-- An entry for the ring: stamp, W2, W3 without SEQ and the data; a full ring discards it with FC150 (R434, R436; log entry 26 for
SEQ). -/
def Dev.canStore (d : Dev) (c : Clock) (ch stamp w2 w3 n : Nat) (bs : List Byte) : Nat × Dev :=
  let x := d.canX ch
  let w3s := w3 % 2 ^ 16 + x.seq % 65536 * 2 ^ 16
  let d1 := d.setCanX ch { x with seq := (x.seq + 1) % 65536 }
  if 64 ≤ x.rx.length then (w3s, (d1.bump (CAN_CHc_RXSTAT_OVF ch)).reportLim c 150 (canUnit ch))
  else
    let e := [BitVec.ofNat 32 stamp, BitVec.ofNat 32 (stamp / 2 ^ 32), BitVec.ofNat 32 w2, BitVec.ofNat 32 w3s] ++ canWords n bs
    (w3s, (d1.setCanX ch { d1.canX ch with rx := x.rx ++ [e] }).canShow ch)

/-- The entry under transmission met another frame or an error: retried, or removed unsent with ONESHOT (R439). -/
def Dev.canLost (d : Dev) (c : Clock) (ch : Nat) : Dev :=
  match (d.canX ch).cur with
  | none => d
  | some (i, _) =>
    let d1 := d.setCanX ch { d.canX ch with cur := none }
    match (d.canX ch).tx[i]? with
    | some e =>
      if e.w3.getLsbD 7 then ((d1.canRemove ch i c.ns 2).finishFault e.work c 153).reportLim c 153 (canUnit ch) else d1
    | none => d1

/-- REC after a frame received without error; above 127 ISO 11898-1 leaves a value from 119 to 127 open. -/
def Dev.canRecDown (d : Dev) (ch : Nat) : Dev :=
  let rec_ := d.get (CAN_CHc_ERRC_REC ch)
  if 127 < rec_ then
    let (r, d1) := d.takeFree
    d1.put (CAN_CHc_ERRC_REC ch) (119 + (r % 9).toNat)
  else d.put (CAN_CHc_ERRC_REC ch) (rec_ - 1)

/-- The stamp of a frame: the time of record, in 2^-48 ns, of the 2 ns tick that samples its SOF edge on CANc_RX, truncated to ns, less the
input delay of 11 ns (R433, R602; log entry 26). -/
def canStamp (sof : Nat) : Nat := sof / 2 ^ 48 - 11

/-- A frame received without error; `sof` is the tick of its SOF edge (R432). -/
def Dev.canReceived (d : Dev) (c : Clock) (ch : Nat) (f : CanFrame) (sof : Nat) : Dev :=
  let stamp := canStamp sof
  let st := d.canState ch
  if !(canOnBus st || st = stListen) || (f.fdf && !d.flag (CAN_CHc_CFG_ACT_FDEN ch)) then d else
  let n := canBytes f.dlc.toNat f.fdf f.rtr
  let d1 := d.canLost c ch
  let (w3, d2) := d1.canStore c ch stamp (CanFrame_w2 f) (CanFrame_w3 f) n f.data
  let dw := canWords (min n 8) f.data
  let d3 := d2.emit (canUnit ch) 0x58 (some (stamp, 0)) 0 [BitVec.ofNat 64 (CanFrame_w2 f + w3 * 2 ^ 32),
    BitVec.ofNat 64 ((dw.getD 0 0).toNat + (dw.getD 1 0).toNat * 2 ^ 32)]
  if st = stListen then d3 else (d3.canRecDown ch).canJudge c ch

def execCanFrameReceived (ch : Fin 8) (f : CanFrame) (sof : Nat) (s : State) : Host.Outcome State Fault Refusal :=
  .next (s.onServing fun c d => d.canReceived c ch f sof)

/-- A read of word L − 1 of the window releases the entry (R435). -/
def Dev.canRelease (d : Dev) (ch : Nat) : Dev :=
  let x := d.canX ch
  (d.setCanX ch { x with rx := x.rx.drop 1 }).canShow ch

def execCanRxRelease (ch : Fin 8) (s : State) : Host.Outcome State Fault Refusal :=
  .next (s.onServing fun _ d => d.canRelease ch)

/-! The commit (R441, R449). -/

/-- Registers of the group and of the image, by offset. -/
def canGroupOffs : List Nat := [0x000, 0x004, 0x008]

def Dev.canZero (d : Dev) (ch : Nat) : Bool :=
  d.get (CAN_CHc_NBT_BRP ch) = 0 || d.get (CAN_CHc_NBT_TSEG1 ch) = 0 || d.get (CAN_CHc_NBT_TSEG2 ch) = 0 || d.get (CAN_CHc_NBT_SJW ch) = 0 ||
    (d.flag (CAN_CHc_CFG_FDEN ch) && (d.get (CAN_CHc_DBT_BRP ch) = 0 || d.get (CAN_CHc_DBT_TSEG1 ch) = 0 ||
      d.get (CAN_CHc_DBT_TSEG2 ch) = 0 || d.get (CAN_CHc_DBT_SJW ch) = 0))

/-- The data phase is out of range (R430, R431); bit times in half ns. -/
def Dev.canDataBad (d : Dev) (ch tn : Nat) : Bool :=
  let td := bitTime (d.get (CAN_CHc_DBT_BRP ch)) (d.get (CAN_CHc_DBT_TSEG1 ch)) (d.get (CAN_CHc_DBT_TSEG2 ch))
  8 < d.get (CAN_CHc_DBT_BRP ch) || 32 < d.get (CAN_CHc_DBT_TSEG1 ch) || 16 < d.get (CAN_CHc_DBT_TSEG2 ch) ||
    d.get (CAN_CHc_DBT_TSEG2 ch) < d.get (CAN_CHc_DBT_SJW ch) ||
    (td ≠ 0 && (tn < td || td < 250 || (td < 1000 && !d.flag (CAN_CHc_CFG_TDCEN ch))))

/-- CFG_CONFLICT of R449. Zeros of DBT, which R449 admits with FDEN = 0, meet no lower bound; a BRP of 0 makes no bit and no rate. -/
def Dev.canConflict (d : Dev) (ch : Nat) : Bool :=
  let tn := bitTime (d.get (CAN_CHc_NBT_BRP ch)) (d.get (CAN_CHc_NBT_TSEG1 ch)) (d.get (CAN_CHc_NBT_TSEG2 ch))
  let mode := d.get (CAN_CHc_CFG_MODE ch)
  32 < d.get (CAN_CHc_NBT_BRP ch) || d.get (CAN_CHc_NBT_TSEG1 ch) < 2 || 256 < d.get (CAN_CHc_NBT_TSEG1 ch) ||
    128 < d.get (CAN_CHc_NBT_TSEG2 ch) || d.get (CAN_CHc_NBT_TSEG2 ch) < d.get (CAN_CHc_NBT_SJW ch) || tn < 2000 ||
    d.canDataBad ch tn ||
    (mode = canListen && ch < 6) || (mode = canSleep && 6 ≤ ch) ||
    (d.canMode ch ≠ canOff && (d.reg (canBase ch + 4) ≠ d.reg (canBase ch + 0x84) || d.reg (canBase ch + 8) ≠ d.reg (canBase ch + 0x88) ||
      d.differs (CAN_CHc_CFG_FDEN ch) (CAN_CHc_CFG_ACT_FDEN ch) || d.differs (CAN_CHc_CFG_PEX ch) (CAN_CHc_CFG_ACT_PEX ch) ||
      d.differs (CAN_CHc_CFG_TDCEN ch) (CAN_CHc_CFG_ACT_TDCEN ch)))

/-- The channel takes the mode in force: into NORMAL or LISTEN through bus integration (R441); out of OFF with counters at zero (log
entry 26). -/
def Dev.canEnter (d : Dev) (c : Clock) (ch old : Nat) : Dev :=
  let mode := d.canMode ch
  if mode = old then d
  else if mode = canOff then d.canTo c ch stOff
  else if mode = canSleep then d.canTo c ch stSleep
  else if old = canOff then ((d.put (CAN_CHc_ERRC_TEC ch) 0).put (CAN_CHc_ERRC_REC ch) 0).canTo c ch stInteg
  else d.canTo c ch stInteg

/-- The staged group takes effect, or is rejected whole. -/
def Dev.canApply (d : Dev) (c : Clock) (ch : Nat) : Dev :=
  let d0 := d.setf (CAN_CHc_CTL_CMT ch) false
  if d.canZero ch then d0.setf (CAN_CHc_CTL_ZERO ch)
  else if d.canConflict ch then d0.setf (CAN_CHc_CTL_CONFLICT ch)
  else (d0.copyRegs (canGroupOffs.map fun o => (canBase ch + o, canBase ch + 0x80 + o))).canEnter c ch (d.canMode ch)

/-- The mode in force lets a commit take effect at once (R441). -/
def Dev.canQuiet (d : Dev) (ch : Nat) : Bool := d.canMode ch = canOff || d.canMode ch = canSleep

/-- Waiting commits and images take effect: at a bus idle, or at once in OFF and SLEEP (R383, R441). -/
def Dev.canIdle (d : Dev) (c : Clock) (ch : Nat) : Dev :=
  let (imgs, d0) := d.takeImages (canBase ch) c.ns
  let d1 := if imgs.isEmpty then d0 else (d0.canApply c ch).doneImages imgs c.ns
  if d1.flag (CAN_CHc_CTL_CMT ch) then d1.canApply c ch else d1

/-- CAN_CHc_CTL.CMT. -/
def Dev.canCommit (d : Dev) (c : Clock) (ch : Nat) : Dev :=
  if d.canQuiet ch then d.canApply c ch else d.setf (CAN_CHc_CTL_CMT ch)

def execCanCommit (ch : Fin 8) (s : State) : Host.Outcome State Fault Refusal := .next (s.onServing fun c d => d.canCommit c ch)

/-- Images of channels in OFF or SLEEP whose lead instant has come. -/
def Dev.canQuietDue (d : Dev) (c : Clock) : Dev :=
  (List.range 8).foldl (fun d ch =>
    if d.canQuiet ch && !(d.dueImages (canBase ch) c.ns).isEmpty then d.canIdle c ch else d) d

/-- Registers can.cfg governs: the group and the wake matcher. -/
def isCanCfg (ch a : Nat) : Bool :=
  let o := a - canBase ch
  canBase ch ≤ a && (canGroupOffs.contains o || (0x300 ≤ o && o ≤ 0x318))

/-- can.cfg (R441). -/
def cmdCanCfg : CmdFn := fun _ tref q d =>
  let ch := q.target.toNat - 0x60
  let ok := imageOk (isCanCfg ch) q.image
  let grp := canGroupOffs.map fun o => (canBase ch + o, canBase ch + 0x80 + o)
  let d0 := (d.imgs.filter fun p => p.group = canBase ch).foldl (fun d p => (d.writePairs p.pairs).copyRegs grp) d
  let d1 := d0.writePairs q.image
  refuseIf [(decide (q.target.toNat < 0x60) || decide (0x68 ≤ q.target.toNat) || q.noImage, rcBadFormat), (ok && d1.canZero ch, rcCfgZero),
      (!ok || d1.canConflict ch, rcCfgConflict)] fun _ =>
    let lead := imageLead q tref
    let t := if d0.canQuiet ch then lead else lead + (max (d0.canTw ch 64 true false) (d0.canTw ch 64 true true) + 1) / 2
    .accept t { d with imgs := d.imgs ++ [{ group := canBase ch, from_ := lead, due := t, pairs := q.image, work := some q.id }] }

def execCanCfg (q : Request) (s : State) : Host.Outcome State Fault Refusal := .next (s.command 0x0810 cmdCanCfg q)

/-! Transmitting (R437 to R440). -/

/-- An entry R437 does not allow: BRS or DLC above 8 without FDF, or RTR with FDF. -/
def canBad (w2 w3 : W32) : Bool :=
  let fdf := w3.getLsbD 4
  (w3.getLsbD 5 && !fdf) || (decide (8 < w3.toNat % 16) && !fdf) || (w2.getLsbD 30 && fdf)

/-- Expiry of an entry in ns. -/
def CanTx.expiry (e : CanTx) : Nat := e.launch + e.w3.toNat / 2 ^ 16 * 100000

/-- Bytes of 64-bit or 32-bit words, lowest first. -/
def bytesOf (width n : Nat) (ws : List Nat) : List Byte :=
  (List.range n).map fun i => BitVec.ofNat 8 (ws.getD (i / width) 0 / 256 ^ (i % width))

/-- Queue an entry. -/
def Dev.canQueue (d : Dev) (ch : Nat) (e : CanTx) : Dev :=
  (d.setCanX ch { d.canX ch with tx := (d.canX ch).tx ++ [e] }).canTxShow ch

/-- TXCTL.PUSH (R437). -/
def Dev.canPush (d : Dev) (ch : Nat) : Dev :=
  let w (i : Nat) : W32 := d.reg (CAN_CHc_TXWw_W ch i).addr
  if 32 ≤ (d.canX ch).tx.length then d.setf (CAN_CHc_TXCTL_FULL ch)
  else if canBad (w 2) (w 3) then d.setf (CAN_CHc_TXCTL_BAD ch)
  else d.canQueue ch { launch := (w 0).toNat + (w 1).toNat * 2 ^ 32, w2 := w 2, w3 := w 3,
                       data := bytesOf 4 (w2Bytes (w 2) (w 3)) ((List.range 16).map fun i => (w (4 + i)).toNat) }

def execPush (ch : Fin 8) (s : State) : Host.Outcome State Fault Refusal := .next (s.onServing fun _ d => d.canPush ch)

/-- can.send: word 0 holds W2 in bits 31:0 and W3 in bits 63:32, the data follow eight bytes a word; the launch time of the request is
that of the entry (R437, R440; log entry 26). -/
def cmdCanSend : CmdFn := fun _ tref q d =>
  let ch := q.target.toNat - 0x60
  let w2 : W32 := BitVec.ofNat 32 (bits64 (q.pw 0) 0 32)
  let w3 : W32 := BitVec.ofNat 32 (bits64 (q.pw 0) 32 32)
  let n := w2Bytes w2 w3
  let e : CanTx := { launch := q.at_ tref, w2 := w2, w3 := w3, work := some q.id
                     data := bytesOf 8 n ((q.payload.drop 1).map (·.toNat)) }
  refuseIf [(decide (q.target.toNat < 0x60) || decide (0x68 ≤ q.target.toNat) || decide (q.payload.length ≠ 1 + (n + 7) / 8) ||
        w2.getLsbD 31 || decide (w3.toNat / 2 ^ 8 % 2 ^ 8 ≠ 0), rcBadFormat),
      (decide (d.canMode ch ≠ canNormal) || decide (d.dst = .mirror), rcBadState),
      (decide (w3.toNat / 2 ^ 16 = 0), rcCfgZero), (canBad w2 w3, rcCfgConflict),
      (decide (32 ≤ (d.canX ch).tx.length), rcOverload)] fun _ =>
    .accept e.expiry (d.canQueue ch e)

def execCanSend (q : Request) (s : State) : Host.Outcome State Fault Refusal := .next (s.command 0x0811 cmdCanSend q)

/-- The arbitration field as a number: the lower wins (ISO 11898-1). -/
def CanTx.arb (e : CanTx) : Nat :=
  let id := e.w2.toNat % 2 ^ 29
  let rtr := if e.w2.getLsbD 30 then 1 else 0
  if e.w2.getLsbD 29 then id / 2 ^ 18 * 2 ^ 21 + 2 ^ 20 + 2 ^ 19 + id % 2 ^ 18 * 2 + rtr else id / 2 ^ 18 * 2 ^ 21 + rtr * 2 ^ 20

/-- May the channel start entry e now (R438, R439)? -/
def Dev.canEligible (d : Dev) (c : Clock) (ch : Nat) (e : CanTx) : Bool :=
  let fdf := e.w3.getLsbD 4
  decide (e.launch ≤ c.ns) && (!fdf || d.flag (CAN_CHc_CFG_ACT_FDEN ch)) &&
    decide ((2 * c.ns + d.canTw ch (w2Bytes e.w2 e.w3) fdf (e.w3.getLsbD 5)) * 65536 + 2 * c.frac ≤ 2 * e.expiry * 65536)

/-- The entry to start: the one that wins arbitration, the earlier queued of equals (R438). -/
def Dev.canPick (d : Dev) (c : Clock) (ch : Nat) : Option Nat :=
  let txs := (d.canX ch).tx
  (List.range txs.length).foldl (fun best i =>
    match txs[i]? with
    | some e =>
      if d.canEligible c ch e then
        (match best with
         | some k => if e.arb < ((txs[k]?).map CanTx.arb).getD 0 then some i else best
         | none => some i)
      else best
    | none => best) none

/-- A point at which the channel may start a frame: waiting commits take effect, and a frame starts (R438, R441). -/
def Dev.canStart (d : Dev) (c : Clock) (ch : Nat) : Dev :=
  if (d.canX ch).cur.isSome ∨ d.canState ch = stInteg then d else
  let d1 := d.canIdle c ch
  if canOnBus (d1.canState ch) ∧ d1.dst ≠ .mirror ∧ !d1.pforce then
    match d1.canPick c ch with
    | some i => d1.setCanX ch { d1.canX ch with cur := some (i, c.ns) }
    | none => d1
  else d1

def execCanTransmitStart (ch : Fin 8) (s : State) : Host.Outcome State Fault Refusal := .next (s.onServing fun c d => d.canStart c ch)

/-- A loop delay measured with TDCEN = 1 (R431). -/
def Dev.canDelay (d : Dev) (ch tdcv : Nat) : Dev :=
  let v := satU 8 tdcv
  let d1 := d.put (CAN_CHc_STAT_TDCV ch) v
  if 255 < v + d.get (CAN_CHc_DBT_ACT_TDCO ch) then d1.setf (CAN_CHc_STAT_TDCSAT ch) else d1

/-- What CANc_TX shows: its bits follow ISO 11898-1 while a frame is on the bus. -/
inductive CanTxPin where
  | highZ
  | recessive
  | sending (entry : Nat)
  deriving DecidableEq, Repr

/-- CANc_TX (R428): at high impedance in OFF, STANDBY, DOZE and BOOT, where a weak pull-up holds the bus recessive; recessive in MIRROR and
between frames. -/
def Dev.canTxPin (d : Dev) (ch : Nat) : CanTxPin :=
  if !d.dst.serves then .highZ
  else if d.dst = .mirror then .recessive
  else match (d.canX ch).cur with
    | some (i, _) => .sending i
    | none => .recessive

/-- Is the FD frame on the bus one whose loop delay the channel measures (R431)? -/
def Dev.canMeasures (d : Dev) (ch : Nat) : Bool :=
  d.flag (CAN_CHc_CFG_ACT_TDCEN ch) && (match (d.canX ch).cur with
    | some (i, _) => ((d.canX ch).tx[i]?).any fun e => e.w3.getLsbD 4
    | none => false)

/-- The frame on the bus ends its EOF: sent, with the tick of its own SOF on CANc_RX and the loop delay measured (R431, R432, R440). -/
def Dev.canSent (d : Dev) (c : Clock) (ch sof tdcv : Nat) : Dev :=
  match (d.canX ch).cur with
  | none => d
  | some (i, _) =>
    match (d.canX ch).tx[i]? with
    | none => d
    | some e =>
      let d1 := if d.canMeasures ch then d.canDelay ch tdcv else d
      let d2 := if d1.flag (CAN_CHc_CFG_ACT_ECHO ch) then
          (d1.canStore c ch (canStamp sof) e.w2.toNat (e.w3.toNat % 2 ^ 7 + 2 ^ 7) (w2Bytes e.w2 e.w3) e.data).2
        else d1
      let d3 := (d2.canRemove ch i c.ns 0).finishDone e.work c.ns
      (d3.put (CAN_CHc_ERRC_TEC ch) (d3.get (CAN_CHc_ERRC_TEC ch) - 1)).canJudge c ch

def execCanTransmitEnd (ch : Fin 8) (sof tdcv : Nat) (s : State) : Host.Outcome State Fault Refusal :=
  .next (s.onServing fun c d => d.canSent c ch sof tdcv)

/-- Entry i has expired without success: removed unsent (R439). An entry on the bus ends before its expiry. -/
def Dev.canExpire (d : Dev) (c : Clock) (ch i : Nat) : Dev :=
  match (d.canX ch).tx[i]? with
  | none => d
  | some e =>
    if e.expiry ≤ c.ns ∧ ((d.canX ch).cur.map (·.1)) ≠ some i then
      ((d.canRemove ch i e.expiry 1).finishFault e.work c 153).reportLim c 153 (canUnit ch)
    else d

def execCanEntryExpiry (ch : Fin 8) (i : Nat) (s : State) : Host.Outcome State Fault Refusal :=
  .next (s.onServing fun c d => d.canExpire c ch i)

/-! Errors (R442, R446). -/

/-- The event counter of an error kind. -/
def canCounter (ch kind : Nat) : Option Field :=
  match kind with
  | 0 => some (CAN_CHc_EVCNT0_STUFF ch)
  | 1 => some (CAN_CHc_EVCNT0_FORM ch)
  | 2 => some (CAN_CHc_EVCNT0_CRC ch)
  | 3 => some (CAN_CHc_EVCNT0_BIT ch)
  | 4 => some (CAN_CHc_EVCNT1_ACK ch)
  | _ => none

/-- TEC and REC under ISO 11898-1: 8 as transmitter, 1 or 8 as receiver. -/
def Dev.canCount (d : Dev) (ch : Nat) (k : CanErr) : Dev :=
  if k.tx then (if k.exempt then d else d.put (CAN_CHc_ERRC_TEC ch) (min 511 (d.get (CAN_CHc_ERRC_TEC ch) + 8)))
  else d.bump (CAN_CHc_ERRC_REC ch) (if k.primary then 8 else 1)

/-- A bus error (R446); in LISTEN it only counts (R442). A recessive res bit is a protocol exception with PEX = 1 and a form error
without (R429). An overload frame is counted and delays the bus, nothing else (R432; log entry 26); a loop delay measured before the error
stays (R431). -/
def Dev.canError (d0 : Dev) (c : Clock) (ch : Nat) (k : CanErr) : Dev :=
  let st := d0.canState ch
  let d := match k.tdcv with
    | some v => if d0.canMeasures ch then d0.canDelay ch v else d0
    | none => d0
  if !(canOnBus st || st = stListen) then d0
  else if k.kind.val = 6 then d.setCanX ch { d.canX ch with overloads := (d.canX ch).overloads + 1 }
  else if k.kind.val = 5 ∧ d.flag (CAN_CHc_CFG_ACT_PEX ch) then
    (((d.canLost c ch).setf (CAN_CHc_STAT_PEXF ch)).canTo c ch stInteg).reportLim c 154 (canUnit ch)
  else
    let d1 := match canCounter ch (if k.kind.val = 5 then 1 else k.kind.val) with
      | some f => d.bump f
      | none => d
    if st = stListen then d1 else ((d1.canLost c ch).canCount ch k).canJudge c ch

def execCanBusError (ch : Fin 8) (k : CanErr) (s : State) : Host.Outcome State Fault Refusal :=
  .next (s.onServing fun c d => d.canError c ch k)

/-- CTL.REC starts the recovery of a channel in bus-off (R446). -/
def Dev.canRecover (d : Dev) (ch : Nat) : Dev :=
  if d.canState ch = stBusOff then (d.setCanX ch { d.canX ch with recov := true }).setf (CAN_CHc_CTL_REC ch) else d

def execCanRecovery (ch : Fin 8) (s : State) : Host.Outcome State Fault Refusal := .next (s.onServing fun _ d => d.canRecover ch)

/-- 128 occurrences of 11 recessive bits: bus-off ends, where AUTOREC or CTL.REC started the recovery (R446). -/
def Dev.canRecovered (d : Dev) (c : Clock) (ch : Nat) : Dev :=
  if d.canState ch = stBusOff ∧ ((d.canX ch).recov ∨ d.flag (CAN_CHc_CFG_ACT_AUTOREC ch)) then
    (((d.put (CAN_CHc_ERRC_TEC ch) 0).put (CAN_CHc_ERRC_REC ch) 0).canTo c ch stActive).canIdle c ch
  else d

def execBusOffRecovered (ch : Fin 8) (s : State) : Host.Outcome State Fault Refusal := .next (s.onServing fun c d => d.canRecovered c ch)

/-- 11 recessive bits end the bus integration (R441). -/
def Dev.canIntegrated (d : Dev) (c : Clock) (ch : Nat) : Dev :=
  if d.canState ch = stInteg then
    (d.canTo c ch (if d.canMode ch = canListen then stListen else d.canConfined ch)).canIdle c ch
  else d

def execBusIntegration (ch : Fin 8) (s : State) : Host.Outcome State Fault Refusal := .next (s.onServing fun c d => d.canIntegrated c ch)

/-! Sleep and wake (R443 to R445, R571). -/

/-- The wake filter in ns. -/
def Dev.wakeFilter (d : Dev) : Nat := 500 * d.get CAN_WAKE_CFG_WFILT

/-- A dominant level in SLEEP (R443). -/
def Dev.canSleepWake (d : Dev) (c : Clock) (ch ns : Nat) : Dev :=
  if d.canState ch ≠ stSleep ∨ 6 ≤ ch ∨ ns < d.wakeFilter then d else
  let d1 := d.setf (CAN_CHc_STAT_WAKE ch)
  if d.flag (CAN_CHc_CFG_ACT_AUTOW ch) then (d1.put (CAN_CHc_CFG_ACT_MODE ch) canNormal).canEnter c ch canSleep else d1

def execSleepWake (ch : Fin 8) (ns : Nat) (s : State) : Host.Outcome State Fault Refusal :=
  .next (s.onServing fun c d => d.canSleepWake c ch ns)

/-- The low-power state the device is in or goes to. -/
def Dev.lowPower (d : Dev) : Option DevState :=
  match d.dst with
  | .standby => some .standby
  | .doze => some .doze
  | _ => d.pow.sleepAt.map (·.2)

/-- A dominant edge on CANc_RX held for `ns`, in STANDBY under SMSK, in DOZE under DMSK (R444); bank VIO_F must be up (R591). -/
def execCanEdgeWake (ch : Fin 6) (ns : Nat) (s : State) : Host.Outcome State Fault Refusal :=
  .next (
    let mask := match s.dev.lowPower with
      | some .standby => s.dev.get CAN_WAKE_CFG_SMSK
      | some .doze => s.dev.get CAN_WAKE_CFG_DMSK
      | _ => 0
    if mask.testBit ch.val ∧ s.dev.wakeFilter ≤ ns ∧ s.dev.pow.vio.testBit 5 then s.wakeEvent (2 ^ (2 + ch.val)) else s)

/-- A match of the wake frame (R445). -/
def Dev.wakeMatch (d : Dev) (ch : Nat) (f : CanFrame) : Bool :=
  let n := canBytes f.dlc.toNat f.fdf f.rtr
  let word (i : Nat) : W32 := (canWords (min n 8) f.data).getD i 0
  d.flag (CAN_CHc_WCFG_WEN ch) && !f.brs &&
    (f.id ^^^ BitVec.ofNat 29 (d.get (CAN_CHc_WID_WID ch))) &&& BitVec.ofNat 29 (d.get (CAN_CHc_WMASK_WMASK ch)) = 0 &&
    f.ide == d.flag (CAN_CHc_WCFG_WIDE ch) &&
    (!d.flag (CAN_CHc_WCFG_WDLCEN ch) || f.dlc.toNat = d.get (CAN_CHc_WCFG_WDLC ch)) &&
    (word 0 ^^^ d.reg (CAN_CHc_WDATA_LO_V ch).addr) &&& d.reg (CAN_CHc_WDMASK_LO_V ch).addr = 0 &&
    (word 1 ^^^ d.reg (CAN_CHc_WDATA_HI_V ch).addr) &&& d.reg (CAN_CHc_WDMASK_HI_V ch).addr = 0

/-- A frame that ends without error on CANc in DOZE (R445). -/
def execCanWakeFrame (ch : Fin 6) (f : CanFrame) (s : State) : Host.Outcome State Fault Refusal :=
  .next (if s.dev.lowPower = some .doze ∧ s.dev.wakeMatch ch f ∧ s.dev.pow.vio.testBit 5 then s.wakeEvent (2 ^ (2 + ch.val) + 256) else s)

end Sys2Proof.Machine
end

