-- ==== Sys2Proof/Machine/Integrity.lean ====
section
/-! DEFINITION. The scrubber and the fault log (R545 to R548, R552). -/

namespace Sys2Proof.Machine

/-! The scrubber (R547, R548). -/

/-- Words of a pass: shared SRAM, engine memories, capture memory, Herder slot memory. -/
def scrubWords : Nat := 1048576 + 30 * 16384 + 262144 + 4096

def isScrubbed (a : Nat) : Bool :=
  (0x10000000 ≤ a && a < 0x10800000) || (0x20000000 ≤ a && a < 0x203C0000) || (0x50000000 ≤ a && a < 0x50200000) || isHerderMem a

/-- The end of a pass: PASSES, and SLOW past 2 × PASS. -/
def Dev.scrubPass (d : Dev) (c : Clock) : Dev :=
  let d1 := d.bump FLT_SCRUB_STAT_PASSES
  let d2 := if d.flt.passFrom + 2 * d.get FLT_SCRUB_PASS * 500000000 < c.osc then d1.setf FLT_SCRUB_STAT_SLOW else d1
  { d2 with flt := { d2.flt with scrubbed := 0, passFrom := c.osc } }

/-- The scrubber reads the word at `a` in an idle cycle: a correction is written back. -/
def Dev.scrub (d : Dev) (c : Clock) (a : Nat) : Dev :=
  if !isScrubbed a then d else
  let w := a / 8 * 8
  let r := d.rdWord w
  let d1 := if r.bad then d.eccRegion c w r.syn
    else if r.syn = 0 then d
    else (if isHerderMem w then (d.setEcc w 0) else d.wr64 w (BitVec.ofNat 64 r.data)).noteCorrected c w 0xFE r
  let d2 : Dev := { d1 with flt := { d1.flt with scrubbed := d1.flt.scrubbed + 1 } }
  if d2.flt.scrubbed < scrubWords then d2 else d2.scrubPass c

def execScrubRead (addr : W32) (s : State) : Host.Outcome State Fault Refusal := .next (s.onServing fun c d => d.scrub c addr.toNat)

/-! The fault log (R552). -/

/-- A read of FLT_LOGW3 releases the oldest record. -/
def Dev.logRelease (d : Dev) : Dev :=
  let log := d.flt.log.drop 1
  ({ d with flt := { d.flt with log := log } }).put FLT_STAT_UNREAD log.length

def execFaultLogRelease (s : State) : Host.Outcome State Fault Refusal := .next (s.onServing fun _ d => d.logRelease)

/-- Word n of the oldest record; zero while the log is empty. -/
def Dev.logWord (d : Dev) (n : Nat) : W32 :=
  match d.flt.log.head? with
  | none => 0
  | some r => match n with
    | 0 => BitVec.ofNat 32 r.t
    | 1 => BitVec.ofNat 32 (r.t / 2 ^ 32)
    | 2 => BitVec.ofNat 32 (r.fcode + r.unit * 2 ^ 16 + if r.inj then 2 ^ 24 else 0)
    | _ => BitVec.ofNat 32 r.info

end Sys2Proof.Machine
end

