-- ==== Sys2Proof/Machine/Delivery.lean ====
section
/-! DEFINITION. Delivery of packets by the fabric (R28 to R34, R84, R85, R92, R329, R404, R545). -/

namespace Sys2Proof.Machine

/-- A packet type of R28 that a chapter defines. -/
def typeDefined (t : Nat) : Bool :=
  t ≤ 0x03 || (0x10 ≤ t && t ≤ 0x14) || (0x20 ≤ t && t ≤ 0x23) || (0x30 ≤ t && t ≤ 0x33) || (0x40 ≤ t && t ≤ 0x43) ||
    (0x50 ≤ t && t ≤ 0x55) || (0x58 ≤ t && t ≤ 0x5A) || t = 0x60 || t = 0x61 || (0x69 ≤ t && t ≤ 0x6B) || t = 0x6D ||
    (0x70 ≤ t && t ≤ 0x78)

/-- A packet a receiver counts as malformed (R26 to R28). -/
def malformed (b : W64) : Bool :=
  (0x41 ≤ brandAddr b && brandAddr b < 0xFF) || !unitValid (brandUnit b) || !typeDefined (brandType b)

/-- The words of a packet as the consumer reads them, brand first, and the corrected words among them; none: an uncorrectable word
(R34, R544, R545). -/
def Packet_read (p : Packet) : Option (Packet × Nat) :=
  let mask (i : Nat) : Nat := (p.errs.filter fun e => e.1 = i).foldl (fun m e => m ^^^ e.2) 0
  let rs := ((p.brand :: p.words).zipIdx).map fun w => eccRead w.1.toNat (mask w.2)
  if rs.any (·.bad) then none
  else
    let ws := rs.map fun r => BitVec.ofNat 64 r.data
    some ({ p with brand := ws.headD 0, words := ws.drop 1, errs := [] }, (rs.filter fun r => r.syn ≠ 0).length)

/-- The sequence check of a stream (R32): accepted or not, with the counts; `src` is 0 for this device, else the sender on the chain plus
1. -/
def Dev.seqCheck (d : Dev) (src : Nat) (p : Packet) : Bool × Dev :=
  let b := p.brand
  let key := src * 2 ^ 32 + producerOf (brandType b) p.payload * 2 ^ 23 + brandAddr b * 2 ^ 15 + brandUnit b * 128 + brandType b
  let last := d.fab.lastSeq.get (fun _ => 0) key
  let seq := brandSeq b
  let fresh := last = 0
  let ahead := (seq + 65536 - (last - 1)) % 65536
  if !fresh && (ahead = 0 || 32768 ≤ ahead) then (false, { d with fab := { d.fab with stale := d.fab.stale + 1 } })
  else
    (true, { d with fab := { d.fab with
      lastSeq := d.fab.lastSeq.set (fun _ => 0) key (seq + 1)
      gap := if !fresh && 1 < ahead then d.fab.gap + 1 else d.fab.gap } })

/-- Does the device consume a Ruori block with this ADDR: its own address, 0xFF, or the partner's after a takeover (R401, R466)? -/
def Dev.blockMine (d : Dev) (a : Nat) : Bool :=
  (a = d.get CHAIN_STAT_ADDR && a ≠ 0) || a = 0xFF || (d.pair.both && a = d.get PAIR_STAT_PADDR)

/-- A discard as stale. -/
def Dev.countStale (d : Dev) : Dev := { d with fab := { d.fab with stale := d.fab.stale + 1 } }

/-- Keep a sample, newest first, with every sample ahead of its instant and the last three of the others: no use looks further back
(R234, R252, R271). -/
def Dev.pushSample (d : Dev) (now key : Nat) (s : Sample) : Dev :=
  let old := d.sample key
  d.setSample key (s :: (old.filter (fun x => now < x.t) ++ (old.filter (fun x => x.t ≤ now)).take 3))

/-- The sample a packet of types 0x40 to 0x42 with instant t carries. -/
def sampleOf (t : Nat) (p : Packet) : Sample :=
  { t := t, p := posOf (p.word 1) (p.word 2), v := (p.word 3).toInt, a := (p.word 4).toInt, j := (p.word 5).toInt
    epoch := brandEpoch p.brand }

/-- Lane currents or a position latch for the current job (R84, R85): stale where it names an earlier period. -/
def Dev.laneInput (d : Dev) (c : Clock) (l pos : Nat) (p : Packet) : Dev :=
  if d.namesEarlier l p then d.countStale.bump HERDER_XDEC_CNT else d.inboxPut c l pos p

/-- A set-point (R92, R234): for a servo lane stale from its instant on, with SP_STALE; a lane keeps the latest four. -/
def Dev.setpointIn (d : Dev) (c : Clock) (u : Nat) (p : Packet) : Dev :=
  let s := sampleOf (d.packetNs c.ns p) p
  if u < 24 then
    if s.t ≤ c.ns ∧ d.get (PWM_Lnn_CYC_ACT_PDIV u) ≠ 0 then (d.setf (PWM_Lnn_CYC_STAT_SP_STALE u)).countStale
    else
      let d1 := d.inboxPut c u 2 p
      d1.setPwmX u { d1.pwmX u with sps := s :: ((d1.pwmX u).sps.take 3) }
  else if u < 32 then d.setStpX (u - 24) { d.stpX (u - 24) with sps := s :: ((d.stpX (u - 24)).sps.take 3) }
  else d

/-- A gate-arming packet stages and commits a gate (R68, R322). -/
def Dev.gateArm (d : Dev) (c : Clock) (p : Packet) : Dev :=
  let w := p.word 1
  let g := bits64 w 0 8
  let cfg := 1 + bits64 w 8 4 * 16 + brandUnit p.brand * 256 + bits64 w 16 8 * 65536
  let d1 := (d.setReg (GATE_GTnnn_CFG_EN g).addr (BitVec.ofNat 32 cfg)).put (GATE_GTnnn_PER_PER g) (bits64 w 32 32)
  (d1.put64 (GATE_GTnnn_CMP_LO_CMP g) (GATE_GTnnn_CMP_HI_CMP g) (d.packetNs c.ns p)).gateCommit c g

/-- A stepper lane's commit packet, whose instant is the carrier start that is to take it (R322, R71, R227): one past that start's latch
point sets the gate's LATE and reports FL010. -/
def Dev.stepperCommitPacket (d : Dev) (c : Clock) (s start : Nat) : Dev :=
  let d1 := d.stpPending c s
  if c.ns + 8 ≤ start then d1
  else ((d1.setf (GATE_GTnnn_CTL_LATE (72 + s))).bump GATE_LATE_CNT_CNT).record c 10 (24 + s) (72 + s)

/-- A DC-link voltage goes to position 3 of the group's axis engines (R329). -/
def Dev.linkIn (d : Dev) (c : Clock) (g : Nat) (p : Packet) : Dev :=
  (List.range 6).foldl (fun d i => d.inboxPut c (6 * g + i) 3 p) d

/-- A packet with samples of a master goes into the inbox of every trajectory engine that has a slot on that master (R250, R329); its position
there is firmware's (log entry 95). -/
def Dev.masterIn (d : Dev) (c : Clock) (key : Nat) (p : Packet) : Dev :=
  (List.range 4).foldl (fun d i =>
    let on := (List.range 64).any fun a => slotEngine a = 24 + i && (match (d.axX a).mst with
      | some m => decide (m.key = key)
      | none => false)
    if on then d.inboxPut c (24 + i) (Config.inboxPos (24 + i) key).val p else d) d

/-- A port's position latch at instant t as a master and loop sample (R250, R270). -/
def latchSample (t : Nat) (p : Packet) : Sample :=
  { t := t, p := posOf (p.word 1) (p.word 2), v := (p.word 3).toInt, epoch := brandEpoch p.brand, bad := bits64 (p.word 4) 0 3 ≠ 0 }

/-- A probe's latch at instant t of its PPORT port as a register mark (R270). -/
def Dev.probeIn (d : Dev) (now t n : Nat) (p : Packet) : Dev :=
  let k := bits64 (p.word 3) 0 3
  if d.get (FBK_PRBp_CFG_PPORT k) = n then
    d.pushSample now (keyProbe k) { t := t, p := posOf (p.word 1) (p.word 2), bad := bits64 (p.word 3) 4 1 = 1 }
  else d

/-- What the consumers of an accepted packet for this device do with it; its instant is the one its brand and time words give (R30, R33).
-/
def Dev.consume (d : Dev) (c : Clock) (p : Packet) : Dev :=
  let u := brandUnit p.brand
  let t := d.packetNs c.ns p
  match brandType p.brand with
  | 0x01 => if u < 24 then d.commitPacket c u t (brandEpoch p.brand) else if u < 32 then d.stepperCommitPacket c (u - 24) t else d
  | 0x02 => d.gateArm c p
  | 0x10 => if u < 24 then d.laneInput c u 0 p else d
  | 0x13 => if 0x68 ≤ u ∧ u < 0x6C then d.linkIn c (u - 0x68) p else d
  | 0x14 => if u < 24 then d.pairIn c u p else d
  | 0x20 =>
    if u < 24 then
      (let d1 := d.laneInput c u 1 p
       if d.namesEarlier u p then d1 else (d1.pushSample c.ns (64 + u) (latchSample t p)).masterIn c (64 + u) p)
    else d
  | 0x22 => if u < 24 then d.probeIn c.ns t u p else d
  | 0x31 =>
    if u < 24 then d.pushSample c.ns (keyTorque u) { t := t, p := sInt 32 (bits64 (p.word 1) 32 32), epoch := brandEpoch p.brand } else d
  | 0x40 => (d.setpointIn c u p).masterIn c u p
  | 0x41 => if u < 64 then (d.pushSample c.ns (128 + u) (sampleOf t p)).masterIn c (128 + u) p else d
  | 0x42 =>
    let key := 256 + 64 * bits64 (p.word 5) 0 8 + bits64 (p.word 5) 8 8 % 64
    (d.pushSample c.ns key { sampleOf t p with j := 0 }).masterIn c key p
  | 0x50 =>
    if 0x40 ≤ u ∧ u < 0x50 then
      d.pushSample c.ns (keyLoopStream (u - 0x40)) { t := t, p := sInt 32 (bits64 (p.word 1) 0 32), bad := bits64 (p.word 1) 32 1 = 1 }
    else d
  | _ => d

/-- Is the packet meant for another device: a stream to another chain address, or an answer over the chain (R401, R404, R407)? -/
def Dev.isOutgoing (d : Dev) (b : W64) : Bool :=
  let a := brandAddr b
  let t := brandType b
  t = 0x61 || t = 0x6B || t = 0x6D || (a ≠ 0 && a ≠ d.get CHAIN_STAT_ADDR && (t = 0x41 || t = 0x42 || t = 0x50 || t = 0x51))

/-- The TYPES bit of a stream's type (13). -/
def typeBit (t : Nat) : Nat := if t = 0x41 then 0 else if t = 0x42 then 1 else if t = 0x50 then 2 else 3

/-- The lowest-numbered enabled descriptor that takes a packet of type t to address a (R404). -/
def Dev.matchDesc (d : Dev) (a t : Nat) : Option Nat :=
  (List.range 16).find? fun i =>
    d.flag (CHAIN_Dd_CFG_ACT_EN i) && (d.get (CHAIN_Dd_CFG_ACT_TYPES i)).testBit (typeBit t) &&
      (d.get (CHAIN_Dd_CFG_ACT_DADDR i) = 0xFF || d.get (CHAIN_Dd_CFG_ACT_DADDR i) = a)

/-- A packet for the chain: into its descriptor's streams and the inbox of the transmit engine, at firmware's position (R329; log entry 95),
or a block of the service frame (R404, R407). -/
def Dev.toChain (d : Dev) (c : Clock) (p : Packet) : Dev :=
  let t := brandType p.brand
  let stream := t = 0x41 || t = 0x42 || t = 0x50 || t = 0x51
  match if stream then d.matchDesc (brandAddr p.brand) t else none with
  | some i => { d.inboxPut c 28 (Config.inboxPos 28 i).val p with chain := { d.chain with streams := d.chain.streams ++ [(c.ns, p)] } }
  | none => { d with chain := { d.chain with svc := d.chain.svc ++ [(c.ns, p)] } }

/-- A packet for this device meets R31 and R32 and its consumers; capture and the safety unit see it as well. SEQ is judged before
EPOCH, so a packet of another epoch moves the stream's last accepted SEQ (the model's choice, log entry 74). -/
def Dev.accept (d : Dev) (c : Clock) (p : Packet) (src : Nat := 0) : Dev :=
  let u := brandUnit p.brand
  let (ok, d0) := d.seqCheck src p
  if !ok then d0
  else
    let d1 := (d0.capture c p).safetySees p
    if u < 0x40 ∧ brandEpoch p.brand ≠ (d1.lane u).epoch then d1.bump (TRJ_AXaa_EPSTALE_CNT u) else d1.consume c p

/-- A packet past its integrity check (R26 to R32). -/
def Dev.deliverRead (d : Dev) (c : Clock) (p : Packet) : Dev :=
  if malformed p.brand then { d with fab := { d.fab with malformed := d.fab.malformed + 1 } }
  else if d.isOutgoing p.brand then (d.capture c p).toChain c p
  else d.accept c p

/-- A packet reaches its consumer: discarded whole with FC201 on an uncorrectable word, corrections counted (R34, R545). -/
def Dev.deliver (d : Dev) (c : Clock) (p : Packet) : Dev :=
  match Packet_read p with
  | none => (d.noteUncorr 0xFFFFFFFF (packetSyn p)).record c 201 (brandUnit p.brand) 0xFFFFFFFF p.inj
  | some (q, n) =>
    let d1 := (List.range n).foldl (fun d _ => (d.bump FLT_ECC_CORR_V).record c 200 (brandUnit p.brand) 0xFFFFFFFF p.inj) d
    d1.deliverRead c q
where
  /-- The syndrome of the last uncorrectable word. -/
  packetSyn (p : Packet) : Nat :=
    ((p.brand :: p.words).zipIdx).foldl (fun s w =>
      let r := eccRead w.1.toNat ((p.errs.filter fun e => e.1 = w.2).foldl (fun m e => m ^^^ e.2) 0)
      if r.bad then r.syn else s) 0

/-- Has a packet on its way had the time the spec gives it: the type 0x14 packet reaches its port 20 ns after the second code (R129)? -/
def Dev.arrives (d : Dev) (c : Clock) (p : Packet) : Bool :=
  brandType p.brand ≠ 0x14 || decide ((d.sarX (brandUnit p.brand / 6)).pairAt + 20 ≤ c.ns)

/-- The fabric delivers packet i of those on their way (R329). -/
def execPacketDelivery (i : Nat) (s : State) : Host.Outcome State Fault Refusal :=
  .next (s.onServing fun c d => match d.fab.flight[i]? with
    | some p => if !d.arrives c p then d else ({ d with fab := { d.fab with flight := d.fab.flight.eraseIdx i } }).deliver c p
    | none => d)

end Sys2Proof.Machine
end

