-- ==== Sys2Proof/Machine/MboxArrive.lean ====
section
/-! DEFINITION. How a request arrives in a mailbox (R365, R369, R376, R410). -/

namespace Sys2Proof.Machine

/-- Entries of mailbox m's queue that are neither filled nor reserved (R376); a response that waits for an entry counts as one. -/
def Dev.freeEntries (d : Dev) (m : Nat) : Nat :=
  16 - min 16 (d.get (MBX_Mm_STAT_RCOUNT m) + d.outstanding m + (d.mbox m).late.length)

/-- Requests that wait for entries are taken, in order, while two entries are free: that instant counts as their arrival (R376). -/
def Dev.mboxTake (c : Clock) (m : Nat) : Nat → Dev → Dev
  | 0, d => d
  | fuel + 1, d =>
    let x := d.mbox m
    match x.wait with
    | [] => d
    | r :: rest =>
      if d.freeEntries m < 2 then d
      else Dev.mboxTake c m fuel (d.setMbox m { x with
        wait := rest, reqs := x.reqs ++ [{ r with tArr := c.ns, frac := c.frac }], busyTo := some (c.ns + 10000) })

/-- Every waiting request of mailbox m that can be taken. -/
def Dev.mboxTry (d : Dev) (c : Clock) (m : Nat) : Dev :=
  if (d.mbox m).wait.isEmpty then d else Dev.mboxTake c m (d.mbox m).wait.length d

/-- A request arrives: BUSY is set until the supervisor has taken it (R369); the active of a pair forwards it (R461). -/
def Dev.mboxArrive (d : Dev) (c : Clock) (m : Nat) (src : Byte) (ws : List W64) : Dev :=
  let x := d.mbox m
  let r : MbxReq := { tArr := c.ns, frac := c.frac, src := src, words := ws }
  (((d.setMbox m { x with wait := x.wait ++ [r], busyTo := none }).setf (MBX_Mm_STAT_BUSY m)).tell 2 ws).mboxTry c m

/-- BUSY clears 10 µs after the arrival (R369; log entry 28). -/
def Dev.mboxBusy (d : Dev) (c : Clock) (m : Nat) : Dev :=
  match (d.mbox m).busyTo with
  | some t => if t ≤ c.ns then (d.setMbox m { d.mbox m with busyTo := none }).setf (MBX_Mm_STAT_BUSY m) false else d
  | none => d

/-- Host address of request buffer m. -/
def bufAddr (m : Nat) : Nat := 0x40120000 + 0x200 * m

/-- The words of request buffer m as the supervisor reads them (R545). -/
def Dev.bufWords (d : Dev) (c : Clock) (m n : Nat) : List W64 × Dev :=
  (List.range n).foldl (fun (ws, d) i =>
    let (w, d1) := d.useWord c (bufAddr m + 8 * i)
    (ws ++ [BitVec.ofNat 64 w], d1)) ([], d)

/-- A host write of one register-sized word into a request buffer (R365, R369): OWNED where the Ruori link serves the mailbox, MBUSY
while the buffer is BUSY. -/
def Dev.bufWrite (d : Dev) (c : Clock) (a : Nat) (w : W32) : Dev :=
  let m := (a - 0x40120000) / 0x200
  if (d.get MBX_ROUTE_ROUTE).testBit m then { d with hpi := d.hpi ||| 2 }
  else if d.flag (MBX_Mm_STAT_BUSY m) then { d with hpi := d.hpi ||| 8 }
  else
    let d1 := d.wr32 a w
    let i := a % 0x200 / 8
    let len := d1.rdN (bufAddr m + 26) 1 % 64
    if a % 8 = 4 ∧ i = (if 59 < len then 63 else 4 + len) then
      let (ws, d2) := d1.bufWords c m (i + 1)
      d2.mboxArrive c m 0 ws
    else d1

/-- A response that waits for an entry takes the one that is free now. -/
def Dev.rspLate (d : Dev) (m : Nat) : Dev :=
  match (d.mbox m).late with
  | [] => d
  | ws :: rest => (d.setMbox m { d.mbox m with late := rest }).putEntry m ws

/-- The oldest entry of a response queue is released (R376). -/
def Dev.rspRelease (d : Dev) (c : Clock) (m : Nat) : Dev :=
  let n := d.get (MBX_Mm_STAT_RCOUNT m)
  if n = 0 then d
  else
    let d1 := (d.put (MBX_Mm_STAT_RHEAD m) ((d.get (MBX_Mm_STAT_RHEAD m) + 1) % 16)).put (MBX_Mm_STAT_RCOUNT m) (n - 1)
    (d1.rspLate m).mboxTry c m

/-- A read of the high half of word 7 of the entry at RHEAD. -/
def execResponseRelease (m : Fin 16) (s : State) : Host.Outcome State Fault Refusal :=
  .next (s.onServing fun c d => d.rspRelease c m)

end Sys2Proof.Machine
end

