-- ==== Sys2Proof/Machine/ChainSwitch.lean ====
section
/-! DEFINITION. The chain ports and the switch between them (R391 to R397, R406, R424), and the peer-delay frames that leave with a stamp
(R413, R414). Chain instants are in units of 2^-16 ns. -/

namespace Sys2Proof.Machine

/-! Frames (R397). -/

/-- Byte i of a frame. -/
def fbyte (f : EthFrame) (i : Nat) : Nat := (f.bytes.getD i 0).toNat

/-- n bytes from i in the byte order of IEEE 802.3. -/
def fbe (f : EthFrame) (i n : Nat) : Nat := (List.range n).foldl (fun v k => v * 256 + fbyte f (i + k)) 0

/-- Ruori word i, byte 0 first (R5, R397). -/
def fword (f : EthFrame) (i : Nat) : W64 :=
  BitVec.ofNat 64 ((List.range 8).foldr (fun k v => fbyte f (14 + 8 * i + k) + 256 * v) 0)

/-- n bytes of a number in the byte order of IEEE 802.3. -/
def beBytes (n v : Nat) : List Byte := (List.range n).map fun i => BitVec.ofNat 8 (v / 256 ^ (n - 1 - i))

/-- n bytes of a number, lowest first. -/
def leBytes (n v : Nat) : List Byte := (List.range n).map fun i => BitVec.ofNat 8 (v / 256 ^ i)

/-- Replace n bytes from i. -/
def fput (f : EthFrame) (i : Nat) (bs : List Byte) : EthFrame :=
  { f with bytes := f.bytes.take i ++ bs ++ f.bytes.drop (i + bs.length) }

/-- A frame padded to the shortest length (R391). -/
def padFrame (bs : List Byte) : EthFrame := { bytes := bs ++ List.replicate (60 - bs.length) 0, bad := false }

def fetype (f : EthFrame) : Nat := fbe f 12 2

/-- Bytes 0 to 5 of the Ruori group address, and of this device's source address (R397). -/
def Dev.rmac (d : Dev) : List Byte := leBytes 4 (d.get CHAIN_RMAC_LO_ACT_MAC) ++ leBytes 2 (d.get CHAIN_RMAC_HI_ACT_MAC)
def Dev.smac (d : Dev) : List Byte :=
  leBytes 4 (d.get CHAIN_SMAC_LO_ACT_MAC) ++ leBytes 1 (d.get CHAIN_SMAC_HI_ACT_MAC) ++ leBytes 1 (d.get CHAIN_STAT_ADDR)

/-- A Ruori frame by EtherType and destination address (R424). -/
def Dev.isRuori (d : Dev) (f : EthFrame) : Bool := fetype f = d.get CHAIN_CFG_ACT_ETYPE && f.bytes.take 6 = d.rmac

def isPtp (f : EthFrame) : Bool := fetype f = 0x88F7

/-- Length from destination address to FCS within R391. -/
def lengthOk (f : EthFrame) : Bool := 60 ≤ f.bytes.length && f.bytes.length ≤ 1518

/-! Jobs of the packet engines (R409). -/

/-- A packet engine job runs once for an event: armed now, or owed while its slot is armed (R409; log entry 87). -/
def Dev.pktArm (d : Dev) (c : Clock) (j : Nat) : Dev :=
  if d.jobState j = jobFree then d.jobArm c j c.ns c.ns d.cycNs
  else { d with chain := { d.chain with again := d.chain.again.set (fun _ => 0) j (d.chain.again.get (fun _ => 0) j + 1) } }

/-- A job that ended and still owes a run is armed for it. -/
def Dev.pktAgain (d : Dev) (c : Clock) (j : Nat) : Dev :=
  let n := d.chain.again.get (fun _ => 0) j
  if n = 0 then d
  else ({ d with chain := { d.chain with again := d.chain.again.set (fun _ => 0) j (n - 1) } }).jobArm c j c.ns c.ns d.cycNs

/-- A one-shot job of register reads and mailbox transport: the first FREE slot of J0200 to J0255 (R409). -/
def Dev.pktOneShot (d : Dev) (c : Clock) : Dev :=
  match (List.range 56).map (200 + ·) |>.find? fun j => d.jobState j = jobFree with
  | some j => d.jobArm c j c.ns c.ns d.cycNs
  | none => d

/-! Ports. -/

/-- Is an address this device's own, or its partner's in a pair that answers to both (R393, R466)? -/
def Dev.chainMine (d : Dev) (a : Nat) : Bool :=
  a ≠ 0 && (a = d.get CHAIN_STAT_ADDR || (d.pair.both && a = d.get PAIR_STAT_PADDR))

def chLink (p : Nat) : Field := if p = 0 then CHAIN_STAT_LINK0 else CHAIN_STAT_LINK1
def chCap (p : Nat) : Field := if p = 0 then CHAIN_STAT_CAP0 else CHAIN_STAT_CAP1

/-- The first cycle instant at or after an instant. -/
def Dev.cycleAt (d : Dev) (t : Nat) : Nat := (t + d.cycNs - 1) / d.cycNs * d.cycNs

/-- The time of record in 2^-16 ns. -/
def Clock.fine (c : Clock) : Nat := c.tor / 2 ^ 32

/-- Egress stamp of a frame whose first preamble bit leaves at an instant, and ingress stamp of one that passed the MAC interface
(R413). -/
def Dev.egress (d : Dev) (p start : Nat) : Nat := start + 64 * 65536 + d.get (CHAIN_CHp_TXDLY_ACT_D p)
def Dev.ingress (d : Dev) (p at_ : Nat) : Nat := at_ - d.get (CHAIN_CHp_RXDLY_ACT_D p)

/-! PTP frames: the layout is that of IEEE 1588-2019 (log entry 29). -/

/-- A PTP message: type, sequenceId, correctionField, two-step flag, logMessageInterval, body. -/
def Dev.ptpFrame (d : Dev) (p type seq corr : Nat) (two : Bool) (logInt : Nat) (body : List Byte) : EthFrame :=
  let as_ := d.flag CHAIN_CFG_ACT_ASMODE
  let peer := type = 2 || type = 3 || type = 10
  let dst : List Byte := if as_ || peer then [0x01, 0x80, 0xC2, 0x00, 0x00, 0x0E] else [0x01, 0x1B, 0x19, 0x00, 0x00, 0x00]
  let serial := d.get64 SYS_SERIAL_LO_SERIAL SYS_SERIAL_HI_SERIAL
  let ctl := if type = 0 then 0 else if type = 8 then 2 else 5
  padFrame (dst ++ d.smac ++ beBytes 2 0x88F7 ++
    beBytes 1 ((if as_ then 0x10 else 0) + type) ++ beBytes 1 0x12 ++ beBytes 2 (34 + body.length) ++
    beBytes 1 (if as_ then 0 else d.get CHAIN_PTP_ACT_DOM) ++ beBytes 1 0 ++ beBytes 2 (if two then 0x0200 else 0) ++
    beBytes 8 corr ++ beBytes 4 0 ++ beBytes 8 serial ++ beBytes 2 (p + 1) ++ beBytes 2 seq ++ beBytes 1 ctl ++ beBytes 1 logInt ++ body)

/-- A timestamp field: 48-bit seconds, 32-bit ns of a time of record in ns (R10). -/
def ptpStamp (ns : Nat) : List Byte := beBytes 6 (ns / 1000000000) ++ beBytes 4 (ns % 1000000000)

def ptpType (f : EthFrame) : Nat := fbyte f 14 % 16
def ptpSeq (f : EthFrame) : Nat := fbe f 44 2
def ptpCorr (f : EthFrame) : Int := sInt 64 (fbe f 22 8)
/-- The timestamp at the start of a body, in ns (R10). -/
def ptpNs (f : EthFrame) : Nat := fbe f 48 6 * 1000000000 + fbe f 54 4
def ptpTwoStep (f : EthFrame) : Bool := (fbyte f 20).testBit 1

/-- The follow-up information TLV of IEEE 802.1AS with no accumulated rate offset (R418). -/
def followTlv : List Byte := beBytes 2 3 ++ beBytes 2 28 ++ beBytes 3 0x0080C2 ++ beBytes 3 1 ++ beBytes 22 0

/-- What follows from a frame of this device that starts on port p: t1 of a Pdelay_Req, and the Follow_Up with the stamp of a Pdelay_Resp or of a
two-step Sync of this device, which waits for the port (R413, R414, R418). -/
def Dev.afterStart (d : Dev) (p start : Nat) (f : EthFrame) : Dev :=
  let x := d.chPort p
  if !isPtp f || f.bad then d
  else
    let t := d.egress p start
    let seq := ptpSeq f
    match ptpType f with
    | 2 => d.setChPort p { x with t1 := some t }
    | 3 =>
      let fu := d.ptpFrame p 10 seq (t % 65536) false 0x7F (ptpStamp (t / 65536) ++ (f.bytes.drop 58).take 10)
      d.setChPort p { x with wait := x.wait ++ [fu] }
    | 0 =>
      if ptpTwoStep f then
        let fu := d.ptpFrame p 8 seq (t % 65536) false (fbyte f 47) (ptpStamp (t / 65536) ++ followTlv)
        d.setChPort p { x with wait := x.wait ++ [fu] }
      else d
    | _ => d

/-- A frame starts on port p, this device's own or a forwarded one: 8 ns per byte of preamble, frame, FCS and gap. -/
def Dev.chStart (d : Dev) (c : Clock) (p : Nat) (f : EthFrame) (own : Bool) : Dev :=
  let d1 := d.setChPort p { d.chPort p with busy := c.ns + 8 * (f.bytes.length + 24), sent := some (c.ns, f) }
  if own then d1.afterStart p c.fine f else d1

/-- A port that sends, or has a frame waiting. -/
def Dev.chBusy (d : Dev) (c : Clock) (p : Nat) : Bool := decide (c.ns < (d.chPort p).busy) || !(d.chPort p).wait.isEmpty

/-- A local launch (R406): at the end of a transmission under way, late, before any stored frame; without link it is dropped. The
Bool says whether it was late. -/
def Dev.chLaunch (d : Dev) (c : Clock) (p : Nat) (f : EthFrame) : Bool × Dev :=
  if !d.flag (chLink p) then (false, d.bump (CHAIN_CHp_DROP_V p))
  else if d.chBusy c p then
    (true, ((d.setChPort p { d.chPort p with wait := (d.chPort p).wait ++ [f] }).bump (CHAIN_CHp_LATE_V p)).reportLim c 142 0xFE p p)
  else (false, d.chStart c p f true)

/-- Ports on which the FRAME gates 200 to 218 will launch, as known now (R405): the service frame where a block is queued by its build
deadline, or one may still be (R407; log entry 96). -/
def Dev.framePorts (d : Dev) (now g : Nat) : Nat :=
  if g < 216 then (if d.flag (CHAIN_Dd_CFG_ACT_EN (g - 200)) then d.get (CHAIN_Dd_CFG_ACT_PORTS (g - 200)) else 0)
  else if g = 216 then
    (let dl := d.gateNext 216 - d.margin
     if now ≤ dl ∨ d.chain.svc.any (fun e => decide (e.1 ≤ dl)) then d.get CHAIN_SVC_ACT_PORTS else 0)
  else if d.get TIME_CTRL_MODE = 2 ∧ d.flag (chCap (g - 217)) then 2 ^ (g - 217) else 0

/-- No forwarded frame starts on port p within GUARD before a local launch on it (R396). -/
def Dev.chGuarded (d : Dev) (c : Clock) (p : Nat) : Bool :=
  (List.range 19).any fun i =>
    let g := 200 + i
    (d.framePorts c.ns g).testBit p && d.flag (GATE_GTnnn_CTL_ARMED g) && decide (c.ns ≤ d.gateNext g) &&
      decide (d.gateNext g < c.ns + d.get CHAIN_CYC_ACT_GUARD)

/-- A forwarded frame on egress port p: cut-through, or into the store buffer of 2 (R393, R396). -/
def Dev.chForward (d : Dev) (c : Clock) (p : Nat) (f : EthFrame) : Dev :=
  let x := d.chPort p
  if !d.flag (chLink p) then d
  else if !d.chBusy c p && x.store.isEmpty && !d.chGuarded c p then d.chStart c p f false
  else if x.store.length < 2 then d.setChPort p { x with store := x.store ++ [f] }
  else (d.bump (CHAIN_CHp_DROP_V p)).reportLim c 143 0xFE p p

/-- Port p has become free: a waiting local launch starts, or the oldest stored frame outside the guard (R396, R406). -/
def Dev.chNext (d : Dev) (c : Clock) (p : Nat) : Dev :=
  let x := d.chPort p
  if c.ns < x.busy ∨ !d.flag (chLink p) then d
  else match x.wait, x.store with
    | f :: r, _ => (d.setChPort p { x with wait := r }).chStart c p f true
    | [], f :: r => if d.chGuarded c p then d else (d.setChPort p { x with store := r }).chStart c p f false
    | [], [] => d

def execStoreBufferSend (p : Fin 2) (s : State) : Host.Outcome State Fault Refusal := .next (s.onServing fun c d => d.chNext c p)

/-! What the switch does with a frame received on port p (R393, R395, R424). -/

/-- A frame that passes to the other port; a bad one is counted on the ingress port and ends with an error (R395). -/
def Dev.passOn (d : Dev) (c : Clock) (p : Nat) (f : EthFrame) : Dev :=
  (d.bump (if f.bad then CHAIN_CHp_RXERR_V p else CHAIN_CHp_RXOK_V p)).chForward c (1 - p) f

/-- A Ruori frame by the ADDR and UNIT of its header brand. -/
def Dev.switchRuori (d : Dev) (c : Clock) (p : Nat) (f : EthFrame) : Dev :=
  let b := fword f 0
  let a := brandAddr b
  if brandUnit b = 0xF0 ∨ d.chainMine a then d
  else if a = 0xFF ∧ brandUnit b = 0xFE then
    (if f.bad then d.bump (CHAIN_CHp_RXERR_V p) else d).chForward c (1 - p) f
  else if 1 ≤ a ∧ a ≤ 0x40 then d.passOn c p f
  else d.bump (CHAIN_CHp_MALF_V p)

/-- A foreign frame (R424). -/
def Dev.switchForeign (d : Dev) (c : Clock) (p : Nat) (f : EthFrame) : Dev :=
  let d1 := d.bump (CHAIN_CHp_FOREIGN_V p)
  let local_ := fbe f 0 5 = 0x0180C20000 && fbyte f 5 < 16
  if d.flag CHAIN_CFG_ACT_FWDF && !local_ then d1.passOn c p f
  else d1.bump (if f.bad then CHAIN_CHp_RXERR_V p else CHAIN_CHp_RXOK_V p)

/-- PTP messages that pass unchanged: Announce, Delay_Req, Delay_Resp, Signaling, Management (R412). -/
def ptpPasses (f : EthFrame) : Bool := [0xB, 1, 9, 0xC, 0xD].contains (ptpType f)

/-- A frame whose errors the device counts where it receives it (R402): Ruori for it or of enumeration, PTP it acts on. -/
def Dev.countsOwn (d : Dev) (f : EthFrame) : Bool :=
  if d.isRuori f then brandUnit (fword f 0) = 0xF0 || d.chainMine (brandAddr (fword f 0)) else isPtp f && !ptpPasses f

/-- A frame arrives on port p: what the switch does with it; one of bad length is discarded and counted once (R391). -/
def Dev.switchFrame (d : Dev) (c : Clock) (p : Nat) (f : EthFrame) : Dev :=
  if !d.flag (chLink p) then d
  else if !lengthOk f then (if d.countsOwn f then d else d.bump (CHAIN_CHp_RXERR_V p))
  else if fetype f = 0x8808 then d.bump (CHAIN_CHp_DROP_V p)
  else if d.isRuori f then d.switchRuori c p f
  else if isPtp f then (if ptpPasses f then d.passOn c p f else d)
  else d.switchForeign c p f

def execForward (p : Fin 2) (f : EthFrame) (s : State) : Host.Outcome State Fault Refusal :=
  .next (s.onServing fun c d => d.switchFrame c p f)

/-! Links (R392). -/

/-- Loss of link: a frame in flight ends truncated, and the peer-delay exchange ends (R392). -/
def Dev.linkDown (d : Dev) (c : Clock) (p : Nat) : Dev :=
  if !d.flag (chLink p) then d
  else
    let x := d.chPort p
    let cut := decide (c.ns < x.busy)
    let d1 := (d.setChPort p { x with
      open_ := false, t1 := none, resp := none, prev := none, good := 0, rated := false
      busy := if cut then c.ns else x.busy
      sent := if cut then x.sent.map fun s => (s.1, { s.2 with bad := true }) else x.sent })
    ((d1.setf (chLink p) false).setf (chCap p) false).reportLim c 140 0xFE p p

def execLinkDown (p : Fin 2) (s : State) : Host.Outcome State Fault Refusal := .next (s.onServing fun c d => d.linkDown c p)

/-- Link: synchronisation acquired and, with AN, auto-negotiation completed. -/
def execLinkUp (p : Fin 2) (s : State) : Host.Outcome State Fault Refusal := .next (s.onServing fun _ d => d.setf (chLink p))

end Sys2Proof.Machine
end

