-- ==== Sys2Proof/Machine/Ruori.lean ====
section
/-! DEFINITION. Ruori frames and the cycle (R397 to R411, R419 to R426): building, launching, checking and delivering frames, the chain's
configuration, and enumeration. -/

namespace Sys2Proof.Machine

/-! Building a frame (R397 to R399). -/

/-- The bytes of words, byte 0 first. -/
def wordBytes (ws : List W64) : List Byte := ws.flatMap fun w => leBytes 8 w.toNat

/-- Key of the frames from one SRC to an ADDR and UNIT. -/
def frameKey (own addr unit : Nat) : Nat := 2 ^ 24 + own * 2 ^ 16 + addr * 256 + unit

/-- A Ruori frame from SRC `own` to ADDR and UNIT, launched at an instant in ns, with payload words: the next of its stream (R32). -/
def Dev.ruoriFrame (d : Dev) (own addr unit launch : Nat) (pay : List W64) : EthFrame × Dev :=
  let key := frameKey own addr unit
  let seq := d.chain.seqs.get (fun _ => 0) key
  let nw := pay.length + 6
  let hdr := [mkBrand addr unit 0xE8 0 seq 0, BitVec.ofNat 64 launch, 0,
    BitVec.ofNat 64 (own + nw * 2 ^ 16 + 2 ^ 24 + launch / d.cycNs % 2 ^ 32 * 2 ^ 32)]
  let ws := hdr ++ pay ++ [mkBrand addr 0xFE 0x6E 0 seq 0]
  let f := padFrame (d.rmac ++ d.smac ++ beBytes 2 (d.get CHAIN_CFG_ACT_ETYPE) ++ wordBytes (ws ++ [BitVec.ofNat 64 (crcWords ws)]))
  (f, { d with chain := { d.chain with seqs := d.chain.seqs.set (fun _ => 0) key ((seq + 1) % 65536) } })

def Packet_words (p : Packet) : List W64 := p.brand :: p.words

/-- Payload words a frame can hold (R398). -/
def framePay : Nat := 181

/-- The entries that fit, in order, and those that wait. -/
def fitBlocks : Nat → List (Nat × Packet) → List (Nat × Packet) × List (Nat × Packet)
  | _, [] => ([], [])
  | room, e :: r =>
    let n := (Packet_words e.2).length
    if room < n then ([], e :: r) else (let (a, b) := fitBlocks (room - n) r; (e :: a, b))

/-- The stream of a packet: UNIT, then ADDR and type (R32). -/
def streamKey (p : Packet) : Nat := (brandUnit p.brand * 2 ^ 15 + brandAddr p.brand * 128 + brandType p.brand) * 512 + producerOf (brandType p.brand) p.payload

/-- Keep the latest entry of each stream, in ascending unit order. -/
def putStream (e : Nat × Packet) : List (Nat × Packet) → List (Nat × Packet)
  | [] => [e]
  | x :: r =>
    if streamKey e.2 < streamKey x.2 then e :: x :: r else if streamKey e.2 = streamKey x.2 then e :: r else x :: putStream e r

/-- The blocks of descriptor i for a launch whose build deadline is `dl`, what waits on, and whether streams had to wait (R404). -/
def Dev.descBlocks (d : Dev) (i dl : Nat) : List Packet × Dev × Bool :=
  let mine (e : Nat × Packet) : Bool := d.matchDesc (brandAddr e.2.brand) (brandType e.2.brand) = some i && decide (e.1 ≤ dl)
  let (now, rest) := fitBlocks framePay ((d.chain.streams.filter mine).foldl (fun l e => putStream e l) [])
  (now.map (·.2), { d with chain := { d.chain with streams := rest ++ d.chain.streams.filter fun e => !mine e } }, !rest.isEmpty)

/-! Launching (R405 to R407, R417). -/

/-- Is the frame that the job of gate `own` builds ready by the setup margin of a firing of gate g; otherwise LATE and FL010 against unit
0xFE (R70, R405). -/
def Dev.frameBuilt (d : Dev) (c : Clock) (g own cmp : Nat) : Bool × Dev :=
  match (d.gateX own).dataAt with
  | some _ => d.gateData c g own cmp
  | none => (false, ((d.setf (GATE_GTnnn_CTL_LATE g)).bump GATE_LATE_CNT_CNT).record c 10 0xFE g)

/-- Arm transmit job j for the launch at `next` (R409). -/
def Dev.armTransmit (d : Dev) (c : Clock) (j next : Nat) : Dev :=
  d.jobArm c j next (next - d.cycNs) (d.cycNs - d.margin)

/-- Arm transmit job j for the next firing of its gate, where one is armed (R405, R409). -/
def Dev.armNext (d : Dev) (c : Clock) (g j : Nat) : Dev :=
  if d.flag (GATE_GTnnn_CTL_ARMED g) then d.armTransmit c j (d.gateNext g) else d

/-- The same after a firing of gate g; a launch through another gate than the job's own arms nothing. -/
def Dev.armAfter (d : Dev) (c : Clock) (g own j : Nat) : Dev := if g = own then d.armNext c g j else d

/-- Launch a frame on the ports of a mask; whether any launch was late. -/
def Dev.launchOn (d : Dev) (c : Clock) (ports : Nat) (f : EthFrame) : Bool × Dev :=
  [0, 1].foldl (fun (acc : Bool × Dev) p =>
    if ports.testBit p then (let (l, d1) := acc.2.chLaunch c p f; (acc.1 || l, d1)) else acc) (false, d)

/-- The previous frame of a descriptor, 16 for the service frame (R405). -/
def Dev.chPrev (d : Dev) (i : Nat) : Option EthFrame := d.chain.prev.get (fun _ => none) i
def Dev.setChPrev (d : Dev) (i : Nat) (f : EthFrame) : Dev :=
  { d with chain := { d.chain with prev := d.chain.prev.set (fun _ => none) i (some f) } }

/-- Cycle frame of descriptor i, launched by gate g at `cmp`. -/
def Dev.launchDesc (d : Dev) (c : Clock) (g i cmp : Nat) : Dev :=
  if !d.flag (CHAIN_Dd_CFG_ACT_EN i) then d else
  let (built, d1) := d.frameBuilt c g (200 + i) cmp
  let ports := d.get (CHAIN_Dd_CFG_ACT_PORTS i)
  let send (d : Dev) (f : EthFrame) : Dev :=
    let (late, d1) := d.launchOn c ports f
    if late then d1.setf (CHAIN_Dd_STAT_LATE i) else d1
  let d2 := if built then
      let (ps, da, full) := d1.descBlocks i (cmp - d.margin)
      let (f, db) := da.ruoriFrame d.streamAddr (d.get (CHAIN_Dd_CFG_ACT_DADDR i)) 0xFE cmp (ps.flatMap Packet_words)
      let dc := (db.setChPrev i f).put (CHAIN_Dd_STAT_NBLK i) ps.length
      send (if full then dc.setf (CHAIN_Dd_STAT_FULL i) else dc) f
    else match d1.chPrev i with
      | some f => send (d1.setf (CHAIN_Dd_STAT_REPEAT i)) f
      | none => d1
  d2.armAfter c g (200 + i) (176 + i)

/-- SRC of the frame that carries a queued block: a survivor sends its partner's streams and the responses of mailboxes from the partner's
address, and answers to its own requests from its own (R401, R466, R470). -/
def Dev.blockSrc (d : Dev) (p : Packet) : Nat :=
  if brandType p.brand = 0x6B ∨ brandType p.brand = 0x6D then d.get CHAIN_STAT_ADDR else d.streamAddr

/-- The service frame, launched by gate g at `cmp`: sent only with a block queued before its build deadline. It carries the blocks of one SRC,
that of the first; the others wait for the next cycle. -/
def Dev.launchService (d : Dev) (c : Clock) (g cmp : Nat) : Dev :=
  let (due, later) := (d.chain.svc.filter (fun e => decide (e.1 ≤ cmp - d.margin)), d.chain.svc.filter fun e => decide (cmp - d.margin < e.1))
  let ports := d.get CHAIN_SVC_ACT_PORTS
  let d2 := if due.isEmpty then d.setGateX 216 { d.gateX 216 with dataAt := none }
    else
      let (built, d1) := d.frameBuilt c g 216 cmp
      if built then
        let src := due.head?.elim 0 fun e => d.blockSrc e.2
        let (now, rest) := fitBlocks framePay (due.filter fun e => d.blockSrc e.2 = src)
        let (f, db) := ({ d1 with chain := { d1.chain with svc := (due.filter fun (e : Nat × Packet) => d.blockSrc e.2 ≠ src || rest.contains e) ++ later }
          }).ruoriFrame src 0xFF 0xFE cmp (now.flatMap fun (e : Nat × Packet) => Packet_words e.2)
        ((db.setChPrev 16 f).launchOn c ports f).2
      else match d1.chPrev 16 with
        | some f => (d1.launchOn c ports f).2
        | none => d1
  d2.armAfter c g 216 192

/-- The Sync of port p in MASTER mode (R417, R418). -/
def Dev.launchSync (d : Dev) (c : Clock) (p cmp : Nat) : Dev :=
  if d.get TIME_CTRL_MODE ≠ 2 ∨ !d.flag (chCap p) then d else
  let two := d.flag CHAIN_CFG_ACT_ASMODE
  let key := 2 ^ 16 + p
  let seq := d.chain.seqs.get (fun _ => 0) key
  let t := d.egress p (cmp * 65536)
  let f := d.ptpFrame p 0 seq (if two then 0 else t % 65536) two (uInt 8 (d.getI CHAIN_PTP_ACT_LSYNC)) (ptpStamp (t / 65536))
  (({ d with chain := { d.chain with seqs := d.chain.seqs.set (fun _ => 0) key ((seq + 1) % 65536) } }).chLaunch c p f).2.pktArm c (195 + p)

/-- A FRAME gate fires: its SUB selects the frame (R66, R405). -/
def Dev.frameGate (d : Dev) (c : Clock) (g : Nat) : Dev :=
  if !d.gateDue c g 5 then d else
  let cmp := d.gateNext g
  let sub := d.get (GATE_GTnnn_CFG_ACT_SUB g)
  let own := d.get (GATE_GTnnn_CFG_ACT_TARGET g) = 0xFE
  let d1 := d.gateFire c g
  if own && decide (sub < 16) then d1.launchDesc c g sub cmp
  else if own && decide (sub = 0x10) then d1.launchService c g cmp
  else if own && (sub = 0x20 || sub = 0x21) then d1.launchSync c (sub - 0x20) cmp
  else d1

def execGateFrame (g : Fin 256) (s : State) : Host.Outcome State Fault Refusal := .next (s.onServing fun c d => d.frameGate c g)

/-! Receiving (R400 to R402, R410). -/

/-- Words of the payload block that begins with these words; none for a type outside R400. -/
def blockLen (ws : List W64) : Option Nat :=
  match brandKind (ws.headD 0) with
  | 0xC1 => some 7
  | 0xC2 => some 8
  | 0xD0 => some 4
  | 0xD1 => some 7
  | 0xE0 => some (5 + bits64 (ws.getD 3 0) 16 6)
  | 0xE1 => some 8
  | 0x69 => some 2
  | 0x6A => some 2
  | 0x6B => some (2 + (bits64 (ws.getD 1 0) 32 6 + 1) / 2)
  | 0x6D => some 9
  | _ => none

/-- Payload words as blocks; none where a type is unknown or the lengths do not sum up. -/
def splitBlocks : Nat → List W64 → Option (List Packet)
  | _, [] => some []
  | 0, _ => none
  | fuel + 1, ws =>
    match blockLen ws with
    | none => none
    | some n =>
      if ws.length < n then none
      else match splitBlocks fuel (ws.drop n) with
        | some r => some ({ brand := ws.headD 0, words := (ws.take n).drop 1 } :: r)
        | none => none

/-- The checks of R402 on a frame with header UNIT `unit`: its blocks. -/
def ruoriBlocks (f : EthFrame) (unit : Nat) : Option (List Packet) :=
  let h := fword f 0
  let hw := fword f 3
  let nw := bits64 hw 16 8
  let ws := (List.range nw).map (fword f)
  let tb := ws.getD (nw - 2) 0
  let ok := 6 ≤ nw && nw ≤ 187 && f.bytes.length = 14 + 8 * nw && bits64 hw 24 8 = 1 && bits64 hw 8 8 = 0 &&
    brandUnit h = unit && brandKind h = 0xE8 && brandEpoch h = 0 && brandOffs h = 0 &&
    tb = mkBrand (brandAddr h) 0xFE 0x6E 0 (brandSeq h) 0 && ws.getD (nw - 1) 0 = BitVec.ofNat 64 (crcWords (ws.take (nw - 1)))
  if ok then splitBlocks 187 ((ws.take (nw - 2)).drop 4) else none

/-- Sequence check of a Ruori header, per sender, ADDR and UNIT (R32, R398, R402). -/
def Dev.headerSeq (d : Dev) (f : EthFrame) : Bool × Dev :=
  let b := fword f 0
  let key := 2 ^ 48 + bits64 (fword f 3) 0 8 * 2 ^ 16 + brandAddr b * 2 ^ 8 + brandUnit b
  let last := d.fab.lastSeq.get (fun _ => 0) key
  let ahead := (brandSeq b + 65536 - (last - 1)) % 65536
  if last ≠ 0 ∧ (ahead = 0 ∨ 32768 ≤ ahead) then (false, d.countStale)
  else (true, { d with fab := { d.fab with
    lastSeq := d.fab.lastSeq.set (fun _ => 0) key (brandSeq b + 1)
    gap := if last ≠ 0 ∧ 1 < ahead then d.fab.gap + 1 else d.fab.gap } })

/-- A frame discarded whole under R402. -/
def Dev.frameError (d : Dev) (c : Clock) (p : Nat) (bad : Bool) (counted : Bool) : Dev :=
  (if bad then (if counted then d else d.bump (CHAIN_CHp_RXERR_V p)) else d.bump (CHAIN_CHp_MALF_V p)).reportLim c 141 0xFE p p

/-- A mailbox request over the chain (R410). -/
def Dev.requestBlock (d : Dev) (c : Clock) (p src : Nat) (b : Packet) : Dev :=
  let m := brandUnit b.brand - 0x70
  if brandAddr b.brand = 0xFF ∨ brandUnit b.brand < 0x70 ∨ 0x80 ≤ brandUnit b.brand ∨ !(d.get MBX_ROUTE_ROUTE).testBit m then
    d.bump (CHAIN_CHp_MALF_V p)
  else (d.pktOneShot c).mboxArrive c m (BitVec.ofNat 8 src) (Packet_words b)

/-- A delivered payload block (R401): requests into mailboxes, streams to their consumers. Register reads, enumeration and identity blocks
are rows of their own; an answer has no consumer in the device. -/
def Dev.block (d : Dev) (c : Clock) (p src : Nat) (b : Packet) : Dev :=
  let a := brandAddr b.brand
  if 0x41 ≤ a ∧ a < 0xFF ∨ d.blockMine a ∧ !unitValid (brandUnit b.brand) then
    { d with fab := { d.fab with malformed := d.fab.malformed + 1 } }
  else if !d.blockMine a then d
  else match brandType b.brand with
    | 0x60 => d.requestBlock c p src b
    | 0x41 | 0x42 | 0x50 | 0x51 => d.accept c b (src + 1)
    | _ => d

/-- Ascending mailbox number among the requests of a frame, block order within one (R410). -/
def orderBlocks (bs : List Packet) : List Packet :=
  let req (b : Packet) : Bool := brandType b.brand = 0x60
  bs.filter (fun b => !req b) ++ (List.range 256).flatMap fun u => bs.filter fun b => req b && brandUnit b.brand = u


/-- A Ruori frame for the device has ended: checks, then its blocks in order; the receive job is armed (R402, R409). -/
def Dev.ruoriReceived (d : Dev) (c : Clock) (p : Nat) (f : EthFrame) : Dev :=
  let h := fword f 0
  let a := brandAddr h
  let wide := a = 0xFF && brandUnit h = 0xFE
  if !d.flag (chLink p) ∨ !d.isRuori f ∨ brandUnit h = 0xF0 ∨ !(d.chainMine a || wide) then d
  else if f.bad ∨ !lengthOk f then d.frameError c p true wide
  else match ruoriBlocks f 0xFE with
    | none => d.frameError c p false false
    | some bs =>
      let d0 := d.bump (CHAIN_CHp_RXOK_V p)
      let (ok, d1) := d0.headerSeq f
      if !ok then d1
      else
        let src := bits64 (fword f 3) 0 8
        ((orderBlocks bs).foldl (fun d b => d.block c p src b) d1).pktArm c (193 + p)

def execRuoriFrameReceived (p : Fin 2) (f : EthFrame) (s : State) : Host.Outcome State Fault Refusal :=
  .next (s.onServing fun c d => d.ruoriReceived c p f)

/-! Configuration (R408, R409, R423, R426). -/

/-- Staged registers of the CHAIN group and their in-force views. -/
def chainGroup : List (Nat × Nat) :=
  ((List.range 10).map fun i => (chainBase + 4 * i, chainBase + 0x80 + 4 * i)) ++
    ((List.range 2).flatMap fun p => (List.range 3).map fun i =>
      (chainBase + 0x400 + 0x100 * p + 4 * i, chainBase + 0x480 + 0x100 * p + 4 * i)) ++
    ((List.range 16).flatMap fun i => (List.range 2).map fun k =>
      (chainBase + 0x800 + 0x20 * i + 4 * k, chainBase + 0x810 + 0x20 * i + 4 * k))

def Dev.chainZero (d : Dev) : Bool := d.get CHAIN_LOAD_W = 0 || d.get CHAIN_LOAD_NF = 0 || d.get CHAIN_PTP_PDLIM = 0

/-- CFG_CONFLICT on the staged values; `run`: a lane is ENABLED or STOPPING. -/
def Dev.chainConflict (d : Dev) (run : Bool) : Bool :=
  let t := 31250 * 2 ^ d.get CHAIN_CYC_CYCLOG
  let ety := d.get CHAIN_CFG_ETYPE
  let out (f : Field) (lo hi : Int) : Bool := decide (d.getI f < lo) || decide (hi < d.getI f)
  decide (t < 8 * d.get CHAIN_LOAD_W + d.get CHAIN_HOPS_H * (400 + d.get CHAIN_HOPS_TLINK) + 2000) ||
    ety < 0x600 || ety = 0x8100 || ety = 0x8808 || ety = 0x88F7 || d.get CHAIN_RMAC_LO_MAC % 2 = 0 ||
    out CHAIN_PTP_LSYNC (-7) 0 || out CHAIN_PTP_LPDLY (-3) 3 || out CHAIN_PTP_LANN (-3) 3 ||
    (List.range 16).any (fun i => d.flag (CHAIN_Dd_CFG_EN i) && decide (t ≤ d.get (CHAIN_Dd_LOFF_LOFF i))) || t ≤ d.get CHAIN_SVC_SVCOFF ||
    (run && (d.get CHAIN_CFG_ETYPE ≠ d.get CHAIN_CFG_ACT_ETYPE || d.get CHAIN_RMAC_LO_MAC ≠ d.get CHAIN_RMAC_LO_ACT_MAC ||
      d.get CHAIN_RMAC_HI_MAC ≠ d.get CHAIN_RMAC_HI_ACT_MAC || d.get CHAIN_CYC_CYCLOG ≠ d.get CHAIN_CYC_ACT_CYCLOG ||
      d.get CHAIN_CFG_ASMODE ≠ d.get CHAIN_CFG_ACT_ASMODE || d.get CHAIN_PTP_DOM ≠ d.get CHAIN_PTP_ACT_DOM))

/-- Slots of the packet engines' jobs (R409). -/
def Dev.chainJobs (d : Dev) : Dev :=
  let d1 := (List.range 16).foldl (fun d i => d.jobSetup (176 + i) 4 28 0x30 2 0 0 []) d
  let d2 := d1.jobSetup 192 4 28 0x31 2 0 0 []
  let d3 := [193, 194].foldl (fun d j => d.jobSetup j 4 29 0x32 0 0 0 []) d2
  let d4 := [195, 196, 197, 198].foldl (fun d j => d.jobSetup j 4 29 0x33 0 0 0 []) d3
  (List.range 56).foldl (fun d i => d.jobSetup (200 + i) 4 29 0x35 0 0 0 []) (d4.jobSetup 199 4 28 0x34 0 0 0 [])

/-- The class of the first job of a packet engine that exceeds the cap with the values in force, with its engine (R312, R320, R409). -/
def Dev.chainMisfit (d : Dev) : Option (Nat × Nat) :=
  let tick := d.get HERDER_CTRL_TICK
  [28, 29].findSome? fun e => (d.failClass tick e (d.capOf e)).map fun cls => (e, cls)

/-- A FRAME gate on the grid phase + k × T, from its first instant at least `lead` after now, or EN = 0: committed under R69 and R73, so
a firing within the margin still happens (R405). -/
def Dev.chainGate (d : Dev) (c : Clock) (g sub t phase lead : Nat) (en : Bool) : Dev :=
  if !en then (d.setReg (GATE_GTnnn_CFG_EN g).addr 0).gateCommit c g
  else (d.gateStage g 5 0xFE sub (t / 2) (gridFrom (phase % t) (t / 2) (c.ns + lead)).1).gateCommit c g

/-- Period of Sync in ns (R417). -/
def Dev.syncPeriod (d : Dev) : Nat := 1000000000 / 2 ^ (0 - d.getI CHAIN_PTP_ACT_LSYNC).toNat

/-- The gates of the chain on the values in force: the first cycle frames leave a cycle later, after their jobs (R405, R409). -/
def Dev.chainGates (d : Dev) (c : Clock) : Dev :=
  let t := d.cycNs
  let arm (d : Dev) (g j : Nat) : Dev := if (d.gateX g).after.isSome then d else d.armNext c g j
  let d1 := (List.range 16).foldl (fun d i =>
    arm (d.chainGate c (200 + i) i t (d.get (CHAIN_Dd_LOFF_ACT_LOFF i)) t (d.flag (CHAIN_Dd_CFG_ACT_EN i))) (200 + i) (176 + i)) d
  let d2 := arm (d1.chainGate c 216 0x10 t (d1.get CHAIN_SVC_ACT_SVCOFF) t true) 216 192
  let d3 := [0, 1].foldl (fun d p => d.chainGate c (217 + p) (0x20 + p) d.syncPeriod 0 0 true) d2
  { d3 with servo := { d3.servo with syncNs := d3.syncPeriod } }

/-- Staged values to in force. -/
def Dev.chainInForce (d : Dev) : Dev := (d.copyRegs chainGroup).chainJobs

/-- The staged group takes effect, or is rejected whole (R426). -/
def Dev.chainApply (d : Dev) (c : Clock) : Dev :=
  let d0 := d.setf CHAIN_CTL_CMT false
  if d.chainZero then d0.setf CHAIN_CTL_ZERO
  else if d.chainConflict (!d.noLaneRunning) then d0.setf CHAIN_CTL_CONFLICT
  else d0.chainInForce.chainGates c

/-- CHAIN_CTL.CMT: at the first cycle instant after the write. -/
def Dev.chainCommit (d : Dev) (c : Clock) : Dev :=
  let d1 := d.setf CHAIN_CTL_CMT
  { d1 with chain := { d1.chain with cmtAt := some (d.cycleAt (c.ns + 1)) } }

def execChainCommit (s : State) : Host.Outcome State Fault Refusal := .next (s.onServing fun c d => d.chainCommit c)

/-- Commits and images whose cycle instant has come (R423, R426). -/
def Dev.chainDue (d : Dev) (c : Clock) : Dev :=
  let d1 := match d.chain.cmtAt with
    | some t => if t ≤ c.ns then ({ d with chain := { d.chain with cmtAt := none } }).chainApply c else d
    | none => d
  let due := d1.dueImages chainBase c.ns
  if due.isEmpty then d1
  else
    let (imgs, d2) := d1.takeImages chainBase c.ns
    imgs.foldl (fun d p => d.doneImages [p] p.from_) (d2.chainApply c)

/-- chain.cfg. -/
def cmdChainCfg : CmdFn := fun _ tref q d =>
  let ok := imageOk (fun a => chainBase ≤ a && a < chainBase + 0x1000) q.image
  let t := d.cycleAt (imageLead q tref)
  let d1 := d.atCommit t q.image
  let run := (List.range 32).any fun u => (d.stateAt u t).running
  refuseIf [(decide (q.target ≠ 0xFE) || q.noImage, rcBadFormat), (d.anyReleased 0x0C, rcRegOwned), (ok && d1.chainZero, rcCfgZero),
      (!ok || d1.chainConflict run, rcCfgConflict)] fun _ =>
    if tooLate q tref t then .refuse rcTooLate 31 0
    else match { d1.chainInForce with imgs := [] }.chainMisfit with
      | some (e, cls) => .refuse rcOverload e cls
      | none => .accept t { d with imgs := d.imgs ++ [{ group := chainBase, from_ := t, due := t, pairs := q.image, work := some q.id }] }

def execChainCfg (q : Request) (s : State) : Host.Outcome State Fault Refusal := .next (s.command 0x0800 cmdChainCfg q)

/-! Enumeration (R419 to R423). -/

/-- A frame of one block on port p: header ADDR 0xFF and UNIT `unit`; the block's ADDR, type and words, and the next SEQ of its stream
(R32). -/
def Dev.launchBlock (d : Dev) (c : Clock) (p unit addr type : Nat) (ws : List W64) : Dev :=
  let (seq, d1) := d.takeSeq addr 0xFE type
  let (f, d2) := d1.ruoriFrame (d.get CHAIN_STAT_ADDR) 0xFF unit c.ns (mkBrand addr 0xFE type 0 seq 0 :: ws)
  (d2.chLaunch c p f).2

/-- chain.enum: the identifier is a free value. -/
def cmdChainEnum : CmdFn := fun c tref q d =>
  refuseIf [(decide (q.target ≠ 0xFE) || decide (q.payload.length ≠ 0), rcBadFormat), (d.anyReleased 0x0C, rcRegOwned),
      (!d.noLaneRunning || d.chain.enum.isSome, rcBadState)] fun _ =>
    let (v, d1) := d.takeFree
    let id := uInt 16 v
    let d2 := ((d1.put CHAIN_STAT_ADDR 1).setf CHAIN_STAT_CTRL).put CHAIN_STAT_ENUMID id
    let d3 := { d2 with chain := { d2.chain with enum := some (q.id, tref + 10000000), idents := [] } }
    .accept (tref + 10000000)
      ((d3.launchBlock c 1 0xF0 0xFF 0x69 [BitVec.ofNat 64 (2 + id * 2 ^ 16)]).pktArm c 199)

def execChainEnum (q : Request) (s : State) : Host.Outcome State Fault Refusal := .next (s.command 0x0801 cmdChainEnum q)

/-- Words of a die's identity (R422). -/
def Dev.dieWords (d : Dev) : List W64 :=
  (List.range 3).flatMap fun i =>
    [BitVec.ofNat 64 (d.get (SYS_Dd_LOT_LO_LOT i) + d.get (SYS_Dd_LOT_HI_LOT i) * 2 ^ 32 + d.get (SYS_Dd_LOT_HI_WAFER i) * 2 ^ 48 +
        d.get (SYS_Dd_LOT_HI_REV i) * 2 ^ 56),
     BitVec.ofNat 64 (d.get (SYS_Dd_XY_X i) + d.get (SYS_Dd_XY_Y i) * 256)]

/-- Words 1 to 8 of the identity block (R422). -/
def Dev.identBlock (d : Dev) (p hop id : Nat) (keep : Bool) : List W64 :=
  let last := !d.flag (chLink (1 - p))
  [BitVec.ofNat 64 (d.get64 SYS_SERIAL_LO_SERIAL SYS_SERIAL_HI_SERIAL),
   BitVec.ofNat 64 (hop + p * 2 ^ 8 + (if last then 2 ^ 9 else 0) + (if (hop = 0 ∨ 64 < hop) ∧ !keep then 2 ^ 10 else 0) +
     (if keep then 2 ^ 11 else 0) +
     d.get SYS_MEMBER_MEMBER * 2 ^ 16 + id * 2 ^ 32)] ++ d.dieWords

/-- The copy of an enumeration frame with another HOP and its trailer CRC (R420). -/
def enumCopy (f : EthFrame) (hop : Nat) : EthFrame :=
  let nw := bits64 (fword f 3) 16 8
  let f1 := fput f (14 + 8 * 5) (leBytes 1 hop)
  let ws := (List.range (nw - 1)).map (fword f1)
  fput f1 (14 + 8 * (nw - 1)) (leBytes 8 (crcWords ws))

/-- A checked enumeration frame on port p with its HOP and identifier (R420, R421). -/
def Dev.enumerate (d : Dev) (c : Clock) (p : Nat) (f : EthFrame) (hop id : Nat) : Dev :=
  let own := d.get CHAIN_STAT_ADDR
  let keep := !d.noLaneRunning && decide (hop ≠ own)
  let bad := hop = 0 || 64 < hop
  let d0 := d.put CHAIN_STAT_ENUMID id
  let d1 := if keep then d0 else if bad then d0.put CHAIN_STAT_ADDR 0
    else ((d0.put CHAIN_STAT_ADDR hop).put CHAIN_STAT_UP p).setf CHAIN_STAT_UPV
  let d2 := if keep || bad then (d1.setf CHAIN_STAT_ENUMERR).reportLim c 144 0xFE p p else d1
  let d3 := if keep then d2.chForward c (1 - p) (enumCopy f (own + 1)) else if bad then d2 else d2.chForward c (1 - p) (enumCopy f (hop + 1))
  (d3.launchBlock c p 0xFE (d3.get CHAIN_STAT_ADDR) 0x6D (d3.identBlock p hop id keep)).pktArm c 199

def Dev.enumFrame (d : Dev) (c : Clock) (p : Nat) (f : EthFrame) : Dev :=
  if !d.flag (chLink p) ∨ !d.isRuori f ∨ brandUnit (fword f 0) ≠ 0xF0 then d
  else if f.bad ∨ !lengthOk f then d.frameError c p true false
  else match ruoriBlocks f 0xF0 with
    | some (b :: _) =>
      if brandType b.brand ≠ 0x69 then d.frameError c p false false
      else
        let (ok, d1) := (d.bump (CHAIN_CHp_RXOK_V p)).headerSeq f
        if ok then d1.enumerate c p f (bits64 (b.words.headD 0) 0 8) (bits64 (b.words.headD 0) 16 16) else d1
    | _ => d.frameError c p false false

def execEnumerationFrame (p : Fin 2) (f : EthFrame) (s : State) : Host.Outcome State Fault Refusal :=
  .next (s.onServing fun c d => d.enumFrame c p f)

/-- Identity blocks in ascending address, one of a new address among the others. -/
def insIdent (b : Packet) : List Packet → List Packet
  | [] => [b]
  | x :: r => if brandAddr b.brand < brandAddr x.brand then b :: x :: r else x :: insIdent b r

/-- chain.enum completes now (R423): the result area takes as many blocks as fit. -/
def Dev.enumDone (d : Dev) (c : Clock) : Dev :=
  match d.chain.enum with
  | none => d
  | some (w, _) =>
    let bs := d.chain.idents
    let d1 := ({ d with chain := { d.chain with enum := none } }).putResult (w / 65536) ((bs.take 7).flatMap Packet_words)
    d1.finishDone (some w) c.ns { frac := c.frac, long := true, p0 := bs.length }

/-- An identity block reaches the device: past the sequence check of its sender's stream (R32, R402) it is kept by the chain controller
while chain.enum is in progress (R401, R423). -/
def Dev.identity (d : Dev) (c : Clock) (b : Packet) : Dev :=
  if !d.flag CHAIN_STAT_CTRL ∨ brandKind b.brand ≠ 0x6D ∨ b.words.length ≠ 8 then d
  else
    let (ok, d0) := d.seqCheck (brandAddr b.brand + 1) b
    if !ok ∨ d0.chain.enum.isNone then d0
    else
      let d1 := { d0 with chain := { d0.chain with idents := insIdent b d0.chain.idents } }
      if bits64 (b.words.getD 1 0) 9 1 = 1 then d1.enumDone c else d1

def execIdentity (b : RuoriBlock) (s : State) : Host.Outcome State Fault Refusal := .next (s.onServing fun c d => d.identity c b)

def execEnumTimeout (s : State) : Host.Outcome State Fault Refusal :=
  .next (s.onServing fun c d => match d.chain.enum with
    | some (_, t) => if t ≤ c.ns then d.enumDone { c with tor := t * 2 ^ 48 } else d
    | none => d)

end Sys2Proof.Machine
end

