-- ==== Sys2Proof/Machine/Ptp.lean ====
section
/-! DEFINITION. PTP on the chain (R412 to R418): peer delay, Sync with its Follow_Up, Announce. Instants are in 2^-16 ns. -/

namespace Sys2Proof.Machine

/-! Peer delay (R414). -/

/-- Judge a port's capability: CAPp, and FC145 when it is lost. -/
def Dev.chJudge (d : Dev) (c : Clock) (p : Nat) : Dev :=
  let x := d.chPort p
  let able := 3 ≤ x.good && decide (d.get (CHAIN_CHp_PDELAY_V p) ≤ d.get CHAIN_PTP_ACT_PDLIM * 65536) &&
    (!d.flag CHAIN_CFG_ACT_ASMODE || x.rated)
  let d1 := d.setf (chCap p) able
  if d.flag (chCap p) && !able then d1.reportLim c 145 0xFE p p else d1

/-- 2^n s in ns, for n from −7 to 3 (R414, R417). -/
def logSecs (n : Int) : Nat := if n < 0 then 1000000000 / 2 ^ (-n).toNat else 1000000000 * 2 ^ n.toNat

/-- An interval has run since the latest message, or the time of record lies before it. -/
def intervalOver (last : Option Nat) (now ns : Nat) : Bool :=
  match last with
  | some t => decide (t + ns ≤ now) || decide (now < t)
  | none => true

/-- Every 2^LPDLY s: an exchange that did not complete breaks the row of three, and the next begins. -/
def Dev.pdelayReq (d : Dev) (c : Clock) (p : Nat) : Dev :=
  if !d.flag (chLink p) || !intervalOver (d.chPort p).reqAt c.ns (logSecs (d.getI CHAIN_PTP_ACT_LPDLY)) then d
  else
    let x := d.chPort p
    let d1 := ((d.pktArm c (197 + p)).setChPort p { x with
      reqAt := some c.ns
      good := if x.open_ then 0 else x.good, seq := (x.seq + 1) % 65536, open_ := true, t1 := none, resp := none }).chJudge c p
    (d1.chLaunch c p (d1.ptpFrame p 2 ((x.seq + 1) % 65536) 0 false 0x7F (beBytes 20 0))).2

def execPdelayReq (p : Fin 2) (s : State) : Host.Outcome State Fault Refusal := .next (s.onServing fun c d => d.pdelayReq c p)

/-- Is the message of this device's domain and SDO (R412, R418)? -/
def Dev.ptpMine (d : Dev) (f : EthFrame) : Bool :=
  if d.flag CHAIN_CFG_ACT_ASMODE then fbyte f 14 / 16 = 1 && fbyte f 18 = 0
  else fbyte f 14 / 16 = 0 && fbyte f 18 = d.get CHAIN_PTP_ACT_DOM

/-- requestingPortIdentity of a response names this port. -/
def Dev.ptpToMe (d : Dev) (p : Nat) (f : EthFrame) : Bool :=
  fbe f 58 8 = d.get64 SYS_SERIAL_LO_SERIAL SYS_SERIAL_HI_SERIAL && fbe f 66 2 = p + 1

/-- An exchange completes with t3: the rate ratio from successive exchanges, the mean link delay, and the capability. -/
def Dev.pdelayDone (d : Dev) (c : Clock) (p : Nat) (t1 t2 t3 t4 : Int) : Dev :=
  let x := d.chPort p
  let r : Rat := match x.prev with
    | some (p3, p4) => if t4 = p4 then 1 else mkRat (t3 - p3) (t4 - p4).toNat
    | none => 1
  let mean : Rat := ((t4 - t1 : Int) * r - (t3 - t2 : Int)) / 2
  let d1 := (d.put (CHAIN_CHp_PDELAY_V p) (clampI 0 (2 ^ 32 - 1) (roundQ mean)).toNat).putI (CHAIN_CHp_NRR_V p)
    (satS 32 (roundQ ((r - 1) * 2 ^ 40)))
  (d1.setChPort p { x with
    open_ := false, t1 := none, resp := none, prev := some (t3.toNat, t4.toNat), good := min 3 (x.good + 1)
    rated := x.prev.isSome }).chJudge c p

/-- A peer-delay message on port p: a request is answered in two steps, the answers to this port's request give the delay. -/
def Dev.pdelayMessage (d : Dev) (c : Clock) (p : Nat) (m : PdelayMsg) : Dev :=
  let f := m.frame
  if !d.flag (chLink p) ∨ !isPtp f then d
  else if f.bad ∨ !lengthOk f then d.bump (CHAIN_CHp_RXERR_V p)
  else
    let d0 := (d.bump (CHAIN_CHp_RXOK_V p)).pktArm c (197 + p)
    let t := d.ingress p m.ingress
    let x := d.chPort p
    match ptpType f with
    | 2 =>
      let corr := uInt 64 (-((t % 65536 : Nat) : Int))
      let f1 := d0.ptpFrame p 3 (ptpSeq f) corr true 0x7F (ptpStamp (t / 65536) ++ (f.bytes.drop 34).take 10)
      (d0.chLaunch c p f1).2
    | 3 =>
      if x.open_ ∧ ptpSeq f = x.seq ∧ d.ptpToMe p f then
        d0.setChPort p { x with resp := some (((ptpNs f : Int) * 65536 - ptpCorr f).toNat, t) }
      else d0
    | 10 =>
      match x.t1, x.resp with
      | some t1, some (t2, t4) =>
        if x.open_ ∧ ptpSeq f = x.seq ∧ d.ptpToMe p f then d0.pdelayDone c p t1 t2 ((ptpNs f : Int) * 65536 + ptpCorr f) t4 else d0
      | _, _ => d0
    | _ => d0

def execPdelayMessage (p : Fin 2) (m : PdelayMsg) (s : State) : Host.Outcome State Fault Refusal :=
  .next (s.onServing fun c d => d.pdelayMessage c p m)

/-! Sync (R415, R416, R418). -/

/-- Ingress link delay of port p: mean plus ASYM. -/
def Dev.linkDelay (d : Dev) (p : Nat) : Int := d.get (CHAIN_CHp_PDELAY_V p) + d.getI (CHAIN_CHp_ASYM_ACT_D p)

/-- Scale the rateRatio of the follow-up information TLV by r: cumulativeScaledRateOffset in 2^-41 (R418). -/
def Dev.scaleRate (d : Dev) (p : Nat) (f : EthFrame) : EthFrame :=
  if d.flag CHAIN_CFG_ACT_ASMODE && fbe f 58 2 = 3 && fbe f 62 3 = 0x0080C2 then
    let s := sInt 32 (fbe f 68 4)
    let r : Int := d.getI (CHAIN_CHp_NRR_V p)
    let v := roundDiv ((2 ^ 41 + s) * (2 ^ 40 + r) - 2 ^ 81) (2 ^ 40)
    fput f 68 (beBytes 4 (uInt 32 (satS 32 v)))
  else f

/-- Add to correctionField. -/
def addCorr (f : EthFrame) (v : Int) : EthFrame := fput f 22 (beBytes 8 (uInt 64 (ptpCorr f + v)))

/-- The offset a Sync gives the servo, in ns, rounded convergently (R416; log entry 29). -/
def Dev.syncOffset (d : Dev) (p : Nat) (m : PtpSync) : Int :=
  let two := ptpTwoStep m.sync
  let origin := ptpNs (if two then m.follow else m.sync)
  let corr := ptpCorr m.sync + (if two then ptpCorr m.follow else 0)
  roundDiv ((origin : Int) * 65536 + corr + d.linkDelay p - (d.ingress p m.ingress : Nat)) 65536

/-- A PTP frame that arrived, counted; from a capable port its copy goes to the other port, ended in error where the frame was bad (R391,
R395, R412). -/
def Dev.ptpOn (d : Dev) (c : Clock) (p : Nat) (f copy : EthFrame) : Dev :=
  if !lengthOk f then d.bump (CHAIN_CHp_RXERR_V p)
  else
    let d1 := d.bump (if f.bad then CHAIN_CHp_RXERR_V p else CHAIN_CHp_RXOK_V p)
    if d.flag (chCap p) then d1.chForward c (1 - p) { copy with bad := f.bad } else d1

/-- A Sync, with its Follow_Up where two-step: an offset for the servo of a slave port, and the corrected copy to the other port, from a
capable port (R412, R415, R416, R612). A one-step Sync is forwarded with its correction; a two-step one goes unchanged, and its Follow_Up
carries the correction; a Follow_Up that belongs to no good Sync stays (log entry 96). -/
def Dev.syncReceived (d : Dev) (c : Clock) (m : PtpSync) : Dev :=
  let p := m.port.val
  let two := ptpTwoStep m.sync
  if !d.flag (chLink p) ∨ !isPtp m.sync ∨ ptpType m.sync ≠ 0 then d
  else
    let good := !m.sync.bad && lengthOk m.sync
    let paired := !two || (isPtp m.follow && ptpType m.follow = 8 && ptpSeq m.follow = ptpSeq m.sync)
    let res : Int := (d.egress (1 - p) m.egress - 64 * 65536 : Nat) - (d.ingress p m.ingress : Nat) + d.linkDelay p
    let d1 := d.ptpOn c p m.sync (if two then m.sync else addCorr m.sync res)
    let followGood := !m.follow.bad && lengthOk m.follow
    let d2 := if !two then d1
      else if good && paired then d1.ptpOn c p m.follow (d.scaleRate p (addCorr m.follow res))
      else d1.bump (if followGood then CHAIN_CHp_RXOK_V p else CHAIN_CHp_RXERR_V p)
    let d3 := if good then d2.pktArm c (195 + p) else d2
    let whole := good && paired && (!two || followGood)
    if whole ∧ d.flag (chCap p) ∧ d.get TIME_CTRL_MODE = 1 ∧ d.get TIME_CTRL_PORT = p ∧ d.ptpMine m.sync then
      d3.servoOffset c (d.syncOffset p m)
    else d3

def execSyncReceived (m : PtpSync) (s : State) : Host.Outcome State Fault Refusal := .next (s.onServing fun c d => d.syncReceived c m)

/-! Announce (R417). -/

/-- Announce every 2^LANN s on every port with link in MASTER mode; what IEEE 1588 leaves to the sender there is open (log entry 29). -/
def Dev.announce (d : Dev) (c : Clock) : Dev :=
  if d.get TIME_CTRL_MODE ≠ 2 || !intervalOver d.chain.annAt c.ns (logSecs (d.getI CHAIN_PTP_ACT_LANN)) then d else
  let key := 2 ^ 16 + 2
  let seq := d.chain.seqs.get (fun _ => 0) key
  let serial := d.get64 SYS_SERIAL_LO_SERIAL SYS_SERIAL_HI_SERIAL
  let o (n : Nat) : List Byte := [Config.announceOpen n]
  let body := beBytes 10 0 ++ o 0 ++ o 1 ++ beBytes 1 0 ++ beBytes 1 128 ++ beBytes 1 248 ++ o 2 ++ o 3 ++ o 4 ++ beBytes 1 128 ++
    beBytes 8 serial ++ beBytes 2 0 ++ o 5
  let d1 : Dev := { d with chain := { d.chain with annAt := some c.ns, seqs := d.chain.seqs.set (fun _ => 0) key ((seq + 1) % 65536) } }
  [0, 1].foldl (fun d p =>
    if d.flag (chLink p) then (d.chLaunch c p (d.ptpFrame p 0xB seq 0 false (uInt 8 (d.getI CHAIN_PTP_ACT_LANN)) body)).2 else d) d1

def execAnnounce (s : State) : Host.Outcome State Fault Refusal := .next (s.onServing fun c d => d.announce c)

end Sys2Proof.Machine
end

