-- ==== Sys2Proof/Machine/Regs.lean ====
section
/-! DEFINITION. The host's accesses: the address map, ownership, register reads and writes with what they start (R13 to R15, R49, R50, R358 to
R365, R376, R378, R386, R411). -/

namespace Sys2Proof.Machine

/-- The effect a row has on the device at a clock. -/
def Dev.via (d : Dev) (c : Clock) (f : State → Host.Outcome State Fault Refusal) : Dev :=
  match f { clk := c, dev := d } with
  | .next s => s.dev
  | _ => d

/-- A row of an instance, where it exists. -/
def Dev.viaAt (d : Dev) (c : Clock) {n : Nat} (i : Nat) (f : Fin n → State → Host.Outcome State Fault Refusal) : Dev :=
  if h : i < n then d.via c (f ⟨i, h⟩) else d

/-! The address map (R364, R365). -/

/-- Memory the host reads and never writes. -/
def isHostMem (a : Nat) : Bool :=
  a < 0x10000 || (0x10000000 ≤ a && a < 0x10800000) || (0x20000000 ≤ a && a < 0x203C0000) || (0x50000000 ≤ a && a < 0x50200000) ||
    (0x60000000 ≤ a && a < 0x62000000)

/-- Request buffers, result areas and response queues. -/
def isMbxMem (a : Nat) : Bool := 0x40120000 ≤ a && a < 0x40128000
def isReqBuf (a : Nat) : Bool := 0x40120000 ≤ a && a < 0x40122000

def isBlock (a : Nat) : Bool := 0x40000000 ≤ a && a < 0x40130000

/-- An address inside the map (R362). -/
def isMapped (a : Nat) : Bool := isHostMem a || isBlock a

/-! Ownership (R49, R387). -/

def blockOf (a : Nat) : Nat := (a - 0x40000000) / 0x10000

/-- The instance of a block whose registers hold an offset. -/
def instOf (blk o : Nat) : Option Nat :=
  match blk with
  | 4 => if o < 0x6000 then some (o / 0x400) else if o < 0x6800 then some (24 + (o - 0x6000) / 0x100) else none
  | 5 => if 0x80 ≤ o ∧ o < 0xE0 then some ((o - 0x80) / 4) else if 0x100 ≤ o ∧ o < 0x1300 then some ((o - 0x100) / 0xC0) else none
  | 6 => if 0x100 ≤ o ∧ o < 0x500 then some ((o - 0x100) / 0x100) else none
  | 7 => if o < 0x3000 then some (o / 0x200) else none
  | 8 => if o < 0x800 then some (o / 0x100) else none
  | 9 => if o < 0x4000 then some (o / 0x100) else none
  | 10 => if o < 0x4000 then some (o / 0x400) else none
  | 12 => if 0x400 ≤ o ∧ o < 0x600 then some ((o - 0x400) / 0x100) else none
  | 16 => if 0x100 ≤ o ∧ o < 0x400 then some ((o - 0x100) / 0x20) else none
  | _ => none

/-- Pairs of block and instance the host may take (R49, R387). -/
def mayTake (blk inst : Nat) : Bool :=
  match blk with
  | 4 => inst < 32 || inst = 255
  | 5 => inst < 24 || inst = 255
  | 6 => inst < 4 || inst = 255
  | 7 => inst < 24 || inst = 255
  | 8 => inst < 8 || inst = 255
  | 9 => inst < 64 || inst = 255
  | 10 => inst < 16 || inst = 255
  | 12 => inst < 2 || inst = 255
  | 16 => inst < 24
  | _ => false

/-- Does the host own the block that holds a register address (R49)? -/
def Dev.hostOwns (d : Dev) (a : Nat) : Bool :=
  let blk := blockOf a
  if blk = 11 ∨ blk = 13 then true
  else if !isBlock a then false
  else d.released.contains (blk * 256 + 255) || (match instOf blk (a % 0x10000) with
    | some i => d.released.contains (blk * 256 + i)
    | none => false)

/-! Reading (R13, R361, R376). -/

/-- MBX_IRQ_PEND (R378). -/
def Dev.irqPend (d : Dev) : Nat :=
  let route := d.get MBX_ROUTE_ROUTE
  (List.range 16).foldl (fun n m => if !route.testBit m && decide (0 < d.get (MBX_Mm_STAT_RCOUNT m)) then n + 2 ^ m else n) 0 +
    (if d.flag MBX_STAT_BOOTED then 2 ^ 16 else 0) + (if d.flt.log.isEmpty then 0 else 2 ^ 17)

/-- HPI_IRQ_N is low (R358, R378). -/
def Dev.irqLow (d : Dev) : Bool :=
  d.dst.serves && decide (d.irqPend &&& (d.reg MBX_IRQ_EN_MBX.addr).toNat ≠ 0)

/-- A register of the channel of SIi, at its offset there: the mode follows SAFE_SIi_CFG.TYPE, and ACT of a source is its command
(R503). -/
def Dev.safeChValue (d : Dev) (i off : Nat) (v : W32) : W32 :=
  let type := d.get (SAFE_SIi_CFG_ACT_TYPE i)
  if off = 0 ∨ off = 0x10 then insBits v 0 2 (safeMode type)
  else if off = 8 ∧ type = 3 then insBits v 1 1 (if (d.fioCh (24 + i)).cmd then 1 else 0)
  else v

/-- The value of a register as a read returns it. -/
def Dev.regValue (d : Dev) (a : Nat) : W32 :=
  if 0x40110100 ≤ a ∧ a < 0x40110110 then d.logWord ((a - 0x40110100) / 4)
  else if a = MBX_IRQ_PEND_MBX.addr then BitVec.ofNat 32 d.irqPend
  else if 0x40100400 ≤ a ∧ a < 0x40100500 then d.safeChValue ((a - 0x40100400) / 0x20) (a % 0x20) (d.reg a)
  else if 0x40010418 ≤ a ∧ a < 0x400104F8 ∧ a % 0x20 = 0x18 then BitVec.ofNat 32 (d.admValue ((a - 0x40010118) / 0x20))
  else (d.latch.get (fun _ => none) a).getD (d.reg a)

/-- What a read of a register latches first (R7, R154, R160, R234, R290, R370). -/
def Dev.readLatch (d : Dev) (c : Clock) (a : Nat) : Dev :=
  let o := a % 0x10000
  match blockOf a with
  | 1 => if 0x4000 ≤ o ∧ o < 0xC000 ∧ o % 0x20 = 8 then d.viaAt c ((o - 0x4000) / 0x20) execLaunchLatch else d
  | 2 => if o = 8 then d.via c execTimeNowLatch else d
  | 4 => if o = 0x7804 then (List.range 4).foldl (fun d g => d.fltSample g) d else d
  | 7 => if o < 0x3000 ∧ o % 0x200 = 0x40 then d.viaAt c (o / 0x200) execFbkPosLatch
    else if 0x3000 ≤ o ∧ o < 0x3200 ∧ o % 0x40 = 8 then d.viaAt c ((o - 0x3000) / 0x40) execProbeTsLatch
    else d
  | 9 => if o < 0x4000 ∧ o % 0x100 = 0x60 then d.viaAt c (o / 0x100) execSpLatch else d
  | 18 => if 0x8100 ≤ o ∧ o < 0x8300 ∧ o % 0x20 = 0x10 then d.latchRegs [a + 4] else d
  | _ => d

/-- The first of the windows of a CAN channel's oldest entry whose read releases it: word L − 1 (R435). -/
def Dev.canLastWord (d : Dev) (ch : Nat) : Option Nat := ((d.canX ch).rx.head?).map fun e => 0x100 + 4 * (e.length - 1)

/-- What a read of a register does after its value is taken (R123, R131, R160, R378, R435, R552). -/
def Dev.readDone (d : Dev) (c : Clock) (a : Nat) : Dev :=
  let o := a % 0x10000
  match blockOf a with
  | 5 => if 0x100 ≤ o ∧ o < 0x1300 ∧ o % 0x40 = 0x14 then d.viaAt c ((o - 0x100) / 0x40) execDsfResRead else d
  | 6 =>
    if 0x100 ≤ o ∧ o < 0x500 ∧ 0x40 ≤ o % 0x100 ∧ o % 0x100 < 0x80 then
      (if h : (o - 0x100) / 0x100 < 4 ∧ (o % 0x100 - 0x40) / 4 < 16 then
        d.via c (execSarResRead ⟨(o - 0x100) / 0x100, h.1⟩ ⟨(o % 0x100 - 0x40) / 4, h.2⟩)
      else d)
    else d
  | 7 => if 0x3000 ≤ o ∧ o < 0x3200 ∧ o % 0x40 = 0x18 then d.viaAt c ((o - 0x3000) / 0x40) execProbeFracRead else d
  | 13 => if d.canLastWord (o / 0x1000) = some (o % 0x1000) then d.viaAt c (o / 0x1000) execCanRxRelease else d
  | 17 => if o = 0x10C then d.via c execFaultLogRelease else d
  | 18 => if o = 0x8000 then d.setf MBX_STAT_BOOTED false else d
  | _ => d

/-- A half of a memory word as the host reads it (R544, R545). -/
def Dev.memRead (d : Dev) (c : Clock) (a : Nat) : W32 × Dev :=
  let (w, d1) := d.useWord c a
  (BitVec.ofNat 32 (if a % 8 = 4 then w / 2 ^ 32 else w), d1)

/-- A read of mailbox memory: the high half of word 7 of the entry at RHEAD releases the entry (R376). -/
def Dev.mbxRead (d : Dev) (c : Clock) (a : Nat) : W32 × Dev :=
  let (w, d1) := d.memRead c a
  let m := (a - 0x40124000) / 0x400
  let e := a % 0x400 / 0x40
  if 0x40124000 ≤ a ∧ a % 0x40 = 0x3C ∧ e = d.get (MBX_Mm_STAT_RHEAD m) then (w, d1.viaAt c m execResponseRelease) else (w, d1)

/-- A register read; a slot of Herder memory or a word of LOOP storage is checked first (R21, R323, R545). -/
def Dev.regRead (d : Dev) (c : Clock) (a : Nat) : W32 × Dev :=
  if (isHerderMem a || isLoopMem a) ∧ d.eccMask a ≠ 0 then
    (let d1 := (d.useWord c a).2; (if (d.rdWord a).bad then 0 else d.regValue a, d1))
  else
    let d1 := d.readLatch c a
    (d1.regValue a, d1.readDone c a)

/-- One word of a host read at a multiple of 4: its value; outside the map it reads zero (R362). -/
def Dev.hostRead (d : Dev) (c : Clock) (a : Nat) : W32 × Dev :=
  if isHostMem a then d.memRead c a else if isMbxMem a then d.mbxRead c a else if isBlock a then d.regRead c a else (0, d)

/-- Words at rising addresses. -/
def Dev.hostReads (d : Dev) (c : Clock) (a : Nat) : Nat → List W32 × Dev
  | 0 => ([], d)
  | n + 1 =>
    let (w, d1) := d.hostRead c (a % 2 ^ 32)
    let (ws, d2) := d1.hostReads c (a + 4) n
    (w :: ws, d2)

/-- Any of n words from a lies outside the map. -/
def anyUnmapped (a n : Nat) : Bool := (List.range n).any fun i => !isMapped ((a + 4 * i) % 2 ^ 32)

/-! Writing (R13, R50, R362). -/

/-- A write of a register the host owns: what the register takes, and what an SC bit starts. -/
def Dev.regWrite (d : Dev) (c : Clock) (a : Nat) (v : W32) : Dev :=
  let o := a % 0x10000
  let st := d.regStore a v
  let b0 := v.getLsbD 0
  match blockOf a with
  | 4 =>
    if o < 0x6000 then
      let l := o / 0x400
      let x := o % 0x400
      if x = 0x1C then (if b0 then d.viaAt c l execPwmCommit else d)
      else if x = 0x398 then (if v.getLsbD 31 then d.viaAt c l execSlackClr else d)
      else if laneGroupOffs.any (fun p => p.1 = x) then d.stageWrite c l a v else st
    else if o < 0x6800 then
      let s := (o - 0x6000) / 0x100
      if o % 0x100 = 8 then (if b0 then d.viaAt c s execStepperCommit else d)
      else if stpOffs.any (fun p => p.1 = o % 0x100) then d.stpWrite c s a v else st
    else if 0x7000 ≤ o ∧ o < 0x7400 ∧ o % 0x100 = 0x18 ∧ b0 then st.viaAt c ((o - 0x7000) / 0x100) execGroupCommit
    else if o = 0x7800 ∧ 10 < v.toNat % 16 then d.regStore a (BitVec.ofNat 32 (v.toNat / 16 * 16 + d.get PWM_FLT_CFG_FFILT))
    else st
  | 3 => if 0x100 ≤ o ∧ o < 0x4100 ∧ o % 0x40 = 0x20 ∧ b0 then st.viaAt c ((o - 0x100) / 0x40) execGateCommit else st
  | 5 =>
    if o < 0x18 then d.dsfCkWrite c (o / 4) v
    else if 0x80 ≤ o ∧ o < 0xE0 ∧ b0 then st.viaAt c ((o - 0x80) / 4) execDsfCommit
    else st
  | 6 =>
    if 0x100 ≤ o ∧ o < 0x500 ∧ o % 0x100 = 0xC ∧ b0 then st.viaAt c ((o - 0x100) / 0x100) execSarSequenceCommit
    else if 0x800 ≤ o ∧ o < 0x900 ∧ o % 0x40 = 0xC ∧ b0 then st.viaAt c ((o - 0x800) / 0x40) execSarGroupCommit
    else st
  | 7 =>
    if o < 0x3000 ∧ o % 0x200 = 0x2C ∧ b0 then st.viaAt c (o / 0x200) execFbkCommit
    else if 0x3400 ≤ o ∧ o < 0x3440 then d.excWrite ((o - 0x3400) / 0x10) a v
    else if isCmdinReg a then d.cmdinWrite a v
    else st
  | 8 => if o < 0x800 ∧ o % 0x100 = 0x1C ∧ b0 then st.viaAt c (o / 0x100) execStrideCommit else st
  | 9 => if o < 0x4000 ∧ o % 0x100 = 0x40 ∧ b0 then st.viaAt c (o / 0x100) execTrjCommit else st
  | 10 => if o < 0x4000 ∧ o % 0x400 = 0x100 ∧ b0 then st.viaAt c (o / 0x400) execLoopCommit else st
  | 11 =>
    if o < 0x200 ∧ o % 0x40 = 0x18 then
      let d1 := if v.getLsbD 3 then st.viaAt c (o / 0x40) execSegmentRelease else st
      if b0 then d1.viaAt c (o / 0x40) execCapCommit else d1
    else st
  | 12 => if o = 0x28 ∧ b0 then st.via c execChainCommit else st
  | 13 =>
    if o < 0x8000 ∧ o % 0x1000 = 0xC then
      let d1 := if v.getLsbD 3 then st.viaAt c (o / 0x1000) execCanRecovery else st
      if b0 then d1.viaAt c (o / 0x1000) execCanCommit else d1
    else if o < 0x8000 ∧ o % 0x1000 = 0x250 ∧ b0 then st.viaAt c (o / 0x1000) execPush
    else st
  | 16 =>
    if 0x100 ≤ o ∧ o < 0x500 ∧ o % 0x20 = 0xC ∧ b0 then st.viaAt c ((o - 0x100) / 0x20) execFioCommit
    else if 0x400 ≤ o ∧ o < 0x500 ∧ o % 0x20 = 0 then d
    else if 0x100 ≤ o ∧ o < 0x500 ∧ o % 0x20 = 8 then d.fioOutWrite c ((o - 0x100) / 0x20) v
    else st
  | _ => st

/-- Sticky HPI status bits (R363). -/
def Dev.setHpi (d : Dev) (bit : Nat) : Dev := { d with hpi := d.hpi ||| 2 ^ bit }

/-- One word of an HPI WRITE (R50, R362, R365). -/
def Dev.hostWrite (d : Dev) (c : Clock) (a : Nat) (v : W32) : Dev :=
  if !isMapped a then d.setHpi 5
  else if isReqBuf a then d.bufWrite c a v
  else if d.hostOwns a then d.regWrite c a v
  else d.setHpi 1

/-! Transactions (R359 to R363, R389). -/

/-- PROT, with FC130 (R359, R362, R389). -/
def Dev.hpiProt (d : Dev) (c : Clock) : Dev := (d.setHpi 4).reportLim c 130 0xFE

/-- The status byte while data is ready (R363). -/
def Dev.statusByte (d : Dev) : Nat := d.hpi % 64 + (if d.irqLow then 64 else 0)

/-- Locks that have ended give their held writes to staging (R215). -/
def Dev.locksEnd (d : Dev) (c : Clock) : Dev :=
  let d1 := (List.range 24).foldl (fun d l => if (d.pwmX l).held.isEmpty then d else d.lockEnd c l) d
  (List.range 8).foldl (fun d s => if (d.stpX s).held.isEmpty then d else d.stpLockEnd c s) d1

/-- A write of an earlier transaction is held by a staging lock (R215, R361). -/
def Dev.writesHeld (d : Dev) : Bool :=
  (List.range 24).any (fun l => !(d.pwmX l).held.isEmpty) || (List.range 8).any fun s => !(d.stpX s).held.isEmpty

/-- The data of a READ: a status byte with WAIT clear, then the words; the first of them is taken before the byte goes out (R361, R363). -/
def Dev.hpiData (d : Dev) (c : Clock) (a n : Nat) : Dev :=
  let (ws, d1) := d.hostReads c a n
  let d2 := if anyUnmapped a n then d1.setHpi 5 else d1
  let shown := if anyUnmapped a (min n 1) then d.setHpi 5 else d
  { d2 with hpio := { bytes := d2.hpio.bytes ++ [shown.statusByte], words := ws } }

/-- A new transaction: nothing sent yet; a READ that still waited is over (log entry 97). -/
def Dev.hpiStart (d : Dev) : Dev := { d with hpio := {} }

/-- READ: n data words; a misaligned address is ignored with ALIGN. While a write of an earlier transaction is held, status bytes with WAIT
set go out. -/
def execRead (addr : W32) (n : Nat) (s : State) : Host.Outcome State Fault Refusal :=
  .next (s.onServing fun c d =>
    let d0 := (d.locksEnd c).hpiStart
    if addr.toNat % 4 ≠ 0 then d0.setHpi 2
    else if d0.writesHeld then { d0 with hpio := { bytes := [d0.statusByte + 1], wait := some (addr.toNat, n) } }
    else d0.hpiData c addr.toNat n)

/-- A READ that waits goes on once every write of earlier transactions has completed (R361). -/
def Dev.hpiDue (d : Dev) (c : Clock) : Dev :=
  match d.hpio.wait with
  | none => d
  | some (a, n) => let d0 := d.locksEnd c; if d0.writesHeld then d0 else d0.hpiData c a n

/-- WRITE: the words in address order; `cut`: the last was cut short by the rise of HPI_CS_N. Another instruction code than those of R359
is a protocol error. -/
def execWrite (code : BitVec 8) (addr : W32) (ws : List W32) (cut : Bool) (s : State) : Host.Outcome State Fault Refusal :=
  .next (s.onServing fun c d0 =>
    let d := d0.hpiStart
    if code = 0xEB ∨ code = 0x05 then d
    else if code ≠ 0x38 then d.hpiProt c
    else if addr.toNat % 4 ≠ 0 then d.setHpi 2
    else
      let full := if cut then ws.dropLast else ws
      let d1 := (full.zipIdx).foldl (fun d w => d.hostWrite c ((addr.toNat + 4 * w.2) % 2 ^ 32) w.1) d
      if cut then d1.hpiProt c else d1)

/-- STATUS returns the status byte and clears the sticky bits. -/
def execStatus (s : State) : Host.Outcome State Fault Refusal :=
  .next (s.onServing fun _ d => { d with hpi := 0, hpio := { bytes := [d.statusByte] } })

/-- A host write of a register (R13, R49, R50). -/
def execRegisterWrite (addr v : W32) (s : State) : Host.Outcome State Fault Refusal :=
  .next (s.onServing fun c d => if addr.toNat % 4 ≠ 0 then d.setHpi 2 else d.hostWrite c addr.toNat v)

/-- A read of MBX_STAT clears BOOTED (R378). -/
def execBootedRead (s : State) : Host.Outcome State Fault Refusal := .next (s.onServing fun _ d => d.setf MBX_STAT_BOOTED false)

/-- A read of MBX_Mm_TREF_LO latches TREF_HI (R370). -/
def execTrefLatch (m : Fin 16) (s : State) : Host.Outcome State Fault Refusal :=
  .next (s.onServing fun _ d => d.latchRegs [(MBX_Mm_TREF_HI_TREF m).addr])

/-! reg.read, reg.write (R386, R390), and register reads over the chain (R411). -/

/-- Pack 32-bit words two to a 64-bit word, the lower address in bits 31:0. -/
def packWords : List W32 → List W64
  | [] => []
  | [a] => [BitVec.ofNat 64 a.toNat]
  | a :: b :: r => BitVec.ofNat 64 (a.toNat + b.toNat * 2 ^ 32) :: packWords r

/-- reg.read: a count above 128 is refused as a conflict (log entry 30). -/
def cmdRegRead : CmdFn := fun c _ q d =>
  let a := bits64 (q.pw 0) 0 32
  let n := bits64 (q.pw 0) 32 16
  refuseIf [(decide (q.target ≠ 0xFE) || decide (q.payload.length ≠ 1) || decide (a % 4 ≠ 0) || decide (bits64 (q.pw 0) 48 16 ≠ 0),
      rcBadFormat), (decide (n = 0), rcCfgZero), (decide (128 < n), rcCfgConflict)] fun _ =>
    let (ws, d1) := d.hostReads c a n
    let d2 := if anyUnmapped a n then d1.setHpi 5 else d1
    .done { long := true, p0 := 4 * n } (d2.putResult q.mbx.val (packWords ws))

def execRegRead (q : Request) (s : State) : Host.Outcome State Fault Refusal := .next (s.command 0x0B00 cmdRegRead q)

/-- reg.write: refused whole when any address lies in a block the host does not own. -/
def cmdRegWrite : CmdFn := fun c _ q d =>
  let ps := q.image
  refuseIf [(decide (q.target ≠ 0xFE) || ps.isEmpty || ps.any (fun p => decide (p.1 % 4 ≠ 0)), rcBadFormat),
      (ps.any fun p => isMapped p.1 && !d.hostOwns p.1, rcRegOwned)] fun _ =>
    .done {} (ps.foldl (fun d p => if isMapped p.1 then d.regWrite c p.1 (BitVec.ofNat 32 p.2) else d.setHpi 5) d)

def execRegWrite (q : Request) (s : State) : Host.Outcome State Fault Refusal := .next (s.command 0x0B01 cmdRegWrite q)

/-- A type 0x6A block from sender `src` (R411): past the checks of ADDR and SEQ (R401, R32, R402) the words are read and answered in the
service frame. -/
def Dev.registerRead (d0 : Dev) (c : Clock) (b : Packet) (src : Nat) : Dev :=
  let a := bits64 (b.word 1) 0 32
  let n := bits64 (b.word 1) 32 6
  let (ok, d) := d0.seqCheck (src + 1) b
  if brandType b.brand ≠ 0x6A ∨ !d0.blockMine (brandAddr b.brand) ∨ !unitValid (brandUnit b.brand) then d0
  else if !ok ∨ 32 < n then d
  else
    let odd := a % 4 ≠ 0
    let (ws, d1) := if odd then ([], d) else d.hostReads c a n
    let data := if odd then List.replicate ((n + 1) / 2) 0 else packWords ws
    let w1 := a + n * 2 ^ 32 + (if !odd && anyUnmapped a n then 2 ^ 38 else 0) + (if odd then 2 ^ 39 else 0) + brandSeq b.brand * 2 ^ 48
    (d1.pktOneShot c).emitTo src 0xFE 0x6B none 0 (BitVec.ofNat 64 w1 :: data)

def execRegisterRead (b : RuoriBlock) (src : BitVec 8) (s : State) : Host.Outcome State Fault Refusal :=
  .next (s.onServing fun c d => d.registerRead c b src.toNat)

end Sys2Proof.Machine
end

