-- ==== Sys2Proof/Machine/Sys.lean ====
section
/-! DEFINITION. The sys commands (R39 to R43, R51, R382, R387, R556, R570 to R575, R585, R586). -/

namespace Sys2Proof.Machine

/-- TARGET and payload length of a sys command. -/
def sysFormat (q : Request) (len : Nat) : Bool := decide (q.target ≠ 0xFE) || decide (q.payload.length ≠ len)

/-- sys.caps: the capability block, 24 bytes (R586). -/
def cmdSysCaps : CmdFn := fun _ _ q d =>
  refuseIf [(sysFormat q 0, rcBadFormat)] fun _ =>
    .done { long := true, p0 := 24 }
      (d.putResult q.mbx.val (packWords ((List.range 6).map fun i => d.reg (SYS_CAP0_LANES.addr + 4 * i))))

def execSysCaps (q : Request) (s : State) : Host.Outcome State Fault Refusal := .next (s.command 0x0000 cmdSysCaps q)

/-- The identity record (R585). -/
def Dev.identRecord (d : Dev) : List W64 :=
  let fw := (d.reg SYS_FWVER_BUILD.addr).toNat
  [BitVec.ofNat 64 (d.get64 SYS_SERIAL_LO_SERIAL SYS_SERIAL_HI_SERIAL),
   BitVec.ofNat 64 (d.get SYS_MEMBER_MEMBER + d.get SYS_BOOT_SLOT * 2 ^ 8 + fw * 2 ^ 32)] ++ d.dieWords ++
    [Config.rootKeyWord &&& 0xFFFFFFFF000000FF#64, 0]

/-- sys.ident: 80 bytes. -/
def cmdSysIdent : CmdFn := fun _ _ q d =>
  refuseIf [(sysFormat q 0, rcBadFormat)] fun _ => .done { long := true, p0 := 80 } (d.putResult q.mbx.val d.identRecord)

def execSysIdent (q : Request) (s : State) : Host.Outcome State Fault Refusal := .next (s.command 0x0001 cmdSysIdent q)

/-- The result of sys.status: a byte per lane L00 to L23 and S0 to S7, then DSEQ and FLOOR of each mailbox (R379, R382). -/
def Dev.statusRecord (d : Dev) : List W64 :=
  let lanes := (List.range 32).map fun u => (d.lane u).state.code + if (d.lane u).disputed then 128 else 0
  let seqs := (List.range 16).flatMap fun m =>
    let s := d.get (MBX_Mm_DONE_DSEQ m)
    let f := d.get (MBX_Mm_SEQ_FLOOR m)
    [s % 256, s / 256, f % 256, f / 256]
  let bs := lanes ++ seqs
  (List.range 12).map fun i => BitVec.ofNat 64 ((List.range 8).foldr (fun k v => bs.getD (8 * i + k) 0 + 256 * v) 0)

/-- sys.status: "active faults" is the number of active device-class faults (log entry 31). -/
def cmdSysStatus : CmdFn := fun _ _ q d =>
  refuseIf [(sysFormat q 0, rcBadFormat)] fun _ =>
    .done { long := true, p0 := 96, p1 := d.dst.code + d.get MBX_STAT_EPOCH * 2 ^ 8 + d.flt.active.length % 2 ^ 16 * 2 ^ 16 }
      (d.putResult q.mbx.val d.statusRecord)

def execSysStatus (q : Request) (s : State) : Host.Outcome State Fault Refusal := .next (s.command 0x0002 cmdSysStatus q)

/-- sys.run: READY to RUN; the field window of the boot ends (R40, R43, R512). -/
def cmdSysRun : CmdFn := fun c _ q d =>
  refuseIf [(sysFormat q 0, rcBadFormat), (decide (d.dst ≠ .ready) || d.sysStop.isSome, rcBadState)] fun _ =>
    let d1 : Dev := { d with fio := { d.fio with winBoot := false } }
    .done {} (((d1.showWindow c.ns).deviceTo c .run).showAll c)

def execSysRun (q : Request) (s : State) : Host.Outcome State Fault Refusal := .next (s.command 0x0003 cmdSysRun q)

/-- The first sample gate of any lane from an instant; the instant itself where none is armed. -/
def Dev.anyGate (d : Dev) (t : Nat) : Nat :=
  let gs := ((List.range 24) ++ (List.range 8).map (72 + ·)).filter fun g => d.flag (GATE_GTnnn_CTL_ARMED g)
  match gs.map fun g => d.firingAhead g t with
  | [] => t
  | x :: r => r.foldl min x

/-- The gate at which lane u, which is stopping, enters ARMED. -/
def Dev.armedBy (d : Dev) (u tref : Nat) : Nat :=
  let t := (d.lane u).armedAt
  if t ≠ 0 then t else d.firingAhead (laneGate u) ((d.axX u).tc.getD tref)

/-- sys.stop (R43): lane.stop to every ENABLED lane at t_ref; the promise is the instant at which the last lane reaches ARMED, or the first
sample gate where none runs. A second sys.stop while one is in progress is refused BAD_STATE: the spec names no answer to it (the model's
choice, log entry 82). -/
def cmdSysStop : CmdFn := fun c tref q d =>
  refuseIf [(sysFormat q 0, rcBadFormat), (decide (d.dst ≠ .run) || d.sysStop.isSome, rcBadState)] fun _ =>
    let go := (List.range 32).filter fun u => d.judged u = .enabled
    let busy := (List.range 32).filter fun u => d.judged u = .stopping
    let wait := (List.range 32).filter fun u => (d.lane u).state.running && !(d.judged u).running
    let step (acc : Nat × Dev) (u : Nat) : Nat × Dev :=
      let (t, d1) := acc.2.planStop c u tref tref none
      (max acc.1 t, d1)
    let (t1, d1) := go.foldl step (tref, d)
    let t3 := (busy ++ wait).foldl (fun t u => max t (d.armedBy u tref)) t1
    let t4 := if go.isEmpty && busy.isEmpty && wait.isEmpty then d.anyGate tref else t3
    .accept t4 { d1 with sysStop := some (t4, some q.id) }

def execSysStop (q : Request) (s : State) : Host.Outcome State Fault Refusal := .next (s.command 0x0004 cmdSysStop q)

/-- STANDBY or DOZE is entered 1 ms after t_ref; wake events are watched from now (R570, R572). -/
def Dev.sleepFrom (d : Dev) (tref : Nat) (st : DevState) : Dev :=
  { d with pow := { d.pow with sleepAt := (match d.pow.sleepAt with
      | some x => some x
      | none => some (tref + 1000000, st)), early := d.pow.early } }

/-- sys.standby (R570). -/
def cmdSysStandby : CmdFn := fun _ tref q d =>
  refuseIf [(sysFormat q 0, rcBadFormat), (decide (d.dst ≠ .ready), rcBadState)] fun _ =>
    .acceptOnly (tref + 1000000) (d.sleepFrom tref .standby)

def execSysStandby (q : Request) (s : State) : Host.Outcome State Fault Refusal := .next (s.command 0x0005 cmdSysStandby q)

/-- Clocks of a nominal bit in force (R430). -/
def Dev.canBitClocks (d : Dev) (ch : Nat) : Nat :=
  d.get (CAN_CHc_NBT_ACT_BRP ch) * (1 + d.get (CAN_CHc_NBT_ACT_TSEG1 ch) + d.get (CAN_CHc_NBT_ACT_TSEG2 ch))

/-- sys.doze (R573). -/
def cmdSysDoze : CmdFn := fun _ tref q d =>
  let w := q.pw 0
  let fm := bits64 w 8 6
  let sel := (List.range 6).filter fun ch => fm.testBit ch
  let bad (ch : Nat) : Bool := (d.canMode ch ≠ canNormal && d.canMode ch ≠ canSleep) || d.canBitClocks ch < 160
  refuseIf [(sysFormat q 1 || bits64 w 6 2 ≠ 0 || bits64 w 14 50 ≠ 0, rcBadFormat), (decide (d.dst ≠ .ready), rcBadState),
      (fm = 0, rcCfgZero), (sel.any bad, rcCfgConflict)] fun _ =>
    let d1 := (List.range 6).foldl (fun d ch => d.setf (CAN_CHc_WCFG_WEN ch) (fm.testBit ch)) (d.put CAN_WAKE_CFG_DMSK (bits64 w 0 6))
    .acceptOnly (tref + 1000000) (d1.sleepFrom tref .doze)

def execSysDoze (q : Request) (s : State) : Host.Outcome State Fault Refusal := .next (s.command 0x0006 cmdSysDoze q)

/-- BOOT 1 ms after t_ref, unless an earlier one is on its way (R575). -/
def Dev.resetFrom (d : Dev) (tref : Nat) : Dev :=
  { d with pow := { d.pow with softAt := match d.pow.softAt with
      | some t => some (min t (tref + 1000000))
      | none => some (tref + 1000000) } }

/-- sys.reset. -/
def cmdSysReset : CmdFn := fun _ tref q d =>
  refuseIf [(sysFormat q 0, rcBadFormat)] fun _ => .acceptOnly (tref + 1000000) (d.resetFrom tref)

def execSysReset (q : Request) (s : State) : Host.Outcome State Fault Refusal := .next (s.command 0x0007 cmdSysReset q)

/-- Every lane in ARMED, ENABLED or STOPPING restarts from DISABLED, at its next sample gate; one in FAULT stays for lane.clear (R44, R45,
R556; log entry 31). -/
def Dev.lanesRestart (d : Dev) (t : Nat) : Dev :=
  (List.range 32).foldl (fun d u =>
    if d.laneActive u then d.setLane u { d.lane u with chg := [{ at_ := t, target := .disabled, work := none }] } else d) d

/-- sys.clear: SAFE to READY with no device-class fault active; 100 ms of diagnostics follow (R40, R512, R556). -/
def cmdSysClear : CmdFn := fun c tref q d =>
  refuseIf [(sysFormat q 0, rcBadFormat), (decide (d.dst ≠ .safe) || !d.flt.active.isEmpty, rcBadState)] fun _ =>
    .done {} ((((d.deviceTo c .ready).lanesRestart tref).openWindow tref tref (tref + 100000000) none).showAll c)

def execSysClear (q : Request) (s : State) : Host.Outcome State Fault Refusal := .next (s.command 0x0008 cmdSysClear q)

/-! Releasing blocks to the host (R49, R51, R387). -/

/-- Registers of a block, or of one instance of it, that a configuration holds: staged, and in force. -/
def isCopied (blk inst a : Nat) : Bool :=
  blockOf a = blk && isBlock a && (inst = 255 || instOf blk (a % 0x10000) = some inst) &&
    (match findRow a with
      | some (r, _, _) => decide (r.rw + r.rws ≠ 0)
      | none => false)

/-- The lanes a block instance belongs to. -/
def laneOfInst (blk inst : Nat) : List Nat :=
  match blk with
  | 4 => if inst = 255 then List.range 32 else [inst]
  | 5 => if inst = 255 then List.range 24 else [inst]
  | 6 => if inst = 255 then List.range 24 else (List.range 6).map (6 * inst + ·)
  | 7 => if inst = 255 then List.range 24 else [inst]
  | 9 => if inst = 255 then List.range 32 else if inst < 32 then [inst] else []
  | _ => []

/-- sys.release: single DONE; the firmware keeps its copy of the configuration. -/
def cmdSysRelease : CmdFn := fun _ _ q d =>
  let blk := bits64 (q.pw 0) 0 8
  let inst := bits64 (q.pw 0) 8 8
  let free (u : Nat) : Bool := (d.lane u).state = .disabled && d.judged u = .disabled
  refuseIf [(sysFormat q 1 || bits64 (q.pw 0) 16 48 ≠ 0 || !mayTake blk inst, rcBadFormat),
      ((laneOfInst blk inst).any fun u => !free u, rcBadState)] fun _ =>
    let key := blk * 256 + inst
    if d.released.contains key then .done {} d
    else
      let copy := (d.regs.filter fun p => isCopied blk inst p.1).map fun p => (key, p.1, p.2.toNat)
      .done {} { d with released := insId key d.released, copies := d.copies ++ copy }

def execSysRelease (q : Request) (s : State) : Host.Outcome State Fault Refusal := .next (s.command 0x0009 cmdSysRelease q)

/-- Group number of a reclaim that waits. -/
def reclaimKey : Nat := 1

/-- sys.reclaim: DONE at t_ref + 1 ms, when the firmware has rewritten its copy (log entry 31). -/
def cmdSysReclaim : CmdFn := fun _ tref q d =>
  let blk := bits64 (q.pw 0) 0 8
  let inst := bits64 (q.pw 0) 8 8
  refuseIf [(sysFormat q 1 || bits64 (q.pw 0) 16 48 ≠ 0 || !mayTake blk inst, rcBadFormat)] fun _ =>
    .accept (tref + 1000000) { d with imgs := d.imgs ++
      [{ group := reclaimKey, from_ := tref + 1000000, due := tref + 1000000, pairs := [(blk, inst)], work := some q.id }] }

def execSysReclaim (q : Request) (s : State) : Host.Outcome State Fault Refusal := .next (s.command 0x000A cmdSysReclaim q)

/-- The firmware's copy of a released instance replaces what the host wrote, staged and in force; grids follow (R51). -/
def Dev.reclaim (d : Dev) (c : Clock) (blk inst : Nat) : Dev :=
  let key := blk * 256 + inst
  if !d.released.contains key then d
  else
    let mine := d.copies.filter fun x => x.1 = key
    let bare : Dev := { d with
      regs := d.regs.filter fun p => !isCopied blk inst p.1
      released := d.released.filter (· ≠ key), copies := d.copies.filter fun x => x.1 ≠ key }
    let d1 := mine.foldl (fun d x => d.setReg x.2.1 (BitVec.ofNat 32 x.2.2)) bare
    match blk with
    | 4 => (laneOfInst blk inst).foldl (fun d u => if u < 24 then d.regrid c u else d.regridStp c (u - 24)) d1
    | 6 => (List.range 4).foldl (fun d g => d.linkGrid (c.ns + d.margin - 1) g) d1
    | 12 => (d1.chainJobs).chainGates c
    | _ => d1

/-- Reclaims whose instant has come. -/
def Dev.reclaimDue (d : Dev) (c : Clock) : Dev :=
  let due := d.imgs.filter fun p => p.group = reclaimKey && decide (p.from_ ≤ c.ns)
  if due.isEmpty then d
  else
    let d0 : Dev := { d with imgs := d.imgs.filter fun p => !(p.group = reclaimKey && decide (p.from_ ≤ c.ns)) }
    due.foldl (fun d p => (p.pairs.foldl (fun d x => d.reclaim c x.1 x.2) d).finishDone p.work p.from_) d0

/-- sys.mbx: IRQ_EN in bits 17:0, ROUTE in bits 47:32. -/
def cmdSysMbx : CmdFn := fun _ _ q d =>
  let w := q.pw 0
  refuseIf [(sysFormat q 1 || bits64 w 18 14 ≠ 0 || bits64 w 48 16 ≠ 0, rcBadFormat)] fun _ =>
    .done {} ((d.setReg MBX_IRQ_EN_MBX.addr (BitVec.ofNat 32 (bits64 w 0 18))).put MBX_ROUTE_ROUTE (bits64 w 32 16))

def execSysMbx (q : Request) (s : State) : Host.Outcome State Fault Refusal := .next (s.command 0x000B cmdSysMbx q)

end Sys2Proof.Machine
end

