-- ==== Sys2Proof/Machine/Pair.lean ====
section
/-! DEFINITION. Redundant pairs (R451 to R476): roles and states, the heartbeat, mirror records, readback, takeover and the pair commands. -/

namespace Sys2Proof.Machine

def roleActive : Nat := 1
def roleStandby : Nat := 2
def psSolo : Nat := 0
def psSyncing : Nat := 1
def psMirrored : Nat := 2
def psDegraded : Nat := 3
def psLost : Nat := 4

/-- Unit code of the pair (R27). -/
def pairUnit : Nat := 0x6F

def Dev.role (d : Dev) : Nat := d.get PAIR_STAT_ROLE
def Dev.pstate (d : Dev) : Nat := d.get PAIR_STAT_PSTATE
def Dev.pairTo (d : Dev) (st : Nat) : Dev := d.putState pairUnit PAIR_STAT_PSTATE st

/-- This device pulls PFORCE_N, or releases it (R466, R473, R474). -/
def Dev.pull (d : Dev) (on : Bool) : Dev :=
  if on then (d.setf PAIR_STAT_PULL).setf PAIR_STAT_PFORCE false
  else if d.flag PAIR_STAT_PULL then (d.setf PAIR_STAT_PULL false).setf PAIR_STAT_PFORCE else d

/-- Entry into LOST without takeover: FC166 (R456, R475). -/
def Dev.pairLost (d : Dev) (c : Clock) : Dev :=
  if d.pstate = psLost then d else (d.pairTo psLost).record c 166 pairUnit 0

/-! The snapshot (R473). Its frames carry packets; the contents that no mirror record has are the model's choice (log entry 98). -/

/-- A snapshot frame with one packet. -/
def Dev.snapPut (d : Dev) (p : Packet) : Dev := d.linkPut 5 (p.brand :: p.words)

/-- The segments of the cam.load that would write a table, from SEGIDX `idx` on: at most 29 points each (R385). -/
def camSegs (tab flags total : Nat) : Nat → Nat → List (Int × Int) → List (List W64)
  | 0, _, _ => []
  | fuel + 1, idx, ps =>
    let last := ps.length ≤ 29
    let now := ps.take 29
    let w := tab + flags * 2 ^ 4 + (if last then 2 ^ 6 else 0) + idx * 2 ^ 8 + now.length * 2 ^ 16 + total * 2 ^ 32
    let seg := BitVec.ofNat 64 w :: now.flatMap fun p => [BitVec.ofInt 64 p.1, BitVec.ofInt 64 p.2]
    if last then [seg] else seg :: camSegs tab flags total fuel (idx + 1) (ps.drop 29)

/-- Cam table i as type 0x60 packets that name a slot of its engine. -/
def Dev.camPackets (d : Dev) (i : Nat) : List Packet :=
  let pts := (d.camTab i).pts
  if pts.isEmpty then []
  else
    let flags := (if d.flag (TRJ_CAMDIR_md_TYPE (i / 16) (i % 16)) then 1 else 0) + if camDirEnd d i then 2 else 0
    (camSegs (i % 16) flags pts.length (pts.length + 1) 0 pts).map fun seg => {
      brand := mkBrand 0 0x70 0xE0 0 0 0
      words := [0, 0, BitVec.ofNat 64 (0x0212 + seg.length * 2 ^ 16 + 6 * (i / 16) * 2 ^ 24)] ++ seg }

/-- Where the streams stand that this device sends to the chain: a brand with the SEQ of the next packet, and the producer (R32, R466). -/
def Dev.streamPackets (d : Dev) : List Packet :=
  let own := d.streamAddr
  (d.fab.prodSeq.filterMap fun p =>
    let addr := p.1 / 2 ^ 15 % 256
    let type := p.1 % 128
    if addr ≠ 0 ∧ [0x41, 0x42, 0x50, 0x51].contains type then
      some { brand := mkBrand addr (p.1 / 128 % 256) (type + 128) 0 p.2 0, words := [BitVec.ofNat 64 (p.1 / 2 ^ 23)] }
    else none) ++
  (d.chain.seqs.filterMap fun p =>
    if p.1 / 2 ^ 16 = 256 + own then some { brand := mkBrand (p.1 / 256 % 256) (p.1 % 256) 0xE8 0 p.2 0, words := [] } else none)

/-- A mailbox stream: the last response, and the ACCEPT of each command without its final response (R374, R375). -/
def Dev.streamRsps (d : Dev) (m : Nat) : List Packet :=
  let rsp (b : W64) (ws : List W64) : Packet := { brand := b, words := ws }
  let x := d.mbox m
  ((d.work.filter fun w => w.id / 65536 = m).map fun w =>
    rsp (mkBrand (d.rspAddr m w.src) (0x70 + m) 0xE1 (d.get MBX_STAT_EPOCH) x.rspSeq 0)
      [BitVec.ofNat 64 w.promise, 0, BitVec.ofNat 64 (w.opc + w.id % 65536 * 2 ^ 32), BitVec.ofNat 64 w.unit, 0, 0]) ++
  (match x.lastRsp with
    | [] => []
    | b :: ws => [rsp b ws])

/-- The snapshot of what no mirror record carries: cam tables, mailbox streams, the outputs of the loops. -/
def Dev.snapshotSend (d : Dev) : Dev :=
  let loops := (List.range 16).filterMap fun b => (d.loopX b).outs.head?.map fun o =>
    ({ brand := mkBrand 0 (0x40 + b) 0xD1 0 0 0,
       words := [BitVec.ofNat 64 o.at_, 0] ++ posWords (fix 32 o.w) ++ posWords (fix 32 o.d) } : Packet)
  ((List.range 64).flatMap d.camPackets ++ (List.range 16).flatMap d.streamRsps ++ loops).foldl (fun d p => d.snapPut p) d

/-- SYNCING starts: everything is sent again, nothing counts as aligned (R473). -/
def Dev.pairSync (d : Dev) : Dev :=
  let d1 := d.pairTo psSyncing
  let d2 : Dev := { d1 with pair := { d1.pair with
    good := 0, got := 0, far := 0, regs := [], marks := [], known := [], aligned := [], deviated := false, late := [] } }
  let d3 := d2.setLink { d2.pair.link with ack := false }
  if d3.role = roleActive then d3.snapshotSend else d3

/-- Entry into DEGRADED: FC163; with RESYNC the active starts SYNCING at once (R456). -/
def Dev.degrade (d : Dev) (c : Clock) : Dev :=
  if d.pstate ≠ psMirrored then d
  else
    let d1 := (d.pairTo psDegraded).record c 163 pairUnit 0
    if d.role = roleActive ∧ d.flag PAIR_CFG_RESYNC then d1.pairSync else d1

/-! Mirror records of the active (R458, R560). -/

/-- The active mirrors in SYNCING and MIRRORED, unless pair silence is injected (R458, R473, R562). -/
def Dev.mirrors (d : Dev) (c : Clock) : Bool :=
  d.role = roleActive && (d.pstate = psSyncing || d.pstate = psMirrored) && decide (d.flt.silentUntil ≤ c.ns)

/-- Send one mirror record: its brand follows R25 to R32, with OFFS 0. -/
def Dev.mirrorPut (d : Dev) (unit type : Nat) (time : Option Nat) (ws : List W64) : Dev :=
  let key := unit * 128 + type
  let seq := d.fab.prodSeq.get (fun _ => 0) key
  let tw := match time with
    | some t => [BitVec.ofNat 64 t, 0]
    | none => []
  let p : Packet := {
    brand := mkBrand 0 unit (type + (if time.isSome then 128 else 0)) (d.epochOf unit) seq 0
    words := tw ++ ws }
  let d1 : Dev := { d with
    fab := { d.fab with prodSeq := d.fab.prodSeq.set (fun _ => 0) key ((seq + 1) % 65536) }
    pair := { d.pair with sent := d.pair.sent ++ [p] } }
  d1.linkPut 1 (p.brand :: p.words)

def Dev.mark (d : Dev) (k : Nat) : Nat := d.pair.marks.get (fun _ => 0) k
def Dev.setMark (d : Dev) (k v : Nat) : Dev := { d with pair := { d.pair with marks := d.pair.marks.set (fun _ => 0) k v } }

/-- A pair of 32-bit values as one word, the second in the upper half. -/
def twoW (a b : Nat) : W64 := BitVec.ofNat 64 (a % 2 ^ 32 + b % 2 ^ 32 * 2 ^ 32)

/-- The payload of the lane state record of the period at s_k (R560). -/
def Dev.laneRecord (d : Dev) (l sk : Nat) : List W64 :=
  let x := d.pwmX l
  let y := d.fbkX l
  [twoW (uInt 32 x.nd) (uInt 32 x.nq), twoW (uInt 32 x.iqUsed) (d.get (PWM_Lnn_CC_IFW_VAL l)), BitVec.ofInt 64 x.velInt,
    BitVec.ofInt 64 x.posInt, BitVec.ofInt 64 x.velRef] ++ posWords y.x ++
  [BitVec.ofInt 64 y.v,
    BitVec.ofNat 64 ((d.lane l).state.code + d.get (PWM_Lnn_CC_STAT_START l) * 2 ^ 4 + (d.lane l).epoch * 2 ^ 8 +
      d.get (PWM_Lnn_CYC_STAT_CONSEC l) * 2 ^ 16 + d.get (PWM_Lnn_KIDX_K l) * 2 ^ 32),
    twoW (d.reg (PWM_Lnn_CC_STAT_START l).addr).toNat (uInt 32 (d.iTrim l sk)), 0]

/-- The active's records of a lane when its current job for s_k has ended: the duties of every period, the lane state every MDIV periods and
first of all (R458). -/
def Dev.mirrorLane (d : Dev) (c : Clock) (l sk : Nat) : Dev :=
  if !d.mirrors c then d
  else
    let bits (f : Field) : Nat := (d.reg f.addr).toNat
    let fl (f : Field) (k : Nat) : Nat := if (bits f).testBit 31 then 2 ^ k else 0
    let w2 := bits (PWM_Lnn_CW_C l) % 2 ^ 19 + fl (PWM_Lnn_CU_C l) 32 + fl (PWM_Lnn_CV_C l) 33 + fl (PWM_Lnn_CW_C l) 34 +
      (if d.flag (PWM_Lnn_CC_STAT_DEPTH l) then 2 ^ 35 else 0)
    let d1 := d.mirrorPut l 0x72 none [BitVec.ofNat 64 (bits (PWM_Lnn_CU_C l) % 2 ^ 19 + bits (PWM_Lnn_CV_C l) % 2 ^ 19 * 2 ^ 32),
      BitVec.ofNat 64 w2]
    let n := d.mark (192 + l)
    if n ≤ 1 then ((d1.mirrorPut l 0x73 none (d.laneRecord l sk)).setMark (192 + l) (d.get PAIR_CFG_MDIV)).setMark (224 + l) sk
    else d1.setMark (192 + l) (n - 1)

/-- Lane state records of the lanes that run no current job: of a servo lane every MDIV periods, of a stepper lane when its state or epoch has
changed (R458, R473; log entry 98). -/
def Dev.mirrorIdle (d : Dev) (c : Clock) (u : Nat) : Dev :=
  let x := d.lane u
  if u < 24 then
    let span := 2 * d.lanePer u * d.get PAIR_CFG_MDIV
    if d.laneRuns u ∨ c.ns < d.mark (224 + u) + span ∨ span = 0 then d
    else (d.mirrorPut u 0x73 none (d.laneRecord u ((d.fbkX u).at_.getD c.ns))).setMark (224 + u) c.ns
  else
    let m := 1 + x.state.code + 8 * x.epoch
    if d.mark (224 + u) = m then d
    else (d.mirrorPut u 0x73 none (List.replicate 8 0 ++ [BitVec.ofNat 64 (x.state.code + x.epoch * 2 ^ 8), 0, 0])).setMark (224 + u) m

/-- The words of a slot record for set-point s (R560). -/
def Dev.slotWords (d : Dev) (a : Nat) (s : Sample) : List W64 :=
  let x := d.axX a
  let e := (x.k0.run x.segs (secs x.t0 s.t)).1
  let seq := (d.fab.prodSeq.get (fun _ => 0) (a * 128 + 0x76) + 65535) % 65536
  [BitVec.ofInt 64 (s.p / 2 ^ 32), BitVec.ofNat 64 (uInt 32 s.p * 2 ^ 32 + seq * 2 ^ 16 + d.axMode a), BitVec.ofInt 64 s.v,
    BitVec.ofInt 64 s.a, BitVec.ofInt 64 (if x.mst.isSome then fix 32 e.p else 0)]

/-- The records of slot a, unless idle, at its last trajectory instant: the master sample it used, where remote, and the slot (R458). -/
def Dev.mirrorSlot (d : Dev) (a : Nat) : Dev :=
  let x := d.axX a
  if x.tj = 0 ∨ x.tj = d.mark (64 + a) ∨ d.slotIdle a then d
  else
    let d0 := d.setMark (64 + a) x.tj
    let d1 := match x.mst with
      | some m =>
        if d.remoteMaster a then (let s := x.snap m; d0.mirrorPut a 0x78 (some s.t) s.words) else d0
      | none => d0
    match (d.sample a).find? fun s => s.t = x.tj with
    | none => d1
    | some s => d1.mirrorPut a 0x74 (some x.tj) (d.slotWords a s)

/-- The record of block b at its last loop instant, unless it was OFF and still is (R458). -/
def Dev.mirrorLoop (d : Dev) (b : Nat) : Dev :=
  let x := d.loopX b
  let t := d.loopT b
  if x.tj = 0 ∨ t = 0 ∨ x.tj = d.mark (128 + b) ∨ (d.loopMode b = loopOff ∧ d.mark (288 + b) = 1) then d
  else ((d.setMark (128 + b) x.tj).setMark (288 + b) (1 + d.loopMode b)).mirrorPut (lpbUnit b) 0x75 none
    [twoW (d.get (LPB_bb_OUT_VAL b)) (d.get (LPB_bb_INTEG_VAL b)), twoW (d.get (LPB_bb_SPEFF_VAL b)) (uInt 32 x.df),
      BitVec.ofNat 64 (d.loopMode b + d.get (LPB_bb_STAT_REGION b) * 2 ^ 4 +
        (x.tj - 2 * d.get (LPB_bb_LPH_ACT_LPH b)) / t % 2 ^ 32 * 2 ^ 32)]

/-- Blocks whose configuration the pair mirrors: HERDER, GATE, PWM, DSF, SAR, FBK, STRIDE, TRJ, LOOP, CAP, CAN, FIO; and the duties of a lane,
which the duty record carries. -/
def isDuty (a : Nat) : Bool := (List.range 24).any fun l =>
  a = (PWM_Lnn_CU_C l).addr || a = (PWM_Lnn_CV_C l).addr || a = (PWM_Lnn_CW_C l).addr

/-- A register that names a slot's profile (R458). -/
def isProfile (a : Nat) : Bool := blockOf a = 9 && (let o := a % 0x100; o = 0x48 || o = 0x4C || o = 0x50 || o = 0x74 || o = 0x78)

/-- The bits of a register the configuration records carry: staged and directly written fields and those of a slot's profile, never a reserved
one (R14, R458). -/
def mirrorMask (a : Nat) : Nat := if isProfile a then (if a % 0x100 = 0x48 then 0x0FFF3F07 else 2 ^ 32 - 1) else (regMasks a).1

/-- A register the configuration records carry: staged or directly written, and what names a slot's profile (R458). -/
def isMirrored (a : Nat) : Bool :=
  [1, 3, 4, 5, 6, 7, 8, 9, 10, 11, 13, 16].contains (blockOf a) && decide (0x40000000 ≤ a) && !isDuty a && decide (mirrorMask a ≠ 0)

/-- The staged register of an in-force view, and a register itself (R15). -/
def stagedOf (a : Nat) : Nat :=
  match findRow a with
  | some (r, _, true) => a - r.act.getD r.off + r.off
  | _ => a

/-- The gate a register of GATE stands in, and its offset there. -/
def gateOf (a : Nat) : Option (Nat × Nat) :=
  if 0x40030100 ≤ a ∧ a < 0x40034100 then some ((a - 0x40030100) / 0x40, (a - 0x40030100) % 0x40) else none

/-- A gate's compare in force, as the standby needs it: a periodic gate's phase, a one-shot's instant while it is armed. -/
def Dev.gatePhase (d : Dev) (g : Nat) : Nat :=
  let per := d.get (GATE_GTnnn_PER_ACT_PER g)
  if per ≠ 0 then d.gateNext g % (2 * per) else if d.flag (GATE_GTnnn_CTL_ARMED g) then d.gateNext g else 0

/-- What the configuration records carry of a register (R458): its directly written fields, and of its staged fields the value in
force, which a commit transferred; the value staged for the next commit stays at home (R15). -/
def Dev.mirrorVal (d : Dev) (a : Nat) : Nat :=
  let w := (d.reg a).toNat
  match gateOf a, findRow a with
  | some (g, 8), _ => d.gatePhase g % 2 ^ 32
  | some (g, 12), _ => d.gatePhase g / 2 ^ 32
  | _, some (r, _, false) =>
    if isProfile a then w
    else
      let inForce := match r.act with
        | some v => (d.reg (a - r.off + v)).toNat
        | none => w / 2
      (w &&& r.rw) ||| (inForce &&& r.rws)
  | _, _ => 0

/-- The unit of a mirrored register: the slot or the lane of its window. -/
def mirrorUnit (a : Nat) : Nat :=
  if blockOf a = 9 ∧ a % 0x10000 < 0x4000 then a % 0x10000 / 0x100
  else if blockOf a = 4 ∧ a % 0x10000 < 0x6000 then a % 0x10000 / 0x400
  else 0xFE

/-- Configuration records for a list of registers and values: of one unit, up to six pairs each. -/
def Dev.mirrorPairs (d : Dev) (t unit : Nat) : Nat → List (Nat × Nat) → Dev
  | 0, _ => d
  | fuel + 1, ps =>
    if ps.isEmpty then d
    else
      let now := ps.take 6
      Dev.mirrorPairs (d.mirrorPut unit 0x76 (some t)
        (BitVec.ofNat 64 now.length :: now.map fun p => BitVec.ofNat 64 (p.2 + p.1 * 2 ^ 32))) t unit fuel (ps.drop 6)

/-- Send these registers with a commit instant, and remember them as mirrored. -/
def Dev.mirrorRegs (d : Dev) (t : Nat) (ps : List (Nat × Nat)) : Dev :=
  let units := (ps.map fun p => mirrorUnit p.1).dedup
  let d1 := units.foldl (fun d u => d.mirrorPairs t u ps.length (ps.filter fun p => mirrorUnit p.1 = u)) d
  { d1 with pair := { d1.pair with regs := ps.foldl (fun r p => r.set resetVal p.1 (BitVec.ofNat 32 p.2)) d1.pair.regs } }

/-- The profile record of slot a: its registers with t_a, once for each profile (R458). With it a slot in GEAR or CAM sends in a snapshot frame
what no register shows: X0, G0 and the end of the correction (R244, R245; log entry 98). -/
def Dev.mirrorProfile (d : Dev) (a : Nat) : Dev :=
  let x := d.axX a
  if x.t0 = 0 ∨ x.t0 = d.mark (320 + a) then d
  else
    let base := 0x40090000 + 0x100 * a
    let d1 := (d.mirrorRegs x.t0 ([0x48, 0x4C, 0x50, 0x74, 0x78].map fun o => (base + o, (d.reg (base + o)).toNat))).setMark (320 + a) x.t0
    match x.mst with
    | none => d1
    | some m => d1.snapPut {
        brand := mkBrand 0 a 0xC3 0 0 0
        words := [BitVec.ofNat 64 x.t0, 0] ++ posWords (fix 32 m.x0) ++ posWords (fix 32 m.g0) ++ [if m.toMatch then 1 else 0] }

/-- Configuration: accepted images with their commit instant, the profiles of the slots, then every value in force that changed otherwise
(R458). -/
def Dev.mirrorConfig (d0 : Dev) (c : Clock) : Dev :=
  let d := (List.range 64).foldl (fun d a => d.mirrorProfile a) d0
  let new := d.imgs.filter fun p => 0x40000000 ≤ p.group && !d.pair.known.contains p
  let d1 := new.foldl (fun d p =>
    d.mirrorRegs p.due ((p.pairs.filter fun x => isMirrored x.1).map fun x => (x.1, x.2 &&& mirrorMask x.1))) d
  let d2 : Dev := { d1 with pair := { d1.pair with known := d1.imgs } }
  let waits (a : Nat) : Bool := d.imgs.any fun p => p.pairs.any fun x => x.1 = a
  let keys := ((d.regs.map fun p => stagedOf p.1) ++ (d.pair.regs.map (·.1))).dedup
  let diff := keys.filter fun a =>
    isMirrored a && !isProfile a && !waits a && decide (d2.mirrorVal a ≠ (d2.pair.regs.get resetVal a).toNat &&& mirrorMask a)
  d2.mirrorRegs c.ns (diff.map fun a => (a, d2.mirrorVal a))

/-- The active's records that are due at a heartbeat (R458, R473). -/
def Dev.mirrorAll (d : Dev) (c : Clock) : Dev :=
  if !d.mirrors c then d
  else
    let d1 := (List.range 64).foldl (fun d a => d.mirrorSlot a) (d.mirrorConfig c)
    let d2 := (List.range 32).foldl (fun d u => d.mirrorIdle c u) ((List.range 16).foldl (fun d b => d.mirrorLoop b) d1)
    d2.streamPackets.foldl (fun d p => d.snapPut p) d2

/-! Mirror records on the standby (R458, R459, R473). -/

/-- The carried bits of a register take the value; its other bits stay (R14). -/
def Dev.putMasked (d : Dev) (a m v : Nat) : Dev :=
  d.setReg a ((d.reg a &&& ~~~BitVec.ofNat 32 m) ||| BitVec.ofNat 32 (v &&& m))

/-- A gate's mirrored group in force: on its grid from now, or at its one-shot instant (R69, R458). The active device has judged it, so
no setup margin, deferral or SKIP count applies here (the model's choice, log entry 75). -/
def Dev.takeGate (d : Dev) (c : Clock) (g : Nat) : Dev :=
  let per := d.get (GATE_GTnnn_PER_PER g)
  let cmp := d.get64 (GATE_GTnnn_CMP_LO_CMP g) (GATE_GTnnn_CMP_HI_CMP g)
  d.gateInForce g (d.reg (GATE_GTnnn_CFG_EN g).addr).toNat per (if per = 0 then cmp else (gridFrom cmp per c.ns).1) c.ns

/-- Mirrored registers take effect as the commit of the active put them in force: staged and in force at once, and the grids follow. -/
def Dev.takePairs (d : Dev) (c : Clock) (ps : List (Nat × Nat)) : Dev :=
  let d1 := ps.foldl (fun d p =>
    let d' := d.putMasked p.1 (mirrorMask p.1) p.2
    match findRow p.1 with
    | some (r, _, false) => (match r.act with
      | some v => d'.putMasked (p.1 - r.off + v) r.rws p.2
      | none => d')
    | _ => d') d
  let gates := (ps.filterMap fun p => (gateOf p.1).map (·.1)).dedup
  let d2 := gates.foldl (fun d g => d.takeGate c g) d1
  let lanes := (ps.filterMap fun p => if blockOf p.1 = 4 then instOf 4 (p.1 % 0x10000) else none).dedup
  let clocks := (ps.filterMap fun p => if blockOf p.1 = 5 ∧ p.1 % 0x10000 < 0x18 then some (p.1 % 0x10000 / 4) else none).dedup
  clocks.foldl (fun d m => d.refreshClock c m)
    (lanes.foldl (fun d u => if u < 24 then d.regrid c u else d.regridStp c (u - 24)) d2)

/-- The pairs of a configuration record. -/
def recPairs (p : Packet) : List (Nat × Nat) :=
  (((p.payload.drop 1).take (bits64 (p.word 1) 0 8)).map fun w => (bits64 w 32 32, bits64 w 0 32)).filter fun x => isMirrored x.1

/-- Configuration records whose commit instant has come: those of one instant together, so that no group goes in force in parts (R15). -/
def Dev.takeRecs (d : Dev) (c : Clock) : Dev :=
  let due := d.pair.recs.filter fun p => p.timeNs ≤ c.ns
  if due.isEmpty then d
  else ({ d with pair := { d.pair with recs := d.pair.recs.filter fun p => c.ns < p.timeNs } }).takePairs c (due.flatMap recPairs)

/-- Records that came after their commit instant, when the heartbeat has closed their batch: together (R15; log entry 75). -/
def Dev.takeLate (d : Dev) (c : Clock) : Dev :=
  if d.pair.late.isEmpty then d
  else ({ d with pair := { d.pair with late := [] } }).takePairs c (d.pair.late.flatMap recPairs)

/-- A duty record: staged and committed for its reload; past the latch point it is for the next reload, and the lane is left out of readback
for the carrier period it missed (R458). -/
def Dev.takeDuty (d : Dev) (c : Clock) (l : Nat) (p : Packet) : Dev :=
  let w1 := p.word 1
  let w2 := p.word 2
  let fl (k : Nat) : Nat := bits64 w2 k 1 * 2 ^ 31
  let st (d : Dev) (f : Field) (v : Nat) : Dev := d.stageWrite c l f.addr (BitVec.ofNat 32 v)
  let d1 := st (st (st d (PWM_Lnn_CU_C l) (bits64 w1 0 19 + fl 32)) (PWM_Lnn_CV_C l) (bits64 w1 32 19 + fl 33)) (PWM_Lnn_CW_C l)
    (bits64 w2 0 19 + fl 34)
  let t := d.packetNs c.ns p
  let r := t + reloadAfter (d.lanePer l)
  let d2 := d1.pwmCommit c l (some t) (some (brandEpoch p.brand))
  if c.ns + 8 ≤ r then d2
  else { d2 with pair := { d2.pair with excl := d2.pair.excl.set (fun _ => 0) l (r + 2 * d.lanePer l) } }

/-- The standby's port takes the active's count (R473). -/
def Dev.alignPort (d : Dev) (n : Nat) (delta : Int) : Dev :=
  let y := d.fbkX n
  let q := if d.fbMode n = fbSinCos then 0 else delta / 2 ^ 32
  let d1 := d.setFbkX n { y with count := y.count + q, sinOff := y.sinOff + delta, x := y.x + delta, xr := y.xr + delta }
  { d1 with pair := { d1.pair with aligned := insId n d1.pair.aligned } }

/-- The state and epoch of lane u as a record names them; the code of a FAULT came with its type 0x70 packet (R550). A lane that starts to run
resets what trims it (R282). -/
def Dev.takeState (d : Dev) (c : Clock) (u : Nat) (w : W64) : Dev :=
  let st : LaneState := match bits64 w 0 3 with
    | 1 => .armed
    | 2 => .enabled
    | 3 => .stopping
    | 4 => .fault
    | _ => .disabled
  let z := d.lane u
  let d1 := if z.state = st then d else d.laneEnter c u c.ns st z.fcode
  let d2 := if st.running && !z.state.running then d1.loopReset u else d1
  (d2.setLane u { d2.lane u with epoch := bits64 w 8 8 }).showHolds

/-- A lane state (R458, R459): the state the survivor would go on with; the position is compared with the standby's own latch of the same
instant, and beyond 1 count the pair is DEGRADED. -/
def Dev.takeLane (d : Dev) (c : Clock) (l : Nat) (p : Packet) : Dev :=
  let w (n : Nat) : W64 := p.word n
  let x := d.pwmX l
  let d1 := d.setPwmX l { x with
    nd := sInt 32 (bits64 (w 1) 0 32), nq := sInt 32 (bits64 (w 1) 32 32), iqRef := sInt 32 (bits64 (w 2) 0 32)
    iqUsed := sInt 32 (bits64 (w 2) 0 32), velInt := (w 3).toInt, posInt := (w 4).toInt, velRef := (w 5).toInt }
  let d2 := d1.takeState c l (w 9)
  let d3 := (((d2.setReg (PWM_Lnn_CC_STAT_START l).addr (BitVec.ofNat 32 (bits64 (w 10) 0 32 &&& 0x1F7F))).put (PWM_Lnn_CC_IFW_VAL l)
    (bits64 (w 2) 32 32)).put (PWM_Lnn_CYC_STAT_CONSEC l) (bits64 (w 9) 16 4)).put (PWM_Lnn_KIDX_K l) (bits64 (w 9) 32 32)
  let y := d3.fbkX l
  let delta := posOf (w 6) (w 7) - y.x
  if y.at_ ≠ some (d.packetNs c.ns p) ∨ delta.natAbs ≤ 2 ^ 32 then d3
  else if d.pstate = psSyncing ∧ !d.pair.aligned.contains l then d3.alignPort l delta
  else ({ d3 with pair := { d3.pair with deviated := true } }).degrade c

/-- X0, G0 and the end of the correction of slot a's master (log entry 98). -/
def Dev.takeOrigin (d : Dev) (a : Nat) (p : Packet) : Dev :=
  d.setAxX a { d.axX a with origin := some (posQ (posOf (p.word 1) (p.word 2)), posQ (posOf (p.word 3) (p.word 4)), p.word 5 = 1) }

/-- A slot (R458): set-point, mode and correction. What a loop trims is taken off, so that the trim goes on (R281, R283). A slot in GEAR or CAM
goes on with the master its registers name, and its correction from what the record shows (R245). -/
def Dev.takeSlot (d0 : Dev) (c : Clock) (a : Nat) (p : Packet) : Dev :=
  let d := d0.enrol (slotSetpoint a)
  let t := p.timeNs
  let mode := bits64 (p.word 2) 0 3
  let s : Sample := { t := t, p := (p.word 1).toInt * 2 ^ 32 + bits64 (p.word 2) 32 32, v := (p.word 3).toInt, a := (p.word 4).toInt }
  let trim := d.axTrim a t
  let k : Kin := { p := posQ s.p - trim.1, v := mkRat s.v (2 ^ 32) - trim.2, a := mkRat s.a (2 ^ 16) }
  let typ := d.get (TRJ_AXaa_MSRC_TYPE a)
  let slot := d.get (TRJ_AXaa_MSRC_SLOT a)
  let addr := d.get (TRJ_AXaa_MSRC_ADDR a)
  let (x0, g0, toMatch) := (d.axX a).origin.getD (0, 0, false)
  let m : Master := {
    cam := mode = modeCam, key := masterKey typ slot addr a, typ := typ, slot := slot, addr := addr, table := d.get (TRJ_AXaa_MSRC_TABLE a)
    rel := false, toMatch := toMatch, n := d.getI (TRJ_AXaa_GN_N a), m := d.get (TRJ_AXaa_GM_M a), g0 := g0, x0 := x0 }
  let follows := mode = modeGear ∨ mode = modeCam
  let x := d.axX a
  let d1 := (d.setAxX a { x with
    tj := t, live := true, t0 := t, segs := [], pend := [], work := none, tc := none, vEnd := k.v, final := none
    snaps := if follows then [(m.key, (d.sample m.key).find? fun s => s.t ≤ t)] else []
    mst := if follows then some m else none
    k0 := if follows then {} else k }).axSetMode a mode
  let d2 := if follows then
      (let g := (d1.mstPart a m t).1
       let e : Kin := { p := mkRat (p.word 5).toInt (2 ^ 32), v := k.v - g.v, a := k.a - g.a }
       let l := { d1.axLims a with v := d1.axVmax a }
       let segs := if toMatch then velChange l e.v e.a 0 else planMove l e.v e.a (-e.p)
       d1.setAxX a { d1.axX a with k0 := e, segs := segs }) else d1
  d2.pushSample c.ns a s

/-- A process loop (R458). -/
def Dev.takeLoop (d0 : Dev) (b : Nat) (p : Packet) : Dev :=
  let d := d0.enrol (160 + b)
  let t := 2 * d.get (LPB_bb_LPH_ACT_LPH b) + bits64 (p.word 3) 32 32 * d.loopT b
  let d1 := (((d.put (LPB_bb_OUT_VAL b) (bits64 (p.word 1) 0 32)).put (LPB_bb_INTEG_VAL b) (bits64 (p.word 1) 32 32)).put
    (LPB_bb_SPEFF_VAL b) (bits64 (p.word 2) 0 32)).putState (lpbUnit b) (LPB_bb_STAT_MODE b) (bits64 (p.word 3) 0 2)
  let d2 := (d1.put (LPB_bb_STAT_REGION b) (bits64 (p.word 3) 4 3)).setLoopX b { d1.loopX b with
    df := sInt 32 (bits64 (p.word 2) 32 32), tj := t, fresh := false, place := false, gains := false, pend := [], due := none }
  { d2 with loops := (d2.loopSend b (t + d.loopT b)).loops }

/-- Configuration: for its commit instant; a profile at once; what comes after its instant, with the rest of its batch. -/
def Dev.takeConfig (d : Dev) (c : Clock) (p : Packet) : Dev :=
  if (recPairs p).all fun x => isProfile x.1 then d.takePairs c (recPairs p)
  else if p.timeNs ≤ c.ns then { d with pair := { d.pair with late := d.pair.late ++ [p] } }
  else { d with pair := { d.pair with recs := d.pair.recs ++ [p] } }

/-- A class L fault of the active against a lane: its code, for when the lane's record shows FAULT (R221, R550). -/
def Dev.takeFault (d : Dev) (p : Packet) : Dev :=
  let u := bits64 (p.word 1) 16 8
  let x := d.lane u
  let code := bits64 (p.word 1) 0 10
  if u < 32 ∧ x.state ≠ .fault ∧ faultClass code = 1 then d.setLane u { x with fcode := worseCode x.fcode code } else d

/-- Commands whose ACCEPT stays their only response (R374, R474). -/
def onlyAccepted : List Nat := [0x0005, 0x0006, 0x0007, 0x0901]

/-- A cam.load that the active decided (R247, R385, R461): the standby follows its segments; the table is usable here once it is there. -/
def Dev.camMirror (d : Dev) (m id rt : Nat) (req : List W64) : Dev :=
  let w := req.getD 4 0
  let i := camIdx (bits64 (req.getD 3 0) 24 8) (bits64 w 0 4)
  match d.pair.link.cams.find? fun l => l.work = id with
  | some l =>
    if rt < 2 then d
    else
      let d1 := d.setLink { d.pair.link with cams := d.pair.link.cams.filter fun l => l.work ≠ id }
      if rt = 2 then d1.camStore l.tab l.spline l.periodic l.pts else d1.camStore l.tab false false []
  | none =>
    if rt = 1 then (d.setMbox m { d.mbox m with stage := none })
    else
      match d.segment m 0x0212 (bits64 w 8 8) (bits64 w 6 1 = 1) ((req.drop 4).take (1 + 2 * bits64 w 16 6)) with
      | .refuse d1 => d1
      | .stored d1 => d1
      | .whole segs d1 =>
        let l : MirrorCam := { work := id, tab := i, spline := bits64 w 4 1 = 1, periodic := bits64 w 5 1 = 1, pts := segPts segs }
        if rt = 0 then d1.setLink { d1.pair.link with cams := d1.pair.link.cams ++ [l] } else d1.camStore i l.spline l.periodic l.pts

/-- A decision or a later response of the active (R461, R466, R470): the stream of its mailbox goes on from it, and an ACCEPT leaves work that
a takeover would answer, to the requester it names (R401). -/
def Dev.takeDecision (d : Dev) (m : Nat) (ws : List W64) : Dev :=
  let w3 := ws.getD 3 0
  let opc := bits64 w3 0 16
  let rt := bits64 w3 16 2
  let seq := bits64 w3 32 16
  let id := 65536 * m + seq
  let req := d.pair.store.get (fun _ => []) id
  let d0 := if opc = 0x0212 ∧ req ≠ [] then d.camMirror m id rt req else d
  let d1 : Dev := { d0 with pair := { d0.pair with
    decided := d0.pair.decided.set (fun _ => []) m ws
    store := if rt = 0 then d0.pair.store else d0.pair.store.set (fun _ => []) id [] } }
  let d2 := ((d1.setMbox m { d1.mbox m with rspSeq := (brandSeq (ws.headD 0) + 1) % 65536, lastRsp := ws }).put (MBX_Mm_SEQ_LAST m) seq).setf
    (MBX_Mm_STAT_SEQV m)
  let rest := d2.work.filter fun w => w.id ≠ id
  let promise := (ws.getD 1 0).toNat
  let unit := if req = [] then bits64 (ws.getD 4 0) 0 8 else bits64 (req.getD 3 0) 24 8
  let work := if rt = 0 ∧ !onlyAccepted.contains opc then
      { id := id, opc := opc, unit := unit, promise := promise, src := BitVec.ofNat 8 (brandAddr (ws.headD 0)) } :: rest
    else rest
  { d2 with work := work }

/-- A segment of a cam table that the snapshot brings. -/
def Dev.takeCam (d : Dev) (p : Packet) : Dev :=
  let w := p.word 2
  let i := camIdx (bits64 (p.word 1) 24 8) (bits64 w 0 4)
  let pts := (if bits64 w 8 8 = 0 then [] else d.pair.link.part) ++ segPts [p.payload.drop 1]
  let d1 := d.setLink { d.pair.link with part := if bits64 w 6 1 = 1 then [] else pts }
  if bits64 w 6 1 = 1 then d1.camStore i (bits64 w 4 1 = 1) (bits64 w 5 1 = 1) pts else d1

/-- Where a stream of the active stands (R466). -/
def Dev.takeStream (d : Dev) (p : Packet) : Dev :=
  let key := ((p.words.headD 0).toNat * 256 + brandAddr p.brand) * 2 ^ 15 + brandUnit p.brand * 128 + brandType p.brand
  { d with fab := { d.fab with prodSeq := d.fab.prodSeq.set (fun _ => 0) key (brandSeq p.brand) } }

/-- Where the frames of the active stand (R32, R466). -/
def Dev.takeFrames (d : Dev) (p : Packet) : Dev :=
  { d with chain := { d.chain with
    seqs := d.chain.seqs.set (fun _ => 0) (frameKey (d.get PAIR_STAT_PADDR) (brandAddr p.brand) (brandUnit p.brand)) (brandSeq p.brand) } }

/-- The output of a loop block on the active (R281). -/
def Dev.takeOutput (d : Dev) (b : Nat) (p : Packet) : Dev :=
  d.setLoopX b { d.loopX b with outs := [{ at_ := p.timeNs, w := posQ (posOf (p.word 1) (p.word 2)), d := posQ (posOf (p.word 3) (p.word 4)) }] }

/-- Apply one record or snapshot packet by its type. -/
def Dev.takeRecord (d : Dev) (c : Clock) (p : Packet) : Dev :=
  let u := brandUnit p.brand
  match brandType p.brand with
  | 0x41 => d.takeStream p
  | 0x42 => d.takeStream p
  | 0x43 => if u < 64 then d.takeOrigin u p else d
  | 0x50 => d.takeStream p
  | 0x51 => if brandAddr p.brand = 0 then (if 0x40 ≤ u ∧ u < 0x50 then d.takeOutput (u - 0x40) p else d) else d.takeStream p
  | 0x60 => d.takeCam p
  | 0x61 => if 0x70 ≤ u ∧ u < 0x80 then d.takeDecision (u - 0x70) (p.brand :: p.words) else d
  | 0x68 => d.takeFrames p
  | 0x70 => d.takeFault p
  | 0x72 => if u < 24 then d.takeDuty c u p else d
  | 0x73 => if u < 24 then d.takeLane c u p else if u < 32 then d.takeState c u (p.word 9) else d
  | 0x74 => if u < 64 then d.takeSlot c u p else d
  | 0x75 => if 0x40 ≤ u ∧ u < 0x50 then d.takeLoop (u - 0x40) p else d
  | 0x76 => d.takeConfig c p
  | 0x78 => if u < 64 then d.pushSample c.ns (masterKey (d.get (TRJ_AXaa_MSRC_TYPE u)) (d.get (TRJ_AXaa_MSRC_SLOT u))
      (d.get (TRJ_AXaa_MSRC_ADDR u)) u) { sampleOf p.timeNs p with j := 0 } else d
  | _ => d

/-- The standby takes what the active sends, after its join and before it leaves. -/
def Dev.follows (d : Dev) : Bool :=
  d.role = roleStandby && (d.pstate = psSyncing || d.pstate = psMirrored || d.pstate = psDegraded)

/-- MIRROR_RECORD: one record of the active arrives (R458). -/
def execMirrorRecord (r : MirrorRec) (s : State) : Host.Outcome State Fault Refusal :=
  .next (s.onServing fun c d => if d.follows then
    ({ d with pair := { d.pair with got := d.pair.got + 1 } }).takeRecord c r else d)

/-- SNAPSHOT: the frames of the active's snapshot (R473). -/
def execSnapshot (rs : List Packet) (s : State) : Host.Outcome State Fault Refusal :=
  .next (s.onServing fun c d => if d.follows then rs.foldl (fun d r => d.takeRecord c r) d else d)

/-! Takeover (R464, R466 to R471). -/

/-- Stride units whose edge instants fall before `t` are queued and emitted from then on (R167, R471). -/
def Dev.strideHold (d : Dev) (t s : Nat) : Dev :=
  let y := d.strX s
  let sp := d.strSpacing s
  let late := (y.out.filter fun o => o.1 < t).length
  let out := y.out.zipIdx.map fun o => if o.1.1 < t then (t + o.2 * sp, o.1.2.1, true) else
    (max o.1.1 (t + late * sp), o.1.2.1, o.1.2.2 || decide (o.1.1 < t + late * sp))
  let y1 := { y with out := out, lastAt := some (match out.getLast? with
    | some o => o.1
    | none => t - sp) }
  (d.setStrX s y1).put (STR_s_STAT_QDEPTH s) y1.queued

/-- Takeover at t_tk (R466 to R471): RUN and ACTIVE, MBX_EPOCH + 1, FP161, both addresses, LOST; the discrete work of the failed device is
answered FAULT; lanes, slots and loops resume 2,000 ns later. The pull, the OWN_IN check and the drive follow (`pairDue`). -/
def Dev.takeover (d : Dev) (c : Clock) : Dev :=
  let d1 := (d.deviceTo c .run).put PAIR_STAT_ROLE roleActive
  let d2 := d1.put MBX_STAT_EPOCH (d1.get MBX_STAT_EPOCH + 1)
  let d3 := ((d2.record c 161 pairUnit 0).capDiscard c).discard c 161 (d2.work.map (·.id))
  let d4 : Dev := { d3 with
    imgs := []
    lanes := d3.lanes.mapV (fun _ => {}) fun x => { x with chg := [] }
    ax := d3.ax.mapV (fun _ => {}) fun x => { x with pend := [] }
    loops := d3.loops.mapV (fun _ => {}) fun x => { x with pend := [] }
    her := { d3.her with demands := [] }
    mbx := d3.mbx.mapV (fun _ => {}) fun x => { x with taken := [], stage := none }
    pair := { d3.pair with both := true, tk := some c.ns, resume := c.ns + 2000, recs := [], late := [], link := { d3.pair.link with cams := [] } } }
  let d5 := (List.range 16).foldl (fun d m => d.setf (MBX_Mm_STAT_SEQV m) false) d4
  let d6 := (List.range 64).foldl (fun d a =>
    if d.axMode a = modePosition ∨ d.axMode a = modeStop ∨ (d.axMode a = modeVelocity ∧ (d.axX a).k0.a ≠ 0) then d.setAxX a { d.axX a with disc := true } else d) d5
  ((List.range 8).foldl (fun d s => d.strideHold (c.ns + 500) s) d6).pairTo psLost

/-- The standby takes over if the pair is MIRRORED and it has no device-class fault; what the cause is otherwise does `other` say (R464). -/
def Dev.tryTakeover (d : Dev) (c : Clock) (other : Dev) : Dev :=
  if d.role = roleStandby ∧ d.pstate = psMirrored ∧ d.dst = .mirror ∧ d.flt.active.isEmpty then d.takeover c else other

/-- A servo lane's switches start again at t ns as though every switch had turned off then: none turns on before the dead time (R209,
R466). -/
def Dev.restartSw (d : Dev) (l t : Nat) : Dev :=
  let x := d.pwmX l
  let t4 := 4 * t
  let on := t4 + 8 * d.get (PWM_Lnn_DT_ACT_DT l)
  let endOf (i from_ : Nat) : Bool := x.edges.any fun e => e.sw = i && !e.on && decide (from_ ≤ e.t) && decide (e.t ≤ on)
  let kept := x.edges.filterMap fun e =>
    if e.on ∧ e.t < on then (if endOf e.sw e.t then none else some { e with t := on }) else some e
  let again := (List.range 6).filterMap fun i =>
    if (x.sw.getD i {}).on && !endOf i 0 then some { t := on, sw := i, on := true : Edge } else none
  d.setPwmX l { x with
    sw := (List.range 6).map fun i => { x.sw.getD i {} with on := false, offAt := t4 }
    edges := kept ++ again }

/-- What follows a takeover: PFORCE_N at 100 ns; at 500 ns the drive, or FD165 and SAFE where OWN_IN is still high (R466). -/
def Dev.pairDue (d : Dev) (c : Clock) : Dev :=
  match d.pair.tk with
  | none => d
  | some t =>
    let d1 := if t + 100 ≤ c.ns ∧ !d.flag PAIR_STAT_PULL then d.pull true else d
    if c.ns < t + 500 then d1
    else
      let d2 : Dev := { d1 with pair := { d1.pair with tk := none } }
      if d.flag PAIR_STAT_OWNIN then (d2.deviceFault c 165 pairUnit 0 true).showAll c
      else ((List.range 24).foldl (fun d l => d.restartSw l (t + 500)) d2).showAll c

/-! The link and the heartbeat (R453 to R456). -/

/-- FC160, at most once per 1 ms (R453). -/
def Dev.linkError (d : Dev) (c : Clock) : Dev := d.reportLim c 160 pairUnit

/-- The link trains (R453): the partner's chain address, and whether the partner is the same member with the same die and image. -/
def execPairLinkTrained (same : Bool) (addr : BitVec 8) (s : State) : Host.Outcome State Fault Refusal :=
  .next (s.onServing fun c d =>
    let d1 := (d.setf PAIR_STAT_LINK).put PAIR_STAT_PADDR addr.toNat
    { d1 with pair := { d1.pair with same := same, beat := c.ns / 2000 } })

def execPairLinkLost (s : State) : Host.Outcome State Fault Refusal :=
  .next (s.onServing fun c d => if d.flag PAIR_STAT_LINK then (d.setf PAIR_STAT_LINK false).linkError c else d)

/-- A link frame is good: NW counts its payload words, at most 64, and the CRC-32C word is that of header and payload (R368, R453). -/
def linkOk (crc : W64) (f : LinkFrame) : Bool :=
  decide (f.words.length = bits64 f.header 8 8) && decide (f.words.length ≤ 64) && decide (crc.toNat = crcWords (f.header :: f.words))

/-- A link frame arrives (R453): a bad one is discarded; the contents of a good one arrive by the rows of their own. -/
def execPairLinkFrame (crc : W64) (f : LinkFrame) (s : State) : Host.Outcome State Fault Refusal :=
  .next (s.onServing fun c d =>
    if !d.flag PAIR_STAT_LINK then d
    else if linkOk crc f then d.setLink { d.pair.link with rx := some f.header }
    else (d.bump PAIR_CNT_LERR).linkError c)

/-- The payload word of a heartbeat (R454). -/
def Dev.heartbeatWord (d : Dev) (c : Clock) : W64 :=
  BitVec.ofNat 64 (d.role + d.dst.code * 2 ^ 2 + d.pstate * 2 ^ 5 + (if d.flag PAIR_CFG_ALLOW then 2 ^ 8 else 0) +
    d.pair.sent.length % 2 ^ 16 * 2 ^ 16 + c.ns % 2 ^ 32 * 2 ^ 32)

/-- The heartbeat's frame. -/
def Dev.linkBeat (d : Dev) (c : Clock) : Dev := d.linkPut 0 [d.heartbeatWord c]

/-- A load in u8.8, saturated. -/
def u88 (x : Rat) : Nat := satU 16 (x * 256).floor.toNat

/-- Capture sees the mirror records that the device produced since the last heartbeat (R524). -/
def Dev.captureSent (d : Dev) (c : Clock) : Dev := d.pair.sent.foldl (fun d p => d.capture c p) d

/-- A heartbeat is sent at each multiple of 2,000 ns while the link is up (R454, R562): after the mirror records that are due. -/
def Dev.heartbeatSend (d : Dev) (c : Clock) : Dev :=
  let t := c.ns / 2000 * 2000
  if !d.flag PAIR_STAT_LINK ∨ t ≤ d.pair.sentAt ∨ c.ns < d.flt.silentUntil then d
  else
    let d0 := d.setLink { d.pair.link with frames := [] }
    let d1 := ((d0.mirrorAll c).captureSent c).put PAIR_BW_BW (u88 (d.mirrorLoad (d.get PAIR_CFG_MDIV))) |>.linkBeat c
    { d1 with pair := { d1.pair with word := d1.heartbeatWord c, sentAt := t, out := d1.pair.sent, sent := [] } }

def execHeartbeatSend (s : State) : Host.Outcome State Fault Refusal := .next (s.onServing fun c d => d.heartbeatSend c)

def hbRole (w : W64) : Nat := bits64 w 0 2
def hbState (w : W64) : Nat := bits64 w 2 3
def hbPstate (w : W64) : Nat := bits64 w 5 3
def hbAllow (w : W64) : Bool := bits64 w 8 1 = 1
def hbCount (w : W64) : Nat := bits64 w 16 16

/-- The send instant of a heartbeat from its low 32 bits: the one nearest to now. -/
def hbInstant (c : Clock) (w : W64) : Nat :=
  let back := (c.ns % 2 ^ 32 + 2 ^ 32 - bits64 w 32 32) % 2 ^ 32
  if back < 2 ^ 31 then c.ns - back else c.ns + (2 ^ 32 - back)

/-- The pair time offset in 2^-16 ns (R455). -/
def hbOffset (c : Clock) (h : Heartbeat) : Int := ((c.ns : Int) - hbInstant c h.word) * 2 ^ 16 + c.frac - h.delay

/-- Offset, and the run of offsets beyond TOFFLIM (R455). -/
def Dev.hbTime (d : Dev) (c : Clock) (h : Heartbeat) : Dev :=
  let o := hbOffset c h
  let far := if d.get PAIR_CFG2_TOFFLIM * 2 ^ 16 < o.natAbs then d.pair.far + 1 else 0
  let d1 := d.putI PAIR_OFFS_OFFS (satS 32 o)
  let d2 : Dev := { d1 with pair := { d1.pair with far := far } }
  if 16 ≤ far then d2.degrade c else d2

/-- The standby becomes MIRRORED: MIRROR, a CAN frame under way is cut off, and DONE of its join (R428, R473). -/
def Dev.enterMirror (d : Dev) (c : Clock) : Dev :=
  let cut := (List.range 8).foldl (fun d ch => d.canLost c ch) d
  let d0 := (if d.dst = .mirror then d else (cut.deviceTo c .mirror).showAll c).pairTo psMirrored
  let d1 := ({ d0 with pair := { d0.pair with good := 0 } }).setLink { d0.pair.link with ack := false }
  match d1.pair.join with
  | some (_, w) => ({ d1 with pair := { d1.pair with join := none } }).finish w 2 c.ns
  | none => d1

/-- The partner's heartbeat answers this device's PSTATE: to the active's SYNCING the standby shows SYNCING, to the standby's MIRRORED the active
shows MIRRORED. Until then what it shows may be older than this device's last change (log entry 98). -/
def Dev.hbAck (d : Dev) (w : W64) : Dev :=
  if hbPstate w = d.pstate then d.setLink { d.pair.link with ack := true } else d

/-- The standby's side of a heartbeat: the record count, the run to MIRRORED, and what the partner has become (R456, R458, R473, R474). A
standby in MIRRORED starts again with an active that is SYNCING, and is DEGRADED with one that is. -/
def Dev.hbStandby (d : Dev) (c : Clock) (w : W64) : Dev :=
  let whole := decide (hbCount w ≤ d.pair.got)
  let clean := whole && !d.pair.deviated
  let d0 : Dev := { d with pair := { d.pair with got := 0, deviated := false, good := if clean then d.pair.good + 1 else 0 } }
  let d1 := (((if whole then d0 else d0.degrade c).takeLate c).hbAck w)
  let again := d1.pstate = psDegraded ∨ d1.pstate = psLost ∨ (d1.pstate = psMirrored ∧ (d1.pair.link.ack = true ∨ 16 ≤ d1.pair.good))
  if hbState w = DevState.safe.code then d1.pairLost c
  else if d1.dst = .mirror ∧ hbRole w = roleActive ∧ hbPstate w = psSolo then d1.resetFrom c.ns
  else if hbPstate w = psSyncing ∧ again then d1.pairSync
  else if hbPstate w = psDegraded then d1.degrade c
  else if d1.pstate = psSyncing ∧ hbPstate w = psSyncing ∧ 16 ≤ d1.pair.good then d1.enterMirror c
  else d1

/-- The active's side (R456, R473): a standby that joins, has all state, is DEGRADED or in SAFE; a partner that has taken over. -/
def Dev.hbActive (d0 : Dev) (c : Clock) (w : W64) : Dev :=
  let d := d0.hbAck w
  if hbRole w = roleActive then (if d.pstate = psSolo then d else d.pairLost c)
  else if hbRole w ≠ roleStandby then d
  else if hbState w = DevState.safe.code then (if d.pstate = psSolo then d else d.pairLost c)
  else if hbPstate w = psSyncing ∧ d.flag PAIR_CFG_ALLOW ∧ d.pstate ≠ psSyncing ∧ d.pstate ≠ psMirrored then d.pairSync
  else if hbPstate w = psMirrored ∧ d.pstate = psSyncing ∧ d.pair.link.ack = true then (d.pairTo psMirrored).pull false
  else if hbPstate w = psDegraded then d.degrade c
  else d

/-- A heartbeat arrives; it counts as received by its instant plus 1,000 ns (R454, R455). -/
def Dev.heartbeatReceived (d : Dev) (c : Clock) (h : Heartbeat) : Dev :=
  let t := hbInstant c h.word
  if !d.flag PAIR_STAT_LINK ∨ t + 1000 < c.ns then d
  else
    let w := h.word
    let own := d.role = roleStandby ∧ hbRole w = roleActive ∧ d.flag PAIR_STAT_PFORCE
    let d1 : Dev := { d with pair := { d.pair with seen := some w, beat := max d.pair.beat (t / 2000), link := { d.pair.link with delay := h.delay } } }
    let d2 := d1.put PAIR_STAT_MISS 0
    let d3 := (if own then d2.setf PAIR_STAT_OWNIN else d2).hbTime c h
    if d3.role = roleStandby then d3.hbStandby c w else if d3.role = roleActive then d3.hbActive c w else d3

def execHeartbeatReceived (h : Heartbeat) (s : State) : Host.Outcome State Fault Refusal :=
  .next (s.onServing fun c d => d.heartbeatReceived c h)

/-- A heartbeat has not arrived by its instant plus 1,000 ns; the third in a row takes over or loses the partner (R454, R456, R464). -/
def Dev.heartbeatMiss (d : Dev) (c : Clock) : Dev :=
  let k := (c.ns - 1000) / 2000
  if c.ns < 1000 ∨ k ≤ d.pair.beat ∨ d.pstate = psSolo then d
  else
    let n := min 15 (d.get PAIR_STAT_MISS + 1)
    let d1 : Dev := { d with pair := { d.pair with beat := d.pair.beat + 1 } }
    let d2 := d1.put PAIR_STAT_MISS n
    if n = 3 then d2.tryTakeover c (d2.pairLost c) else d2

def execHeartbeatMiss (s : State) : Host.Outcome State Fault Refusal := .next (s.onServing fun c d => d.heartbeatMiss c)

/-- A SAFE notice of the partner with its FCODE (R464, R554): an internal code lets the standby take over; a plant code takes it to SAFE with
the same code. -/
def Dev.safeNotice (d : Dev) (c : Clock) (code : Nat) : Dev :=
  let d1 : Dev := { d with pair := { d.pair with notice := some c.ns } }
  if [34, 111, 115, 121, 203].contains code then d1.tryTakeover c d1
  else if [77, 165, 175].contains code ∧ d1.role = roleStandby ∧ d1.dst = .mirror then (d1.enterSafe c code).pairLost c
  else d1

def execSafeNotice (code : BitVec 16) (s : State) : Host.Outcome State Fault Refusal :=
  .next (s.onServing fun c d => if d.flag PAIR_STAT_LINK then d.safeNotice c (code.toNat % 1024) else d)

/-- OWN_IN falls (R464): without a SAFE notice in the 1,000 ns before, the standby takes over. -/
def Dev.ownInFall (d : Dev) (c : Clock) : Dev :=
  let d1 := d.setf PAIR_STAT_OWNIN false
  match d.pair.notice with
  | some t => if c.ns ≤ t + 1000 then d1 else d1.tryTakeover c d1
  | none => d1.tryTakeover c d1

def execOwnInFall (s : State) : Host.Outcome State Fault Refusal := .next (s.onServing fun c d => d.ownInFall c)

/-! PFORCE_N (R452, R467). -/

/-- PFORCE_N falls: outputs at high impedance unless this device pulls it; an active member is forced out with FP162 and enters SAFE. -/
def Dev.pforceLow (d : Dev) (c : Clock) : Dev :=
  let d1 := d.setf PAIR_STAT_PFORCE false
  if d.flag PAIR_STAT_PULL ∨ d.pforce then d1
  else
    let d2 : Dev := { d1 with pforce := true }
    let d3 := if d.role = roleActive then ((d2.record c 162 pairUnit 0).capDiscard c) else d2
    let d4 := if d.role = roleActive then (match d.dst with
      | .ready | .run => d3.enterSafe c 162
      | _ => d3) else d3
    (List.range 24).foldl (fun d cc => d.fioFollow c.ns cc) (d4.showAll c)

def execPforceNLow (s : State) : Host.Outcome State Fault Refusal := .next (s.onServing fun c d => d.pforceLow c)

/-- PFORCE_N rises: the forcing ends. -/
def execPforceNRelease (s : State) : Host.Outcome State Fault Refusal :=
  .next (s.onServing fun c d =>
    if d.flag PAIR_STAT_PULL then d
    else
      let d1 : Dev := { d.setf PAIR_STAT_PFORCE with pforce := false }
      (List.range 24).foldl (fun d cc => d.fioFollow c.ns cc) (d1.showAll c))

/-! Readback (R465). -/

/-- An edge at `t` ns lies within the exclusion of the compare instant. -/
def nearEdge (edge now t : Nat) : Bool := decide (t ≤ now + edge) && decide (now ≤ t + edge)

/-- The output state that a lane's shadow carrier has: R221 as in RUN. -/
def Dev.shadowState (d : Dev) (u : Nat) : Nat := ({ d with dst := .run }).ostate u

/-- The shared lines a compare takes in, with the level the shadow drives: 6 l + i for pin i of lane l, 144 + 4 s + i for stepper lane s,
176 + g for BRKg. -/
def Dev.shadowLines (d : Dev) (now : Nat) : List (Nat × Bool) :=
  let edge := 2 * d.get PAIR_CFG2_RBEDGE
  let driven (u : Nat) : Bool := decide (d.shadowState u ≠ 0) && decide (d.shadowState u ≠ 4)
  let servo := (List.range 24).flatMap fun l =>
    if decide (now < d.pair.excl.get (fun _ => 0) l) || !driven l then []
    else (List.range 6).filterMap fun i =>
      let x := d.pwmX l
      let w := x.sw.getD i {}
      let busy := (x.edges.any fun e => e.sw = i && nearEdge edge now (e.t / 4)) || nearEdge edge now (w.offAt / 4) || nearEdge edge now (w.onAt / 4)
      if busy then none else some (6 * l + i, d.swLevel l i (d.swOn l (d.shadowState l) i))
  let step := (List.range 8).flatMap fun s =>
    if !driven (24 + s) then []
    else
      let x := d.stpX s
      let pins := if d.shadowState (24 + s) = 2 then x.a.pins now + 4 * x.b.pins now else 0
      let busy (b : Bridge) : Bool := [x.since, b.fastEnd, b.offEnd, b.blank].any (nearEdge edge now)
      (List.range 4).filterMap fun i => if busy (if i < 2 then x.a else x.b) then none
        else some (144 + 4 * s + i, pins.testBit i != d.flag (PWM_Ss_CFG_ACT_POL s))
  let brk := (List.range 4).filterMap fun g =>
    let level := d.brkActive g now != d.flag (PWM_Gg_BPWM_ACT_POL g)
    let tick := 2 * 2 ^ d.get (PWM_Gg_BPWM_ACT_PRE g)
    let per := d.get (PWM_Gg_BPWM_ACT_PER g) * tick
    let on := d.get (PWM_Gg_BON_ACT_ON g) * tick
    let fire := d.gateNext (80 + g)
    let turned := nearEdge edge now (d.groupX g).turnAt ||
      (((d.groupX g).carrier.isSome || (d.groupX g).chopNext) && nearEdge edge now fire)
    if ((d.get PWM_FLT_STAT_LAT).testBit g && (d.get PWM_FLT_CFG_BRKINC).testBit g) || turned then none
    else match (d.groupX g).carrier with
    | none => some (176 + g, level)
    | some r =>
      let ph := if per = 0 then 0 else (now - r) % per
      if nearEdge edge ph on || nearEdge edge ph 0 || nearEdge edge ph per then none else some (176 + g, level)
  servo ++ step ++ brk

/-- A readback compare at k × RBPER × 2 ns (R464, R465): `levels` are the levels at the standby's own pins, by line. -/
def Dev.readback (d : Dev) (c : Clock) (levels : Nat) : Dev :=
  let per := 2 * d.get PAIR_CFG_RBPER
  let t := if per = 0 then 0 else c.ns / per * per
  if per = 0 ∨ t ≤ d.pair.rbAt ∨ d.role ≠ roleStandby ∨ d.pstate ≠ psMirrored ∨ d.dst ≠ .mirror then d
  else
    let d0 : Dev := { d with pair := { d.pair with rbAt := t } }
    if (d.shadowLines t).all fun p => levels.testBit p.1 = p.2 then d0.put PAIR_STAT_RBRUN 0
    else
      let n := min 15 (d.get PAIR_STAT_RBRUN + 1)
      let d1 := ((d0.bump PAIR_CNT_RBMIS).put PAIR_STAT_RBRUN n).reportLim c 164 pairUnit
      if d.get PAIR_CFG_RBLIM ≤ n then d1.tryTakeover c d1 else d1

def execReadbackCompare (levels : Nat) (s : State) : Host.Outcome State Fault Refusal :=
  .next (s.onServing fun c d => d.readback c levels)

/-! Requests over the link (R461). -/

/-- The standby stores a request and acknowledges it: mailbox and SEQ. -/
def Dev.requestHold (d : Dev) (m : Nat) (ws : List W64) : Dev :=
  let seq := brandSeq (ws.headD 0)
  let d1 : Dev := { d with pair := { d.pair with store := d.pair.store.set (fun _ => []) (65536 * m + seq) ws } }
  d1.linkPut 3 [BitVec.ofNat 64 (m + seq * 2 ^ 16)]

def execRequestHold (m : Fin 16) (ws : List W64) (s : State) : Host.Outcome State Fault Refusal :=
  .next (s.onServing fun _ d => if d.follows then d.requestHold m.val ws else d)

/-- The active's request is held. -/
def execHoldAcknowledge (m : Fin 16) (seq : BitVec 16) (s : State) : Host.Outcome State Fault Refusal :=
  .next (s.onServing fun _ d => if d.role = roleActive ∧ !d.pair.held.contains (m.val, seq.toNat) then
    { d with pair := { d.pair with held := d.pair.held ++ [(m.val, seq.toNat)] } } else d)

def execDecision (m : Fin 16) (ws : List W64) (s : State) : Host.Outcome State Fault Refusal :=
  .next (s.onServing fun _ d => if d.follows then d.takeDecision m.val ws else d)

/-! The pair commands (R472 to R474, R476). -/

/-- Word 0 of pair.join: PAIR_CFG with ROLE in bits 12:11, and PAIR_CFG2 in the upper half (log entry 32). -/
def Dev.pairCfg (d : Dev) (w : W64) : Dev :=
  let d1 := (((d.put PAIR_CFG_MDIV (bits64 w 0 4)).put PAIR_CFG_RBLIM (bits64 w 4 4)).put PAIR_CFG_SOLOK (bits64 w 8 1)).put PAIR_CFG_RESYNC
    (bits64 w 9 1)
  ((d1.put PAIR_CFG_RBPER (bits64 w 16 16)).put PAIR_CFG2_RBEDGE (bits64 w 32 12)).put PAIR_CFG2_TOFFLIM (bits64 w 48 8)

/-- The partner may be joined as standby: link up, ALLOW and READY or RUN in its last heartbeat (R472). -/
def Dev.partnerReady (d : Dev) : Bool :=
  d.flag PAIR_STAT_LINK && (match d.pair.seen with
    | some w => hbAllow w && (hbState w = DevState.ready.code || hbState w = DevState.run.code)
    | none => false)

def cmdPairJoin : CmdFn := fun _ tref q d =>
  let w := q.pw 0
  let role := bits64 w 11 2
  let d1 := d.pairCfg w
  let zero := d1.get PAIR_CFG_MDIV = 0 || d1.get PAIR_CFG_RBPER = 0 || d1.get PAIR_CFG2_TOFFLIM = 0
  let resv := bits64 w 10 1 ≠ 0 || bits64 w 13 3 ≠ 0 || bits64 w 44 4 ≠ 0 || bits64 w 56 8 ≠ 0
  let heavy := decide (200 < d.mirrorLoad (d1.get PAIR_CFG_MDIV))
  let ready := match d.dst with
    | .ready => true
    | .run => decide (role = roleActive)
    | _ => false
  let busy := d.pstate = psSyncing || d.pstate = psMirrored
  refuseIf [(decide (q.target.toNat ≠ pairUnit) || decide (q.payload.length ≠ 1) || resv || !(role = roleActive || role = roleStandby), rcBadFormat),
      (!ready || d.pair.join.isSome || (role = roleStandby && !d.partnerReady), rcBadState), (zero, rcCfgZero),
      (role = roleStandby && !d.pair.same, rcCfgConflict), ((role = roleStandby || busy) && heavy, rcOverload)] fun _ =>
    let d2 := (d1.put PAIR_STAT_ROLE role).put PAIR_BW_BW (u88 (d1.mirrorLoad (d1.get PAIR_CFG_MDIV)))
    if role = roleActive then .done {} (d2.setf PAIR_CFG_ALLOW)
    else .accept (tref + 200000000) (let d3 := d2.pairSync; { d3 with pair := { d3.pair with join := some (tref + 200000000, q.id) } })

def execPairJoin (q : Request) (s : State) : Host.Outcome State Fault Refusal := .next (s.command 0x0900 cmdPairJoin q)

/-- A join that has not reached MIRRORED by its promise (R473): FAULT with FC167; the joiner stays in READY. -/
def Dev.joinFailed (d : Dev) (c : Clock) : Dev :=
  match d.pair.join with
  | none => d
  | some (t, w) =>
    if c.ns < t ∨ d.pstate = psMirrored then d
    else
      let d1 : Dev := { d with pair := { d.pair with join := none } }
      (((d1.record c 167 pairUnit 0).finish w 3 t { fcode := fcodeOf 167 }).put PAIR_STAT_ROLE 0).pairTo psSolo

def execJoinFailed (s : State) : Host.Outcome State Fault Refusal := .next (s.onServing fun c d => d.joinFailed c)

/-- pair.leave (R474). -/
def cmdPairLeave : CmdFn := fun _ tref q d =>
  refuseIf [(decide (q.target.toNat ≠ pairUnit) || decide (q.payload.length ≠ 0), rcBadFormat), (d.role = 0, rcBadState)] fun _ =>
    if d.role = roleActive then .done {} (((d.pairTo psSolo).setf PAIR_CFG_ALLOW false).pull false)
    else .acceptOnly (tref + 1000000) (d.resetFrom tref)

def execPairLeave (q : Request) (s : State) : Host.Outcome State Fault Refusal := .next (s.command 0x0901 cmdPairLeave q)

/-- pair.status (R474). -/
def cmdPairStatus : CmdFn := fun _ _ q d =>
  refuseIf [(decide (q.target.toNat ≠ pairUnit) || decide (q.payload.length ≠ 0), rcBadFormat)] fun _ =>
    .done { p0 := d.role + d.pstate * 2 ^ 2 + d.get PAIR_STAT_PADDR * 2 ^ 8 + d.get PAIR_OFFS_OFFS * 2 ^ 32
            p1 := d.get PAIR_CNT_LERR + d.get PAIR_CNT_RBMIS * 2 ^ 16 } d

def execPairStatus (q : Request) (s : State) : Host.Outcome State Fault Refusal := .next (s.command 0x0902 cmdPairStatus q)

end Sys2Proof.Machine
end

