-- ==== Sys2Proof/Machine/ShostoRun.lean ====
section
/-! DEFINITION. A Shosto instruction on the running job of its engine (R325, R339 to R355): exceptions, the end of a job, and one meaning per
instruction. -/

namespace Sys2Proof.Machine

/-! The end of a job (R345): what the vendor jobs leave, then the completion. -/

/-- The set-point packet in use at position instant `inst`: of the lane's epoch, with the latest instant not after it (R92, R234). -/
def Dev.spFor (d : Dev) (l inst : Nat) : Option Sample := latestAt inst ((d.pwmX l).sps.filter fun p => p.epoch = (d.lane l).epoch)

/-- The position job of lane l (R91, R92, R199, R234): the set-point of its instant, extrapolated from the packet in use and rounded to
2^-32 count (log entry 79); with no packet the previous one stays. The law is not given, so the velocity reference is free (log entry 5);
the integrator holds while the regeneration clamp acts. -/
def Dev.positionEnd (d : Dev) (l inst : Nat) : Dev :=
  let (f, d1) := d.takeFree
  let (g, d2) := d1.takeFree
  let x := d2.pwmX l
  let sp := match d.spFor l inst with
    | some s => s.refAt inst
    | none => (x.spUsed, x.spVel)
  d2.setPwmX l { x with
    spUsed := sp.1
    spVel := sp.2
    velRef := sInt 64 (uInt 64 f)
    posInt := if d.regenActs l (d.fbkX l).v then x.posInt else sInt 64 (uInt 64 g) }

/-- The velocity job of lane l (R91, R102, R192, R194, R196, R199): its reference is the velocity of a flying start at the first job, that of
a bound CMDIN, or the position job's. The law is not given, so the current reference is free (log entry 5); one past the job's deadline
waits while the next current job is still to end. -/
def Dev.velocityEnd (d : Dev) (c : Clock) (l : Nat) : Dev :=
  let (f, d1) := d.takeFree
  let (g, d2) := d1.takeFree
  let x := d2.pwmX l
  let iq := sInt 32 (uInt 32 f)
  let waits := decide (d.jobDeadline (slotVelocity l) < c.ns) && decide (d.jobState (slotCurrent l) ≠ jobFree)
  d2.setPwmX l { x with
    velRef := match x.velFirst, d.cmdinOf l with
      | some v, _ => v
      | none, some n => d.getI (FBK_CMDc_VAL_CMD n) * 2 ^ 32
      | none, none => x.velRef
    velFirst := none
    iqRef := if waits then x.iqRef else iq
    iqLate := if waits then some iq else none
    velInt := if d.regenActs l (d.fbkX l).v then x.velInt else sInt 64 (uInt 64 g) }


/-- What the job of slot j has done by its END. -/
def Dev.jobWork (d : Dev) (c : Clock) (r : RunJob) : Dev :=
  let j := r.slot
  let l := j / 4
  let inst := (d.jobX j).inst
  if j < 96 then
    if j % 4 = 0 then
      (let e := d.currentJob c l r.inbox
       if d.laneRuns l then e.mirrorLane c l inst else e)
    else if !d.laneRuns l then d
    else if j % 4 = 1 then d.positionEnd l inst
    else if j % 4 = 2 then d.velocityEnd c l
    else d
  else if j < 160 then d.setpointJob c (j - 96)
  else if 176 ≤ j ∧ j ≤ 192 then d.setGateX (24 + j) { d.gateX (24 + j) with dataAt := some c.ns }
  else if 256 ≤ j then d.camBlockEnd c j
  else d

/-- A data address of the inbox that the vendor current job reads and that holds an uncorrectable word (R345). -/
def Dev.badInbox (d : Dev) (e : Nat) (r : RunJob) : Option Nat :=
  if 96 ≤ r.slot ∨ r.slot % 4 ≠ 0 then none
  else ([0, 1, 3].flatMap fun pos => (List.range 3).map fun n => 0x80 * pos + 0x40 * (r.inbox / 2 ^ pos % 2) + 8 * (n + 1)).find? fun a =>
    (d.rdWord (dataAddr e a)).bad

/-! Exceptions (R345). -/

/-- The exception record of engine e: EXC, EADDR, ECNT. -/
def Dev.excRecord (d : Dev) (e : Nat) (r : RunJob) (pc cause addr word : Nat) : Dev :=
  let a (o : Nat) : Nat := dataAddr e (0x400 + o)
  let cnt := d.rdN (a 8) 4
  let w (d : Dev) (o v : Nat) : Dev := d.wr32 (a o) (BitVec.ofNat 32 v)
  w (w (w d 0 (cause + (if r.shadow then 8 else 0) + r.slot * 2 ^ 4 + pc % 2 ^ 16 * 2 ^ 16)) 4 (addr % 2 ^ 16 + word / 2 ^ 16 * 2 ^ 16)) 8
    (satU 32 (cnt + 1))

/-- An exception aborts the job: record, abort, FL120 or FD121 (R345). -/
def Dev.shAbort (d : Dev) (c : Clock) (e : Nat) (r : RunJob) (pc cause addr word : Nat) : Dev :=
  ((d.excRecord e r pc cause addr word).jobAbort c e).overrunOf c e r.slot 120 121

/-- An exception, and what an uncorrectable word of data memory does beyond it (R345, R545). -/
def Dev.shExc (d : Dev) (c : Clock) (e : Nat) (r : RunJob) (pc cause addr word : Nat) : Dev :=
  let d1 := d.shAbort c e r pc cause addr word
  if cause = excEcc then d1.eccRegion c (dataAddr e addr / 8 * 8) (d.rdWord (dataAddr e addr)).syn else d1

/-- END: the job completes normally (R345, R346); past its budget the monitor has it (R315). A slow job that ends late sets SLOW_MISS
(R102, R316). -/
def Dev.shEnd (d : Dev) (c : Clock) (e : Nat) (r : RunJob) (pc : Nat) : Dev :=
  let j := r.slot
  if d.jobBudget j < r.execNs c.osc then d.overrun c e
  else match d.badInbox e r with
    | some a => d.shExc c e r pc excEcc a 0x71000000
    | none =>
      let late := decide (j < 96) && decide (j % 4 ≠ 0) && decide (d.jobDeadline j < c.ns)
      let d1 := ((d.jobWork c r).jobComplete c e).pktAgain c j
      if late then d1.setf (PWM_Lnn_CYC_STAT_SLOW_MISS (j / 4)) else d1

/-! One instruction. -/

/-- The bank a job runs in, and its replacement. -/
def Engine.bank (g : Engine) (shadow : Bool) : Bank := if shadow then g.shadow else g.primary
def Engine.setBank (g : Engine) (shadow : Bool) (b : Bank) : Engine := if shadow then { g with shadow := b } else { g with primary := b }

/-- The program word at pc, and the one after it. -/
def Dev.progWord (d : Dev) (e pc : Nat) : Nat := d.rdN (progAddr e pc) 4

/-- What the program word at pc says of a command that is instruction i (log entry 99): true, it spells i, which the engine runs or finds ILLEGAL by a
field value; false, it is another instruction's, and the command does nothing. None: the word is ILLEGAL (R339, R345). -/
def Dev.fetched (d : Dev) (e : Fin 30) (pc : Nat) (i : Instr) : Option Bool :=
  match decodeRaw e (d.progWord e pc) (BitVec.ofNat 32 (d.progWord e (pc + 4))) with
  | none => none
  | some x => if x = i then some true else if shLegal x then some false else none

/-- A long form, of two program words (R339). -/
def shLong (i : Instr) : Bool := match encodeSh i with
  | some (_, some _) => true
  | _ => false

/-- The address of a word of the instruction at pc that cannot be corrected: the second word of a long form may lie in the next 64-bit word
(R339, R345). -/
def Dev.badProg (d : Dev) (e pc : Nat) (i : Instr) : Option Nat :=
  if (d.rdWord (progAddr e pc)).bad then some pc
  else if shLong i && (d.rdWord (progAddr e (pc + 4))).bad then some (pc + 4)
  else none

/-- Corrected program words of the instruction at pc are counted (R545). -/
def Dev.noteProg (d : Dev) (c : Clock) (e pc slot : Nat) (i : Instr) : Dev :=
  let a := progAddr e pc / 8 * 8
  let b := progAddr e (pc + 4) / 8 * 8
  let d1 := d.noteCorrected c a (d.jobUnit slot) (d.rdWord a)
  if shLong i ∧ b ≠ a then d1.noteCorrected c b (d.jobUnit slot) (d.rdWord b) else d1

/-- Instruction i on the job that engine e runs (R325, R339, R342, R345): PCEND past the program memory, ECC for a word that cannot be
corrected, ILLEGAL for a rejected encoding or a repeated instruction of another class, else its operation; with no job running nothing
happens. -/
def Dev.shRun (d : Dev) (c : Clock) (e : Fin 30) (i : Instr) (op : ShEnv → ShOut) : Dev :=
  match (d.engX e).run with
  | none => d
  | some r =>
    let g := d.engine e
    let b := g.bank r.shadow
    let ext := decide (r.slot < 96) && decide (r.slot % 4 = 3)
    let word := d.progWord e b.pc
    if c.osc < r.start ∨ g.halted then d
    else if 0x10000 ≤ b.pc then d.shExc c e r b.pc excPcend 0 word
    else match d.badProg e b.pc i with
    | some a => (d.shAbort c e r b.pc excEcc a word).eccRegion c (progAddr e a / 8 * 8) (d.rdWord (progAddr e a)).syn
    | none =>
    let d := d.noteProg c e b.pc r.slot i
    let exc (cause addr : Nat) : Dev := d.shExc c e r b.pc cause addr word
    match d.fetched e b.pc i with
    | none => exc excIllegal 0
    | some false => d
    | some true =>
    if !shLegal i || (b.rep.isSome && !shRepeatable i) then exc excIllegal 0
    else match op { e := e, slot := r.slot, ext := ext, shadow := r.shadow, c := c, d := d, b := b } with
      | .exc cause addr => exc cause addr
      | .ok _ _ .stop => d.shEnd c e r b.pc
      | .ok d1 b1 pc =>
        match b1.advance ext pc with
        | some b2 => d1.setEngine e ((d1.engine e).setBank r.shadow b2)
        | none => exc excRange 0

/-- An instruction row: while the device serves commands its engines run jobs (R39). -/
def State.shosto (s : State) (e : Fin 30) (i : Instr) (op : ShEnv → ShOut) : State :=
  s.onServing fun c d => d.shRun c e i op

/-! Operations with more than one line. -/

/-- An extract's result. -/
def shExtract (v : ShEnv) (xd : BitVec 5) (q lo hi : Int) : ShOut :=
  let r := clampI lo hi q
  .ok v.d { (v.b.xw xd (BitVec.ofInt 32 r)) with sat := v.b.sat || decide (r ≠ q) } .seq

/-- EXTL. -/
def shExtractL (v : ShEnv) (xd : BitVec 5) (q : Int) : ShOut :=
  let r := satS 64 q
  .ok v.d { (v.b.xw2 xd (uInt 64 r)) with sat := v.b.sat || decide (r ≠ q) } .seq

/-- A relative branch that is taken. -/
def shJump (v : ShEnv) (b : Bank) (off : BitVec 24) : ShOut := .ok v.d b (.jump (brTarget v.b off))

/-- CALL: RSTACK on a full return stack (R341). -/
def shCallOp (v : ShEnv) (off : BitVec 24) : ShOut :=
  if 8 ≤ v.b.stack.length then .exc excRstack 0
  else shJump v { v.b with stack := BitVec.ofNat 16 (v.b.pc + 4) :: v.b.stack } off

/-- RET: RSTACK on an empty return stack (R341). -/
def shRetOp (v : ShEnv) : ShOut :=
  match v.b.stack with
  | [] => .exc excRstack 0
  | t :: r => .ok v.d { v.b with stack := r } (.jump t.toNat)

/-- REP and REPX: a count of 0 skips the next instruction (R342). -/
def shRepOp (v : ShEnv) (n : Nat) : ShOut := .ok v.d v.b (if n = 0 then .skip 8 else .rep n)

/-- LOOP: ILLEGAL inside an active LOOP; a count of 0 skips the body (R342). -/
def shLoopOp (v : ShEnv) (n len : Nat) : ShOut :=
  if v.b.loop.isSome then .exc excIllegal 0
  else if n = 0 then .ok v.d v.b (.skip (4 + 4 * len))
  else .ok v.d { v.b with loop := some (v.b.pc + 4, v.b.pc + 4 + 4 * len, n) } (.skip 4)

/-- IOLD: vendor code only (R340, R347). -/
def shIoldOp (v : ShEnv) (xd s : BitVec 5) : ShOut :=
  let a := (v.b.xr s).toNat
  if v.ext then .exc excIllegal 0
  else if a % 4 ≠ 0 then .exc excMisalign a
  else
    let (w, d1) := v.d.hostRead v.c a
    .ok d1 (v.b.xw xd w) .seq

/-- IOST: vendor code only (R340). -/
def shIostOp (v : ShEnv) (xd s : BitVec 5) : ShOut :=
  let a := (v.b.xr s).toNat
  if v.ext then .exc excIllegal 0
  else if a % 4 ≠ 0 then .exc excMisalign a
  else .ok (if isBlock a then v.d.regWrite v.c a (v.b.xr xd) else v.d) v.b .seq

/-- BRK: the engine halts under a debug session, else nothing (R340). -/
def shBreak (v : ShEnv) : Dev :=
  let g := v.d.engine v.e
  if g.debug then v.d.setEngine v.e { g with halted := true } else v.d

/-- STA: the clamped accumulator as a 64-bit word (R336). -/
def shStaOp (v : ShEnv) (m : MemMode) (xd xp : BitVec 5) : ShOut :=
  let x := (v.b.acc (xd.setWidth 1)).toInt
  let r := satS 64 x
  shStore v m xp 8 (uInt 64 r) fun b => { b with sat := b.sat || decide (r ≠ x) }

/-- Zero-extended and signed immediates of 14 bits. -/
def immZ (i : BitVec 14) : W32 := i.zeroExtend 32
def immS (i : BitVec 14) : W32 := i.signExtend 32

/-! The instructions. -/

def execShAdd (e : Fin 30) (xd xa xb : BitVec 5) (st : State) : Host.Outcome State Fault Refusal :=
  .next (st.shosto e (.shAdd e xd xa xb) (fun v => shAlu v fun b => b.setAdd xd (b.xr xa) (b.xr xb)))

def execShSub (e : Fin 30) (xd xa xb : BitVec 5) (st : State) : Host.Outcome State Fault Refusal :=
  .next (st.shosto e (.shSub e xd xa xb) (fun v => shAlu v fun b => b.setSub xd (b.xr xa) (b.xr xb)))

def execShAdds (e : Fin 30) (xd xa xb : BitVec 5) (st : State) : Host.Outcome State Fault Refusal :=
  .next (st.shosto e (.shAdds e xd xa xb) (fun v => shAlu v fun b => b.setSat xd ((b.xr xa).toInt + (b.xr xb).toInt)))

def execShSubs (e : Fin 30) (xd xa xb : BitVec 5) (st : State) : Host.Outcome State Fault Refusal :=
  .next (st.shosto e (.shSubs e xd xa xb) (fun v => shAlu v fun b => b.setSat xd ((b.xr xa).toInt - (b.xr xb).toInt)))

def execShAnd (e : Fin 30) (xd xa xb : BitVec 5) (st : State) : Host.Outcome State Fault Refusal :=
  .next (st.shosto e (.shAnd e xd xa xb) (fun v => shAlu v fun b => b.setZn xd (b.xr xa &&& b.xr xb)))

def execShOr (e : Fin 30) (xd xa xb : BitVec 5) (st : State) : Host.Outcome State Fault Refusal :=
  .next (st.shosto e (.shOr e xd xa xb) (fun v => shAlu v fun b => b.setZn xd (b.xr xa ||| b.xr xb)))

def execShXor (e : Fin 30) (xd xa xb : BitVec 5) (st : State) : Host.Outcome State Fault Refusal :=
  .next (st.shosto e (.shXor e xd xa xb) (fun v => shAlu v fun b => b.setZn xd (b.xr xa ^^^ b.xr xb)))

def execShShl (e : Fin 30) (xd xa xb : BitVec 5) (st : State) : Host.Outcome State Fault Refusal :=
  .next (st.shosto e (.shShl e xd xa xb) (fun v => shAlu v fun b => b.setZn xd (shlW (b.xr xa) ((b.xr xb).toNat % 64))))

def execShShr (e : Fin 30) (xd xa xb : BitVec 5) (st : State) : Host.Outcome State Fault Refusal :=
  .next (st.shosto e (.shShr e xd xa xb) (fun v => shAlu v fun b => b.setZn xd (shrW (b.xr xa) ((b.xr xb).toNat % 64))))

def execShSra (e : Fin 30) (xd xa xb : BitVec 5) (st : State) : Host.Outcome State Fault Refusal :=
  .next (st.shosto e (.shSra e xd xa xb) (fun v => shAlu v fun b => b.setZn xd (sraW (b.xr xa) ((b.xr xb).toNat % 64))))

def execShMin (e : Fin 30) (xd xa xb : BitVec 5) (st : State) : Host.Outcome State Fault Refusal :=
  .next (st.shosto e (.shMin e xd xa xb) (fun v => shAlu v fun b => b.setZn xd (if (b.xr xa).toInt ≤ (b.xr xb).toInt then b.xr xa else b.xr xb)))

def execShMax (e : Fin 30) (xd xa xb : BitVec 5) (st : State) : Host.Outcome State Fault Refusal :=
  .next (st.shosto e (.shMax e xd xa xb) (fun v => shAlu v fun b => b.setZn xd (if (b.xr xa).toInt ≤ (b.xr xb).toInt then b.xr xb else b.xr xa)))

def execShAbss (e : Fin 30) (xd xa xb : BitVec 5) (st : State) : Host.Outcome State Fault Refusal :=
  .next (st.shosto e (.shAbss e xd xa xb) (fun v => shAlu v fun b => b.setSat xd (b.xr xa).toInt.natAbs))

def execShNegs (e : Fin 30) (xd xa xb : BitVec 5) (st : State) : Host.Outcome State Fault Refusal :=
  .next (st.shosto e (.shNegs e xd xa xb) (fun v => shAlu v fun b => b.setSat xd (-(b.xr xa).toInt)))

def execShNorm (e : Fin 30) (xd xa xb : BitVec 5) (st : State) : Host.Outcome State Fault Refusal :=
  .next (st.shosto e (.shNorm e xd xa xb) (fun v => shAlu v fun b => b.setZn xd (BitVec.ofNat 32 (normCount (b.xr xa)))))

def execShDiv (e : Fin 30) (xd xa xb : BitVec 5) (st : State) : Host.Outcome State Fault Refusal :=
  .next (st.shosto e (.shDiv e xd xa xb) (fun v => shAlu v fun b => b.divS xd (b.xr xa) (b.xr xb)))

def execShDivu (e : Fin 30) (xd xa xb : BitVec 5) (st : State) : Host.Outcome State Fault Refusal :=
  .next (st.shosto e (.shDivu e xd xa xb) (fun v => shAlu v fun b => b.divU xd (b.xr xa) (b.xr xb)))

def execShShls (e : Fin 30) (xd xa xb : BitVec 5) (st : State) : Host.Outcome State Fault Refusal :=
  .next (st.shosto e (.shShls e xd xa xb) (fun v => shAlu v fun b => b.setSat xd ((b.xr xa).toInt * 2 ^ ((b.xr xb).toNat % 64))))

def execShAddi (e : Fin 30) (xd xa : BitVec 5) (imm : BitVec 14) (st : State) : Host.Outcome State Fault Refusal :=
  .next (st.shosto e (.shAddi e xd xa imm) (fun v => shAlu v fun b => b.setAdd xd (b.xr xa) (immS imm)))

def execShAndi (e : Fin 30) (xd xa : BitVec 5) (imm : BitVec 14) (st : State) : Host.Outcome State Fault Refusal :=
  .next (st.shosto e (.shAndi e xd xa imm) (fun v => shAlu v fun b => b.setZn xd (b.xr xa &&& immZ imm)))

def execShOri (e : Fin 30) (xd xa : BitVec 5) (imm : BitVec 14) (st : State) : Host.Outcome State Fault Refusal :=
  .next (st.shosto e (.shOri e xd xa imm) (fun v => shAlu v fun b => b.setZn xd (b.xr xa ||| immZ imm)))

def execShXori (e : Fin 30) (xd xa : BitVec 5) (imm : BitVec 14) (st : State) : Host.Outcome State Fault Refusal :=
  .next (st.shosto e (.shXori e xd xa imm) (fun v => shAlu v fun b => b.setZn xd (b.xr xa ^^^ immZ imm)))

def execShShli (e : Fin 30) (xd xa : BitVec 5) (imm : BitVec 14) (st : State) : Host.Outcome State Fault Refusal :=
  .next (st.shosto e (.shShli e xd xa imm) (fun v => shAlu v fun b => b.setZn xd (shlW (b.xr xa) (imm.toNat % 64))))

def execShShri (e : Fin 30) (xd xa : BitVec 5) (imm : BitVec 14) (st : State) : Host.Outcome State Fault Refusal :=
  .next (st.shosto e (.shShri e xd xa imm) (fun v => shAlu v fun b => b.setZn xd (shrW (b.xr xa) (imm.toNat % 64))))

def execShSrai (e : Fin 30) (xd xa : BitVec 5) (imm : BitVec 14) (st : State) : Host.Outcome State Fault Refusal :=
  .next (st.shosto e (.shSrai e xd xa imm) (fun v => shAlu v fun b => b.setZn xd (sraW (b.xr xa) (imm.toNat % 64))))

def execShMpy (e : Fin 30) (ac : BitVec 1) (xa xb : BitVec 5) (md : BitVec 2) (st : State) : Host.Outcome State Fault Refusal :=
  .next (st.shosto e (.shMpy e ac xa xb md) (fun v => shAlu v fun b => b.accTo ac (product md (b.xr xa) (b.xr xb))))

def execShMac (e : Fin 30) (ac : BitVec 1) (xa xb : BitVec 5) (md : BitVec 2) (st : State) : Host.Outcome State Fault Refusal :=
  .next (st.shosto e (.shMac e ac xa xb md) (fun v => shAlu v fun b => b.accTo ac ((b.acc ac).toInt + product md (b.xr xa) (b.xr xb))))

def execShMsu (e : Fin 30) (ac : BitVec 1) (xa xb : BitVec 5) (md : BitVec 2) (st : State) : Host.Outcome State Fault Refusal :=
  .next (st.shosto e (.shMsu e ac xa xb md) (fun v => shAlu v fun b => b.accTo ac ((b.acc ac).toInt - product md (b.xr xa) (b.xr xb))))

def execShTap (e : Fin 30) (ac : BitVec 1) (xs xh : BitVec 5) (cb : BitVec 2) (st : State) : Host.Outcome State Fault Refusal :=
  .next (st.shosto e (.shTap e ac xs xh cb) (fun v => shTapOp v ac xs xh cb))

def execShClr (e : Fin 30) (ac : BitVec 1) (xd : BitVec 5) (sh : BitVec 6) (st : State) : Host.Outcome State Fault Refusal :=
  .next (st.shosto e (.shClr e ac xd sh) (fun v => shAlu v fun b => b.setAcc ac 0))

def execShExt (e : Fin 30) (ac : BitVec 1) (xd : BitVec 5) (sh : BitVec 6) (st : State) : Host.Outcome State Fault Refusal :=
  .next (st.shosto e (.shExt e ac xd sh) (fun v => shExtract v xd (accShift (v.b.acc ac) sh.toNat) (-2 ^ 31) (2 ^ 31 - 1)))

def execShExtu (e : Fin 30) (ac : BitVec 1) (xd : BitVec 5) (sh : BitVec 6) (st : State) : Host.Outcome State Fault Refusal :=
  .next (st.shosto e (.shExtu e ac xd sh) (fun v => shExtract v xd (accShift (v.b.acc ac) sh.toNat) 0 (2 ^ 32 - 1)))

def execShExtl (e : Fin 30) (ac : BitVec 1) (xd : BitVec 5) (sh : BitVec 6) (st : State) : Host.Outcome State Fault Refusal :=
  .next (st.shosto e (.shExtl e ac xd sh) (fun v => shExtractL v xd (accShift (v.b.acc ac) sh.toNat)))

def execShMvg (e : Fin 30) (ac : BitVec 1) (xd : BitVec 5) (sh : BitVec 6) (st : State) : Host.Outcome State Fault Refusal :=
  .next (st.shosto e (.shMvg e ac xd sh) (fun v => shAlu v fun b => b.xw xd (((b.acc ac).extractLsb' 64 8).signExtend 32)))

def execShLdal (e : Fin 30) (ac : BitVec 1) (xd : BitVec 5) (sh : BitVec 6) (st : State) : Host.Outcome State Fault Refusal :=
  .next (st.shosto e (.shLdal e ac xd sh) (fun v => shAlu v fun b => b.setAcc ac (BitVec.ofInt 72 (sInt 64 (b.xr2 xd)))))

def execShLdag (e : Fin 30) (ac : BitVec 1) (xd : BitVec 5) (sh : BitVec 6) (st : State) : Host.Outcome State Fault Refusal :=
  .next (st.shosto e (.shLdag e ac xd sh) (fun v => shAlu v fun b => b.setAcc ac (((b.xr xd).setWidth 8).append ((b.acc ac).setWidth 64))))

def execShAdda (e : Fin 30) (ac : BitVec 1) (xd : BitVec 5) (sh : BitVec 6) (st : State) : Host.Outcome State Fault Refusal :=
  .next (st.shosto e (.shAdda e ac xd sh) (fun v => shAlu v fun b => b.accTo ac ((b.acc ac).toInt + (b.acc (ac + 1)).toInt)))

def execShMova (e : Fin 30) (ac : BitVec 1) (xd : BitVec 5) (sh : BitVec 6) (st : State) : Host.Outcome State Fault Refusal :=
  .next (st.shosto e (.shMova e ac xd sh) (fun v => shAlu v fun b => b.setAcc ac (b.acc (ac + 1))))

def execShLdW (e : Fin 30) (m : MemMode) (xd xp : BitVec 5) (st : State) : Host.Outcome State Fault Refusal :=
  .next (st.shosto e (.shLdW e m xd xp) (fun v => shLoad v m xp 4 fun b x => b.xw xd (BitVec.ofNat 32 x)))

def execShLdL (e : Fin 30) (m : MemMode) (xd xp : BitVec 5) (st : State) : Host.Outcome State Fault Refusal :=
  .next (st.shosto e (.shLdL e m xd xp) (fun v => shLoad v m xp 8 fun b x => b.xw2 xd x))

def execShStW (e : Fin 30) (m : MemMode) (xd xp : BitVec 5) (st : State) : Host.Outcome State Fault Refusal :=
  .next (st.shosto e (.shStW e m xd xp) (fun v => shStore v m xp 4 (v.b.xr xd).toNat id))

def execShStL (e : Fin 30) (m : MemMode) (xd xp : BitVec 5) (st : State) : Host.Outcome State Fault Refusal :=
  .next (st.shosto e (.shStL e m xd xp) (fun v => shStore v m xp 8 (v.b.xr2 xd) id))

def execShLda (e : Fin 30) (m : MemMode) (xd xp : BitVec 5) (st : State) : Host.Outcome State Fault Refusal :=
  .next (st.shosto e (.shLda e m xd xp) (fun v => shLoad v m xp 8 fun b x => b.setAcc (xd.setWidth 1) (BitVec.ofInt 72 (sInt 64 x))))

def execShSta (e : Fin 30) (m : MemMode) (xd xp : BitVec 5) (st : State) : Host.Outcome State Fault Refusal :=
  .next (st.shosto e (.shSta e m xd xp) (fun v => shStaOp v m xd xp))

def execShBcc (e : Fin 30) (cond : BitVec 4) (off : BitVec 24) (st : State) : Host.Outcome State Fault Refusal :=
  .next (st.shosto e (.shBcc e cond off) (fun v => if branchTaken v.b cond then shJump v v.b off else .ok v.d v.b .seq))

def execShCall (e : Fin 30) (off : BitVec 24) (st : State) : Host.Outcome State Fault Refusal :=
  .next (st.shosto e (.shCall e off) (fun v => shCallOp v off))

def execShRet (e : Fin 30) (st : State) : Host.Outcome State Fault Refusal :=
  .next (st.shosto e (.shRet e) (fun v => shRetOp v))

def execShNop (e : Fin 30) (st : State) : Host.Outcome State Fault Refusal :=
  .next (st.shosto e (.shNop e) (fun v => .ok v.d v.b .seq))

def execShEnd (e : Fin 30) (st : State) : Host.Outcome State Fault Refusal :=
  .next (st.shosto e (.shEnd e) (fun v => .ok v.d v.b .stop))

def execShRep (e : Fin 30) (count : BitVec 12) (st : State) : Host.Outcome State Fault Refusal :=
  .next (st.shosto e (.shRep e count) (fun v => shRepOp v count.toNat))

def execShRepx (e : Fin 30) (xa : BitVec 5) (st : State) : Host.Outcome State Fault Refusal :=
  .next (st.shosto e (.shRepx e xa) (fun v => shRepOp v (v.b.xr xa).toNat))

def execShLoop (e : Fin 30) (count len : BitVec 12) (st : State) : Host.Outcome State Fault Refusal :=
  .next (st.shosto e (.shLoop e count len) (fun v => shLoopOp v count.toNat len.toNat))

def execShMfs (e : Fin 30) (xd s : BitVec 5) (n : BitVec 4) (st : State) : Host.Outcome State Fault Refusal :=
  .next (st.shosto e (.shMfs e xd s n) (fun v => .ok v.d (v.b.xw xd (shSpecial v s.toNat)) .seq))

def execShMts (e : Fin 30) (xd s : BitVec 5) (n : BitVec 4) (st : State) : Host.Outcome State Fault Refusal :=
  .next (st.shosto e (.shMts e xd s n) (fun v => .ok v.d (v.b.setSpecial s.toNat (v.b.xr xd)) .seq))

def execShTimr (e : Fin 30) (xd s : BitVec 5) (n : BitVec 4) (st : State) : Host.Outcome State Fault Refusal :=
  .next (st.shosto e (.shTimr e xd s n) (fun v => .ok v.d (v.b.xw2 xd v.c.ns) .seq))

def execShSend (e : Fin 30) (xd s : BitVec 5) (n : BitVec 4) (st : State) : Host.Outcome State Fault Refusal :=
  .next (st.shosto e (.shSend e xd s n) (fun v => shSendOp v xd n.toNat))

def execShIold (e : Fin 30) (xd s : BitVec 5) (n : BitVec 4) (st : State) : Host.Outcome State Fault Refusal :=
  .next (st.shosto e (.shIold e xd s n) (fun v => shIoldOp v xd s))

def execShIost (e : Fin 30) (xd s : BitVec 5) (n : BitVec 4) (st : State) : Host.Outcome State Fault Refusal :=
  .next (st.shosto e (.shIost e xd s n) (fun v => shIostOp v xd s))

def execShBrk (e : Fin 30) (xd s : BitVec 5) (n : BitVec 4) (st : State) : Host.Outcome State Fault Refusal :=
  .next (st.shosto e (.shBrk e xd s n) (fun v => .ok (shBreak v) v.b .seq))

def execShLdi (e : Fin 30) (xd xa : BitVec 5) (imm : W32) (st : State) : Host.Outcome State Fault Refusal :=
  .next (st.shosto e (.shLdi e xd xa imm) (fun v => .ok v.d (v.b.xw xd imm) (.skip 8)))

def execShAddi32 (e : Fin 30) (xd xa : BitVec 5) (imm : W32) (st : State) : Host.Outcome State Fault Refusal :=
  .next (st.shosto e (.shAddi32 e xd xa imm) (fun v => .ok v.d (v.b.setAdd xd (v.b.xr xa) imm) (.skip 8)))

end Sys2Proof.Machine
end

