-- ==== Sys2Proof/Machine/Inject.lean ====
section
/-! DEFINITION. Fault injection through JTAG (R561, R562). -/

namespace Sys2Proof.Machine

/-- A code of class L reported against unit u with its consequence (R549, R553): the lane of the unit, or the work of the slot. -/
def Dev.injectL (d : Dev) (c : Clock) (code u : Nat) : Dev :=
  if code = 205 then (if u < 24 then d.markDisputed c u else d.record c 205 u 0)
  else if code = 202 then
    (if u < 32 then d.eccLane c u 0 else (d.record c 202 u 0).discardUnit c 202 u)
  else if code = 31 ∨ code = 93 then (if u < 64 then d.masterFail c u code else d.record c code u 0)
  else if code = 102 then (if 0x40 ≤ u ∧ u < 0x50 then d.loopLost c (u - 0x40) c.ns else d.activeFault c 102 u)
  else if code = 50 ∧ u < 32 ∧ d.laneActive u then d.trip c u
  else if u < 32 then d.activeFault c code u
  else (d.record c code u 0).discardUnit c code u

/-- A code reported as detected, with its full consequence by class (R549, R562). -/
def Dev.injectCode (d : Dev) (c : Clock) (code u : Nat) : Dev :=
  match code with
  | 160 => d.linkError c
  | 163 => if d.pstate = psMirrored then d.degrade c else d.record c 163 u 0
  | 166 => if d.pstate = psLost then d.record c 166 u 0 else d.pairLost c
  | 161 => d.tryTakeover c (d.record c 161 u 0)
  | 162 =>
    let d1 := (d.record c 162 u 0).capDiscard c
    if d.role = roleActive ∧ (d.dst = .ready ∨ d.dst = .run) then d1.enterSafe c 162 else d1
  | _ =>
    match faultClass code with
    | 1 => d.injectL c code u
    | 2 => d.deviceFault c code u 0 false
    | _ => d.record c code u 0

/-- The records of a log that are not in an earlier one carry INJ. -/
def tagNew : List FltRec → List FltRec → List FltRec
  | [], _ => []
  | r :: l, old => if old.contains r then r :: tagNew l (old.erase r) else { r with inj := true } :: tagNew l old

/-- Every record and packet that came about since `d0` carries INJ (R562). -/
def Dev.markInj (d0 d : Dev) : Dev :=
  let np := d0.fab.flight.length
  let tag (p : Packet) : Packet :=
    if brandType p.brand = 0x70 then { p with inj := true, words := p.words.modify 2 fun w => w ||| BitVec.ofNat 64 (2 ^ 24) }
    else { p with inj := true }
  { d with
    flt := { d.flt with log := tagNew d.flt.log d0.flt.log }
    fab := { d.fab with flight := d.fab.flight.take np ++ (d.fab.flight.drop np).map tag } }

/-- The injection that FLT_INJ_CFG, ARG and T describe acts: then DONE, and KIND 0 (R561, R562). The Herder writes its slot words at every
decision, so an injection into them shows at once. -/
def Dev.inject (d : Dev) (c : Clock) : Dev :=
  let arg := d.get FLT_INJ_ARG_V
  let pa := d.get FLT_INJ_CFG_POSA
  let pb := d.get FLT_INJ_CFG_POSB
  let code := arg % 1024
  let d1 := match d.get FLT_INJ_CFG_KIND with
    | 1 =>
      let d' : Dev := { d with flt := { d.flt with injMem := some (arg, pa, pb) } }
      if isHerderMem arg then d'.touchEcc arg else d'
    | 2 => { d with flt := { d.flt with injPkt := some (arg % 256, arg / 256 % 128, pa, pb) } }
    | 3 => if 170 ≤ code ∧ code ≤ 176 then d.setf FLT_INJ_CFG_REJ else d.markInj (d.injectCode c code (arg / 2 ^ 16 % 256))
    | 4 => { d with flt := { d.flt with silentUntil := c.ns + 1000 * arg } }
    | _ => d
  (d1.setf FLT_INJ_CFG_DONE).put FLT_INJ_CFG_KIND 0

/-- Update-DR of FLTDR: CFG, ARG and T take their values, DONE and REJ start clear; with T 0 the injection acts at once (R561). -/
def Dev.fltdr (d : Dev) (c : Clock) (dr : BitVec 128) : Dev :=
  let cfg := dr.toNat % 2 ^ 32
  let d1 := ((d.setReg FLT_INJ_CFG_KIND.addr 0).put FLT_INJ_CFG_KIND cfg).put FLT_INJ_CFG_POSA (cfg / 2 ^ 4)
  let d2 := ((d1.put FLT_INJ_CFG_POSB (cfg / 2 ^ 12)).put FLT_INJ_ARG_V (dr.toNat / 2 ^ 32 % 2 ^ 32)).put64 FLT_INJ_T_LO_V FLT_INJ_T_HI_V
    (dr.toNat / 2 ^ 64)
  if dr.toNat / 2 ^ 64 = 0 ∧ d2.get FLT_INJ_CFG_KIND ≠ 0 then d2.inject c else d2

def execFltinj (dr : BitVec 128) (s : State) : Host.Outcome State Fault Refusal := .next (s.onServing fun c d => d.fltdr c dr)

/-- The first Herder tick instant at or after T with an injection armed (R561). -/
def Dev.injectDue (d : Dev) (c : Clock) : Dev :=
  let t := d.get64 FLT_INJ_T_LO_V FLT_INJ_T_HI_V
  let tick := max 1 (d.get HERDER_CTRL_TICK * 250)
  if d.get FLT_INJ_CFG_KIND = 0 ∨ c.ns < (t + tick - 1) / tick * tick then d else d.inject c

def execFaultInjection (s : State) : Host.Outcome State Fault Refusal := .next (s.onServing fun c d => d.injectDue c)

end Sys2Proof.Machine
end

