-- ==== Sys2Proof/Machine/Decide.lean ====
section
/-! DEFINITION. The decision of a request at t_ref (R366 to R376, R381, R382). -/

namespace Sys2Proof.Machine

/-- The command table: the meaning of each opcode (R381, R382). -/
def commandOf : Nat → Option CmdFn
  | 0x0000 => some cmdSysCaps
  | 0x0001 => some cmdSysIdent
  | 0x0002 => some cmdSysStatus
  | 0x0003 => some cmdSysRun
  | 0x0004 => some cmdSysStop
  | 0x0005 => some cmdSysStandby
  | 0x0006 => some cmdSysDoze
  | 0x0007 => some cmdSysReset
  | 0x0008 => some cmdSysClear
  | 0x0009 => some cmdSysRelease
  | 0x000A => some cmdSysReclaim
  | 0x000B => some cmdSysMbx
  | 0x0100 => some cmdLaneCfg
  | 0x0101 => some cmdLaneArm
  | 0x0102 => some cmdLaneEnable
  | 0x0103 => some cmdLaneDisable
  | 0x0104 => some cmdLaneStop
  | 0x0105 => some cmdLaneClear
  | 0x0106 => some cmdDcgCfg
  | 0x0107 => some cmdDcgClear
  | 0x0108 => some cmdFbkCfg
  | 0x0109 => some cmdFbkSetPos
  | 0x010A => some cmdConvCfg
  | 0x010B => some cmdStrCfg
  | 0x010C => some cmdCmdinCfg
  | 0x0200 => some cmdMoveAbs
  | 0x0201 => some cmdMoveRel
  | 0x0202 => some cmdMoveRetarget
  | 0x0203 => some cmdMoveVel
  | 0x0204 => some cmdMoveStop
  | 0x0205 => some cmdAxisLimits
  | 0x0206 => some cmdAxisCfg
  | 0x0210 => some cmdGearSet
  | 0x0211 => some cmdCamSet
  | 0x0212 => some cmdCamLoad
  | 0x0300 => some cmdLoopCfg
  | 0x0301 => some cmdLoopMode
  | 0x0302 => some cmdLoopSet
  | 0x0400 => some cmdTimeCfg
  | 0x0401 => some cmdTimeAcceptStep
  | 0x0410 => some cmdHerderCfg
  | 0x0411 => some cmdHerderTrace
  | 0x0500 => some cmdCapCfg
  | 0x0501 => some cmdCapArm
  | 0x0502 => some cmdCapStop
  | 0x0600 => some cmdIoCfg
  | 0x0601 => some cmdIoSet
  | 0x0602 => some cmdIoDiag
  | 0x0700 => some cmdSafeCfg
  | 0x0701 => some cmdSafeStatus
  | 0x0800 => some cmdChainCfg
  | 0x0801 => some cmdChainEnum
  | 0x0810 => some cmdCanCfg
  | 0x0811 => some cmdCanSend
  | 0x0900 => some cmdPairJoin
  | 0x0901 => some cmdPairLeave
  | 0x0902 => some cmdPairStatus
  | 0x0A00 => some cmdExtLoad
  | 0x0B00 => some cmdRegRead
  | 0x0B01 => some cmdRegWrite
  | _ => none

/-- Opcode, LEN and SEQ of a request's words (R366, R367). -/
def reqOpc (ws : List W64) : Nat := bits64 (ws.getD 3 0) 0 16
def reqLen (ws : List W64) : Nat := bits64 (ws.getD 3 0) 16 6
def reqSeq (ws : List W64) : Nat := brandSeq (ws.headD 0)

/-- The request that the words of mailbox m spell (R366, R367). -/
def reqOf (m : Fin 16) (ws : List W64) : Request :=
  let w3 := ws.getD 3 0
  { mbx := m
    seq := BitVec.ofNat 16 (reqSeq ws)
    asap := bits64 w3 22 1 = 1
    launch := (ws.getD 1 0).toNat
    frac := BitVec.ofNat 16 (bits64 (ws.getD 2 0) 0 16)
    dl := bits64 w3 32 32
    target := BitVec.ofNat 8 (bits64 w3 24 8)
    payload := (ws.drop 4).take (reqLen ws) }

/-- The CRC word is right over words 0 to 3 + LEN (R368); a request with LEN above 59 is judged on its format (R369). -/
def reqCrcOk (ws : List W64) : Bool :=
  decide (59 < reqLen ws) ||
    decide (crcWords (ws.take (4 + reqLen ws)) = bits64 (ws.getD (4 + reqLen ws) 0) 0 32 ∧ 5 + reqLen ws ≤ ws.length)

/-- The format of a request apart from what its opcode asks for (R366, R367, R371). -/
def Dev.reqFormatBad (d : Dev) (m : Nat) (ws : List W64) : Bool :=
  let b := ws.headD 0
  let w3 := ws.getD 3 0
  let a := brandAddr b
  decide (59 < reqLen ws) || decide (brandKind b ≠ 0xE0) || decide (brandUnit b ≠ 0x70 + m) ||
    !(a = 0 || a = d.get CHAIN_STAT_ADDR || (d.pair.both && a = d.get PAIR_STAT_PADDR)) || decide (bits64 w3 23 1 ≠ 0) ||
    decide (bits64 (ws.getD (4 + reqLen ws) 0) 32 32 ≠ 0) || decide (bits64 (ws.getD 2 0) 16 48 ≠ 0) ||
    (decide (bits64 w3 22 1 = 1) && decide (ws.getD 1 0 ≠ 0 ∨ ws.getD 2 0 ≠ 0))

/-- A refusal that leaves the request stream where it is (R372, R374). -/
def Dev.refuseOut (d : Dev) (c : Clock) (m : Nat) (r : MbxReq) (tref code : Nat) : Dev :=
  ((d.placeRsp m r.src (reqOpc r.words) (reqSeq r.words) 1 tref { frac := r.frac, code := code }).2).trace { c with tor := tref * 2 ^ 48 }
    4 0 31 0 0 code 0 m

/-- The latest response of the last request once more, at the new t_ref (R372): the queue's next SEQ in its brand, and its CRC. -/
def Dev.replay (d : Dev) (m : Nat) (src : Byte) : Dev :=
  let x := d.mbox m
  let b := x.lastRsp.headD 0
  let w0 := mkBrand (d.rspAddr m src) (brandUnit b) (brandKind b) (brandEpoch b) x.rspSeq (brandOffs b)
  let ws := w0 :: (x.lastRsp.drop 1).take 6
  let ws8 := ws ++ [BitVec.ofNat 64 (crcWords ws)]
  let d1 := (d.putEntry m ws8).tell 4 ws8
  if x.lastRsp.isEmpty then d else d1.setMbox m { d1.mbox m with rspSeq := (x.rspSeq + 1) % 65536 }

/-- A request is taken: it moves its mailbox's stream (R372, R379). -/
def Dev.takeReq (d : Dev) (m seq tref : Nat) (gap : Bool) : Dev :=
  let x := d.mbox m
  let d1 := d.setMbox m { x with taken := x.taken.dropWhile (·.2) ++ [(seq, false)], lastRsp := [] }
  let d2 := ((d1.put (MBX_Mm_SEQ_LAST m) seq).setf (MBX_Mm_STAT_SEQV m)).put64 (MBX_Mm_TREF_LO_TREF m) (MBX_Mm_TREF_HI_TREF m) tref
  if gap then d2.bump (MBX_Mm_CNT_GAP m) else d2

/-- What the decision of a well-formed request comes to before its stream is judged: the epoch after the opcode (R371 codes 3 and 4). -/
def Dev.verdictOf (d : Dev) (c : Clock) (m : Fin 16) (ws : List W64) (tref : Nat) : Verdict :=
  match commandOf (reqOpc ws) with
  | none => .refuse rcBadOpcode 31 0
  | some f =>
    match f c tref (reqOf m ws) d with
    | .refuse 2 e k => .refuse 2 e k
    | .refuseIn 2 e k d' => .refuseIn 2 e k d'
    | v => if brandEpoch (ws.headD 0) ≠ d.get MBX_STAT_EPOCH then .refuse rcBadEpoch 31 0 else v

/-- Does a verdict refuse with BAD_FORMAT? -/
def Verdict.badFormat : Verdict → Bool
  | .refuse code _ _ => code = rcBadFormat
  | .refuseIn code _ _ _ => code = rcBadFormat
  | _ => false

/-- The supervisor decides a request at its t_ref (R370 to R374). -/
def Dev.decideReq (d : Dev) (c : Clock) (m : Fin 16) (r : MbxReq) : Dev :=
  let ws := r.words
  let tref := r.tArr + 100000
  let seq := reqSeq ws
  if !reqCrcOk ws then (d.bump (MBX_Mm_CNT_CRC m)).refuseOut c m r tref rcBadCrc
  else if d.reqFormatBad m ws then d.refuseOut c m r tref rcBadFormat
  else
    let v := d.verdictOf c m ws tref
    if v.badFormat then d.refuseOut c m r tref rcBadFormat
    else
      let old := brandEpoch (ws.headD 0) ≠ d.get MBX_STAT_EPOCH
      let known := (commandOf (reqOpc ws)).isSome
      let first := !d.flag (MBX_Mm_STAT_SEQV m)
      let ahead := (seq + 65536 - d.get (MBX_Mm_SEQ_LAST m)) % 65536
      let d1 := if old && known then d.bump (MBX_Mm_CNT_EPOCH m) else d
      if !first && (ahead = 0 || 32768 ≤ ahead) then
        (if old then d1.refuseOut c m r tref (if known then rcBadEpoch else rcBadOpcode)
         else if ahead = 0 then d1.replay m r.src
         else (d1.bump (MBX_Mm_CNT_STALE m)).reportLim c 131 (0x70 + m))
      else
        let d2 := d1.takeReq m seq tref (!first && 1 < ahead)
        let v2 := d2.verdictOf c m ws tref
        d2.conclude c tref r.frac (reqOf m ws) r.src (reqOpc ws) v2

/-- t_ref of a request as a time of record (R370). -/
def MbxReq.refTor (r : MbxReq) : Nat := (r.tArr + 100000) * 2 ^ 48 + r.frac * 2 ^ 32

/-- No other mailbox holds a request that arrived before the one of mailbox m, or with it and under a lower number (R306). -/
def Dev.mboxFirst (d : Dev) (m tor : Nat) : Bool :=
  (List.range 16).all fun k => match (d.mbox k).reqs with
    | [] => true
    | r :: _ => k = m || decide (tor < r.refTor) || (decide (tor = r.refTor) && decide (m < k))

/-- The oldest request of mailbox m, whose t_ref has come, is decided in its turn; a freed entry lets the next request in (R306, R370,
R376). -/
def Dev.mboxDecide (d : Dev) (c : Clock) (m : Fin 16) : Dev :=
  match (d.mbox m).reqs with
  | [] => d
  | r :: rest =>
    if c.tor < r.refTor ∨ !d.mboxFirst m r.refTor then d
    else
      let d1 := (d.setMbox m { d.mbox m with reqs := rest }).decideReq c m r
      let d2 : Dev := { d1 with pair := { d1.pair with held := d1.pair.held.filter fun h => h ≠ (m.val, reqSeq r.words) } }
      d2.mboxTry c m

/-- Every request whose t_ref has come, in the order of R306: none stays undecided when the time goes on (R370). -/
def Dev.mboxDecideAll (d : Dev) (c : Clock) : Dev :=
  (List.range ((List.range 16).foldl (fun n m => n + (d.mbox m).reqs.length) 0)).foldl (fun d _ =>
    (List.finRange 16).foldl (fun d m => d.mboxDecide c m) d) d

def execMailboxDecision (m : Fin 16) (s : State) : Host.Outcome State Fault Refusal := .next (s.onServing fun c d => d.mboxDecide c m)

end Sys2Proof.Machine
end

