-- ==== Sys2Proof/Machine/Boot.lean ====
section
/-! DEFINITION. The end of BOOT (R552, R580 to R582) and what the block does while no command waits (log entry 1). -/

namespace Sys2Proof.Machine

/-- The firmware's reset configuration: every periodic gate on its grid, the chain's jobs, the slots of the set-point jobs (R582). -/
def Dev.resetConfig (d : Dev) (c : Clock) : Dev :=
  let d1 := (List.range 24).foldl (fun d l => d.regrid c l) d
  let d2 := (List.range 8).foldl (fun d s => d.regridStp c s) d1
  let d3 := (List.range 4).foldl (fun d g => d.linkGrid (c.ns + d.margin - 1) g) d2
  let d4 := (List.range 4).foldl (fun d k => d.regridField c k) d3
  let d5 := (List.range 64).foldl (fun d a => d.jobSetup (slotSetpoint a) 4 (slotEngine a) (d.modeClass a (d.axMode a) none) 2 0 0 []) d4
  (d5.chainJobs).chainGates c

/-- PASS of the device configuration record is usable (R581). -/
def passOk (pass : Nat) : Bool := pass = 0 || (10 ≤ pass && pass ≤ 3600)

/-- What SYS_BOOT and FLT_SCRUB show of the boot (R580 to R582, R563). -/
def Dev.bootRegs (d : Dev) (b : BootResult) : Dev :=
  let bad := b.cfgbad || !passOk b.pass.toNat
  let d1 := ((d.setf SYS_BOOT_SLOT b.slotB).put SYS_BOOT_ARES b.ares.toNat).put SYS_BOOT_BRES b.bres.toNat
  let d2 := ((d1.setf SYS_BOOT_CFGBAD bad).put SYS_BOOT_ECCC b.eccc.toNat).put SYS_BOOT_BTIME b.btime.toNat
  d2.put FLT_SCRUB_PASS (if bad ∨ b.pass = 0 then 60 else b.pass.toNat)

/-- The slot that was booted was accepted (R579, R580). -/
def BootResult_accepted (b : BootResult) : Bool := if b.slotB then b.bres = 1 else b.ares = 1

/-- BOOT ends with entry into READY and BOOTED set; the fault log starts empty (R40, R552, R582). A safety unit with a latched diagnostic
takes the device on to SAFE (R496). -/
def Dev.bootComplete (d : Dev) (c : Clock) (b : BootResult) : Dev :=
  let fresh := d.flag SYS_RST_POR || d.flag SYS_RST_PIN || d.flag SYS_RST_WAKE
  let d1 := ((d.bootRegs b).resetConfig c).safeLoad c fresh
  let d2 : Dev := { d1 with
    flt := { d1.flt with log := [], scrubbed := 0, passFrom := c.osc }
    fio := { d1.fio with winBoot := true } }
  let d3 := ((d2.put FLT_STAT_UNREAD 0).showWindow c.ns).setf MBX_STAT_BOOTED
  let d4 := (d3.deviceTo c .ready).showAll c
  if d4.flag SAFE_STAT_DIAG then d4.deviceFault c 175 safeUnit (d4.get SAFE_DIAG_CAUSE) true else d4

def execBootComplete (b : BootResult) (s : State) : Host.Outcome State Fault Refusal :=
  .next (if s.dev.dst = .boot ∧ !s.dev.pow.resetLow ∧ s.dev.get SYS_BOOT_CAUSE = 0 ∧ BootResult_accepted b then
    s.onDev fun c d => d.bootComplete c b else s)

/-! Idling. -/

/-- The part of conv.cfg images that commits at once (R384). -/
def Dev.convDue (d : Dev) (c : Clock) : Dev :=
  let due := d.dueImages convNow c.ns
  if due.isEmpty then d
  else
    let d0 : Dev := { d with imgs := d.imgs.filter fun p => !(p.group = convNow ∧ p.from_ ≤ c.ns) }
    due.foldl (fun d p => (d.convApply c p.pairs).doneImages [p] p.from_) d0

/-- Images of slots that have no trajectory instants (R266). -/
def Dev.axImgDue (d : Dev) (c : Clock) : Dev :=
  (List.range 64).foldl (fun d a => if d.trajT a = 0 ∧ !(d.dueImages (trjBase a) c.ns).isEmpty then d.axCommit a c.ns else d) d

/-- Requests that wait for entries, and BUSY (R369, R376). -/
def Dev.mboxDue (d : Dev) (c : Clock) : Dev := (List.range 16).foldl (fun d m => (d.mboxBusy c m).mboxTry c m) d

/-- The pins of a stepper lane whose bridge is in OFF: fast decay ends within it (R261). -/
def Dev.decayDue (d : Dev) (c : Clock) : Dev :=
  (List.range 8).foldl (fun d s => if (d.stpX s).a.st = .off ∨ (d.stpX s).b.st = .off then d.showStp c s else d) d

/-- A cap.stop of a recorder that records nothing, and the first sample instant of an armed one (R531). -/
def Dev.capDue (d : Dev) (c : Clock) : Dev :=
  (List.range 8).foldl (fun d r => if (d.capX r).next.isNone then d.capStopIdle c r else d.capArmed c r) d

/-- What has come due by itself: accepted images and commits of blocks without a gate, the mailboxes, the pair. -/
def Dev.due (d : Dev) (c : Clock) : Dev :=
  let d1 := ((((d.takeDecs c).convDue c).axImgDue c).canQuietDue c).chainDue c
  let d2 := ((((d1.reclaimDue c).mboxDue c).decayDue c).capDue c).fioDue c
  ((d2.pairDue c).takeRecs c).hpiDue c

/-- What happens when no command waits: one tick of the time base, and what comes due by itself (log entry 1). -/
def State.idle (s : State) : State :=
  if s.dev.timeRuns then (s.onServing fun c d => d.mboxDecideAll c).tick.onServing fun c d => d.due c else s

end Sys2Proof.Machine
end

