-- ==== Sys2Proof/Machine/Dispatch.lean ====
section
/-! DEFINITION. One arm per command: its meaning, or its refusal by name. -/

namespace Sys2Proof.Machine

/-- The effect of a command on everything but the queue. -/
def exec (i : Instr) (s : State) : Host.Outcome State Fault Refusal :=
  match i with
  | .sysCaps q => Sys2Proof.Machine.execSysCaps q s
  | .sysIdent q => Sys2Proof.Machine.execSysIdent q s
  | .sysStatus q => Sys2Proof.Machine.execSysStatus q s
  | .sysRun q => Sys2Proof.Machine.execSysRun q s
  | .sysStop q => Sys2Proof.Machine.execSysStop q s
  | .sysStandby q => Sys2Proof.Machine.execSysStandby q s
  | .sysDoze q => Sys2Proof.Machine.execSysDoze q s
  | .sysReset q => Sys2Proof.Machine.execSysReset q s
  | .sysClear q => Sys2Proof.Machine.execSysClear q s
  | .sysRelease q => Sys2Proof.Machine.execSysRelease q s
  | .sysReclaim q => Sys2Proof.Machine.execSysReclaim q s
  | .sysMbx q => Sys2Proof.Machine.execSysMbx q s
  | .laneCfg q => Sys2Proof.Machine.execLaneCfg q s
  | .laneArm q => Sys2Proof.Machine.execLaneArm q s
  | .laneEnable q => Sys2Proof.Machine.execLaneEnable q s
  | .laneDisable q => Sys2Proof.Machine.execLaneDisable q s
  | .laneStop q => Sys2Proof.Machine.execLaneStop q s
  | .laneClear q => Sys2Proof.Machine.execLaneClear q s
  | .dcgCfg q => Sys2Proof.Machine.execDcgCfg q s
  | .dcgClear q => Sys2Proof.Machine.execDcgClear q s
  | .fbkCfg q => Sys2Proof.Machine.execFbkCfg q s
  | .fbkSetPos q => Sys2Proof.Machine.execFbkSetPos q s
  | .convCfg q => Sys2Proof.Machine.execConvCfg q s
  | .strCfg q => Sys2Proof.Machine.execStrCfg q s
  | .cmdinCfg q => Sys2Proof.Machine.execCmdinCfg q s
  | .moveAbs q => Sys2Proof.Machine.execMoveAbs q s
  | .moveRel q => Sys2Proof.Machine.execMoveRel q s
  | .moveRetarget q => Sys2Proof.Machine.execMoveRetarget q s
  | .moveVel q => Sys2Proof.Machine.execMoveVel q s
  | .moveStop q => Sys2Proof.Machine.execMoveStop q s
  | .axisLimits q => Sys2Proof.Machine.execAxisLimits q s
  | .axisCfg q => Sys2Proof.Machine.execAxisCfg q s
  | .gearSet q => Sys2Proof.Machine.execGearSet q s
  | .camSet q => Sys2Proof.Machine.execCamSet q s
  | .camLoad q => Sys2Proof.Machine.execCamLoad q s
  | .loopCfg q => Sys2Proof.Machine.execLoopCfg q s
  | .loopMode q => Sys2Proof.Machine.execLoopMode q s
  | .loopSet q => Sys2Proof.Machine.execLoopSet q s
  | .timeCfg q => Sys2Proof.Machine.execTimeCfg q s
  | .timeAcceptStep q => Sys2Proof.Machine.execTimeAcceptStep q s
  | .herderCfg q => Sys2Proof.Machine.execHerderCfg q s
  | .herderTrace q => Sys2Proof.Machine.execHerderTrace q s
  | .capCfg q => Sys2Proof.Machine.execCapCfg q s
  | .capArm q => Sys2Proof.Machine.execCapArm q s
  | .capStop q => Sys2Proof.Machine.execCapStop q s
  | .ioCfg q => Sys2Proof.Machine.execIoCfg q s
  | .ioSet q => Sys2Proof.Machine.execIoSet q s
  | .ioDiag q => Sys2Proof.Machine.execIoDiag q s
  | .safeCfg q => Sys2Proof.Machine.execSafeCfg q s
  | .safeStatus q => Sys2Proof.Machine.execSafeStatus q s
  | .chainCfg q => Sys2Proof.Machine.execChainCfg q s
  | .chainEnum q => Sys2Proof.Machine.execChainEnum q s
  | .canCfg q => Sys2Proof.Machine.execCanCfg q s
  | .canSend q => Sys2Proof.Machine.execCanSend q s
  | .pairJoin q => Sys2Proof.Machine.execPairJoin q s
  | .pairLeave q => Sys2Proof.Machine.execPairLeave q s
  | .pairStatus q => Sys2Proof.Machine.execPairStatus q s
  | .extLoad q => Sys2Proof.Machine.execExtLoad q s
  | .regRead q => Sys2Proof.Machine.execRegRead q s
  | .regWrite q => Sys2Proof.Machine.execRegWrite q s
  | .read addr n => Sys2Proof.Machine.execRead addr n s
  | .write code addr ws cut => Sys2Proof.Machine.execWrite code addr ws cut s
  | .status => Sys2Proof.Machine.execStatus s
  | .mailboxDecision m => Sys2Proof.Machine.execMailboxDecision m s
  | .responseRelease m => Sys2Proof.Machine.execResponseRelease m s
  | .bootedRead => Sys2Proof.Machine.execBootedRead s
  | .registerWrite addr v => Sys2Proof.Machine.execRegisterWrite addr v s
  | .timeNowLatch => Sys2Proof.Machine.execTimeNowLatch s
  | .fbkPosLatch n => Sys2Proof.Machine.execFbkPosLatch n s
  | .probeTsLatch p => Sys2Proof.Machine.execProbeTsLatch p s
  | .probeFracRead p => Sys2Proof.Machine.execProbeFracRead p s
  | .dsfResRead ch => Sys2Proof.Machine.execDsfResRead ch s
  | .sarResRead m ch => Sys2Proof.Machine.execSarResRead m ch s
  | .launchLatch j => Sys2Proof.Machine.execLaunchLatch j s
  | .trefLatch m => Sys2Proof.Machine.execTrefLatch m s
  | .spLatch a => Sys2Proof.Machine.execSpLatch a s
  | .slackClr l => Sys2Proof.Machine.execSlackClr l s
  | .gateCommit g => Sys2Proof.Machine.execGateCommit g s
  | .pwmCommit l => Sys2Proof.Machine.execPwmCommit l s
  | .commitPacket l brand sk => Sys2Proof.Machine.execCommitPacket l brand sk s
  | .stepperCommit sn => Sys2Proof.Machine.execStepperCommit sn s
  | .groupCommit g => Sys2Proof.Machine.execGroupCommit g s
  | .dsfCommit l => Sys2Proof.Machine.execDsfCommit l s
  | .sarGroupCommit g => Sys2Proof.Machine.execSarGroupCommit g s
  | .sarSequenceCommit m => Sys2Proof.Machine.execSarSequenceCommit m s
  | .fbkCommit n => Sys2Proof.Machine.execFbkCommit n s
  | .strideCommit sn => Sys2Proof.Machine.execStrideCommit sn s
  | .trjCommit a => Sys2Proof.Machine.execTrjCommit a s
  | .loopCommit b => Sys2Proof.Machine.execLoopCommit b s
  | .chainCommit => Sys2Proof.Machine.execChainCommit s
  | .canCommit ch => Sys2Proof.Machine.execCanCommit ch s
  | .canRecovery ch => Sys2Proof.Machine.execCanRecovery ch s
  | .push ch => Sys2Proof.Machine.execPush ch s
  | .canRxRelease ch => Sys2Proof.Machine.execCanRxRelease ch s
  | .fioCommit ch => Sys2Proof.Machine.execFioCommit ch s
  | .capCommit r => Sys2Proof.Machine.execCapCommit r s
  | .segmentRelease r => Sys2Proof.Machine.execSegmentRelease r s
  | .faultLogRelease => Sys2Proof.Machine.execFaultLogRelease s
  | .fltinj dr => Sys2Proof.Machine.execFltinj dr s
  | .faultInjection => Sys2Proof.Machine.execFaultInjection s
  | .bootst => Sys2Proof.Machine.execBootst s
  | .powerOn => Sys2Proof.Machine.execPowerOn s
  | .brownOut => Sys2Proof.Machine.execBrownOut s
  | .resetNLow ns => Sys2Proof.Machine.execResetNLow ns s
  | .resetNRise => Sys2Proof.Machine.execResetNRise s
  | .watchdogReset => Sys2Proof.Machine.execWatchdogReset s
  | .softReset => Sys2Proof.Machine.execSoftReset s
  | .standbyEntry => Sys2Proof.Machine.execStandbyEntry s
  | .wakeN ns => Sys2Proof.Machine.execWakeN ns s
  | .hpiCsNWake ns => Sys2Proof.Machine.execHpiCsNWake ns s
  | .canEdgeWake ch ns => Sys2Proof.Machine.execCanEdgeWake ch ns s
  | .canWakeFrame ch f => Sys2Proof.Machine.execCanWakeFrame ch f s
  | .overTemperature degC => Sys2Proof.Machine.execOverTemperature degC s
  | .coolDown degC => Sys2Proof.Machine.execCoolDown degC s
  | .vioBankRise bank => Sys2Proof.Machine.execVioBankRise bank s
  | .bootComplete b => Sys2Proof.Machine.execBootComplete b s
  | .bootFailure cause => Sys2Proof.Machine.execBootFailure cause s
  | .refLost => Sys2Proof.Machine.execRefLost s
  | .gateSample g => Sys2Proof.Machine.execGateSample g s
  | .gateLatch g => Sys2Proof.Machine.execGateLatch g s
  | .reload g => Sys2Proof.Machine.execReload g s
  | .stagingLockEnd g => Sys2Proof.Machine.execStagingLockEnd g s
  | .gateMark g => Sys2Proof.Machine.execGateMark g s
  | .gateField g => Sys2Proof.Machine.execGateField g s
  | .gateFrame g => Sys2Proof.Machine.execGateFrame g s
  | .gateCapture g => Sys2Proof.Machine.execGateCapture g s
  | .herderTick => Sys2Proof.Machine.execHerderTick s
  | .dispatch e => Sys2Proof.Machine.execDispatch e s
  | .withdraw j => Sys2Proof.Machine.execWithdraw j s
  | .jobOverrun e => Sys2Proof.Machine.execJobOverrun e s
  | .statisticsWindow => Sys2Proof.Machine.execStatisticsWindow s
  | .shAdd e xd xa xb => Sys2Proof.Machine.execShAdd e xd xa xb s
  | .shSub e xd xa xb => Sys2Proof.Machine.execShSub e xd xa xb s
  | .shAdds e xd xa xb => Sys2Proof.Machine.execShAdds e xd xa xb s
  | .shSubs e xd xa xb => Sys2Proof.Machine.execShSubs e xd xa xb s
  | .shAnd e xd xa xb => Sys2Proof.Machine.execShAnd e xd xa xb s
  | .shOr e xd xa xb => Sys2Proof.Machine.execShOr e xd xa xb s
  | .shXor e xd xa xb => Sys2Proof.Machine.execShXor e xd xa xb s
  | .shShl e xd xa xb => Sys2Proof.Machine.execShShl e xd xa xb s
  | .shShr e xd xa xb => Sys2Proof.Machine.execShShr e xd xa xb s
  | .shSra e xd xa xb => Sys2Proof.Machine.execShSra e xd xa xb s
  | .shMin e xd xa xb => Sys2Proof.Machine.execShMin e xd xa xb s
  | .shMax e xd xa xb => Sys2Proof.Machine.execShMax e xd xa xb s
  | .shAbss e xd xa xb => Sys2Proof.Machine.execShAbss e xd xa xb s
  | .shNegs e xd xa xb => Sys2Proof.Machine.execShNegs e xd xa xb s
  | .shNorm e xd xa xb => Sys2Proof.Machine.execShNorm e xd xa xb s
  | .shDiv e xd xa xb => Sys2Proof.Machine.execShDiv e xd xa xb s
  | .shDivu e xd xa xb => Sys2Proof.Machine.execShDivu e xd xa xb s
  | .shShls e xd xa xb => Sys2Proof.Machine.execShShls e xd xa xb s
  | .shAddi e xd xa imm => Sys2Proof.Machine.execShAddi e xd xa imm s
  | .shAndi e xd xa imm => Sys2Proof.Machine.execShAndi e xd xa imm s
  | .shOri e xd xa imm => Sys2Proof.Machine.execShOri e xd xa imm s
  | .shXori e xd xa imm => Sys2Proof.Machine.execShXori e xd xa imm s
  | .shShli e xd xa imm => Sys2Proof.Machine.execShShli e xd xa imm s
  | .shShri e xd xa imm => Sys2Proof.Machine.execShShri e xd xa imm s
  | .shSrai e xd xa imm => Sys2Proof.Machine.execShSrai e xd xa imm s
  | .shMpy e ac xa xb md => Sys2Proof.Machine.execShMpy e ac xa xb md s
  | .shMac e ac xa xb md => Sys2Proof.Machine.execShMac e ac xa xb md s
  | .shMsu e ac xa xb md => Sys2Proof.Machine.execShMsu e ac xa xb md s
  | .shTap e ac xs xh cb => Sys2Proof.Machine.execShTap e ac xs xh cb s
  | .shClr e ac xd sh => Sys2Proof.Machine.execShClr e ac xd sh s
  | .shExt e ac xd sh => Sys2Proof.Machine.execShExt e ac xd sh s
  | .shExtu e ac xd sh => Sys2Proof.Machine.execShExtu e ac xd sh s
  | .shExtl e ac xd sh => Sys2Proof.Machine.execShExtl e ac xd sh s
  | .shMvg e ac xd sh => Sys2Proof.Machine.execShMvg e ac xd sh s
  | .shLdal e ac xd sh => Sys2Proof.Machine.execShLdal e ac xd sh s
  | .shLdag e ac xd sh => Sys2Proof.Machine.execShLdag e ac xd sh s
  | .shAdda e ac xd sh => Sys2Proof.Machine.execShAdda e ac xd sh s
  | .shMova e ac xd sh => Sys2Proof.Machine.execShMova e ac xd sh s
  | .shLdW e m xd xp => Sys2Proof.Machine.execShLdW e m xd xp s
  | .shLdL e m xd xp => Sys2Proof.Machine.execShLdL e m xd xp s
  | .shStW e m xd xp => Sys2Proof.Machine.execShStW e m xd xp s
  | .shStL e m xd xp => Sys2Proof.Machine.execShStL e m xd xp s
  | .shLda e m xd xp => Sys2Proof.Machine.execShLda e m xd xp s
  | .shSta e m xd xp => Sys2Proof.Machine.execShSta e m xd xp s
  | .shBcc e cond off => Sys2Proof.Machine.execShBcc e cond off s
  | .shCall e off => Sys2Proof.Machine.execShCall e off s
  | .shRet e => Sys2Proof.Machine.execShRet e s
  | .shNop e => Sys2Proof.Machine.execShNop e s
  | .shEnd e => Sys2Proof.Machine.execShEnd e s
  | .shRep e count => Sys2Proof.Machine.execShRep e count s
  | .shRepx e xa => Sys2Proof.Machine.execShRepx e xa s
  | .shLoop e count len => Sys2Proof.Machine.execShLoop e count len s
  | .shMfs e xd sn n => Sys2Proof.Machine.execShMfs e xd sn n s
  | .shMts e xd sn n => Sys2Proof.Machine.execShMts e xd sn n s
  | .shTimr e xd sn n => Sys2Proof.Machine.execShTimr e xd sn n s
  | .shSend e xd sn n => Sys2Proof.Machine.execShSend e xd sn n s
  | .shIold e xd sn n => Sys2Proof.Machine.execShIold e xd sn n s
  | .shIost e xd sn n => Sys2Proof.Machine.execShIost e xd sn n s
  | .shBrk e xd sn n => Sys2Proof.Machine.execShBrk e xd sn n s
  | .shLdi e xd xa imm => Sys2Proof.Machine.execShLdi e xd xa imm s
  | .shAddi32 e xd xa imm => Sys2Proof.Machine.execShAddi32 e xd xa imm s
  | .packetDelivery idx => Sys2Proof.Machine.execPacketDelivery idx s
  | .dsfResult l w => Sys2Proof.Machine.execDsfResult l w s
  | .comparatorOutput ch a => Sys2Proof.Machine.execComparatorOutput ch a s
  | .modStuck ch level => Sys2Proof.Machine.execModStuck ch level s
  | .sarConversion m v => Sys2Proof.Machine.execSarConversion m v s
  | .dcLinkSample g a b => Sys2Proof.Machine.execDcLinkSample g a b s
  | .quadratureEdge n a b => Sys2Proof.Machine.execQuadratureEdge n a b s
  | .hallChange n code => Sys2Proof.Machine.execHallChange n code s
  | .indexEvent n => Sys2Proof.Machine.execIndexEvent n s
  | .alarmInput n level => Sys2Proof.Machine.execAlarmInput n level s
  | .serialFrame n f => Sys2Proof.Machine.execSerialFrame n f s
  | .probeEvent p rising => Sys2Proof.Machine.execProbeEvent p rising s
  | .strideEdgeFixed sn => Sys2Proof.Machine.execStrideEdgeFixed sn s
  | .strideEdge sn => Sys2Proof.Machine.execStrideEdge sn s
  | .stridePulseEnd sn => Sys2Proof.Machine.execStridePulseEnd sn s
  | .cmdinEdge c high => Sys2Proof.Machine.execCmdinEdge c high s
  | .cmdinConversion code => Sys2Proof.Machine.execCmdinConversion code s
  | .cmdinLost c => Sys2Proof.Machine.execCmdinLost c s
  | .startTimeout l => Sys2Proof.Machine.execStartTimeout l s
  | .fltNAsserted g => Sys2Proof.Machine.execFltNAsserted g s
  | .cmpinTrip sn bridgeB => Sys2Proof.Machine.execCmpinTrip sn bridgeB s
  | .blankingEnd sn bridgeB => Sys2Proof.Machine.execBlankingEnd sn bridgeB s
  | .offTimeEnd sn bridgeB => Sys2Proof.Machine.execOffTimeEnd sn bridgeB s
  | .holdCurrent sn => Sys2Proof.Machine.execHoldCurrent sn s
  | .trajectoryInstant a => Sys2Proof.Machine.execTrajectoryInstant a s
  | .loopInstant b => Sys2Proof.Machine.execLoopInstant b s
  | .loopJobComplete b => Sys2Proof.Machine.execLoopJobComplete b s
  | .loopOutput b => Sys2Proof.Machine.execLoopOutput b s
  | .syncReceived m => Sys2Proof.Machine.execSyncReceived m s
  | .masterLost => Sys2Proof.Machine.execMasterLost s
  | .holdoverLimit => Sys2Proof.Machine.execHoldoverLimit s
  | .slewComplete => Sys2Proof.Machine.execSlewComplete s
  | .pdelayReq p => Sys2Proof.Machine.execPdelayReq p s
  | .pdelayMessage p m => Sys2Proof.Machine.execPdelayMessage p m s
  | .announce => Sys2Proof.Machine.execAnnounce s
  | .linkDown p => Sys2Proof.Machine.execLinkDown p s
  | .linkUp p => Sys2Proof.Machine.execLinkUp p s
  | .forward p f => Sys2Proof.Machine.execForward p f s
  | .storeBufferSend p => Sys2Proof.Machine.execStoreBufferSend p s
  | .ruoriFrameReceived p f => Sys2Proof.Machine.execRuoriFrameReceived p f s
  | .registerRead b src => Sys2Proof.Machine.execRegisterRead b src s
  | .enumerationFrame p f => Sys2Proof.Machine.execEnumerationFrame p f s
  | .identity b => Sys2Proof.Machine.execIdentity b s
  | .enumTimeout => Sys2Proof.Machine.execEnumTimeout s
  | .canFrameReceived ch f sof => Sys2Proof.Machine.execCanFrameReceived ch f sof s
  | .canTransmitStart ch => Sys2Proof.Machine.execCanTransmitStart ch s
  | .canTransmitEnd ch sof tdcv => Sys2Proof.Machine.execCanTransmitEnd ch sof tdcv s
  | .canEntryExpiry ch idx => Sys2Proof.Machine.execCanEntryExpiry ch idx s
  | .canBusError ch k => Sys2Proof.Machine.execCanBusError ch k s
  | .busOffRecovered ch => Sys2Proof.Machine.execBusOffRecovered ch s
  | .busIntegration ch => Sys2Proof.Machine.execBusIntegration ch s
  | .sleepWake ch ns => Sys2Proof.Machine.execSleepWake ch ns s
  | .pairLinkTrained same addr => Sys2Proof.Machine.execPairLinkTrained same addr s
  | .heartbeatSend => Sys2Proof.Machine.execHeartbeatSend s
  | .heartbeatReceived h => Sys2Proof.Machine.execHeartbeatReceived h s
  | .heartbeatMiss => Sys2Proof.Machine.execHeartbeatMiss s
  | .pairLinkFrame crcOk f => Sys2Proof.Machine.execPairLinkFrame crcOk f s
  | .mirrorRecord r => Sys2Proof.Machine.execMirrorRecord r s
  | .requestHold m ws => Sys2Proof.Machine.execRequestHold m ws s
  | .holdAcknowledge m seq => Sys2Proof.Machine.execHoldAcknowledge m seq s
  | .decision m ws => Sys2Proof.Machine.execDecision m ws s
  | .snapshot rs => Sys2Proof.Machine.execSnapshot rs s
  | .safeNotice code => Sys2Proof.Machine.execSafeNotice code s
  | .readbackCompare levels => Sys2Proof.Machine.execReadbackCompare levels s
  | .pforceNLow => Sys2Proof.Machine.execPforceNLow s
  | .ownInFall => Sys2Proof.Machine.execOwnInFall s
  | .joinFailed => Sys2Proof.Machine.execJoinFailed s
  | .disputedTimeout l => Sys2Proof.Machine.execDisputedTimeout l s
  | .safetyCycle idx => Sys2Proof.Machine.execSafetyCycle idx s
  | .ss1Expiry g => Sys2Proof.Machine.execSs1Expiry g s
  | .slsRampEnd g => Sys2Proof.Machine.execSlsRampEnd g s
  | .resetStuck idx => Sys2Proof.Machine.execResetStuck idx s
  | .supsil => Sys2Proof.Machine.execSupsil s
  | .oscCheck ok => Sys2Proof.Machine.execOscCheck ok s
  | .safetyCrcCheck rom cfg => Sys2Proof.Machine.execSafetyCrcCheck rom cfg s
  | .fieldFrame idx => Sys2Proof.Machine.execFieldFrame idx s
  | .outputOverload ch => Sys2Proof.Machine.execOutputOverload ch s
  | .fieldWatchdog => Sys2Proof.Machine.execFieldWatchdog s
  | .diagnosticWindowEnd => Sys2Proof.Machine.execDiagnosticWindowEnd s
  | .vfldLow => Sys2Proof.Machine.execVfldLow s
  | .fieldDieReset => Sys2Proof.Machine.execFieldDieReset s
  | .captureSample r => Sys2Proof.Machine.execCaptureSample r s
  | .scrubRead addr => Sys2Proof.Machine.execScrubRead addr s
  | .pairLinkLost => Sys2Proof.Machine.execPairLinkLost s
  | .vioBankFall bank => Sys2Proof.Machine.execVioBankFall bank s
  | .vfldRestored => Sys2Proof.Machine.execVfldRestored s
  | .pforceNRelease => Sys2Proof.Machine.execPforceNRelease s
  | .testPulse on src => Sys2Proof.Machine.execTestPulse on src s
  | .switchEdge l sw on => Sys2Proof.Machine.execSwitchEdge l sw on s
  | .inputOverload ch => Sys2Proof.Machine.execInputOverload ch s

end Sys2Proof.Machine
end

