-- ==== Sys2Proof/WellFormed.lean ====
section
/-! DEFINITION. Well-formed commands: operands the hardware can meet. An ill-formed one spells nothing that could arrive; exec is total all
the same. -/

namespace Sys2Proof

/-- A request as its words can spell it: LEN to 59, 64-bit launch time, 32-bit deadline, zero time words with ASAP (R367, R371). -/
def Request.wf (q : Request) : Bool :=
  decide (q.payload.length ≤ 59) && decide (q.launch < 2 ^ 64) && decide (q.dl < 2 ^ 32) && (!q.asap || (decide (q.launch = 0) && decide (q.frac = 0)))

/-- A CAN frame as a bus can carry it (R430, R434): an 11-bit identifier in the base format, bit rate switch in FD frames only, no FD remote
frame, the data bytes its DLC gives. -/
def CanFrame.wf (f : CanFrame) : Bool :=
  (f.ide || decide (f.id.toNat < 2 ^ 11)) && (f.fdf || !f.brs) && !(f.fdf && f.rtr) &&
    decide (f.data.length = (if f.rtr then 0
      else if f.dlc.toNat ≤ 8 then f.dlc.toNat
      else if !f.fdf then 8
      else [12, 16, 20, 24, 32, 48, 64].getD (f.dlc.toNat - 9) 64))

/-- A frame within the length the MAC passes, without its FCS (R391); a bad one may be cut short. -/
def EthFrame.wf (f : EthFrame) : Bool := decide (f.bytes.length ≤ 1518) && (f.bad || decide (60 ≤ f.bytes.length))

/-- A packet within the longest of the packet tables, a block of a Ruori frame of 1,522 bytes (R25, R391). -/
def Packet.wf (p : Packet) : Bool := decide (p.words.length ≤ 188) && p.errs.all fun e => decide (e.1 ≤ p.words.length) && decide (e.2 < 2 ^ 72)

/-- Well-formedness of a command. -/
def Instr.wf : Instr → Bool
  | .sysCaps q => q.wf
  | .sysIdent q => q.wf
  | .sysStatus q => q.wf
  | .sysRun q => q.wf
  | .sysStop q => q.wf
  | .sysStandby q => q.wf
  | .sysDoze q => q.wf
  | .sysReset q => q.wf
  | .sysClear q => q.wf
  | .sysRelease q => q.wf
  | .sysReclaim q => q.wf
  | .sysMbx q => q.wf
  | .laneCfg q => q.wf
  | .laneArm q => q.wf
  | .laneEnable q => q.wf
  | .laneDisable q => q.wf
  | .laneStop q => q.wf
  | .laneClear q => q.wf
  | .dcgCfg q => q.wf
  | .dcgClear q => q.wf
  | .fbkCfg q => q.wf
  | .fbkSetPos q => q.wf
  | .convCfg q => q.wf
  | .strCfg q => q.wf
  | .cmdinCfg q => q.wf
  | .moveAbs q => q.wf
  | .moveRel q => q.wf
  | .moveRetarget q => q.wf
  | .moveVel q => q.wf
  | .moveStop q => q.wf
  | .axisLimits q => q.wf
  | .axisCfg q => q.wf
  | .gearSet q => q.wf
  | .camSet q => q.wf
  | .camLoad q => q.wf
  | .loopCfg q => q.wf
  | .loopMode q => q.wf
  | .loopSet q => q.wf
  | .timeCfg q => q.wf
  | .timeAcceptStep q => q.wf
  | .herderCfg q => q.wf
  | .herderTrace q => q.wf
  | .capCfg q => q.wf
  | .capArm q => q.wf
  | .capStop q => q.wf
  | .ioCfg q => q.wf
  | .ioSet q => q.wf
  | .ioDiag q => q.wf
  | .safeCfg q => q.wf
  | .safeStatus q => q.wf
  | .chainCfg q => q.wf
  | .chainEnum q => q.wf
  | .canCfg q => q.wf
  | .canSend q => q.wf
  | .pairJoin q => q.wf
  | .pairLeave q => q.wf
  | .pairStatus q => q.wf
  | .extLoad q => q.wf
  | .regRead q => q.wf
  | .regWrite q => q.wf
  | .read _ _ => true
  | .write _ _ _ _ => true
  | .status => true
  | .mailboxDecision _ => true
  | .responseRelease _ => true
  | .bootedRead => true
  | .registerWrite _ _ => true
  | .timeNowLatch => true
  | .fbkPosLatch _ => true
  | .probeTsLatch _ => true
  | .probeFracRead _ => true
  | .dsfResRead _ => true
  | .sarResRead _ _ => true
  | .launchLatch _ => true
  | .trefLatch _ => true
  | .spLatch _ => true
  | .slackClr _ => true
  | .gateCommit _ => true
  | .pwmCommit _ => true
  | .commitPacket _ _ _ => true
  | .stepperCommit _ => true
  | .groupCommit _ => true
  | .dsfCommit _ => true
  | .sarGroupCommit _ => true
  | .sarSequenceCommit _ => true
  | .fbkCommit _ => true
  | .strideCommit _ => true
  | .trjCommit _ => true
  | .loopCommit _ => true
  | .chainCommit => true
  | .canCommit _ => true
  | .canRecovery _ => true
  | .push _ => true
  | .canRxRelease _ => true
  | .fioCommit _ => true
  | .capCommit _ => true
  | .segmentRelease _ => true
  | .faultLogRelease => true
  | .fltinj _ => true
  | .faultInjection => true
  | .bootst => true
  | .powerOn => true
  | .brownOut => true
  | .resetNLow _ => true
  | .resetNRise => true
  | .watchdogReset => true
  | .softReset => true
  | .standbyEntry => true
  | .wakeN _ => true
  | .hpiCsNWake _ => true
  | .canEdgeWake _ _ => true
  | .canWakeFrame _ f => f.wf
  | .overTemperature _ => true
  | .coolDown _ => true
  | .vioBankRise _ => true
  | .bootComplete _ => true
  | .bootFailure cause => decide (cause ≠ 0 ∧ cause ≠ 7)
  | .refLost => true
  | .gateSample _ => true
  | .gateLatch _ => true
  | .reload _ => true
  | .stagingLockEnd _ => true
  | .gateMark _ => true
  | .gateField _ => true
  | .gateFrame _ => true
  | .gateCapture _ => true
  | .herderTick => true
  | .dispatch _ => true
  | .withdraw _ => true
  | .jobOverrun _ => true
  | .statisticsWindow => true
  | i@(.shAdd _ _ _ _) => Machine.shLegal i
  | i@(.shSub _ _ _ _) => Machine.shLegal i
  | i@(.shAdds _ _ _ _) => Machine.shLegal i
  | i@(.shSubs _ _ _ _) => Machine.shLegal i
  | i@(.shAnd _ _ _ _) => Machine.shLegal i
  | i@(.shOr _ _ _ _) => Machine.shLegal i
  | i@(.shXor _ _ _ _) => Machine.shLegal i
  | i@(.shShl _ _ _ _) => Machine.shLegal i
  | i@(.shShr _ _ _ _) => Machine.shLegal i
  | i@(.shSra _ _ _ _) => Machine.shLegal i
  | i@(.shMin _ _ _ _) => Machine.shLegal i
  | i@(.shMax _ _ _ _) => Machine.shLegal i
  | i@(.shAbss _ _ _ _) => Machine.shLegal i
  | i@(.shNegs _ _ _ _) => Machine.shLegal i
  | i@(.shNorm _ _ _ _) => Machine.shLegal i
  | i@(.shDiv _ _ _ _) => Machine.shLegal i
  | i@(.shDivu _ _ _ _) => Machine.shLegal i
  | i@(.shShls _ _ _ _) => Machine.shLegal i
  | i@(.shAddi _ _ _ _) => Machine.shLegal i
  | i@(.shAndi _ _ _ _) => Machine.shLegal i
  | i@(.shOri _ _ _ _) => Machine.shLegal i
  | i@(.shXori _ _ _ _) => Machine.shLegal i
  | i@(.shShli _ _ _ _) => Machine.shLegal i
  | i@(.shShri _ _ _ _) => Machine.shLegal i
  | i@(.shSrai _ _ _ _) => Machine.shLegal i
  | i@(.shMpy _ _ _ _ _) => Machine.shLegal i
  | i@(.shMac _ _ _ _ _) => Machine.shLegal i
  | i@(.shMsu _ _ _ _ _) => Machine.shLegal i
  | i@(.shTap _ _ _ _ _) => Machine.shLegal i
  | i@(.shClr _ _ _ _) => Machine.shLegal i
  | i@(.shExt _ _ _ _) => Machine.shLegal i
  | i@(.shExtu _ _ _ _) => Machine.shLegal i
  | i@(.shExtl _ _ _ _) => Machine.shLegal i
  | i@(.shMvg _ _ _ _) => Machine.shLegal i
  | i@(.shLdal _ _ _ _) => Machine.shLegal i
  | i@(.shLdag _ _ _ _) => Machine.shLegal i
  | i@(.shAdda _ _ _ _) => Machine.shLegal i
  | i@(.shMova _ _ _ _) => Machine.shLegal i
  | i@(.shLdW _ _ _ _) => Machine.shLegal i
  | i@(.shLdL _ _ _ _) => Machine.shLegal i
  | i@(.shStW _ _ _ _) => Machine.shLegal i
  | i@(.shStL _ _ _ _) => Machine.shLegal i
  | i@(.shLda _ _ _ _) => Machine.shLegal i
  | i@(.shSta _ _ _ _) => Machine.shLegal i
  | i@(.shBcc _ _ _) => Machine.shLegal i
  | i@(.shCall _ _) => Machine.shLegal i
  | i@(.shRet _) => Machine.shLegal i
  | i@(.shNop _) => Machine.shLegal i
  | i@(.shEnd _) => Machine.shLegal i
  | i@(.shRep _ _) => Machine.shLegal i
  | i@(.shRepx _ _) => Machine.shLegal i
  | i@(.shLoop _ _ _) => Machine.shLegal i
  | i@(.shMfs _ _ _ _) => Machine.shLegal i
  | i@(.shMts _ _ _ _) => Machine.shLegal i
  | i@(.shTimr _ _ _ _) => Machine.shLegal i
  | i@(.shSend _ _ _ _) => Machine.shLegal i
  | i@(.shIold _ _ _ _) => Machine.shLegal i
  | i@(.shIost _ _ _ _) => Machine.shLegal i
  | i@(.shBrk _ _ _ _) => Machine.shLegal i
  | i@(.shLdi _ _ _ _) => Machine.shLegal i
  | i@(.shAddi32 _ _ _ _) => Machine.shLegal i
  | .packetDelivery _ => true
  | .dsfResult _ _ => true
  | .comparatorOutput _ _ => true
  | .modStuck _ _ => true
  | .sarConversion _ v => decide (0 < v.vref)
  | .dcLinkSample _ a b => decide (0 < a.vref) && decide (0 < b.vref)
  | .quadratureEdge _ _ _ => true
  | .hallChange _ _ => true
  | .indexEvent _ => true
  | .alarmInput _ _ => true
  | .serialFrame _ f => decide (f.bits < 2 ^ 64)
  | .probeEvent _ _ => true
  | .strideEdgeFixed _ => true
  | .strideEdge _ => true
  | .stridePulseEnd _ => true
  | .cmdinEdge _ _ => true
  | .cmdinConversion _ => true
  | .cmdinLost _ => true
  | .startTimeout _ => true
  | .fltNAsserted _ => true
  | .cmpinTrip _ _ => true
  | .blankingEnd _ _ => true
  | .offTimeEnd _ _ => true
  | .holdCurrent _ => true
  | .trajectoryInstant _ => true
  | .loopInstant _ => true
  | .loopJobComplete _ => true
  | .loopOutput _ => true
  | .syncReceived m => m.sync.wf && m.follow.wf
  | .masterLost => true
  | .holdoverLimit => true
  | .slewComplete => true
  | .pdelayReq _ => true
  | .pdelayMessage _ m => m.frame.wf
  | .announce => true
  | .linkDown _ => true
  | .linkUp _ => true
  | .forward _ f => f.wf
  | .storeBufferSend _ => true
  | .ruoriFrameReceived _ f => f.wf
  | .registerRead b _ => b.wf
  | .enumerationFrame _ f => f.wf
  | .identity b => b.wf
  | .enumTimeout => true
  | .canFrameReceived _ f _ => f.wf
  | .canTransmitStart _ => true
  | .canTransmitEnd _ _ _ => true
  | .canEntryExpiry _ _ => true
  | .canBusError _ _ => true
  | .busOffRecovered _ => true
  | .busIntegration _ => true
  | .sleepWake _ _ => true
  | .pairLinkTrained _ _ => true
  | .heartbeatSend => true
  | .heartbeatReceived _ => true
  | .heartbeatMiss => true
  | .pairLinkFrame _ f => decide (f.words.length ≤ 64)
  | .mirrorRecord r => r.wf
  | .requestHold _ ws => decide (5 ≤ ws.length) && decide (ws.length ≤ 64)
  | .holdAcknowledge _ _ => true
  | .decision _ ws => decide (ws.length = 8)
  | .snapshot rs => rs.all (·.wf)
  | .safeNotice _ => true
  | .readbackCompare levels => decide (levels < 2 ^ 180)
  | .pforceNLow => true
  | .ownInFall => true
  | .joinFailed => true
  | .disputedTimeout _ => true
  | .safetyCycle _ => true
  | .ss1Expiry _ => true
  | .slsRampEnd _ => true
  | .resetStuck _ => true
  | .supsil => true
  | .oscCheck _ => true
  | .safetyCrcCheck _ _ => true
  | .fieldFrame _ => true
  | .outputOverload _ => true
  | .fieldWatchdog => true
  | .diagnosticWindowEnd => true
  | .vfldLow => true
  | .fieldDieReset => true
  | .captureSample _ => true
  | .scrubRead _ => true
  | .pairLinkLost => true
  | .vioBankFall _ => true
  | .vfldRestored => true
  | .pforceNRelease => true
  | .testPulse _ _ => true
  | .switchEdge _ _ _ => true
  | .inputOverload _ => true

end Sys2Proof
end

