-- ==== Sys2Proof/Safety.lean ====
section
/-! DEFINITION. The terms in which claims about the block are made: what a step leaves alone, the rows that carry a request, the job an
engine runs, and the invariants. -/

namespace Sys2Proof.Machine

/-! Frames. -/

/-- Every register outside `p` reads as before. -/
def KeepsRegs (p : Nat → Prop) (d d' : Dev) : Prop := ∀ a, ¬ p a → d'.reg a = d.reg a

/-- Every byte of memory outside `p` reads as before. -/
def KeepsMem (p : Nat → Prop) (d d' : Dev) : Prop := ∀ a, ¬ p a → d'.byte a = d.byte a

/-- Nothing but registers in `p` changes. -/
def OnlyRegs (p : Nat → Prop) (d d' : Dev) : Prop := KeepsRegs p d d' ∧ d' = { d with regs := d'.regs }

/-! Invariants of the whole machine. -/

/-- The time of record stands at 0 until the first tick, and every waiting command is well-formed. -/
def State.Inv (s : State) : Prop := (s.clk.osc = 0 → s.clk.tor = 0) ∧ ∀ i ∈ s.pending, i.wf = true

/-! Resets. -/

/-- Registers a reset row writes beside the reset values: SYS_RST and the STOPIN bits of the four groups. -/
def resetWrites (a : Nat) : Prop := a = SYS_RST_POR.addr ∨ ∃ g < 4, a = (SAFE_Gg_STAT_STOPIN g).addr

/-- Registers an entry by a wake event writes beside those. -/
def wakeWrites (a : Nat) : Prop := resetWrites a ∨ a = SYS_WAKE_WAKEN.addr ∨ a = CAN_WAKE_STAT_SRC.addr

/-- What a loss of the core's state leaves (R494, R566, R569, R575, R577): the state, the time of record at 0, outside `ex` the kept registers
as they were and every other at its reset value, no memory, no request, no work, no packet, every lane DISABLED with epoch 0, STO_G0 to
STO_G3 low. -/
structure CoreLost (s t : State) (st : DevState) (keepWake keepSafe : Bool) (ex : Nat → Prop) : Prop where
  state : t.dev.dst = st
  time : t.clk = {}
  queue : t.pending = s.pending
  kept : ∀ a, ¬ ex a →
    t.dev.reg a = if (keepWake && isWakeReg a) || (keepSafe && isSafeReg a) then s.dev.reg a else resetVal a
  sto : ∀ g < 4, t.dev.flag (SAFE_Gg_STAT_STOPIN g) = false
  memory : ∀ a, t.dev.byte a = memDflt a
  noWork : t.dev.work = [] ∧ t.dev.mbx = [] ∧ t.dev.fab = {}
  lanes : ∀ u, t.dev.lane u = {}

/-- An entry into BOOT with its cause and count in SYS_RST (R57, R575). -/
structure BootEntry (s t : State) (cause : Nat) (keepWake keepSafe : Bool) (ex : Nat → Prop) : Prop
    extends CoreLost s t .boot keepWake keepSafe ex where
  source : (t.dev.reg SYS_RST_POR.addr).toNat % 2 ^ 16 = cause
  count : t.dev.get SYS_RST_COUNT = if cause % 2 = 1 then 0 else satU 16 (s.dev.get SYS_RST_COUNT + 1)

/-! Commands. -/

/-- The rows that carry a request to the supervisor: opcode and request (R381, R382). -/
def requestOf : Instr → Option (Nat × Request)
  | .sysCaps q => some (0x0000, q)
  | .sysIdent q => some (0x0001, q)
  | .sysStatus q => some (0x0002, q)
  | .sysRun q => some (0x0003, q)
  | .sysStop q => some (0x0004, q)
  | .sysStandby q => some (0x0005, q)
  | .sysDoze q => some (0x0006, q)
  | .sysReset q => some (0x0007, q)
  | .sysClear q => some (0x0008, q)
  | .sysRelease q => some (0x0009, q)
  | .sysReclaim q => some (0x000A, q)
  | .sysMbx q => some (0x000B, q)
  | .laneCfg q => some (0x0100, q)
  | .laneArm q => some (0x0101, q)
  | .laneEnable q => some (0x0102, q)
  | .laneDisable q => some (0x0103, q)
  | .laneStop q => some (0x0104, q)
  | .laneClear q => some (0x0105, q)
  | .dcgCfg q => some (0x0106, q)
  | .dcgClear q => some (0x0107, q)
  | .fbkCfg q => some (0x0108, q)
  | .fbkSetPos q => some (0x0109, q)
  | .convCfg q => some (0x010A, q)
  | .strCfg q => some (0x010B, q)
  | .cmdinCfg q => some (0x010C, q)
  | .moveAbs q => some (0x0200, q)
  | .moveRel q => some (0x0201, q)
  | .moveRetarget q => some (0x0202, q)
  | .moveVel q => some (0x0203, q)
  | .moveStop q => some (0x0204, q)
  | .axisLimits q => some (0x0205, q)
  | .axisCfg q => some (0x0206, q)
  | .gearSet q => some (0x0210, q)
  | .camSet q => some (0x0211, q)
  | .camLoad q => some (0x0212, q)
  | .loopCfg q => some (0x0300, q)
  | .loopMode q => some (0x0301, q)
  | .loopSet q => some (0x0302, q)
  | .timeCfg q => some (0x0400, q)
  | .timeAcceptStep q => some (0x0401, q)
  | .herderCfg q => some (0x0410, q)
  | .herderTrace q => some (0x0411, q)
  | .capCfg q => some (0x0500, q)
  | .capArm q => some (0x0501, q)
  | .capStop q => some (0x0502, q)
  | .ioCfg q => some (0x0600, q)
  | .ioSet q => some (0x0601, q)
  | .ioDiag q => some (0x0602, q)
  | .safeCfg q => some (0x0700, q)
  | .safeStatus q => some (0x0701, q)
  | .chainCfg q => some (0x0800, q)
  | .chainEnum q => some (0x0801, q)
  | .canCfg q => some (0x0810, q)
  | .canSend q => some (0x0811, q)
  | .pairJoin q => some (0x0900, q)
  | .pairLeave q => some (0x0901, q)
  | .pairStatus q => some (0x0902, q)
  | .extLoad q => some (0x0A00, q)
  | .regRead q => some (0x0B00, q)
  | .regWrite q => some (0x0B01, q)
  | _ => none

/-- The request meets none of the conditions that bar any command: the device serves commands (R39), a device in MIRROR only the listed ones
(R463), the active of a pair has it mirrored or exempt (R461, R462), and the promise is in time (R371 code 12). -/
structure Served (s : State) (q : Request) (opc promise : Nat) : Prop where
  serves : s.dev.dst.serves = true
  here : s.dev.dst = .mirror → mirrorServes.contains opc = true
  mirrored : s.dev.notMirrored q opc = false
  inTime : tooLate q s.clk.ns promise = false

/-- The state after a single DONE of device `d` (R374). -/
def State.done (s : State) (opc : Nat) (q : Request) (d : Dev) (r : Rsp := {}) : State :=
  { s with dev := d.respond q.mbx.val 0 opc q.seq.toNat 2 s.clk.ns { r with frac := s.clk.frac } }

/-- The device with one more accepted command, counted in OUTST (R374, R376). -/
def Dev.withWork (d : Dev) (opc : Nat) (q : Request) (promise : Nat) : Dev :=
  let d1 := { d with work := { id := q.id, opc := opc, unit := q.target.toNat, promise := promise, src := 0 } :: d.work }
  d1.put (MBX_Mm_STAT_OUTST q.mbx.val) (d1.outstanding q.mbx.val)

/-- The state after an ACCEPT with its promise; the final response is still to come (R374). -/
def State.accepted (s : State) (opc : Nat) (q : Request) (promise : Nat) (d : Dev) : State :=
  { s with dev := (d.withWork opc q promise).respond q.mbx.val 0 opc q.seq.toNat 0 promise }

/-- The state after an ACCEPT that stays the only response (R374). -/
def State.acceptedOnly (s : State) (opc : Nat) (q : Request) (promise : Nat) (d : Dev) : State :=
  { s with dev := (d.respond q.mbx.val 0 opc q.seq.toNat 0 promise).closeReq q.mbx.val q.seq.toNat }

/-- The state after a refusal of device `d`, which the trace ring records (R320, R374). -/
def State.refused (s : State) (opc : Nat) (q : Request) (d : Dev) (code eng cls : Nat) : State :=
  let d1 := d.respond q.mbx.val 0 opc q.seq.toNat 1 s.clk.ns { frac := s.clk.frac, code := code }
  { s with dev := d1.trace { s.clk with tor := s.clk.ns * 2 ^ 48 } 4 0 eng 0 (d.depth eng) code cls q.mbx.val }

/-- Word n of the entry at index e of mailbox m's response queue. -/
def Dev.rspWord (d : Dev) (m e n : Nat) : Nat := d.rdN (0x40124000 + 0x400 * m + 0x40 * e + 8 * n) 8

/-! Shosto jobs. -/

/-- Engine e runs job r in bank b, at an instruction inside its program memory whose word is error-free (R325, R339, R345, R545). -/
structure ShOn (s : State) (e : Fin 30) (r : RunJob) (b : Bank) : Prop where
  serves : s.dev.dst.serves = true
  job : (s.dev.engX e).run = some r
  started : r.start ≤ s.clk.osc
  going : (s.dev.engine e).halted = false
  bank : (s.dev.engine e).bank r.shadow = b
  inside : b.pc < 0x10000
  clean : s.dev.eccMask (progAddr e b.pc) = 0

/-- The same under no repeat and no loop (R342). -/
structure ShRuns (s : State) (e : Fin 30) (r : RunJob) (b : Bank) : Prop extends ShOn s e r b where
  plain : b.rep = none ∧ b.loop = none

/-- The job runs the extension slot of its lane (R350). -/
def RunJob.isExt (r : RunJob) : Bool := decide (r.slot < 96) && decide (r.slot % 4 = 3)

/-- The state with bank b of the job r that engine e runs. -/
def State.withBank (s : State) (e : Fin 30) (r : RunJob) (b : Bank) : State :=
  { s with dev := s.dev.setEngine e ((s.dev.engine e).setBank r.shadow b) }

/-- Instruction i stands at the PC of job r on engine e: its words decode to i, and a second word is error-free as the first (R339, R345; log
entry 99). -/
def ShFetches (s : State) (e : Fin 30) (r : RunJob) (i : Instr) : Prop :=
  let pc := ((s.dev.engine e).bank r.shadow).pc
  (shLong i = true → s.dev.eccMask (progAddr e (pc + 4)) = 0) ∧ s.dev.fetched e pc i = some true

/-- Instruction i, where it stands at the PC, changes the bank of its job alone, and the new bank meets p. -/
def ShGives (s : State) (e : Fin 30) (r : RunJob) (i : Instr) (p : Bank → Prop) : Prop :=
  ShFetches s e r i → ∃ b', exec i s = .next (s.withBank e r b') ∧ p b'

/-- Instruction i, where it stands at the PC, takes the exception of this cause and data address (R345). -/
def ShTraps (s : State) (e : Fin 30) (r : RunJob) (i : Instr) (cause addr : Nat) : Prop :=
  ShFetches s e r i →
    let pc := ((s.dev.engine e).bank r.shadow).pc
    exec i s = .next { s with dev := s.dev.shExc s.clk e r pc cause addr (s.dev.progWord e pc) }

/-- Registers outside `rs` keep their values; accumulators, descriptors, return stack, repeat and loop state stay; the PC stands `n` bytes on. -/
def Bank.Keeps (b b' : Bank) (rs : List (BitVec 5)) (n : Nat) : Prop :=
  (∀ k, k ∉ rs → b'.xr k = b.xr k) ∧ b' = { b with x := b'.x, z := b'.z, n := b'.n, c := b'.c, v := b'.v, sat := b'.sat, pc := b.pc + n }

/-- ST's result flags are the same. -/
def Bank.SameFlags (b b' : Bank) : Prop := b'.z = b.z ∧ b'.n = b.n ∧ b'.c = b.c ∧ b'.v = b.v

/-- Register r holds v, or is X0, which reads zero (R325). -/
def Bank.Holds (b : Bank) (r : BitVec 5) (v : W32) : Prop := b.xr r = if r = 0 then 0 else v

/-- Only accumulator ac and its wrap flag differ, and the PC. -/
def Bank.KeepsAcc (b b' : Bank) (ac : BitVec 1) : Prop :=
  b' = { b with a0 := b'.a0, a1 := b'.a1, av0 := b'.av0, av1 := b'.av1, pc := b.pc + 4 } ∧ b'.acc (ac + 1) = b.acc (ac + 1) ∧
    (if ac = 0 then b'.av1 = b.av1 else b'.av0 = b.av0)

/-- The wrap flag of an accumulator. -/
def Bank.wrapped (b : Bank) (ac : BitVec 1) : Bool := if ac = 0 then b.av0 else b.av1

/-- The form every bank of a running job keeps: registers 1 to 31 listed once and no zero, PC, return addresses and loop bounds on instruction
words, at most 8 return addresses, no count of 0, and bits 1:0 and 17:16 of the descriptors zero (R325, R326, R341, R342). -/
def Bank.form (b : Bank) : Bool :=
  b.x.wf (fun _ => 0) && b.x.all (fun p => decide (1 ≤ p.1) && decide (p.1 < 32)) && decide (b.pc % 4 = 0) &&
    decide (b.stack.length ≤ 8) && b.stack.all (fun t => decide (t.toNat % 4 = 0)) &&
    [b.cb0, b.cb1, b.cb2, b.cb3].all (fun w => decide (w &&& 0x00030003#32 = 0)) &&
    (match b.rep with
      | some n => decide (n ≠ 0)
      | none => true) &&
    (match b.loop with
      | some (st, en, n) => decide (st % 4 = 0) && decide (en % 4 = 0) && decide (n ≠ 0)
      | none => true)

/-- The engine of a Shosto instruction. -/
def shEngine : Instr → Option (Fin 30)
  | .shAdd e .. | .shSub e .. | .shAdds e .. | .shSubs e .. | .shAnd e .. | .shOr e .. | .shXor e .. | .shShl e .. | .shShr e .. | .shSra e ..
  | .shMin e .. | .shMax e .. | .shAbss e .. | .shNegs e .. | .shNorm e .. | .shDiv e .. | .shDivu e .. | .shShls e .. | .shAddi e ..
  | .shAndi e .. | .shOri e .. | .shXori e .. | .shShli e .. | .shShri e .. | .shSrai e .. | .shMpy e .. | .shMac e .. | .shMsu e .. | .shTap e ..
  | .shClr e .. | .shExt e .. | .shExtu e .. | .shExtl e .. | .shMvg e .. | .shLdal e .. | .shLdag e .. | .shAdda e .. | .shMova e .. | .shLdW e ..
  | .shLdL e .. | .shStW e .. | .shStL e .. | .shLda e .. | .shSta e .. | .shBcc e .. | .shCall e .. | .shRet e | .shNop e | .shEnd e
  | .shRep e .. | .shRepx e .. | .shLoop e .. | .shMfs e .. | .shMts e .. | .shTimr e .. | .shSend e .. | .shIold e .. | .shIost e .. | .shBrk e ..
  | .shLdi e .. | .shAddi32 e .. => some e
  | _ => none

/-- The z-byte value at data address a of engine e, and its word is error-free (R327). -/
def Dev.dataVal (d : Dev) (e a z : Nat) : Nat := d.rdN (dataAddr e a) z
def Dev.dataClean (d : Dev) (e a : Nat) : Prop := d.eccMask (dataAddr e a) = 0

/-- Instruction i stores z bytes of val at data address a, and its bank afterwards meets p: no byte outside them changes, and beside memory, its
check bits and the bank nothing does (R331). -/
def ShStores (s : State) (e : Fin 30) (r : RunJob) (i : Instr) (a z val : Nat) (p : Bank → Prop) : Prop :=
  ShFetches s e r i → ∃ t b', exec i s = .next t ∧
    t = { (s.withBank e r b') with dev := { (s.withBank e r b').dev with mem := t.dev.mem, ecc := t.dev.ecc, flt := t.dev.flt } } ∧
    t.dev.dataVal e a z = val % 256 ^ z ∧ KeepsMem (fun h => dataAddr e a ≤ h ∧ h < dataAddr e a + z) s.dev t.dev ∧ p b'

/-! Pins. -/

/-- The registers that show the lanes' pins (R221). -/
def isPinReg (a : Nat) : Prop := (∃ l < 24, a = (PWM_Lnn_OUT_LEVEL l).addr) ∨ ∃ p < 8, a = (PWM_Ss_OUT_LEVEL p).addr

/-- Driven pins of a lane, as a mask; 0: every pin at high impedance. -/
def Dev.pinsDriven (d : Dev) (u : Nat) : Nat := if u < 24 then d.get (PWM_Lnn_OUT_DRV u) else d.get (PWM_Ss_OUT_DRV (u - 24))

end Sys2Proof.Machine
end

