-- ==== Sys2Proof/Certificates/Slice0/Obligations.lean ====
section
/-! DEFINITION. Statements about the block for the provers: what each family of commands does, from the numbered rules of the spec. -/

open Sys2Proof Sys2Proof.Machine

/-- A step runs the command at the front of the queue on the queue's rest. Derived from 12_host_mailboxes_and_commands.md. -/
def Obligations.StepRunsFrontCommand : Prop :=
  ∀ (c : Instr) (s : State), step { s with pending := c :: s.pending } = exec c s

/-- With nothing waiting a step is one tick of the time base, or nothing while the time base does not run (model's choice, log entry 1).
Derived from R55, R56, R566, R569, R576, R590. -/
def Obligations.IdleStepTicksOrRests : Prop :=
  ∀ s : State, s.pending = [] →
    ∃ t, step s = .next t ∧ t.pending = [] ∧
      (s.dev.timeRuns = false → t = s) ∧
      (s.dev.timeRuns = true → t.clk.osc = s.clk.osc + 1) ∧
      (s.dev.timeRuns = true → s.dev.servo.stepNow = none →
        (t.clk.tor : Int) = max 0 ((s.clk.tor : Int) + (2 ^ 49 + s.dev.getI TIME_RATE_Y * 2 ^ 9)))

/-- Every command completes with a next state and leaves the queue alone. Derived from R39, R549. -/
def Obligations.EveryCommandCompletes : Prop :=
  ∀ (i : Instr) (s : State), ∃ t, exec i s = .next t ∧ t.pending = s.pending

/-- A command leaves the clock as it is, or the time of record starts again at 0 by a reset or shutdown. Derived from R57, R566, R569, R575,
R576, R590. -/
def Obligations.ClockMovesOnlyByReset : Prop :=
  ∀ (i : Instr) (s t : State), exec i s = .next t →
    t.clk = s.clk ∨
      (t.clk = {} ∧ (match i with
        | .powerOn | .brownOut | .resetNLow _ | .resetNRise | .watchdogReset | .softReset | .standbyEntry | .wakeN _ | .hpiCsNWake _
        | .canEdgeWake _ _ | .canWakeFrame _ _ | .overTemperature _ | .coolDown _ => True
        | _ => False))

/-- Every step keeps the form of clock and queue: time of record 0 until the first tick, waiting commands well-formed. Derived from R56,
R57. -/
def Obligations.StepKeepsClockAndQueueForm : Prop :=
  ∀ s : State, s.Inv → ∃ t, step s = .next t ∧ t.Inv

/-- The machine right after reset: BOOT by power-on, time of record 0, nothing waiting, every register at its reset value. Derived from R57,
R575. -/
def Obligations.ResetState : Prop :=
  State.reset.dev.dst = .boot ∧ State.reset.pending = [] ∧ State.reset.clk.tor = 0 ∧ State.reset.Inv ∧
    State.reset.dev.flag SYS_RST_POR = true ∧ State.reset.dev.get SYS_RST_COUNT = 0 ∧
    (∀ a, a ≠ SYS_RST_POR.addr → State.reset.dev.reg a = resetVal a) ∧ State.reset.dev.mem = []

/-- Each reset source of R575 enters BOOT with its bit and count in SYS_RST, and loses what that source resets. Derived from R40, R57, R566,
R575, R576, R577, R590. -/
def Obligations.PowerSourcesEnterBoot : Prop :=
  ∀ s : State,
    (s.dev.dst = .off → s.dev.pow.vin = false → s.dev.pow.resetLow = false → s.dev.pow.hot = false →
      ∃ t, exec .powerOn s = .next t ∧ t.dev.pow.vin = true ∧ t.dev.pow.brown = false ∧
        BootEntry s t (causePor + if s.dev.pow.brown then causeBor else 0) false false resetWrites) ∧
    (s.dev.dst ≠ .off → s.dev.pow.vin = true → s.dev.pow.resetLow = true → s.dev.pow.hot = false →
      ∃ t, exec .resetNRise s = .next t ∧ t.dev.pow.resetLow = false ∧ BootEntry s t causePin false false resetWrites) ∧
    (s.dev.dst.serves = true → ∃ t, exec .watchdogReset s = .next t ∧ BootEntry s t causeWdog true true resetWrites) ∧
    (∀ at_, s.dev.pow.softAt = some at_ → at_ ≤ s.clk.ns →
      ∃ t, exec .softReset s = .next t ∧ t.dev.pow.softAt = none ∧ BootEntry s t causeSoft true true resetWrites) ∧
    (∀ degC : Int, degC < 130 → s.dev.pow.hot = true → s.dev.pow.vin = true → s.dev.pow.resetLow = false →
      ∃ t, exec (.coolDown degC) s = .next t ∧ t.dev.pow.hot = false ∧
        BootEntry s t (causePor + if s.dev.pow.brown then causeBor else 0) false false resetWrites)

/-- An accepted wake event enters BOOT from STANDBY or DOZE with WAKE and its source, keeps the wake island, and resets the safety unit.
Derived from R40, R444, R445, R569, R571, R572, R575, R591. -/
def Obligations.WakeEventsEnterBoot : Prop :=
  ∀ s : State,
    let woken (bits : Nat) (t : State) : Prop :=
      BootEntry s t causeWake true false wakeWrites ∧ t.dev.reg SYS_WAKE_WAKEN.addr = BitVec.ofNat 32 bits ∧
        t.dev.get CAN_WAKE_STAT_SRC = bits / 4 % 64 ∧ t.dev.get CAN_WAKE_STAT_FRAME = bits / 256 % 2
    (s.dev.dst = .standby ∨ s.dev.dst = .doze →
      (∀ ns, 10000 ≤ ns → s.dev.pow.vio.testBit 0 = true → ∃ t, exec (.wakeN ns) s = .next t ∧ woken 1 t) ∧
      (∀ ns, 100 ≤ ns → s.dev.pow.vio.testBit 0 = true → ∃ t, exec (.hpiCsNWake ns) s = .next t ∧ woken 2 t) ∧
      (∀ (ch : Fin 6) (ns : Nat), s.dev.wakeFilter ≤ ns → s.dev.pow.vio.testBit 5 = true →
        (s.dev.get (if s.dev.dst = .doze then CAN_WAKE_CFG_DMSK else CAN_WAKE_CFG_SMSK)).testBit ch.val = true →
        ∃ t, exec (.canEdgeWake ch ns) s = .next t ∧ woken (2 ^ (2 + ch.val)) t)) ∧
    (s.dev.dst = .doze → ∀ (ch : Fin 6) (f : CanFrame), s.dev.wakeMatch ch f = true → s.dev.pow.vio.testBit 5 = true →
      ∃ t, exec (.canWakeFrame ch f) s = .next t ∧ woken (2 ^ (2 + ch.val) + 256) t) ∧
    (∀ at_ st, s.dev.dst = .ready → s.dev.pow.sleepAt = some (at_, st) → at_ ≤ s.clk.ns → s.dev.pow.early ≠ 0 →
      ∃ t, exec .standbyEntry s = .next t ∧ woken (s.dev.pow.early ||| wakeEarly) t) ∧
    (∀ ns, ns < 10000 → exec (.wakeN ns) s = .next s) ∧ (∀ ns, ns < 100 → exec (.hpiCsNWake ns) s = .next s)

/-- A brown-out, an over-temperature and the entry into STANDBY or DOZE lose the core's state; RESET_N low holds BOOT. Derived from R40,
R494, R566, R569, R570, R576, R590. -/
def Obligations.ShutdownsLoseTheCore : Prop :=
  ∀ s : State,
    let stoOnly (a : Nat) : Prop := ∃ g < 4, a = (SAFE_Gg_STAT_STOPIN g).addr
    (∃ t, exec .brownOut s = .next t ∧ t.dev.pow.vin = false ∧ t.dev.pow.brown = true ∧ CoreLost s t .off false false stoOnly) ∧
    (∀ degC : Int, 150 < degC → s.dev.pow.hot = false →
      ∃ t, exec (.overTemperature degC) s = .next t ∧ t.dev.pow.hot = true ∧ CoreLost s t .off false false stoOnly) ∧
    (∀ at_ st, s.dev.dst = .ready → s.dev.pow.sleepAt = some (at_, st) → st ≠ .boot → at_ ≤ s.clk.ns → s.dev.pow.early = 0 →
      ∃ t, exec .standbyEntry s = .next t ∧ t.dev.pow.sleepAt = none ∧ CoreLost s t st true false stoOnly) ∧
    (s.dev.dst ≠ .ready → exec .standbyEntry s = .next s) ∧
    (∀ ns, 1000 ≤ ns → s.dev.dst ≠ .off →
      ∃ t, exec (.resetNLow ns) s = .next t ∧ t.dev.pow.resetLow = true ∧ t.dev.get SYS_RST_COUNT = s.dev.get SYS_RST_COUNT ∧
        CoreLost s t .boot false false resetWrites) ∧
    (∀ ns, ns < 1000 → exec (.resetNLow ns) s = .next s)

/-- BOOT that cannot complete stays BOOT with its cause; BOOTST reads SYS_BOOT; a lost PLL is a device-class fault; a bank's pins follow its
supply. Derived from R41, R55, R565, R583. -/
def Obligations.BootRows : Prop :=
  ∀ s : State,
    (∀ cause : BitVec 3, s.dev.dst = .boot → s.dev.pow.resetLow = false → cause ≠ 0 → cause ≠ 7 →
      ∃ t, exec (.bootFailure cause) s = .next t ∧ t.dev.dst = .boot ∧ t.dev.get SYS_BOOT_CAUSE = cause.toNat ∧ t.clk = s.clk ∧
        t.pending = s.pending ∧ OnlyRegs (· = SYS_BOOT_CAUSE.addr) s.dev t.dev) ∧
    (s.dev.dst ≠ .off →
      exec .bootst s = .next { s with dev := { s.dev with pow := { s.dev.pow with jtagDr := s.dev.reg SYS_BOOT_CAUSE.addr } } }) ∧
    (s.dev.dst.serves = true → exec .refLost s = .next { s with dev := s.dev.deviceFault s.clk 34 0x6E 0 true }) ∧
    (∀ bank : Fin 6, ∃ t, exec (.vioBankRise bank) s = .next t ∧ t.dev.pow.vio.testBit bank.val = true ∧ t.clk = s.clk ∧
      (∀ b, b ≠ bank.val → t.dev.pow.vio.testBit b = s.dev.pow.vio.testBit b) ∧
      t.dev = { s.dev with regs := t.dev.regs, pow := { s.dev.pow with vio := t.dev.pow.vio } } ∧ KeepsRegs isPinReg s.dev t.dev) ∧
    (∀ bank : Fin 6, ∃ t, exec (.vioBankFall bank) s = .next t ∧ t.dev.pow.vio.testBit bank.val = false ∧ t.clk = s.clk ∧
      (∀ b, b ≠ bank.val → t.dev.pow.vio.testBit b = s.dev.pow.vio.testBit b) ∧
      t.dev = { s.dev with regs := t.dev.regs, pow := { s.dev.pow with vio := t.dev.pow.vio } } ∧ KeepsRegs isPinReg s.dev t.dev ∧
      ∀ u < 32, bankOf u = bank.val → t.dev.pinsDriven u = 0)

/-- The end of BOOT enters READY with BOOTED set, an empty fault log and the result of the boot in SYS_BOOT. Derived from R40, R496, R552,
R580, R582. -/
def Obligations.BootCompletesIntoReady : Prop :=
  ∀ (b : BootResult) (s : State),
    (s.dev.dst = .boot ∧ s.dev.pow.resetLow = false ∧ s.dev.get SYS_BOOT_CAUSE = 0 ∧ BootResult_accepted b = true →
      ∃ t, exec (.bootComplete b) s = .next t ∧ t.dev = s.dev.bootComplete s.clk b ∧ t.clk = s.clk ∧ t.pending = s.pending) ∧
    (¬ (s.dev.dst = .boot ∧ s.dev.pow.resetLow = false ∧ s.dev.get SYS_BOOT_CAUSE = 0 ∧ BootResult_accepted b = true) →
      exec (.bootComplete b) s = .next s) ∧
    ((s.dev.bootComplete s.clk b).dst = .safe ∨
      ((s.dev.bootComplete s.clk b).dst = .ready ∧ (s.dev.bootComplete s.clk b).flag MBX_STAT_BOOTED = true ∧
        (s.dev.bootComplete s.clk b).flt.log = [])) ∧
    ((s.dev.bootRegs b).flag SYS_BOOT_SLOT = b.slotB ∧ (s.dev.bootRegs b).get SYS_BOOT_ARES = b.ares.toNat ∧
      (s.dev.bootRegs b).get SYS_BOOT_BRES = b.bres.toNat ∧ (s.dev.bootRegs b).get SYS_BOOT_ECCC = b.eccc.toNat)

/-- A response fills the next entry of its mailbox's response queue and nothing beside it. Derived from R374, R375, R376, R379. -/
def Obligations.ResponseOccupiesOneEntry : Prop :=
  ∀ (d : Dev) (m : Nat) (src : Byte) (opc seq rtype t : Nat) (r : Rsp), m < 16 →
    let linked := (d.get MBX_ROUTE_ROUTE).testBit m
    let d' := d.respond m src opc seq rtype t r
    let e := (d.get (MBX_Mm_STAT_RHEAD m) + d.get (MBX_Mm_STAT_RCOUNT m)) % 16
    let w0 := mkBrand (if linked then src.toNat else 0) (0x70 + m) 0xE1 (d.get MBX_STAT_EPOCH) (d.mbox m).rspSeq 0
    let w3 := BitVec.ofNat 64 (opc + rtype * 2 ^ 16 + (if r.super then 2 ^ 18 else 0) + (if r.long then 2 ^ 19 else 0) + r.code * 2 ^ 24 +
      seq * 2 ^ 32 + r.fcode * 2 ^ 48)
    let ws := [w0, BitVec.ofNat 64 t, BitVec.ofNat 64 r.frac, w3, BitVec.ofNat 64 r.p0, BitVec.ofNat 64 r.p1, BitVec.ofNat 64 r.p2]
    let ws8 := ws ++ [BitVec.ofNat 64 (crcWords ws)]
    (linked = true → d'.fab.flight = d.fab.flight ++ [{ brand := w0, words := ws8.drop 1 }] ∧ d'.mem = d.mem) ∧
    (linked = false → 16 ≤ d.get (MBX_Mm_STAT_RCOUNT m) → (d'.mbox m).late = (d.mbox m).late ++ [ws8] ∧ d'.mem = d.mem ∧
      d'.get (MBX_Mm_STAT_RCOUNT m) = d.get (MBX_Mm_STAT_RCOUNT m)) ∧
    (linked = false → d.get (MBX_Mm_STAT_RCOUNT m) < 16 →
      (∀ n < 7, d'.rspWord m e n = (ws.getD n 0).toNat) ∧ d'.rspWord m e 7 = crcWords ws % 2 ^ 64 ∧
      d'.get (MBX_Mm_STAT_RCOUNT m) = d.get (MBX_Mm_STAT_RCOUNT m) + 1 ∧
      (rtype = 2 → d'.get (MBX_Mm_DONE_DSEQ m) = seq % 2 ^ (MBX_Mm_DONE_DSEQ m).width) ∧
      (∀ f ∈ [MBX_Mm_STAT_BUSY m, MBX_Mm_STAT_STAGE m, MBX_Mm_STAT_SEQV m, MBX_Mm_STAT_RHEAD m, MBX_Mm_STAT_OUTST m, MBX_Mm_SEQ_LAST m],
        d'.get f = d.get f) ∧
      KeepsMem (fun a => 0x40124000 + 0x400 * m + 0x40 * e ≤ a ∧ a < 0x40124000 + 0x400 * m + 0x40 * e + 64) d d' ∧
      KeepsRegs (fun a => a = (MBX_Mm_STAT_RCOUNT m).addr ∨ (rtype = 2 ∧ a = (MBX_Mm_DONE_DSEQ m).addr) ∨ a = (MBX_Mm_SEQ_FLOOR m).addr) d d' ∧
      (d.role ≠ roleActive → d'.pair = d.pair) ∧
      d' = { d with regs := d'.regs, mem := d'.mem, ecc := d'.ecc, mbx := d'.mbx, pair := d'.pair
                    flt := { d.flt with injMem := d'.flt.injMem } })

/-- Every request row answers by its command's verdict: refusal, single DONE, ACCEPT with outstanding work, or ACCEPT alone. Derived from
R39, R371, R374, R376, R461, R462, R463. -/
def Obligations.RequestsAnsweredByVerdict : Prop :=
  ∀ (i : Instr) (opc : Nat) (q : Request) (s : State), requestOf i = some (opc, q) →
    ∃ f, commandOf opc = some f ∧
      (s.dev.dst.serves = false → exec i s = .next s) ∧
      (s.dev.dst.serves = true → s.dev.dst ≠ .mirror → ∀ code eng cls, f s.clk s.clk.ns q s.dev = .refuse code eng cls → code < rcTooLate →
        exec i s = .next (s.refused opc q s.dev code eng cls)) ∧
      (∀ r d, f s.clk s.clk.ns q s.dev = .done r d → Served s q opc s.clk.ns → exec i s = .next (s.done opc q d r)) ∧
      (∀ p d, f s.clk s.clk.ns q s.dev = .accept p d → Served s q opc p → exec i s = .next (s.accepted opc q p d)) ∧
      (∀ p d, f s.clk s.clk.ns q s.dev = .acceptOnly p d → Served s q opc p → exec i s = .next (s.acceptedOnly opc q p d)) ∧
      (∀ p d, f s.clk s.clk.ns q s.dev = .accept p d → s.dev.dst.serves = true → s.dev.dst ≠ .mirror → tooLate q s.clk.ns p = true →
        exec i s = .next (s.refused opc q s.dev rcTooLate 31 0))

/-- sys.run, sys.stop, sys.clear, sys.standby, sys.doze and sys.reset move the device as R40, R43, R556, R570 and R575 say. Derived from
R40, R43, R382, R512, R556, R570, R575. -/
def Obligations.SystemStateCommands : Prop :=
  ∀ (q : Request) (s : State), q.target = 0xFE →
    (q.payload = [] → Served s q 0x0003 s.clk.ns → s.dev.dst = .ready → s.dev.sysStop = none →
      ∃ d, exec (.sysRun q) s = .next (s.done 0x0003 q d) ∧ d.dst = .run ∧ d.fio = { s.dev.fio with winBoot := false } ∧
        d.pow = { s.dev.pow with sleepAt := none, early := 0 } ∧
        d = { s.dev with dst := .run, fio := d.fio, regs := d.regs, fab := d.fab, flt := d.flt, pow := d.pow, epochs := d.epochs }) ∧
    (q.payload = [] → Served s q 0x0008 s.clk.ns → s.dev.dst = .safe → s.dev.flt.active = [] →
      ∃ d, exec (.sysClear q) s = .next (s.done 0x0008 q d) ∧ d.dst = .ready ∧
        d.fio.wins = s.dev.fio.wins ++ [(s.clk.ns, s.clk.ns + 100000000, none)]) ∧
    (q.payload = [] → s.dev.dst = .run → s.dev.sysStop = none → ∃ p d, d.sysStop = some (p, some q.id) ∧ d.regs = s.dev.regs ∧
      d.mem = s.dev.mem ∧ d.dst = .run ∧ (Served s q 0x0004 p → exec (.sysStop q) s = .next (s.accepted 0x0004 q p d))) ∧
    (q.payload = [] → Served s q 0x0005 (s.clk.ns + 1000000) → s.dev.dst = .ready →
      ∃ d, exec (.sysStandby q) s = .next (s.acceptedOnly 0x0005 q (s.clk.ns + 1000000) d) ∧
        (s.dev.pow.sleepAt = none → d.pow.sleepAt = some (s.clk.ns + 1000000, .standby)) ∧
        d = { s.dev with pow := { s.dev.pow with sleepAt := d.pow.sleepAt } }) ∧
    (let sel (ch : Nat) : Prop := ch < 6 ∧ (bits64 (q.pw 0) 8 6).testBit ch = true
     q.payload.length = 1 → bits64 (q.pw 0) 6 2 = 0 → bits64 (q.pw 0) 14 50 = 0 → bits64 (q.pw 0) 8 6 ≠ 0 →
      (∀ ch, sel ch → (s.dev.canMode ch = canNormal ∨ s.dev.canMode ch = canSleep) ∧ 160 ≤ s.dev.canBitClocks ch) →
      Served s q 0x0006 (s.clk.ns + 1000000) → s.dev.dst = .ready →
      ∃ d, exec (.sysDoze q) s = .next (s.acceptedOnly 0x0006 q (s.clk.ns + 1000000) d) ∧
        (s.dev.pow.sleepAt = none → d.pow.sleepAt = some (s.clk.ns + 1000000, .doze)) ∧
        d.get CAN_WAKE_CFG_DMSK = bits64 (q.pw 0) 0 6 ∧ (∀ ch < 6, d.flag (CAN_CHc_WCFG_WEN ch) = (bits64 (q.pw 0) 8 6).testBit ch) ∧
        d = { s.dev with regs := d.regs, pow := { s.dev.pow with sleepAt := d.pow.sleepAt } }) ∧
    (q.payload = [] → Served s q 0x0007 (s.clk.ns + 1000000) →
      ∃ d at_, exec (.sysReset q) s = .next (s.acceptedOnly 0x0007 q (s.clk.ns + 1000000) d) ∧ at_ ≤ s.clk.ns + 1000000 ∧
        d = { s.dev with pow := { s.dev.pow with softAt := some at_ } }) ∧
    (q.payload = [] → s.dev.dst.serves = true → s.dev.dst ≠ .mirror →
      (s.dev.dst ≠ .ready → exec (.sysRun q) s = .next (s.refused 0x0003 q s.dev rcBadState 31 0) ∧
        exec (.sysStandby q) s = .next (s.refused 0x0005 q s.dev rcBadState 31 0)) ∧
      (s.dev.dst ≠ .run → exec (.sysStop q) s = .next (s.refused 0x0004 q s.dev rcBadState 31 0)) ∧
      (s.dev.dst ≠ .safe → exec (.sysClear q) s = .next (s.refused 0x0008 q s.dev rcBadState 31 0)))

/-- sys.caps, sys.ident, sys.status, safe.status, pair.status and reg.read answer what the device holds. Derived from R377, R379, R382,
R422, R464, R474, R498, R585, R586. -/
def Obligations.QueryCommands : Prop :=
  ∀ (q : Request) (s : State),
    let answers (i : Instr) (opc : Nat) (d : Dev) (r : Rsp) : Prop := Served s q opc s.clk.ns → exec i s = .next (s.done opc q d r)
    let long (ws : List W64) : Dev := s.dev.putResult q.mbx.val ws
    (q.target = 0xFE → q.payload = [] →
      answers (.sysCaps q) 0x0000 (long (packWords ((List.range 6).map fun i => s.dev.reg (SYS_CAP0_LANES.addr + 4 * i))))
        { long := true, p0 := 24 } ∧
      answers (.sysIdent q) 0x0001 (long s.dev.identRecord) { long := true, p0 := 80 } ∧
      answers (.sysStatus q) 0x0002 (long s.dev.statusRecord)
        { long := true, p0 := 96, p1 := s.dev.dst.code + s.dev.get MBX_STAT_EPOCH * 2 ^ 8 + s.dev.flt.active.length % 2 ^ 16 * 2 ^ 16 }) ∧
    (let w (k : Nat) : W64 := s.dev.identRecord.getD k 0
     s.dev.identRecord.length = 10 ∧ w 0 = BitVec.ofNat 64 (s.dev.get64 SYS_SERIAL_LO_SERIAL SYS_SERIAL_HI_SERIAL) ∧
      bits64 (w 1) 0 8 = s.dev.get SYS_MEMBER_MEMBER ∧ bits64 (w 1) 8 1 = s.dev.get SYS_BOOT_SLOT ∧ bits64 (w 1) 9 23 = 0 ∧
      bits64 (w 1) 32 32 = (s.dev.reg SYS_FWVER_BUILD.addr).toNat ∧ (s.dev.identRecord.drop 2).take 6 = s.dev.dieWords ∧
      bits64 (w 8) 8 24 = 0 ∧ w 9 = 0) ∧
    (let byte (k : Nat) : Nat := bits64 (s.dev.statusRecord.getD (k / 8) 0) (8 * (k % 8)) 8
     s.dev.statusRecord.length = 12 ∧ (∀ u < 32, byte u = (s.dev.lane u).state.code + if (s.dev.lane u).disputed then 128 else 0) ∧
      ∀ m < 16, byte (32 + 4 * m) + 256 * byte (33 + 4 * m) = s.dev.get (MBX_Mm_DONE_DSEQ m) ∧
        byte (34 + 4 * m) + 256 * byte (35 + 4 * m) = s.dev.get (MBX_Mm_SEQ_FLOOR m)) ∧
    (q.target = 0x6C → q.payload = [] → answers (.safeStatus q) 0x0701 s.dev
      { p0 := s.dev.sg 0 + s.dev.sg 1 * 2 ^ 8 + s.dev.sg 2 * 2 ^ 16 + s.dev.sg 3 * 2 ^ 24
        p1 := (s.dev.reg SAFE_STAT_GSEEN.addr).toNat, p2 := s.dev.get SAFE_CFGCRC_CRC }) ∧
    (q.target = 0x6F → q.payload = [] → answers (.pairStatus q) 0x0902 s.dev
      { p0 := s.dev.get PAIR_STAT_ROLE + s.dev.get PAIR_STAT_PSTATE * 2 ^ 2 + s.dev.get PAIR_STAT_PADDR * 2 ^ 8 + s.dev.get PAIR_OFFS_OFFS * 2 ^ 32
        p1 := s.dev.get PAIR_CNT_LERR + s.dev.get PAIR_CNT_RBMIS * 2 ^ 16 }) ∧
    (q.target = 0xFE → q.payload.length = 1 → bits64 (q.pw 0) 0 32 % 4 = 0 → bits64 (q.pw 0) 48 16 = 0 →
      0 < bits64 (q.pw 0) 32 16 → bits64 (q.pw 0) 32 16 ≤ 128 → Served s q 0x0B00 s.clk.ns →
      ∃ (d : Dev) (ws : List W32), exec (.regRead q) s = .next (s.done 0x0B00 q (d.putResult q.mbx.val (packWords ws))
          { long := true, p0 := 4 * bits64 (q.pw 0) 32 16 }) ∧
        ws = (s.dev.hostReads s.clk (bits64 (q.pw 0) 0 32) (bits64 (q.pw 0) 32 16)).1 ∧ ws.length = bits64 (q.pw 0) 32 16)

/-- An accepted configuration image waits, whole, for its commit instant with 50 µs of lead, and nothing else changes. Derived from R36,
R51, R88, R93, R172, R266, R287, R308, R383, R384, R388, R460. -/
def Obligations.ImageCommandsQueueTheirImage : Prop :=
  ∀ (q : Request) (s : State), q.payload ≠ [] →
    let n := q.target.toNat
    let d := s.dev
    let img := q.image
    let lead := imageLead q s.clk.ns
    let at_ (t : Nat) : Dev := d.atCommit t img
    let queue (d : Dev) (group from_ t : Nat) (ps : List (Nat × Nat)) : Dev :=
      { d with imgs := d.imgs ++ [{ group := group, from_ := from_, due := t, pairs := ps, work := some q.id }] }
    let waits (i : Instr) (opc t : Nat) (d' : Dev) : Prop := Served s q opc t → exec i s = .next (s.accepted opc q t d')
    let range (lo len : Nat) : Prop := imageOk (fun a => lo ≤ a && a < lo + len) img = true
    (s.clk.ns + 50000 ≤ lead ∧ q.at_ s.clk.ns ≤ lead) ∧
    (let t := d.firingAhead (48 + n) lead
     let d1 := (at_ t).setLane n { d.lane n with state := d.stateAt n t }
     let d2 := queue d (laneBase n) lead t img
     n < 24 → d.isReleased 4 n = false → imageOk (fun a => laneGroupOffs.any fun p => a = laneBase n + p.1) img = true →
      d1.laneCycleClash n = false → d1.laneZero n = false → d1.laneRange n = false → d1.laneStateClash n = false →
      (d.cmdinOf n = none ∨ d1.get (PWM_Lnn_CYC_PDIV n) = 0) → (d.imagesBy t).laneCfgAdmit d1 n = none →
      d2.fitsCap (slotEngine n) = true → d2.mirrorOver = false → waits (.laneCfg q) 0x0100 t d2) ∧
    (let t := d.firingAhead (48 + n) lead
     let d1 := (at_ t).setLane n { d.lane n with state := d.stateAt n t }
     24 ≤ n → n < 32 → d.isReleased 4 n = false → imageOk (fun a => stpOffs.any fun p => a = stpBase (n - 24) + p.1) img = true →
      d1.stpZero (n - 24) = false → d1.stpConflict (n - 24) = false → waits (.laneCfg q) 0x0100 t (queue d (stpBase (n - 24)) lead t img)) ∧
    (∀ g < 4, n = 0x68 + g →
      let t := d.firingAhead (84 + g) lead
      d.anyReleased 4 = false → imageOk (fun a => (groupBase g ≤ a && a < groupBase g + 0x18) || a = groupBase g + 0x80 || a = groupBase g + 0x84) img = true →
      (at_ t).dcgZero g = false → (at_ t).dcgConflict g = false → waits (.dcgCfg q) 0x0106 t (queue d (groupBase g) lead t img)) ∧
    (let t := d.firingAhead (24 + n) lead
     n < 24 → d.isReleased 7 n = false → range (fbkBase n) 0x2C → (at_ t).fbkZero n = false → (at_ t).fbkConflict n (d.stateAt n t) = false →
      waits (.fbkCfg q) 0x0108 t (queue d (fbkBase n) lead t img)) ∧
    (∀ p < 8, n = 0x50 + p →
      let t := d.firingAhead (24 + (at_ lead).get (STR_s_CFG_SRC p)) lead
      d.isReleased 8 p = false → range (strBase p) 0x1C → (at_ t).strZero p = false → (at_ t).strConflict p = false →
      waits (.strCfg q) 0x010B t (queue d (strBase p) lead t img)) ∧
    (let t := d.axGridAhead n lead
     let d2 := queue (d.enrol (slotSetpoint n)) (trjBase n) lead t img
     n < 64 → d.isReleased 9 n = false → range (trjBase n) 0x40 → (at_ t).axZero n = false →
      (at_ t).axConflict n (decide ((d.axTo s.clk n t).axMode n = modeHold)) = false → d2.fitsCap (slotEngine n) = true → d2.mirrorOver = false →
      waits (.axisCfg q) 0x0206 t d2) ∧
    (∀ b < 16, n = 0x40 + b →
      let t := d.loopNext s.clk.ns b lead
      let d2 := queue (d.enrol (slotLoop b)) (lpbBase b) lead t img
      d.isReleased 10 b = false → range (lpbBase b) 0x100 → (at_ t).loopZero b = false → (at_ t).loopConflict b (d.loopJudged b t) = false →
      d2.fitsCap 30 = true → d2.mirrorOver = false → waits (.loopCfg q) 0x0300 t d2) ∧
    (let t := (lead + 4999) / 5000 * 5000
     let ps := img.filter fioKept
     let d1 := (d.atCommit t ps).fioCandidate true (d.atCommit t ps).fioOwn
     n = 0x6D → (∀ p ∈ ps, ∀ cc, fioChOf p.1 = some cc → d.isReleased 0x10 cc = false) → imageOk isFioCfg img = true → d1.fioZero = false →
      d1.fioConflict (d.imagesBy t) = false → waits (.ioCfg q) 0x0600 t (queue d fioBase lead t ps)) ∧
    (let t := d.cycleAt lead
     n = 0xFE → d.anyReleased 0x0C = false → range chainBase 0x1000 → (at_ t).chainZero = false →
      (at_ t).chainConflict ((List.range 32).any fun u => (d.stateAt u t).running) = false →
      ({ (at_ t).chainInForce with imgs := [] } : Dev).chainMisfit = none → waits (.chainCfg q) 0x0800 t (queue d chainBase t t img)) ∧
    (∀ ch < 8, n = 0x60 + ch →
      let d0 := (d.imgs.filter fun p => p.group = canBase ch).foldl (fun e p => (e.writePairs p.pairs).copyRegs
        (canGroupOffs.map fun o => (canBase ch + o, canBase ch + 0x80 + o))) d
      let d1 := d0.writePairs img
      let t := if d0.canQuiet ch then lead else lead + (max (d0.canTw ch 64 true false) (d0.canTw ch 64 true true) + 1) / 2
      imageOk (isCanCfg ch) img = true → d1.canZero ch = false → d1.canConflict ch = false →
      waits (.canCfg q) 0x0810 t (queue d (canBase ch) lead t img)) ∧
    (let stored (t : Nat) : Dev := img.foldl (fun e p => e.convStore s.clk p) (d.imagesBy t)
     let gate (g : Nat) : Nat := d.firingAhead (84 + g) lead
     let groups := (img.filterMap fun p => sarGroupOf p.1).dedup
     let now := img.filter fun p => (sarGroupOf p.1).isNone
     let d1 := if now.isEmpty then d else queue d convNow lead lead now
     n = 0xFE → imageOk isConvReg img = true →
      (∀ p ∈ img, (p.1 / 0x10000 = 0x4005 → d.anyReleased 5 = false) ∧ (p.1 / 0x10000 = 0x4006 → d.anyReleased 6 = false) ∧
        (p.1 / 0x10000 = 0x4007 → d.anyReleased 7 = false)) →
      (∀ p ∈ img, (∀ l, dsfLaneOf p.1 = some l → (stored lead).dsfZero l = false ∧ (stored lead).dsfConflict l (d.stateAt l lead) = false) ∧
        (∀ g, sarGroupOf p.1 = some g → (stored lead).sarGroupZero g = false ∧ (stored (gate g)).sarGroupConflict g = false) ∧
        ∀ m, seqSarOf p.1 = some m → seqBad (stored lead) m = false) →
      waits (.convCfg q) 0x010A (groups.foldl (fun m g => max m (gate g)) lead)
        (groups.foldl (fun e g => queue e (sarGroupBase g) lead (gate g) (img.filter fun p => sarGroupOf p.1 = some g)) d1))

/-- lane.arm, enable, disable, clear and stop note the change for the lane's next sample gate and leave the state in force alone. Derived
from R43, R44, R45, R47, R48, R51, R190, R191, R221, R254, R382, R615. -/
def Obligations.LaneStateCommands : Prop :=
  ∀ (q : Request) (s : State), q.target.toNat < 32 →
    let u := q.target.toNat
    let d := s.dev
    let x := d.lane u
    let at_ := q.at_ s.clk.ns
    let t := d.changeGate u at_
    let accepts (i : Instr) (opc p : Nat) (d' : Dev) : Prop := Served s q opc p → exec i s = .next (s.accepted opc q p d')
    let noted (st : LaneState) (dir : Int) : Dev :=
      d.setLane u { x with chg := x.chg ++ [{ at_ := at_, target := st, work := some q.id, dir := dir }] }
    (q.payload = [] → (d.dst = .ready ∨ d.dst = .run) → d.laneLeads u = .disabled → x.staysDisputed = false →
      (d.get PWM_FLT_STAT_LAT).testBit (groupOf u) = false → d.linkDark (groupOf u) = false → d.laneReleased u = false →
      accepts (.laneArm q) 0x0101 t (noted .armed 0)) ∧
    (q.payload = [] → d.laneLeads u = .armed → accepts (.laneDisable q) 0x0103 t (noted .disabled 0)) ∧
    (q.payload = [] → (d.laneLeads u = .fault ∨ x.staysDisputed = true) → accepts (.laneClear q) 0x0105 t (noted .disabled 0)) ∧
    (let dir : Int := if bits64 (q.pw 0) 0 2 = 1 then 1 else if bits64 (q.pw 0) 0 2 = 3 then -1 else 0
     let v := (d.fbkX u).v
     let spins : Prop := faster v (d.get (PWM_Lnn_CC_ZSPD_ACT_SPD u)) = true
     q.payload.length = 1 → bits64 (q.pw 0) 2 62 = 0 → bits64 (q.pw 0) 0 2 ≠ 2 → d.dst = .run → d.laneLeads u = .armed →
       x.staysDisputed = false → d.sysStop = none → d.get (SAFE_Gg_STAT_STATE (groupOf u)) = 3 →
       (u < 24 → (∃ i < 3, d.flag (DSF_Cnn_CFG_ACT_EN (3 * u + i)) = true) ∧
         (spins → opposite v dir = false → faster v (d.get (PWM_Lnn_CC_CATCH_ACT_SPD u)) = false) ∧
         (spins → opposite v dir = true → d.get (PWM_Lnn_CC_CFG_ACT_REVPOL u) ≠ 0 ∨ faster v (d.get (PWM_Lnn_CC_REVLIM_ACT_SPD u)) = false)) →
       accepts (.laneEnable q) 0x0102 t (noted .enabled dir)) ∧
    (q.payload = [] → d.laneLeads u = .enabled →
      let g : LaneChg := { at_ := at_, target := .stopping, work := none }
      (d.trajT u = 0 →
        let p := (d.setLane u { x with chg := x.chg ++ [g] }).changeGate u at_
        accepts (.laneStop q) 0x0104 p (d.setLane u { x with chg := x.chg ++ [g, { at_ := at_, target := .armed, work := some q.id }] })) ∧
      (d.trajT u ≠ 0 →
        let ta := d.axTakeover u at_ s.clk.ns
        let p := d.stopGateAt s.clk u ta
        accepts (.laneStop q) 0x0104 p ((d.setLane u { x with chg := x.chg ++ [g], armedAt := p }).setAxX u
          { d.axX u with pend := (d.axX u).pend ++ [{ op := .stop true, ta := ta, work := some q.id }] })))

/-- An accepted trajectory command waits for its takeover instant behind those accepted before it. Derived from R43, R51, R232, R235, R236,
R237, R238, R242, R256, R257, R308, R388. -/
def Obligations.TrajectoryCommandsWaitForTakeover : Prop :=
  ∀ (q : Request) (s : State), q.target.toNat < 64 → s.dev.isReleased 9 q.target.toNat = false →
    let a := q.target.toNat
    let d := s.dev
    let e := slotEngine a
    let tick := d.get HERDER_CTRL_TICK
    let t := d.axTakeover a (q.at_ s.clk.ns) s.clk.ns
    let w := d.axTo s.clk a t
    let x := w.axX a
    let open_ : Prop := d.axClosed a t = false
    let movable : Prop := open_ ∧ d.axRegen a = false
    let free : Prop := movable ∧ x.mst = none ∧ (w.axMode a = modeStop → x.fromMst = false)
    let ends (op : AxOp) : Nat := ((w.axTake s.clk a t { op := op, ta := t, work := none }).axX a).tc.getD t
    let waits (i : Instr) (opc plan : Nat) (op : AxOp) (p : Nat) : Prop :=
      let d1 := (d.setAxX a { d.axX a with pend := (d.axX a).pend ++ [{ op := op, ta := t, work := some q.id }] }).enrol (slotSetpoint a)
      let term := d.cost plan - d.cost (d.modeClass a (w.axMode a) x.mst)
      let win := w.trajT a - 1000 - 250 * tick
      d1.fitsCap e = true → d1.fitsOneShot e (d1.engDens tick e) term win (t - 1000) = true → Served s q opc p →
        ∃ d' : Dev, exec i s = .next (s.accepted opc q p d') ∧ (d'.axX a).pend = (d.axX a).pend ++ [{ op := op, ta := t, work := some q.id }] ∧
          (∀ b, b ≠ a → d'.axX b = d.axX b) ∧ d' = { d with ax := d'.ax, her := d'.her, regs := d'.regs } ∧
          KeepsRegs (fun r => ∃ e k, r = (TRJ_CAMDIR_md_USE e k).addr) d d'
    let move (i : Instr) (opc : Nat) (op : AxOp) : Prop := free → waits i opc 0x15 op (ends op)
    let follow (i : Instr) (opc : Nat) (cam : Bool) : Prop :=
      let m := masterOf cam q
      let k := camIdx a m.table
      open_ → masterFormatOk cam q = true → (q.payload.length = 4 ∨ q.payload.length = 6) → m.m ≠ 0 → m.n.natAbs ≤ 2 ^ 31 * m.m →
        (m.toMatch = true → m.rel = true) → (m.typ = 2 → m.slot < 24) → (cam = true → w.get (TRJ_CAMDIR_md_LEN (k / 16) (k % 16)) ≠ 0) →
        waits i opc 0x16 (.master m) t
    (q.payload.length = 2 → move (.moveAbs q) 0x0200 (.moveAbs (posOf (q.pw 0) (q.pw 1)))) ∧
    (q.payload.length = 2 → move (.moveRel q) 0x0201 (.moveRel (posOf (q.pw 0) (q.pw 1)))) ∧
    (q.payload.length = 2 → w.axMode a = modePosition → move (.moveRetarget q) 0x0202 (.retarget (posOf (q.pw 0) (q.pw 1)))) ∧
    (q.payload.length = 1 → absQ (mkRat (q.pw 0).toInt (2 ^ 32)) ≤ (w.axLims a).v → move (.moveVel q) 0x0203 (.moveVel (q.pw 0).toInt)) ∧
    (q.payload = [] → movable → waits (.moveStop q) 0x0204 0x15 (.stop false) t) ∧
    (let op : AxOp := .limits (q.pw 0).toNat (q.pw 1).toNat (q.pw 2).toNat (q.pw 3).toNat
     q.payload.length = 4 → (∀ v ∈ q.payload, v ≠ 0) → (q.pw 0).msb = false →
      (d.trajT a ≠ 0 → waits (.axisLimits q) 0x0205 0x15 op (if w.axMoving a then ends op else t)) ∧
      (d.trajT a = 0 → Served s q 0x0205 s.clk.ns →
        exec (.axisLimits q) s = .next (s.done 0x0205 q (w.axTake s.clk a t { op := op, ta := t, work := none })))) ∧
    follow (.gearSet q) 0x0210 false ∧ follow (.camSet q) 0x0211 true

/-- loop.mode and loop.set wait for their loop instant with the mode and output, or the set-point, of the payload. Derived from R51, R274,
R308, R382. -/
def Obligations.LoopModeAndSetWaitForTakeover : Prop :=
  ∀ (q : Request) (s : State) (b : Nat), b < 16 → q.target.toNat = 0x40 + b → q.payload.length = 1 → s.dev.isReleased 10 b = false →
    let t := s.dev.loopNext s.clk.ns b (max (q.at_ s.clk.ns) (s.clk.ns + s.dev.loopT b))
    let waits (i : Instr) (opc : Nat) (x : LoopCmd) : Prop :=
      let d := (s.dev.setLoopX b { s.dev.loopX b with pend := (s.dev.loopX b).pend ++ [x] }).enrol (slotLoop b)
      d.fitsCap 30 = true → Served s q opc t → exec i s = .next (s.accepted opc q t d)
    (bits64 (q.pw 0) 0 2 ≤ 2 → bits64 (q.pw 0) 2 30 = 0 → waits (.loopMode q) 0x0301
      { ta := t, mode := some (bits64 (q.pw 0) 0 2, BitVec.ofNat 32 (bits64 (q.pw 0) 32 32)), work := some q.id }) ∧
    (bits64 (q.pw 0) 32 32 = 0 → waits (.loopSet q) 0x0302
      { ta := t, sp := BitVec.ofNat 32 (bits64 (q.pw 0) 0 32), work := some q.id })

/-- time.cfg, herder.cfg, herder.trace, sys.mbx, dcg.clear, cap.cfg and cmdin.cfg take effect with their DONE. Derived from R64, R77, R198,
R257, R298, R317, R319, R387, R539, R612. -/
def Obligations.ConfigurationsInForceAtOnce : Prop :=
  ∀ (q : Request) (s : State),
    (q.target = 0xF0 → q.payload.length = 2 → Served s q 0x0411 s.clk.ns →
      ∃ d, exec (.herderTrace q) s = .next (s.done 0x0411 q d) ∧ d.get HERDER_TR_CTL_KMASK = bits64 (q.pw 0) 0 8 ∧
        d.get HERDER_TR_CTL_FRZK = bits64 (q.pw 0) 8 8 ∧ d.get HERDER_TR_CTL_POST = bits64 (q.pw 0) 16 12 ∧
        d.get HERDER_TR_EMASK_EMASK = bits64 (q.pw 1) 0 31 ∧ d.flag HERDER_TR_CTL_FROZEN = false ∧ d.her.postLeft = none ∧
        d = { s.dev with regs := d.regs, her := d.her } ∧
        KeepsRegs (fun a => a = HERDER_TR_CTL_KMASK.addr ∨ a = HERDER_TR_EMASK_EMASK.addr) s.dev d) ∧
    (q.target = 0xFE → q.payload.length = 1 → bits64 (q.pw 0) 18 14 = 0 → bits64 (q.pw 0) 48 16 = 0 → Served s q 0x000B s.clk.ns →
      ∃ d, exec (.sysMbx q) s = .next (s.done 0x000B q d) ∧
        d.reg MBX_IRQ_EN_MBX.addr = BitVec.ofNat 32 (bits64 (q.pw 0) 0 18) ∧ d.get MBX_ROUTE_ROUTE = bits64 (q.pw 0) 32 16 ∧
        OnlyRegs (fun a => a = MBX_IRQ_EN_MBX.addr ∨ a = MBX_ROUTE_ROUTE.addr) s.dev d) ∧
    (∀ g < 4, q.target.toNat = 0x68 + g → q.payload = [] → s.dev.getI (SAR_Gg_VOLT_V g) < s.dev.getI (PWM_Gg_BLO_ACT_V g) →
      ((s.dev.get PWM_FLT_STAT_PIN).testBit g = false ∨ Config.freeValue s.dev.free % 2 ≠ 0) → Served s q 0x0107 s.clk.ns →
      ∃ d, exec (.dcgClear q) s = .next (s.done 0x0107 q d) ∧ (d.get PWM_FLT_STAT_LAT).testBit g = false ∧
        d.flag (PWM_Gg_BSTAT_REGEN g) = false ∧ d.flag (PWM_Gg_BSTAT_CFAIL g) = false ∧
        (∀ k, k ≠ g → (d.get PWM_FLT_STAT_LAT).testBit k = (s.dev.get PWM_FLT_STAT_LAT).testBit k) ∧
        d = { s.dev with regs := d.regs, fab := d.fab, flt := d.flt, free := d.free }) ∧
    (let f (k w : Nat) : Nat := bits64 (q.pw 0) k w
     let cap (e : Nat) : Nat := if e < 28 then f 32 8 else if e < 30 then f 40 8 else f 48 8
     q.target = 0xF0 → q.payload.length = 1 → f 7 9 = 0 → f 26 6 = 0 → f 56 8 = 0 → (f 0 7 = s.dev.get HERDER_CTRL_TICK ∨ s.dev.dst = .ready) →
      1 ≤ f 0 7 → f 0 7 ≤ 64 → 1 ≤ f 16 10 → f 16 10 ≤ 1000 → (∀ k ∈ [32, 40, 48], 50 ≤ f k 8 ∧ f k 8 ≤ 100) →
      (∀ e, 24 ≤ e → e < 31 → s.dev.engineMisfit (f 0 7) e (cap e) (decide (f 0 7 ≠ s.dev.get HERDER_CTRL_TICK)) = none) →
      Served s q 0x0410 s.clk.ns →
      ∃ d, exec (.herderCfg q) s = .next (s.done 0x0410 q d) ∧ d.get HERDER_CTRL_TICK = f 0 7 ∧ d.get HERDER_CTRL_WIN = f 16 10 ∧
        d.get HERDER_CAP_TRJ = f 32 8 ∧ d.get HERDER_CAP_PKT = f 40 8 ∧ d.get HERDER_CAP_LOOP = f 48 8 ∧
        d = { s.dev with regs := d.regs, her := d.her } ∧ KeepsRegs (fun a => a = HERDER_CTRL_TICK.addr ∨ a = HERDER_CAP_TRJ.addr) s.dev d) ∧
    (let d1 := s.dev.writePairs q.image
     q.target = 0x6E → q.payload ≠ [] → imageOk (fun a => a = TIME_CTRL_MODE.addr || a = TIME_GAIN_KP.addr || a = TIME_LIM_JTHR.addr ||
        a = TIME_HOLD_HLIM.addr || a = GATE_MARGIN_MARG.addr) q.image = true → timeCfgZero d1 = false → timeCfgConflict d1 = false →
      Served s q 0x0400 s.clk.ns →
      ∃ d, exec (.timeCfg q) s = .next (s.done 0x0400 q d) ∧ d = { s.dev with regs := d.regs, servo := d.servo, epochs := d.epochs } ∧
        (d1.get TIME_CTRL_MODE = s.dev.get TIME_CTRL_MODE → d = d1) ∧
        (d1.get TIME_CTRL_MODE ≠ s.dev.get TIME_CTRL_MODE →
          d.get TIME_STAT_STATE = servoFree ∧ d.getI TIME_RATE_Y = 0 ∧ d.flag TIME_STAT_STEP_PEND = false ∧ d.servo.seen = false)) ∧
    (∀ r < 8, q.target.toNat = 0x58 + r →
      let d1 := s.dev.writePairs q.image
      q.payload ≠ [] → s.dev.capBusy r = false → imageOk (isCapCfg r) q.image = true → d1.capZero r = false → d1.capConflict r = false →
      d1.capOverload r = false → Served s q 0x0500 s.clk.ns → exec (.capCfg q) s = .next (s.done 0x0500 q (d1.capCopy r))) ∧
    (q.target.toNat < 24 → q.payload ≠ [] → s.dev.isReleased 7 q.target.toNat = false → imageOk isCmdinReg q.image = true →
      Served s q 0x010C s.clk.ns → ∃ d, exec (.cmdinCfg q) s = .next (s.done 0x010C q d) ∧ OnlyRegs (fun a => isCmdinReg a = true) s.dev d ∧
        ∀ c < 8, s.dev.get (FBK_CMDc_CFG_MODE c) ≠ 0 → (s.dev.lane (s.dev.get (FBK_CMDc_CFG_LANE c))).state.running = true →
          d.get (FBK_CMDc_CFG_MODE c) ≠ 0 ∧ d.get (FBK_CMDc_CFG_LANE c) = s.dev.get (FBK_CMDc_CFG_LANE c))

/-- sys.release hands a block instance to the host with a copy kept, sys.reclaim takes it back 1 ms later, reg.write writes what the host
owns. Derived from R49, R50, R51, R387. -/
def Obligations.OwnershipCommands : Prop :=
  ∀ (q : Request) (s : State), q.target = 0xFE →
    (q.payload.length = 1 → bits64 (q.pw 0) 16 48 = 0 → mayTake (bits64 (q.pw 0) 0 8) (bits64 (q.pw 0) 8 8) = true →
      (∀ u ∈ laneOfInst (bits64 (q.pw 0) 0 8) (bits64 (q.pw 0) 8 8), (s.dev.lane u).state = .disabled ∧ (s.dev.lane u).chg = []) →
      Served s q 0x0009 s.clk.ns →
      ∃ d, exec (.sysRelease q) s = .next (s.done 0x0009 q d) ∧
        d.released.contains (bits64 (q.pw 0) 0 8 * 256 + bits64 (q.pw 0) 8 8) = true ∧
        (∀ k, s.dev.released.contains k = true → d.released.contains k = true) ∧
        d = { s.dev with released := d.released, copies := d.copies }) ∧
    (q.payload.length = 1 → bits64 (q.pw 0) 16 48 = 0 → mayTake (bits64 (q.pw 0) 0 8) (bits64 (q.pw 0) 8 8) = true →
      Served s q 0x000A (s.clk.ns + 1000000) →
      ∃ d, exec (.sysReclaim q) s = .next (s.accepted 0x000A q (s.clk.ns + 1000000) d) ∧
        d = { s.dev with imgs := s.dev.imgs ++ [{ group := reclaimKey, from_ := s.clk.ns + 1000000, due := s.clk.ns + 1000000
                                                  pairs := [(bits64 (q.pw 0) 0 8, bits64 (q.pw 0) 8 8)], work := some q.id }] }) ∧
    (q.payload ≠ [] → (∀ p ∈ q.image, p.1 % 4 = 0) →
      ((∀ p ∈ q.image, isMapped p.1 = true → s.dev.hostOwns p.1 = true) → Served s q 0x0B01 s.clk.ns →
        exec (.regWrite q) s = .next (s.done 0x0B01 q (q.image.foldl (fun d p =>
          if isMapped p.1 then d.regWrite s.clk p.1 (BitVec.ofNat 32 p.2) else d.setHpi 5) s.dev))) ∧
      ((∃ p ∈ q.image, isMapped p.1 = true ∧ s.dev.hostOwns p.1 = false) → s.dev.dst.serves = true → s.dev.dst ≠ .mirror →
        exec (.regWrite q) s = .next (s.refused 0x0B01 q s.dev rcRegOwned 31 0)))

/-- fbk.set_pos, io.set, io.diag, cap.arm, cap.stop and can.send note their work and its promise. Derived from R157, R382, R437, R510, R512,
R531, R539, R540. -/
def Obligations.DelayedWorkCommands : Prop :=
  ∀ (q : Request) (s : State),
    let n := q.target.toNat
    let at_ := q.at_ s.clk.ns
    (n < 24 → q.payload.length = 2 → s.dev.isReleased 7 n = false → Served s q 0x0109 (s.dev.firingAhead (24 + n) at_) →
      exec (.fbkSetPos q) s = .next (s.accepted 0x0109 q (s.dev.firingAhead (24 + n) at_)
        (s.dev.setFbkX n { s.dev.fbkX n with setPos := (s.dev.fbkX n).setPos ++ [(posOf (q.pw 0) (q.pw 1), at_, some q.id)] }))) ∧
    (let mask := bits64 (q.pw 0) 0 32
     let from_ := max at_ (s.clk.ns + 10000)
     let p := (fioAll.filter fun cc => mask.testBit cc).foldl
       (fun m cc => max m (s.dev.fioFiring cc from_ (s.dev.imagesOf fun x => x.group = fioBase) 0)) from_
     q.target = 0x6D → q.payload.length = 1 → s.dev.dst ≠ .safe → s.dev.dst ≠ .mirror →
      (∀ cc < 32, mask.testBit cc = true → cc < 24 ∧ s.dev.fioMode cc = 3 ∧ s.dev.loopFeeds cc true = false ∧ s.dev.isReleased 0x10 cc = false) →
      (mask ≠ 0 → Served s q 0x0601 p → exec (.ioSet q) s = .next (s.accepted 0x0601 q p { s.dev with fio := { s.dev.fio with
        sets := s.dev.fio.sets ++ [{ from_ := from_, mask := mask, vals := bits64 (q.pw 0) 32 32, work := q.id }] } })) ∧
      (mask = 0 → Served s q 0x0601 s.clk.ns → exec (.ioSet q) s = .next (s.done 0x0601 q s.dev))) ∧
    (let dwin := bits64 (q.pw 0) 0 16
     let p := at_ + dwin * 1000000
     q.target = 0x6D → q.payload.length = 1 → bits64 (q.pw 0) 16 48 = 0 → s.dev.dst = .ready ∨ s.dev.dst = .run →
      (dwin = 0 → Served s q 0x0602 s.clk.ns → exec (.ioDiag q) s = .next (s.done 0x0602 q s.dev s.dev.diagRsp)) ∧
      (0 < dwin → Served s q 0x0602 p → ∃ d, exec (.ioDiag q) s = .next (s.accepted 0x0602 q p d) ∧
        d.fio = { s.dev.fio with wins := s.dev.fio.wins ++ [(at_, p, some q.id)] } ∧ d = { s.dev with fio := d.fio, regs := d.regs })) ∧
    (let r := n - 0x58
     let g := capGate r
     0x58 ≤ n → n < 0x60 → q.payload = [] →
      (s.dev.capBusy r = false → (s.dev.capX r).armWork = none → s.dev.get (CAP_Rr_CFG_ACT_MODE r) ≠ 0 → s.clk.ns + 10000 ≤ at_ →
        Served s q 0x0501 (s.dev.capGrid r at_) → ∃ d, exec (.capArm q) s = .next (s.accepted 0x0501 q (s.dev.capGrid r at_) d) ∧
        (d.capX r).armWork = some q.id ∧
        (at_ < 2 ^ 64 → s.dev.flag (GATE_GTnnn_CTL_ARMED g) = false ∨ s.clk.ns + s.dev.margin ≤ s.dev.gateNext g →
          d.flag (GATE_GTnnn_CTL_ARMED g) = true ∧ d.gateNext g = at_ ∧ d.get (GATE_GTnnn_PER_ACT_PER g) = 0) ∧
        d = { s.dev with regs := d.regs, cap := d.cap, gates := d.gates }) ∧
      (s.dev.capBusy r = true ∨ (s.dev.capX r).armWork.isSome = true → (s.dev.capX r).stop = none →
        Served s q 0x0502 (s.dev.capGrid r at_ + 1000 * s.dev.get (CAP_Rr_CFG_ACT_RLAG r)) →
        exec (.capStop q) s = .next (s.accepted 0x0502 q (s.dev.capGrid r at_ + 1000 * s.dev.get (CAP_Rr_CFG_ACT_RLAG r))
          (s.dev.setCapX r { s.dev.capX r with stop := some (at_, q.id) })))) ∧
    (let ch := n - 0x60
     let w2 : W32 := BitVec.ofNat 32 (bits64 (q.pw 0) 0 32)
     let w3 : W32 := BitVec.ofNat 32 (bits64 (q.pw 0) 32 32)
     let p := at_ + w3.toNat / 2 ^ 16 * 100000
     0x60 ≤ n → n < 0x68 → q.payload.length = 1 + (w2Bytes w2 w3 + 7) / 8 → w2.getLsbD 31 = false → w3.toNat / 2 ^ 8 % 2 ^ 8 = 0 →
      s.dev.canMode ch = canNormal → s.dev.dst ≠ .mirror → w3.toNat / 2 ^ 16 ≠ 0 → canBad w2 w3 = false → (s.dev.canX ch).tx.length < 32 →
      Served s q 0x0811 p → ∃ (d : Dev) (e : CanTx), exec (.canSend q) s = .next (s.accepted 0x0811 q p d) ∧
        (d.canX ch).tx = (s.dev.canX ch).tx ++ [e] ∧ e.work = some q.id ∧ e.launch = at_ ∧ e.w2 = w2 ∧ e.w3 = w3 ∧
        d.get (CAN_CHc_TXCTL_COUNT ch) = (s.dev.canX ch).tx.length + 1 ∧ d = { s.dev with can := d.can, regs := d.regs })

/-- cam.load and ext.load store a segment with a single DONE, and accept the whole with its promise. Derived from R309, R311, R352, R385. -/
def Obligations.SegmentedLoads : Prop :=
  ∀ (q : Request) (s : State),
    let m := q.mbx.val
    let n := q.target.toNat
    let w := q.pw 0
    let idx := bits64 w 8 8
    let continues (opc : Nat) (before : List (List W64)) : Prop := (idx = 0 ∧ before = []) ∨
      ∃ k, idx = k + 1 ∧ (s.dev.mbox m).stage = some (opc, k, before)
    let stored (i : Instr) (opc : Nat) (before : List (List W64)) : Prop := Served s q opc s.clk.ns →
      ∃ d, exec i s = .next (s.done opc q d) ∧ d.flag (MBX_Mm_STAT_STAGE m) = true ∧
        (d.mbox m).stage = some (opc, idx, before ++ [q.payload]) ∧ d = { s.dev with mbx := d.mbx, regs := d.regs } ∧
        KeepsRegs (· = (MBX_Mm_STAT_STAGE m).addr) s.dev d
    let clear : Dev := (s.dev.setMbox m { s.dev.mbox m with stage := none }).setf (MBX_Mm_STAT_STAGE m) false
    (∀ before, continues 0x0A00 before → n < 24 → extSegOk q.payload = true → s.dev.isReleased 4 n = false →
      (bits64 w 2 1 = 0 → stored (.extLoad q) 0x0A00 before) ∧
      (∀ img len dl have_ dhave h, bits64 w 2 1 = 1 → extImage (before ++ [q.payload]) = some (img, len, dl, have_, dhave) →
        let t := s.dev.firingAhead n (q.at_ s.clk.ns)
        (s.dev.judged n).running = false → img.entry < len → len ≤ 4096 → dl ≤ 8192 → dl % 8 = 0 → (len + 1) / 2 * 2 = have_ →
        dl / 8 = dhave → 0 < img.cost → img.cost < 2 ^ 24 → img.wcalc = some h → h ≤ 2 * img.cost →
        s.dev.laneOver (s.dev.imagesBy t).laneTAct n (some img.cost) = false → Served s q 0x0A00 t →
        exec (.extLoad q) s = .next (s.accepted 0x0A00 q t { clear with
          extLoads := clear.extLoads ++ [{ lane := n, from_ := q.at_ s.clk.ns, img := img, work := some q.id }] }))) ∧
    (∀ before, continues 0x0212 before → n < 64 → bits64 w 16 6 ≤ 29 → q.payload.length = 1 + 2 * bits64 w 16 6 → bits64 w 7 1 = 0 →
      bits64 w 22 10 = 0 → bits64 w 45 19 = 0 → s.dev.isReleased 9 n = false → s.dev.sysStop = none →
      (n < 24 → s.dev.trajT n ≠ 0 ∧ (s.dev.axX n).live = true) →
      (bits64 w 6 1 = 0 → stored (.camLoad q) 0x0212 before) ∧
      (let ps := segPts (before ++ [q.payload])
       let e := slotEngine n
       let i := camIdx n (bits64 w 0 4)
       let blocks := (ps.length + 63) / 64
       let t := s.dev.nextTick s.clk.ns
       bits64 w 6 1 = 1 → (clear.camRefs e).testBit (i % 16) = false → ps.length = bits64 w 32 13 → ps.length ≠ 1 → camRises ps = true →
        ps.length + clear.camPoints e i ≤ 4096 →
        (ps = [] → Served s q 0x0212 s.clk.ns → exec (.camLoad q) s =
          .next (s.done 0x0212 q (clear.camStore i (decide (bits64 w 4 1 = 1)) (decide (bits64 w 5 1 = 1)) []))) ∧
        (∀ j, ps ≠ [] → clear.freeSlot = some j → clear.blocksFit e t blocks = true → Served s q 0x0212 (t + blocks * 1000000) →
          ∃ (d : Dev) (x : CamLoad), exec (.camLoad q) s = .next (s.accepted 0x0212 q (t + blocks * 1000000) d) ∧
            d.camLoads = s.dev.camLoads ++ [x] ∧ x.job = j ∧ x.work = q.id ∧ x.unit = n ∧ x.tab = i ∧ x.blocks = blocks ∧ x.pts = ps ∧
            x.spline = decide (bits64 w 4 1 = 1) ∧ x.periodic = decide (bits64 w 5 1 = 1) ∧ d.lanes = s.dev.lanes ∧ d.ax = s.dev.ax)))

/-- time.accept_step, safe.cfg, chain.enum, pair.join and pair.leave change the servo, the safety unit, the chain and the pair as their
rules say. Derived from R64, R423, R472, R473, R474, R498. -/
def Obligations.UnitCommands : Prop :=
  ∀ (q : Request) (s : State),
    (q.target = 0x6E → q.payload.length = 1 → s.dev.flag TIME_STAT_STEP_PEND = true → Served s q 0x0401 s.clk.ns →
      ((q.pw 0).toNat % 2 = 1 → ∃ d, exec (.timeAcceptStep q) s = .next (s.done 0x0401 q d) ∧ d.flag TIME_STAT_STEP_PEND = false ∧
        d.flag TIME_STAT_TIME_JUMP = false ∧ d.get TIME_STAT_STATE = servoSlew ∧ d.servo.slewRem = s.dev.timePend * 2 ^ 48 ∧
        d = { s.dev with regs := d.regs, servo := d.servo, epochs := d.epochs }) ∧
      ((q.pw 0).toNat % 2 = 0 → s.dev.noLaneRunning = true →
        ∃ d, exec (.timeAcceptStep q) s = .next (s.done 0x0401 q d) ∧ d.flag TIME_STAT_STEP_PEND = false ∧
          d.flag TIME_STAT_TIME_JUMP = false ∧ d.get TIME_STAT_STATE = servoAcquire ∧ d.servo.stepNow = some s.dev.timePend ∧
          d = { s.dev with regs := d.regs, servo := d.servo, epochs := d.epochs })) ∧
    (let d1 := s.dev.writePairs q.image
     q.target = 0x6C → q.payload ≠ [] → imageOk (fun a => safeCfgRegs.contains a) q.image = true →
      (∀ g < 4, s.dev.sg g ≠ sgEnable ∧ s.dev.sg g ≠ sgSs1) → s.dev.safe.cfg = none → d1.safeZero = false → d1.safeConflict = false →
      Served s q 0x0700 (s.clk.ns + 200000000) →
      ∃ d, exec (.safeCfg q) s = .next (s.accepted 0x0700 q (s.clk.ns + 200000000) d) ∧
        d.safe = { s.dev.safe with cfg := some (q.image, q.id) } ∧ KeepsRegs (· = SAFE_CFGCRC_CRC.addr) d1 d ∧
        d = { s.dev with regs := d.regs, safe := d.safe, safeStore := d.safeStore, free := d.free }) ∧
    (let p := s.clk.ns + 10000000
     let id := uInt 16 (Config.freeValue s.dev.free)
     q.target = 0xFE → q.payload = [] → s.dev.anyReleased 0x0C = false → s.dev.noLaneRunning = true → s.dev.chain.enum = none →
      Served s q 0x0801 p → ∃ d2 : Dev, exec (.chainEnum q) s = .next (s.accepted 0x0801 q p
          ((d2.launchBlock s.clk 1 0xF0 0xFF 0x69 [BitVec.ofNat 64 (2 + id * 2 ^ 16)]).pktArm s.clk 199)) ∧
        d2.get CHAIN_STAT_ADDR = 1 ∧ d2.flag CHAIN_STAT_CTRL = true ∧ d2.get CHAIN_STAT_ENUMID = id ∧
        d2.chain = { s.dev.chain with enum := some (q.id, p), idents := [] } ∧ d2 = { s.dev with regs := d2.regs, chain := d2.chain, free := d2.free }) ∧
    (let w := q.pw 0
     let role := bits64 w 11 2
     let d1 := s.dev.pairCfg w
     let light : Prop := s.dev.mirrorLoad (d1.get PAIR_CFG_MDIV) ≤ 200
     q.target = 0x6F → q.payload.length = 1 → bits64 w 10 1 = 0 → bits64 w 13 3 = 0 → bits64 w 44 4 = 0 → bits64 w 56 8 = 0 →
      s.dev.pair.join = none → d1.get PAIR_CFG_MDIV ≠ 0 → d1.get PAIR_CFG_RBPER ≠ 0 → d1.get PAIR_CFG2_TOFFLIM ≠ 0 →
      (role = roleActive → (s.dev.dst = .ready ∨ s.dev.dst = .run) → (s.dev.pstate = psSyncing ∨ s.dev.pstate = psMirrored → light) →
        Served s q 0x0900 s.clk.ns → ∃ d, exec (.pairJoin q) s = .next (s.done 0x0900 q d) ∧ d.get PAIR_STAT_ROLE = roleActive ∧
          d.flag PAIR_CFG_ALLOW = true ∧
          OnlyRegs (fun a => a = PAIR_CFG_MDIV.addr ∨ a = PAIR_CFG2_RBEDGE.addr ∨ a = PAIR_STAT_ROLE.addr ∨ a = PAIR_BW_BW.addr) s.dev d) ∧
      (role = roleStandby → s.dev.dst = .ready → s.dev.partnerReady = true → s.dev.pair.same = true → light →
        Served s q 0x0900 (s.clk.ns + 200000000) → ∃ d, exec (.pairJoin q) s = .next (s.accepted 0x0900 q (s.clk.ns + 200000000) d) ∧
          d.get PAIR_STAT_ROLE = roleStandby ∧ d.get PAIR_STAT_PSTATE = psSyncing ∧ d.pair.join = some (s.clk.ns + 200000000, q.id) ∧
          d = { s.dev with regs := d.regs, pair := d.pair, epochs := d.epochs })) ∧
    (q.target.toNat = pairUnit → q.payload = [] → s.dev.get PAIR_STAT_ROLE = roleActive → Served s q 0x0901 s.clk.ns →
      ∃ d, exec (.pairLeave q) s = .next (s.done 0x0901 q d) ∧ d.get PAIR_STAT_PSTATE = psSolo ∧ d.flag PAIR_CFG_ALLOW = false ∧
        d.flag PAIR_STAT_PULL = false ∧ KeepsRegs (fun a => a = PAIR_STAT_ROLE.addr ∨ a = PAIR_CFG_ALLOW.addr) s.dev d ∧
        d = { s.dev with regs := d.regs, epochs := d.epochs }) ∧
    (q.target.toNat = pairUnit → q.payload = [] → s.dev.get PAIR_STAT_ROLE = roleStandby → Served s q 0x0901 (s.clk.ns + 1000000) →
      ∃ d at_, exec (.pairLeave q) s = .next (s.acceptedOnly 0x0901 q (s.clk.ns + 1000000) d) ∧ at_ ≤ s.clk.ns + 1000000 ∧
        d = { s.dev with pow := { s.dev.pow with softAt := some at_ } })

/-- The host port: what a read, a write, a register write and STATUS do to the status byte and to the registers. Derived from R13, R49, R50,
R359, R361, R362, R363, R389, R411. -/
def Obligations.HostPortAccesses : Prop :=
  ∀ s : State,
    (s.dev.dst.serves = true →
      exec .status s = .next { s with dev := { s.dev with hpi := 0, hpio := { bytes := [s.dev.statusByte] } } } ∧
      (∀ k < 6, s.dev.statusByte.testBit k = s.dev.hpi.testBit k) ∧ s.dev.statusByte.testBit 6 = s.dev.irqLow ∧
      (∀ (addr v : W32) (n : Nat) (ws : List W32) (cut : Bool), addr.toNat % 4 ≠ 0 →
        exec (.read addr n) s = .next { s with dev := (s.dev.locksEnd s.clk).hpiStart.setHpi 2 } ∧
        exec (.write 0x38 addr ws cut) s = .next { s with dev := s.dev.hpiStart.setHpi 2 } ∧
        exec (.registerWrite addr v) s = .next { s with dev := s.dev.setHpi 2 }) ∧
      (∀ (addr v : W32), addr.toNat % 4 = 0 → isMapped addr.toNat = false →
        exec (.registerWrite addr v) s = .next { s with dev := s.dev.setHpi 5 }) ∧
      (∀ (addr v : W32), addr.toNat % 4 = 0 → isMapped addr.toNat = true → isReqBuf addr.toNat = false → s.dev.hostOwns addr.toNat = false →
        exec (.registerWrite addr v) s = .next { s with dev := s.dev.setHpi 1 }) ∧
      (∀ (code : BitVec 8) (addr : W32) (ws : List W32) (cut : Bool), code ≠ 0x38 → code ≠ 0xEB → code ≠ 0x05 →
        ∃ t, exec (.write code addr ws cut) s = .next t ∧ t.dev.hpi.testBit 4 = true ∧ t.clk = s.clk ∧
          t.dev = (s.dev.hpiStart.setHpi 4).reportLim s.clk 130 0xFE) ∧
      (∀ (addr v : W32), addr.toNat % 4 = 0 →
        exec (.write 0x38 addr [v] false) s = exec (.registerWrite addr v) { s with dev := s.dev.hpiStart }) ∧
      (∀ (addr v : W32), addr.toNat % 4 = 0 → 0x400B0200 ≤ addr.toNat → addr.toNat < 0x400C0000 →
        ∃ t, exec (.registerWrite addr v) s = .next t ∧ t.clk = s.clk ∧ OnlyRegs (· = addr.toNat) s.dev t.dev ∧
          ∀ i < 32, (t.dev.reg addr.toNat).getLsbD i =
            ((if (regMasks addr.toNat).1.testBit i then v.getLsbD i else (s.dev.reg addr.toNat).getLsbD i) &&
              !((regMasks addr.toNat).2.testBit i && v.getLsbD i))) ∧
      (∀ (addr : W32) (n : Nat), addr.toNat % 4 = 0 →
        let d0 := (s.dev.locksEnd s.clk).hpiStart
        let r := d0.hostReads s.clk addr.toNat n
        (d0.writesHeld = false → anyUnmapped addr.toNat n = false →
          exec (.read addr n) s = .next { s with dev := { r.2 with hpio := { bytes := r.2.hpio.bytes ++ [d0.statusByte], words := r.1 } } } ∧
            r.1.length = n ∧ d0.statusByte % 2 = d0.hpi % 2) ∧
        (d0.writesHeld = true →
          exec (.read addr n) s = .next { s with dev := { d0 with hpio := { bytes := [d0.statusByte + 1], wait := some (addr.toNat, n) } } })) ∧
      (∀ (b : RuoriBlock) (src : BitVec 8), brandType b.brand = 0x6A → s.dev.blockMine (brandAddr b.brand) = true →
        unitValid (brandUnit b.brand) = true → (s.dev.seqCheck (src.toNat + 1) b).1 = true → bits64 (b.word 1) 32 6 ≤ 32 →
        bits64 (b.word 1) 0 32 % 4 ≠ 0 →
        let d1 := (s.dev.seqCheck (src.toNat + 1) b).2.pktOneShot s.clk
        let reply (w1 : W64) : Dev := d1.emitTo src.toNat 0xFE 0x6B none 0 (w1 :: List.replicate ((bits64 (b.word 1) 32 6 + 1) / 2) 0)
        ∃ w1, bits64 w1 39 1 = 1 ∧ bits64 w1 38 1 = 0 ∧ bits64 w1 0 32 = bits64 (b.word 1) 0 32 ∧ bits64 w1 48 16 = brandSeq b.brand ∧
          exec (.registerRead b src) s = .next { s with dev := reply w1 })) ∧
    (s.dev.dst.serves = false → ∀ (code : BitVec 8) (addr v : W32) (n : Nat) (ws : List W32) (cut : Bool) (b : RuoriBlock) (src : BitVec 8),
      exec .status s = .next s ∧ exec (.read addr n) s = .next s ∧ exec (.write code addr ws cut) s = .next s ∧
        exec (.registerWrite addr v) s = .next s ∧ exec (.registerRead b src) s = .next s)

/-- The read of a multi-word value's first register latches its other registers at that instant. Derived from R7, R57, R154, R160, R234,
R290, R370. -/
def Obligations.FirstReadsLatchTheRest : Prop :=
  ∀ s : State, s.dev.dst.serves = true →
    let latched (i : Instr) (as : List Nat) : Prop := ∃ t, exec i s = .next t ∧ t = { s with dev := { s.dev with latch := t.dev.latch } } ∧
      (∀ a ∈ as, t.dev.latch.get (fun _ => none) a = some (s.dev.reg a)) ∧
      ∀ a, a ∉ as → t.dev.latch.get (fun _ => none) a = s.dev.latch.get (fun _ => none) a
    (∃ t, exec .timeNowLatch s = .next t ∧ t.clk = s.clk ∧ t.dev.get TIME_NOW_LO_NS = s.clk.ns % 2 ^ 32 ∧
      t.dev.get TIME_NOW_HI_NS = s.clk.ns / 2 ^ 32 % 2 ^ 32 ∧ t.dev.get TIME_NOW_FRAC_FRAC = s.clk.tor / 2 ^ 32 % 2 ^ 16 ∧
      OnlyRegs (fun a => a = TIME_NOW_LO_NS.addr ∨ a = TIME_NOW_HI_NS.addr ∨ a = TIME_NOW_FRAC_FRAC.addr) s.dev t.dev) ∧
    (∀ n : Fin 24, latched (.fbkPosLatch n) [(FBK_nn_POS_HI_V n).addr, (FBK_nn_POS_FRAC_V n).addr, (FBK_nn_VEL_LO_V n).addr,
      (FBK_nn_VEL_HI_V n).addr]) ∧
    (∀ p : Fin 8, latched (.probeTsLatch p) [(FBK_PRBp_TS_HI_V p).addr, (FBK_PRBp_POS_LO_V p).addr, (FBK_PRBp_POS_HI_V p).addr,
      (FBK_PRBp_POS_FRAC_V p).addr]) ∧
    (∀ j : Fin 1024, latched (.launchLatch j) [(HERDER_JOBj_LAUNCH_HI_LAUNCH j).addr]) ∧
    (∀ m : Fin 16, latched (.trefLatch m) [(MBX_Mm_TREF_HI_TREF m).addr]) ∧
    (∀ a : Fin 64, latched (.spLatch a) [(TRJ_AXaa_SP_HI_V a).addr, (TRJ_AXaa_SP_FRAC_V a).addr, (TRJ_AXaa_SV_LO_V a).addr,
      (TRJ_AXaa_SV_HI_V a).addr])

/-- Reads and writes that clear, release or start one thing change that thing alone. Derived from R98, R123, R131, R160, R378, R435, R446,
R532, R552. -/
def Obligations.ReadsAndWritesThatClear : Prop :=
  ∀ s : State, s.dev.dst.serves = true →
    let only (i : Instr) (f : Field) (v : Nat) : Prop := ∃ t, exec i s = .next t ∧ t.dev.get f = v ∧ t.clk = s.clk ∧ t.pending = s.pending ∧
      OnlyRegs (· = f.addr) s.dev t.dev
    only .bootedRead MBX_STAT_BOOTED 0 ∧
    (∀ p : Fin 8, only (.probeFracRead p) (FBK_PRBp_STAT_NEW p) 0) ∧
    (∀ l : Fin 24, only (.slackClr l) (PWM_Lnn_SLACK_MIN l) (0xFFFF % 2 ^ (PWM_Lnn_SLACK_MIN l).width)) ∧
    (∀ ch : Fin 72, exec (.dsfResRead ch) s = .next { s with dev := s.dev.setDsfX ch { s.dev.dsfX ch with unread := false } }) ∧
    (∀ (m : Fin 4) (ch : Fin 16), ∃ t, exec (.sarResRead m ch) s = .next t ∧ (t.dev.sarX m).unread.testBit ch.val = false ∧
      (∀ k, k ≠ ch.val → (t.dev.sarX m).unread.testBit k = (s.dev.sarX m).unread.testBit k) ∧ t = { s with dev := { s.dev with sar := t.dev.sar } }) ∧
    (∃ t, exec .faultLogRelease s = .next t ∧ t.dev.flt = { s.dev.flt with log := s.dev.flt.log.drop 1 } ∧
      (s.dev.flt.log.length ≤ 128 → t.dev.get FLT_STAT_UNREAD = s.dev.flt.log.length - 1) ∧
      t = { s with dev := { s.dev with regs := t.dev.regs, flt := t.dev.flt } }) ∧
    (∀ r : Fin 8,
      (s.dev.get (CAP_Rr_STAT_FULL r) ≠ 0 → ∃ t, exec (.segmentRelease r) s = .next t ∧
        t.dev.get (CAP_Rr_STAT_FULL r) = s.dev.get (CAP_Rr_STAT_FULL r) - 1 ∧
        t.dev.get (CAP_Rr_STAT_RSEG r) =
          (s.dev.get (CAP_Rr_STAT_RSEG r) + 1) % 2 ^ s.dev.get (CAP_Rr_CFG_ACT_NSEGLOG r) % 2 ^ (CAP_Rr_STAT_RSEG r).width ∧
        OnlyRegs (fun a => a = (CAP_Rr_STAT_FULL r).addr ∨ a = (CAP_Rr_STAT_RSEG r).addr) s.dev t.dev) ∧
      (s.dev.get (CAP_Rr_STAT_FULL r) = 0 → exec (.segmentRelease r) s = .next s)) ∧
    (∀ m : Fin 16, s.dev.get (MBX_Mm_STAT_RCOUNT m) = 0 → exec (.responseRelease m) s = .next s) ∧
    (∀ m : Fin 16, s.dev.get (MBX_Mm_STAT_RCOUNT m) ≠ 0 → (s.dev.mbox m).wait = [] → ∃ t, exec (.responseRelease m) s = .next t ∧
      t.dev.get (MBX_Mm_STAT_RCOUNT m) = s.dev.get (MBX_Mm_STAT_RCOUNT m) - 1 ∧
      t.dev.get (MBX_Mm_STAT_RHEAD m) = (s.dev.get (MBX_Mm_STAT_RHEAD m) + 1) % 16) ∧
    (∀ ch : Fin 8, ∃ t, exec (.canRxRelease ch) s = .next t ∧ (t.dev.canX ch).rx = (s.dev.canX ch).rx.drop 1 ∧
      t = { s with dev := { s.dev with regs := t.dev.regs, can := t.dev.can } }) ∧
    (∀ ch : Fin 8,
      (s.dev.canState ch = stBusOff → ∃ t, exec (.canRecovery ch) s = .next t ∧ t.dev.flag (CAN_CHc_CTL_REC ch) = true ∧
        (t.dev.canX ch).recov = true ∧ t = { s with dev := { s.dev with regs := t.dev.regs, can := t.dev.can } }) ∧
      (s.dev.canState ch ≠ stBusOff → exec (.canRecovery ch) s = .next s))

/-- A commit is noted in its CMT flag and waits for its unit's instant; the group in force stays. Derived from R15, R168, R198, R214, R227,
R266, R282, R426, R503. -/
def Obligations.CommitsWaitForTheirInstant : Prop :=
  ∀ s : State, s.dev.dst.serves = true →
    let noted (i : Instr) (f : Field) (d : Dev) : Prop := ∃ t, exec i s = .next t ∧ t.dev.flag f = true ∧ t.clk = s.clk ∧
      t.pending = s.pending ∧ OnlyRegs (· = f.addr) d t.dev
    let inTime (at_ : Option Nat) (g : Nat) : Prop := ∃ t, at_ = some t ∧ t + 8 ≤ s.dev.gateNext g ∧ s.dev.gateNext g < s.clk.ns + 8
    (∀ l : Fin 24,
      (¬ inTime (s.dev.pwmX l).commitAt (48 + l) → noted (.pwmCommit l) (PWM_Lnn_COMMIT_CMT l) (s.dev.setPwmX l
        { s.dev.pwmX l with commitAt := some s.clk.ns, commitSk := none, commitEpoch := none })) ∧
      (inTime (s.dev.pwmX l).commitAt (48 + l) → noted (.pwmCommit l) (PWM_Lnn_COMMIT_CMT l) (s.dev.setPwmX l
        { s.dev.pwmX l with after := some (s.clk.ns, none, none) }))) ∧
    (∀ p : Fin 8,
      (¬ inTime (s.dev.stpX p).commitAt (72 + p) → noted (.stepperCommit p) (PWM_Ss_COMMIT_CMT p)
        (s.dev.setStpX p { s.dev.stpX p with commitAt := some s.clk.ns })) ∧
      (inTime (s.dev.stpX p).commitAt (72 + p) → noted (.stepperCommit p) (PWM_Ss_COMMIT_CMT p)
        (s.dev.setStpX p { s.dev.stpX p with after := some s.clk.ns }))) ∧
    (∀ g : Fin 4, noted (.groupCommit g) (PWM_Gg_CTL_CMT g) s.dev) ∧
    (∀ n : Fin 24, noted (.fbkCommit n) (FBK_nn_CTL_CMT n) s.dev) ∧
    (∀ p : Fin 8,
      (s.dev.get (STR_s_CFG_SRC p) < 24 → noted (.strideCommit p) (STR_s_CTL_CMT p) s.dev) ∧
      (24 ≤ s.dev.get (STR_s_CFG_SRC p) → s.dev.strZero p = true → noted (.strideCommit p) (STR_s_CTL_ZERO p) s.dev) ∧
      (24 ≤ s.dev.get (STR_s_CFG_SRC p) → s.dev.strZero p = false → noted (.strideCommit p) (STR_s_CTL_CONFLICT p) s.dev)) ∧
    (∀ b : Fin 16, noted (.loopCommit b) (LPB_bb_CTL_CMT b) s.dev) ∧
    noted .chainCommit CHAIN_CTL_CMT { s.dev with chain := { s.dev.chain with cmtAt := some (s.dev.cycleAt (s.clk.ns + 1)) } } ∧
    (∀ ch : Fin 32, ch.val < 24 → noted (.fioCommit ch) (FIO_CHcc_CTL_CMT ch) s.dev) ∧
    (∀ ch : Fin 32, 24 ≤ ch.val → exec (.fioCommit ch) s = .next s) ∧
    (∀ a : Fin 64, s.dev.trajT a ≠ 0 → noted (.trjCommit a) (TRJ_AXaa_CTL_CMT a) s.dev)

/-- A commit that takes effect at once copies its whole group or rejects it with its flag. Derived from R15, R115, R116, R130, R132, R266,
R437, R441, R539. -/
def Obligations.CommitsInForceAtOnce : Prop :=
  ∀ s : State, s.dev.dst.serves = true →
    let rejected (i : Instr) (cmt flag_ : Field) : Prop := ∃ t, exec i s = .next t ∧ t.dev.flag cmt = false ∧ t.dev.flag flag_ = true ∧
      t.clk = s.clk ∧ t.pending = s.pending ∧ OnlyRegs (fun a => a = cmt.addr ∨ a = flag_.addr) s.dev t.dev
    let sets (i : Instr) (f : Field) : Prop := ∃ t, exec i s = .next t ∧ t.dev.flag f = true ∧ t.clk = s.clk ∧ t.pending = s.pending ∧
      OnlyRegs (· = f.addr) s.dev t.dev
    (∀ l : Fin 24,
      (s.dev.dsfZero l = true → rejected (.dsfCommit l) (DSF_Lnn_CTL_CMT l) (DSF_Lnn_CTL_ZERO l)) ∧
      (s.dev.dsfZero l = false → s.dev.dsfConflict l (s.dev.lane l).state = true →
        rejected (.dsfCommit l) (DSF_Lnn_CTL_CMT l) (DSF_Lnn_CTL_CONFLICT l)) ∧
      (s.dev.dsfZero l = false → s.dev.dsfConflict l (s.dev.lane l).state = false →
        ∃ t, exec (.dsfCommit l) s = .next t ∧ t.dev.flag (DSF_Lnn_CTL_CMT l) = false ∧
          t = { s with dev := { s.dev with regs := t.dev.regs, dsf := t.dev.dsf } } ∧
          (∀ i < 3, ∀ k < 5, t.dev.reg ((DSF_Cnn_CFG_EN (3 * l + i)).addr + 0x20 + 4 * k) =
            s.dev.reg ((DSF_Cnn_CFG_EN (3 * l + i)).addr + 4 * k)) ∧
          ∀ i < 3, s.dev.reg (DSF_Cnn_CFG_EN (3 * l + i)).addr ≠ s.dev.reg (DSF_Cnn_CFG_ACT_EN (3 * l + i)).addr →
            (t.dev.dsfX (3 * l + i)).restart = s.clk.ns)) ∧
    (∀ m : Fin 4,
      (seqBad s.dev m = true → rejected (.sarSequenceCommit m) (SAR_CVm_CTL_CMT m) (SAR_CVm_STAT_CONFLICT m)) ∧
      (seqBad s.dev m = false → ∃ t, exec (.sarSequenceCommit m) s = .next t ∧ t.dev.flag (SAR_CVm_CTL_CMT m) = false ∧
        t = { s with dev := { s.dev with regs := t.dev.regs } } ∧
        t.dev.reg ((SAR_CVm_SEQLEN_LEN m).addr + 0x80) = s.dev.reg (SAR_CVm_SEQLEN_LEN m).addr ∧
        ∀ j < 4, t.dev.reg ((SAR_CVm_SEQLEN_LEN m).addr + 0x88 + 4 * j) = s.dev.reg ((SAR_CVm_SEQLEN_LEN m).addr + 8 + 4 * j))) ∧
    (∀ g : Fin 4,
      (s.dev.sarGroupZero g = true → sets (.sarGroupCommit g) (SAR_Gg_CTL_ZERO g)) ∧
      (s.dev.sarGroupZero g = false → s.dev.sarGroupConflict g = true → sets (.sarGroupCommit g) (SAR_Gg_CTL_CONFLICT g)) ∧
      (s.dev.sarGroupZero g = false → s.dev.sarGroupConflict g = false → sets (.sarGroupCommit g) (SAR_Gg_CTL_CMT g))) ∧
    (∀ r : Fin 8,
      (s.dev.capBusy r = true → rejected (.capCommit r) (CAP_Rr_CTL_CMT r) (CAP_Rr_CTL_CONFLICT r)) ∧
      (s.dev.capBusy r = false → s.dev.capZero r = true → rejected (.capCommit r) (CAP_Rr_CTL_CMT r) (CAP_Rr_CTL_ZERO r)) ∧
      (s.dev.capBusy r = false → s.dev.capZero r = false → s.dev.capConflict r = true ∨ s.dev.capOverload r = true →
        rejected (.capCommit r) (CAP_Rr_CTL_CMT r) (CAP_Rr_CTL_CONFLICT r)) ∧
      (s.dev.capBusy r = false → s.dev.capZero r = false → s.dev.capConflict r = false → s.dev.capOverload r = false →
        ∃ t, exec (.capCommit r) s = .next t ∧ t.dev.flag (CAP_Rr_CTL_CMT r) = false ∧ t = { s with dev := { s.dev with regs := t.dev.regs } } ∧
          ∀ i < 6, t.dev.reg (0x400B1000 + 0x40 * r + 4 * i) = s.dev.reg (0x400B0000 + 0x40 * r + 4 * i))) ∧
    (∀ ch : Fin 8, 32 ≤ (s.dev.canX ch).tx.length → sets (.push ch) (CAN_CHc_TXCTL_FULL ch)) ∧
    (∀ ch : Fin 8, (s.dev.canX ch).tx.length < 32 →
      canBad (s.dev.reg (CAN_CHc_TXWw_W ch 2).addr) (s.dev.reg (CAN_CHc_TXWw_W ch 3).addr) = true →
      sets (.push ch) (CAN_CHc_TXCTL_BAD ch)) ∧
    (∀ ch : Fin 8, (s.dev.canX ch).tx.length < 32 →
      canBad (s.dev.reg (CAN_CHc_TXWw_W ch 2).addr) (s.dev.reg (CAN_CHc_TXWw_W ch 3).addr) = false →
      ∃ t e, exec (.push ch) s = .next t ∧ (t.dev.canX ch).tx = (s.dev.canX ch).tx ++ [e] ∧
        e.launch = (s.dev.reg (CAN_CHc_TXWw_W ch 0).addr).toNat + (s.dev.reg (CAN_CHc_TXWw_W ch 1).addr).toNat * 2 ^ 32 ∧
        e.w2 = s.dev.reg (CAN_CHc_TXWw_W ch 2).addr ∧ e.w3 = s.dev.reg (CAN_CHc_TXWw_W ch 3).addr ∧
        t.dev.get (CAN_CHc_TXCTL_COUNT ch) = (s.dev.canX ch).tx.length + 1 ∧
        t = { s with dev := { s.dev with regs := t.dev.regs, can := t.dev.can } }) ∧
    (∀ ch : Fin 8,
      (s.dev.canQuiet ch = false → sets (.canCommit ch) (CAN_CHc_CTL_CMT ch)) ∧
      (s.dev.canQuiet ch = true → s.dev.canZero ch = true → rejected (.canCommit ch) (CAN_CHc_CTL_CMT ch) (CAN_CHc_CTL_ZERO ch)) ∧
      (s.dev.canQuiet ch = true → s.dev.canZero ch = false → s.dev.canConflict ch = true →
        rejected (.canCommit ch) (CAN_CHc_CTL_CMT ch) (CAN_CHc_CTL_CONFLICT ch)) ∧
      (s.dev.canQuiet ch = true → s.dev.canZero ch = false → s.dev.canConflict ch = false →
        ∃ t, exec (.canCommit ch) s = .next t ∧ t.clk = s.clk ∧ t.dev.flag (CAN_CHc_CTL_CMT ch) = false ∧
          (∀ i < 3, t.dev.reg (0x400D0080 + 0x1000 * ch + 4 * i) = s.dev.reg (0x400D0000 + 0x1000 * ch + 4 * i)) ∧
          (s.dev.get (CAN_CHc_CFG_MODE ch) = s.dev.canMode ch → t = { s with dev := { s.dev with regs := t.dev.regs } }) ∧
          (s.dev.get (CAN_CHc_CFG_MODE ch) ≠ s.dev.canMode ch → t.dev.canState ch =
            if s.dev.get (CAN_CHc_CFG_MODE ch) = canOff then stOff else if s.dev.get (CAN_CHc_CFG_MODE ch) = canSleep then stSleep else stInteg))) ∧
    (∀ a : Fin 64, s.dev.trajT a = 0 →
      (s.dev.axZero a = true → rejected (.trjCommit a) (TRJ_AXaa_CTL_CMT a) (TRJ_AXaa_CTL_ZERO a)) ∧
      (s.dev.axZero a = false → s.dev.axConflict a (s.dev.axMode a = modeHold) = true →
        rejected (.trjCommit a) (TRJ_AXaa_CTL_CMT a) (TRJ_AXaa_CTL_CONFLICT a)) ∧
      (s.dev.axZero a = false → s.dev.axConflict a (s.dev.axMode a = modeHold) = false → s.dev.axOverload a = true →
        rejected (.trjCommit a) (TRJ_AXaa_CTL_CMT a) (TRJ_AXaa_CTL_OVERLOAD a)) ∧
      (s.dev.axZero a = false → s.dev.axConflict a (s.dev.axMode a = modeHold) = false → s.dev.axOverload a = false →
        ∃ t, exec (.trjCommit a) s = .next t ∧ t.dev.flag (TRJ_AXaa_CTL_CMT a) = false ∧
          t = { s with dev := { s.dev with regs := t.dev.regs, her := { s.dev.her with admitted := t.dev.her.admitted } } } ∧
          ∀ i < 16, t.dev.reg (trjBase a + 0x80 + 4 * i) = s.dev.reg (trjBase a + 4 * i)))

/-- What a gate's commit leaves in force, in waiting or rejected, and what a lane's commit packet does in time, late and stale. Derived from
R31, R68, R69, R71, R73, R98, R100, R101, R217. -/
def Obligations.GateCommitsAndCommitPackets : Prop :=
  ∀ s : State, s.dev.dst.serves = true →
    (∀ g : Fin 256,
      let ok := gateTargetOk (s.dev.get (GATE_GTnnn_CFG_KIND g)) (s.dev.get (GATE_GTnnn_CFG_TARGET g))
      let from_ := s.clk.ns + s.dev.margin
      let waits := s.dev.flag (GATE_GTnnn_CTL_ARMED g) = true ∧ s.dev.gateNext g < from_
      let cmp := s.dev.get64 (GATE_GTnnn_CMP_LO_CMP g) (GATE_GTnnn_CMP_HI_CMP g)
      let per := s.dev.get (GATE_GTnnn_PER_PER g)
      let applied (p : Dev → Prop) : Prop := ∃ t, exec (.gateCommit g) s = .next t ∧ t.clk = s.clk ∧ t.pending = s.pending ∧
        t.dev.flag (GATE_GTnnn_CTL_CMT g) = false ∧ t.dev.reg (GATE_GTnnn_CFG_ACT_EN g).addr = s.dev.reg (GATE_GTnnn_CFG_EN g).addr ∧
        t.dev.get (GATE_GTnnn_PER_ACT_PER g) = per ∧
        OnlyRegs (fun a => (GATE_GTnnn_CFG_ACT_EN g).addr ≤ a ∧ a ≤ (GATE_GTnnn_CTL_CMT g).addr) s.dev t.dev ∧ p t.dev
      (ok = false → ∃ t, exec (.gateCommit g) s = .next t ∧ t.clk = s.clk ∧ t.pending = s.pending ∧
        t.dev.flag (GATE_GTnnn_CTL_CMT g) = false ∧ t.dev.flag (GATE_GTnnn_CTL_CONFLICT g) = true ∧
        OnlyRegs (· = (GATE_GTnnn_CTL_CMT g).addr) s.dev t.dev) ∧
      (ok = true → waits → ∃ t, exec (.gateCommit g) s = .next t ∧ t.dev.flag (GATE_GTnnn_CTL_CMT g) = true ∧
        (t.dev.gateX g).after = some ((s.dev.reg (GATE_GTnnn_CFG_EN g).addr).toNat, per, cmp) ∧
        KeepsRegs (· = (GATE_GTnnn_CTL_CMT g).addr) s.dev t.dev ∧ t = { s with dev := { s.dev with regs := t.dev.regs, gates := t.dev.gates } }) ∧
      (ok = true → ¬ waits →
        (s.dev.flag (GATE_GTnnn_CFG_EN g) = false → applied fun d => d.flag (GATE_GTnnn_CTL_ARMED g) = false) ∧
        (s.dev.flag (GATE_GTnnn_CFG_EN g) = true → per = 0 → cmp < from_ → applied fun d =>
          d.flag (GATE_GTnnn_CTL_ARMED g) = false ∧ d.flag (GATE_GTnnn_CTL_MISSED g) = true) ∧
        (s.dev.flag (GATE_GTnnn_CFG_EN g) = true → per = 0 → from_ ≤ cmp → applied fun d =>
          d.flag (GATE_GTnnn_CTL_ARMED g) = true ∧ d.gateNext g = cmp) ∧
        (s.dev.flag (GATE_GTnnn_CFG_EN g) = true → per ≠ 0 → applied fun d => d.flag (GATE_GTnnn_CTL_ARMED g) = true ∧
          ∃ k, d.gateNext g = (cmp + k * (2 * per)) % 2 ^ 64 ∧ from_ ≤ cmp + k * (2 * per) ∧ (k = 0 ∨ cmp + (k - 1) * (2 * per) < from_) ∧
            d.get (GATE_GTnnn_CTL_SKIP g) = satU (GATE_GTnnn_CTL_SKIP g).width (s.dev.get (GATE_GTnnn_CTL_SKIP g) + k)))) ∧
    (∀ (l : Fin 24) (brand sk : W64),
      let latch := sk.toNat + reloadAfter (s.dev.lanePer l) - 8
      let x := s.dev.pwmX l
      (brandEpoch brand ≠ (s.dev.lane l).epoch →
        ∃ t, exec (.commitPacket l brand sk) s = .next t ∧ t.clk = s.clk ∧ OnlyRegs (· = (TRJ_AXaa_EPSTALE_CNT l).addr) s.dev t.dev ∧
          t.dev.get (TRJ_AXaa_EPSTALE_CNT l) = satU (TRJ_AXaa_EPSTALE_CNT l).width (s.dev.get (TRJ_AXaa_EPSTALE_CNT l) + 1)) ∧
      (brandEpoch brand = (s.dev.lane l).epoch → s.clk.ns ≤ latch →
        ∃ t, exec (.commitPacket l brand sk) s = .next t ∧ t.clk = s.clk ∧ t.dev.flag (PWM_Lnn_COMMIT_CMT l) = true ∧
          (latched x.commitAt (s.dev.gateNext (48 + l)) s.clk.ns = false →
            (t.dev.pwmX l) = { x with commitAt := some s.clk.ns, commitSk := some sk.toNat, commitEpoch := some (brandEpoch brand) }) ∧
          (latched x.commitAt (s.dev.gateNext (48 + l)) s.clk.ns = true →
            (t.dev.pwmX l) = { x with after := some (s.clk.ns, some sk.toNat, some (brandEpoch brand)) }) ∧
          t.dev.get (PWM_Lnn_SLACK_LAST l) = satU 15 (latch - s.clk.ns) ∧
          t.dev.get (PWM_Lnn_SLACK_MIN l) = min (s.dev.get (PWM_Lnn_SLACK_MIN l)) (latch - s.clk.ns)) ∧
      (brandEpoch brand = (s.dev.lane l).epoch → latch < s.clk.ns → s.dev.laneActive l = true → (s.dev.lane l).faulted = false →
        ∃ t, exec (.commitPacket l brand sk) s = .next t ∧ t.clk = s.clk ∧ t.dev.flag (PWM_Lnn_CSTAT_LATE l) = true ∧
          t.dev.flag (GATE_GTnnn_CTL_LATE (48 + l)) = true ∧ t.dev.flag (PWM_Lnn_CSTAT_CANCEL l) = true ∧
          t.dev.flag (PWM_Lnn_COMMIT_CMT l) = false ∧ (t.dev.pwmX l).commitAt = none ∧ (t.dev.lane l).faulted = true ∧
          (t.dev.lane l).chg = [{ at_ := s.clk.ns, target := .fault, work := none, code := 110 }]))

/-- Shosto register instructions: result, flags and frame, with X0 as destination included. Derived from R325, R338, R340. -/
def Obligations.ShRegisterResults : Prop :=
  ∀ (s : State) (e : Fin 30) (r : RunJob) (b : Bank), ShRuns s e r b → ∀ (d x y : BitVec 5) (i : BitVec 14) (k : W32),
    let p := b.xr x
    let q := b.xr y
    let logic (ins : Instr) (v : W32) : Prop := ShGives s e r ins fun b' => b.Keeps b' [d] 4 ∧ b'.Holds d v ∧ b'.z = decide (v = 0) ∧
      b'.n = v.msb ∧ b'.c = b.c ∧ b'.v = b.v ∧ b'.sat = b.sat
    let sum (ins : Instr) (v w : W32) (bytes : Nat) : Prop := ShGives s e r ins fun b' => b.Keeps b' [d] bytes ∧ b'.Holds d (v + w) ∧
      b'.z = decide (v + w = 0) ∧ b'.n = (v + w).msb ∧ b'.c = decide (2 ^ 32 ≤ v.toNat + w.toNat) ∧
      b'.v = decide ((v + w).toInt ≠ v.toInt + w.toInt) ∧ b'.sat = b.sat
    let shift (ins : Instr) (v : W32) : Prop := (i.toNat < 64 → logic ins v) ∧ (64 ≤ i.toNat → ShTraps s e r ins 1 0)
    sum (.shAdd e d x y) p q 4 ∧ sum (.shAddi e d x i) p (i.signExtend 32) 4 ∧ sum (.shAddi32 e d x k) p k 8 ∧
    (ShGives s e r (.shSub e d x y) fun b' => b.Keeps b' [d] 4 ∧ b'.Holds d (p - q) ∧ b'.z = decide (p = q) ∧ b'.n = (p - q).msb ∧
      b'.c = decide (q.toNat ≤ p.toNat) ∧ b'.v = decide ((p - q).toInt ≠ p.toInt - q.toInt) ∧ b'.sat = b.sat) ∧
    logic (.shAnd e d x y) (p &&& q) ∧ logic (.shOr e d x y) (p ||| q) ∧ logic (.shXor e d x y) (p ^^^ q) ∧
    logic (.shAndi e d x i) (p &&& i.zeroExtend 32) ∧ logic (.shOri e d x i) (p ||| i.zeroExtend 32) ∧
    logic (.shXori e d x i) (p ^^^ i.zeroExtend 32) ∧
    logic (.shShl e d x y) (BitVec.ofNat 32 (p.toNat * 2 ^ (q.toNat % 64))) ∧ logic (.shShr e d x y) (BitVec.ofNat 32 (p.toNat / 2 ^ (q.toNat % 64))) ∧
    logic (.shSra e d x y) (BitVec.ofInt 32 (p.toInt / 2 ^ (q.toNat % 64))) ∧
    shift (.shShli e d x i) (BitVec.ofNat 32 (p.toNat * 2 ^ i.toNat)) ∧ shift (.shShri e d x i) (BitVec.ofNat 32 (p.toNat / 2 ^ i.toNat)) ∧
    shift (.shSrai e d x i) (BitVec.ofInt 32 (p.toInt / 2 ^ i.toNat)) ∧
    logic (.shMin e d x y) (BitVec.ofInt 32 (min p.toInt q.toInt)) ∧ logic (.shMax e d x y) (BitVec.ofInt 32 (max p.toInt q.toInt)) ∧
    (∃ n < 32, logic (.shNorm e d x y) (BitVec.ofNat 32 n)) ∧
    ShGives s e r (.shLdi e d x k) fun b' => b.Keeps b' [d] 8 ∧ b'.Holds d k ∧ b.SameFlags b' ∧ b'.sat = b.sat

/-- The saturating operations clamp and set SAT; DIV and DIVU divide, a zero divisor included. Stated: R337. -/
def Obligations.ShSaturationAndDivision : Prop :=
  ∀ (s : State) (e : Fin 30) (r : RunJob) (b : Bank), ShRuns s e r b → ∀ d x y : BitVec 5,
    let p := b.xr x
    let q := b.xr y
    let gives (ins : Instr) (v : W32) (sat : Bool) : Prop := ShGives s e r ins fun b' => b.Keeps b' [d] 4 ∧ b'.Holds d v ∧
      b'.z = decide (v = 0) ∧ b'.n = v.msb ∧ b'.c = b.c ∧ b'.v = b.v ∧ b'.sat = sat
    let clamped (ins : Instr) (v : Int) : Prop := gives ins (BitVec.ofInt 32 (max (-2 ^ 31) (min (2 ^ 31 - 1) v)))
      (b.sat || decide (v < -2 ^ 31 ∨ 2 ^ 31 - 1 < v))
    clamped (.shAdds e d x y) (p.toInt + q.toInt) ∧ clamped (.shSubs e d x y) (p.toInt - q.toInt) ∧ clamped (.shAbss e d x y) |p.toInt| ∧
    clamped (.shNegs e d x y) (-p.toInt) ∧ clamped (.shShls e d x y) (p.toInt * 2 ^ (q.toNat % 64)) ∧
    (q ≠ 0 → clamped (.shDiv e d x y) (p.toInt.tdiv q.toInt)) ∧
    (q ≠ 0 → gives (.shDivu e d x y) (BitVec.ofNat 32 (p.toNat / q.toNat)) b.sat) ∧
    (q = 0 → gives (.shDiv e d x y) (if p.toInt = 0 then 0 else if p.toInt < 0 then 0x80000000 else 0x7FFFFFFF) true) ∧
    (q = 0 → p ≠ 0 → gives (.shDivu e d x y) 0xFFFFFFFF true)

/-- EXT, EXTU and EXTL shift right, round convergently, saturate, and set SAT when they saturate. Stated: R335. -/
def Obligations.ShExtracts : Prop :=
  ∀ (s : State) (e : Fin 30) (r : RunJob) (b : Bank), ShRuns s e r b → ∀ (ac : BitVec 1) (d : BitVec 5) (sh : BitVec 6),
    let v := (b.acc ac).toInt
    let f := v / 2 ^ sh.toNat
    let m := v % 2 ^ sh.toNat
    let q := if 0 < sh.toNat ∧ (2 ^ sh.toNat < 2 * m ∨ (2 ^ sh.toNat = 2 * m ∧ f % 2 = 1)) then f + 1 else f
    let out (lo hi : Int) (b' : Bank) : Prop := b.SameFlags b' ∧ b'.sat = (b.sat || decide (q < lo ∨ hi < q))
    (ShGives s e r (.shExt e ac d sh) fun b' => b.Keeps b' [d] 4 ∧ out (-2 ^ 31) (2 ^ 31 - 1) b' ∧
      b'.Holds d (BitVec.ofInt 32 (max (-2 ^ 31) (min (2 ^ 31 - 1) q)))) ∧
    (ShGives s e r (.shExtu e ac d sh) fun b' => b.Keeps b' [d] 4 ∧ out 0 (2 ^ 32 - 1) b' ∧
      b'.Holds d (BitVec.ofInt 32 (max 0 (min (2 ^ 32 - 1) q)))) ∧
    (d.toNat % 2 = 0 → ShGives s e r (.shExtl e ac d sh) fun b' => b.Keeps b' [d, d + 1] 4 ∧ out (-2 ^ 63) (2 ^ 63 - 1) b' ∧
      b'.Holds d (BitVec.ofInt 32 (max (-2 ^ 63) (min (2 ^ 63 - 1) q))) ∧
      b'.Holds (d + 1) (BitVec.ofInt 32 (max (-2 ^ 63) (min (2 ^ 63 - 1) q) / 2 ^ 32))) ∧
    (d.toNat % 2 = 1 → ShTraps s e r (.shExtl e ac d sh) 1 0)

/-- MPY, MAC, MSU and the accumulator moves: exact products, sums modulo 2^72 and the wrap flags. Derived from R334, R340. -/
def Obligations.ShAccumulators : Prop :=
  ∀ (s : State) (e : Fin 30) (r : RunJob) (b : Bank), ShRuns s e r b → ∀ (ac : BitVec 1) (d x y : BitVec 5) (sh : BitVec 6) (md : BitVec 2),
    let side (uns : Bool) (w : W32) : Int := if uns then (w.toNat : Int) else w.toInt
    let prod := side (md.getLsbD 1) (b.xr x) * side (md.getLsbD 0) (b.xr y)
    let a := (b.acc ac).toInt
    let exact_ (ins : Instr) (v : Int) : Prop := ShGives s e r ins fun b' => b.KeepsAcc b' ac ∧ b'.acc ac = BitVec.ofInt 72 v ∧
      b'.wrapped ac = (b.wrapped ac || decide (v < -2 ^ 71 ∨ 2 ^ 71 ≤ v))
    let plain (ins : Instr) (v : W72) : Prop := ShGives s e r ins fun b' => b.KeepsAcc b' ac ∧ b'.acc ac = v ∧ b'.wrapped ac = b.wrapped ac
    exact_ (.shMpy e ac x y md) prod ∧ exact_ (.shMac e ac x y md) (a + prod) ∧ exact_ (.shMsu e ac x y md) (a - prod) ∧
    exact_ (.shAdda e ac d sh) (a + (b.acc (ac + 1)).toInt) ∧ plain (.shClr e ac d sh) 0 ∧ plain (.shMova e ac d sh) (b.acc (ac + 1)) ∧
    (d.toNat % 2 = 0 → plain (.shLdal e ac d sh) ((b.xr (d + 1) ++ b.xr d : BitVec 64).signExtend 72)) ∧
    (d.toNat % 2 = 1 → ShTraps s e r (.shLdal e ac d sh) 1 0) ∧
    plain (.shLdag e ac d sh) ((b.xr d).setWidth 8 ++ (b.acc ac).setWidth 64 : BitVec 72) ∧
    ShGives s e r (.shMvg e ac d sh) fun b' => b.Keeps b' [d] 4 ∧ b.SameFlags b' ∧ b'.sat = b.sat ∧
      b'.Holds d (((b.acc ac).extractLsb' 64 8).signExtend 32)

/-- Loads and stores: address and pointer of each mode, the value moved, what memory keeps. Derived from R327, R331, R332, R333, R336, R340.
-/
def Obligations.ShLoadsAndStores : Prop :=
  (∀ (b : Bank) (p x : BitVec 5) (o : BitVec 13) (c : BitVec 2) (k : BitVec 11) (z : Nat),
    let at_ := (b.xr p).toNat
    let base := (b.cb c).toNat % 65536
    let len := (b.cb c).toNat / 65536
    (shAddr b (.base o) p z).2 = none ∧ (((shAddr b (.base o) p z).1 : Nat) : Int) = (at_ + o.toInt * z) % 2 ^ 16 ∧
    (shAddr b (.post o) p z).1 = at_ % 2 ^ 16 ∧
    (∃ q : Nat, (shAddr b (.post o) p z).2 = some q ∧ (q : Int) = (at_ + o.toInt * z) % 2 ^ 16) ∧
    (shAddr b (.circ c k) p z).1 = at_ % 2 ^ 16 ∧
    (∃ q : Nat, (shAddr b (.circ c k) p z).2 = some q ∧ (q : Int) =
      (if len = 0 then (at_ : Int) + k.toInt * z else base + (((at_ % 65536 : Nat) : Int) - base + k.toInt * z) % len) % 2 ^ 16) ∧
    shAddr b (.index x) p z = ((at_ + (b.xr x).toNat) % 2 ^ 16, none)) ∧
  ∀ (s : State) (e : Fin 30) (r : RunJob) (b : Bank), ShRuns s e r b → ∀ (m : MemMode) (d p : BitVec 5),
    let a4 := (shAddr b m p 4).1
    let a8 := (shAddr b m p 8).1
    let p4 := (shAddr b m p 4).2
    let p8 := (shAddr b m p 8).2
    let moved (ptr : Option Nat) (rs : List (BitVec 5)) (b' : Bank) : Prop := ∀ q, ptr = some q → p ∉ rs → b'.Holds p (BitVec.ofNat 32 q)
    let regs (ptr : Option Nat) (rs : List (BitVec 5)) : List (BitVec 5) := if ptr.isSome then p :: rs else rs
    let same (b' : Bank) : Prop := b.SameFlags b' ∧ b'.sat = b.sat
    (a4 % 4 = 0 → canRead r.isExt a4 = true → s.dev.dataClean e a4 →
      ShGives s e r (.shLdW e m d p) fun b' => b.Keeps b' (regs p4 [d]) 4 ∧ same b' ∧ moved p4 [d] b' ∧
        b'.Holds d (BitVec.ofNat 32 (s.dev.dataVal e a4 4))) ∧
    (a8 % 8 = 0 → canRead r.isExt a8 = true → s.dev.dataClean e a8 →
      (d.toNat % 2 = 0 → ShGives s e r (.shLdL e m d p) fun b' => b.Keeps b' (regs p8 [d, d + 1]) 4 ∧ same b' ∧ moved p8 [d, d + 1] b' ∧
        b'.Holds d (BitVec.ofNat 32 (s.dev.dataVal e a8 8)) ∧ b'.Holds (d + 1) (BitVec.ofNat 32 (s.dev.dataVal e a8 8 / 2 ^ 32))) ∧
      (d.toNat < 2 → ShGives s e r (.shLda e m d p) fun b' => moved p8 [] b' ∧ (∀ k, k ∉ regs p8 [] → b'.xr k = b.xr k) ∧
        b'.acc (d.setWidth 1) = (BitVec.ofNat 64 (s.dev.dataVal e a8 8)).signExtend 72 ∧ b'.acc (d.setWidth 1 + 1) = b.acc (d.setWidth 1 + 1) ∧
        b' = { b with x := b'.x, a0 := b'.a0, a1 := b'.a1, pc := b.pc + 4 })) ∧
    (a4 % 4 = 0 → canWrite r.isExt a4 = true → s.dev.dataClean e a4 →
      ShStores s e r (.shStW e m d p) a4 4 (b.xr d).toNat fun b' => b.Keeps b' (regs p4 []) 4 ∧ same b' ∧ moved p4 [] b') ∧
    (a8 % 8 = 0 → canWrite r.isExt a8 = true →
      (d.toNat % 2 = 0 → ShStores s e r (.shStL e m d p) a8 8 ((b.xr d).toNat + (b.xr (d + 1)).toNat * 2 ^ 32) fun b' =>
        b.Keeps b' (regs p8 []) 4 ∧ same b' ∧ moved p8 [] b') ∧
      (d.toNat < 2 →
        let v := (b.acc (d.setWidth 1)).toInt
        ShStores s e r (.shSta e m d p) a8 8 (BitVec.ofInt 64 (max (-2 ^ 63) (min (2 ^ 63 - 1) v))).toNat fun b' =>
          b.Keeps b' (regs p8 []) 4 ∧ b.SameFlags b' ∧ b'.sat = (b.sat || decide (v < -2 ^ 63 ∨ 2 ^ 63 - 1 < v)) ∧ moved p8 [] b')) ∧
    (d.toNat % 2 = 1 → ShTraps s e r (.shLdL e m d p) 1 0 ∧ ShTraps s e r (.shStL e m d p) 1 0) ∧
    (2 ≤ d.toNat → ShTraps s e r (.shLda e m d p) 1 0 ∧ ShTraps s e r (.shSta e m d p) 1 0)

/-- TAP: one FIR tap with its delay line moved one word. Derived from R333, R334, R343. -/
def Obligations.ShTapRow : Prop :=
  ∀ (s : State) (e : Fin 30) (r : RunJob) (b : Bank), ShRuns s e r b → ∀ (ac : BitVec 1) (xs xh : BitVec 5) (cb : BitVec 2),
    let p := (b.xr xs).toNat % 65536
    let h := (b.xr xh).toNat % 65536
    let w := circ p 4 (b.cb cb)
    p % 4 = 0 → h % 4 = 0 → w % 4 = 0 → canRead r.isExt p = true → canRead r.isExt h = true → canWrite r.isExt w = true →
    s.dev.dataClean e p → s.dev.dataClean e h → s.dev.dataClean e w →
    let v := (b.acc ac).toInt + (BitVec.ofNat 32 (s.dev.dataVal e p 4)).toInt * (BitVec.ofNat 32 (s.dev.dataVal e h 4)).toInt
    ShStores s e r (.shTap e ac xs xh cb) w 4 (s.dev.dataVal e p 4) fun b' =>
      b'.acc ac = BitVec.ofInt 72 v ∧ b'.acc (ac + 1) = b.acc (ac + 1) ∧ b'.wrapped ac = (b.wrapped ac || decide (v < -2 ^ 71 ∨ 2 ^ 71 ≤ v)) ∧
      b'.wrapped (ac + 1) = b.wrapped (ac + 1) ∧ b'.Holds xh (BitVec.ofInt 32 (((h : Int) - 4) % 2 ^ 16)) ∧
      (xs ≠ xh → b'.Holds xs (BitVec.ofNat 32 (circ p (-4) (b.cb cb)))) ∧ (∀ k, k ≠ xs → k ≠ xh → b'.xr k = b.xr k) ∧
      b' = { b with x := b'.x, a0 := b'.a0, a1 := b'.a1, av0 := b'.av0, av1 := b'.av1, pc := b.pc + 4 }

/-- Branches are taken under their conditions; CALL pushes and RET pops, with RSTACK on overflow and underflow. Stated: R341. -/
def Obligations.ShBranches : Prop :=
  (∀ (e : Fin 30) (w : Nat) (imm : W32), w / 2 ^ 24 % 256 = 0x6F → w % 2 ^ 24 ≠ 0 → decodeSh e w imm = none) ∧
  ∀ (s : State) (e : Fin 30) (r : RunJob) (b : Bank), ShRuns s e r b →
    let low : Int := if r.isExt then 0xC000 else 0
    let goes (ins : Instr) (t : Int) (b1 : Bank) : Prop :=
      (low ≤ t → t < 0x10000 → ShFetches s e r ins → exec ins s = .next (s.withBank e r { b1 with pc := t.toNat })) ∧
      (t < low ∨ 0x10000 ≤ t → ShTraps s e r ins 3 0)
    (∀ (cond : BitVec 4) (off : BitVec 24),
      let taken : Bool := match cond.toNat with
        | 0 => true
        | 1 => b.z
        | 2 => !b.z
        | 3 => decide (b.n ≠ b.v)
        | 4 => decide (b.n = b.v)
        | 5 => !b.z && decide (b.n = b.v)
        | 6 => b.z || decide (b.n ≠ b.v)
        | 7 => !b.c
        | 8 => b.c
        | 9 => b.v
        | 10 => !b.v
        | _ => b.sat
      (12 ≤ cond.toNat → ShTraps s e r (.shBcc e cond off) 1 0) ∧
      (cond.toNat < 12 → taken = true → goes (.shBcc e cond off) (b.pc + 4 * off.toInt) b) ∧
      (cond.toNat < 12 → taken = false → ShFetches s e r (.shBcc e cond off) → exec (.shBcc e cond off) s = .next (s.withBank e r { b with pc := b.pc + 4 })) ∧
      (b.stack.length < 8 → goes (.shCall e off) (b.pc + 4 * off.toInt) { b with stack := BitVec.ofNat 16 (b.pc + 4) :: b.stack }) ∧
      (8 ≤ b.stack.length → ShTraps s e r (.shCall e off) 4 0)) ∧
    (∀ (a : BitVec 16) (rest : List (BitVec 16)), b.stack = a :: rest → goes (.shRet e) a.toNat { b with stack := rest }) ∧
    (b.stack = [] → ShTraps s e r (.shRet e) 4 0)

/-- REP, REPX and LOOP: counts, skips, what a repeat may repeat, and how a loop's end and a taken branch act. Derived from R342, R345, R357.
-/
def Obligations.ShRepeatsAndLoops : Prop :=
  ∀ (s : State) (e : Fin 30) (r : RunJob) (b : Bank),
    (ShRuns s e r b → ∀ (n len : BitVec 12) (x : BitVec 5),
      let rep (ins : Instr) (k : Nat) : Prop := ShFetches s e r ins →
        exec ins s = .next (s.withBank e r (if k = 0 then { b with pc := b.pc + 8 } else { b with pc := b.pc + 4, rep := some k }))
      rep (.shRep e n) n.toNat ∧ rep (.shRepx e x) (b.xr x).toNat ∧
      (len.toNat = 0 → ShTraps s e r (.shLoop e n len) 1 0) ∧
      (len.toNat ≠ 0 → ShFetches s e r (.shLoop e n len) → exec (.shLoop e n len) s = .next (s.withBank e r
        (if n.toNat = 0 then { b with pc := b.pc + 4 + 4 * len.toNat }
         else { b with pc := b.pc + 4, loop := some (b.pc + 4, b.pc + 4 + 4 * len.toNat, n.toNat) })))) ∧
    (ShOn s e r b → ∀ k, b.rep = some k →
      (∀ i, shEngine i = some e → shRepeatable i = false → ShTraps s e r i 1 0) ∧
      (1 < k → ∀ d x y : BitVec 5, ShGives s e r (.shAdd e d x y) fun b' => b'.pc = b.pc ∧ b'.rep = some (k - 1) ∧ b'.loop = b.loop ∧
        b'.Holds d (b.xr x + b.xr y)) ∧
      (k ≤ 1 → b.loop = none → ∀ d x y : BitVec 5, ShGives s e r (.shAdd e d x y) fun b' => b'.pc = b.pc + 4 ∧ b'.rep = none ∧
        b'.Holds d (b.xr x + b.xr y))) ∧
    (ShOn s e r b → b.rep = none → ∀ st en k, b.loop = some (st, en, k) →
      (∀ n len : BitVec 12, ShTraps s e r (.shLoop e n len) 1 0) ∧
      (b.pc + 4 = en → 1 < k → ShFetches s e r (.shNop e) → exec (.shNop e) s = .next (s.withBank e r { b with pc := st, loop := some (st, en, k - 1) })) ∧
      (b.pc + 4 = en → k ≤ 1 → ShFetches s e r (.shNop e) → exec (.shNop e) s = .next (s.withBank e r { b with pc := en, loop := none })) ∧
      (b.pc + 4 ≠ en → ShFetches s e r (.shNop e) → exec (.shNop e) s = .next (s.withBank e r { b with pc := b.pc + 4 })) ∧
      (b.pc + 4 ≠ en → ∀ (d : BitVec 5) (n : BitVec 4), (ShGives s e r (.shMfs e d 5 n) fun b' => b'.Holds d (BitVec.ofNat 32 k)) ∧
        ShGives s e r (.shMfs e d 0 n) fun b' => d ≠ 0 → (b'.xr d).getLsbD 8 = true) ∧
      (∀ off : BitVec 24, (if r.isExt then 0xC000 else 0) ≤ (b.pc : Int) + 4 * off.toInt → (b.pc : Int) + 4 * off.toInt < 0x10000 →
        ShFetches s e r (.shBcc e 0 off) → exec (.shBcc e 0 off) s = .next (s.withBank e r { b with pc := ((b.pc : Int) + 4 * off.toInt).toNat, loop := none })))

/-- NOP, BRK, MFS, MTS, TIMR, SEND, IOLD, IOST and END. Derived from R32, R326, R340, R345, R346, R348, R349, R353. -/
def Obligations.ShSystemRows : Prop :=
  ∀ (s : State) (e : Fin 30) (r : RunJob) (b : Bank), ShRuns s e r b → ∀ (d x : BitVec 5) (n : BitVec 4),
    let next : Bank := { b with pc := b.pc + 4 }
    let a := (b.xr d).toNat % 65536
    let word (k : Nat) : W64 := BitVec.ofNat 64 (s.dev.dataVal e ((a + 8 * k) % 65536) 8)
    let sends : Prop := a % 8 = 0 ∧ ∀ k < n.toNat, canRead r.isExt ((a + 8 * k) % 65536) = true ∧ s.dev.dataClean e ((a + 8 * k) % 65536)
    let at_ (ins : Instr) : Prop := ShFetches s e r ins
    let sent (brand : W64) (p : Dev → Prop) : Prop := at_ (.shSend e d x n) → ∃ t, exec (.shSend e d x n) s = .next t ∧
      t.dev.fab.flight = s.dev.fab.flight ++ [{ brand := brand, words := (List.range (n.toNat - 1)).map fun k => word (k + 1) }] ∧
      t = { (s.withBank e r next) with dev := { (s.withBank e r next).dev with fab := t.dev.fab } } ∧ p t.dev
    (at_ (.shNop e) → exec (.shNop e) s = .next (s.withBank e r next)) ∧
    (at_ (.shBrk e d x n) → (s.dev.engine e).debug = false → exec (.shBrk e d x n) s = .next (s.withBank e r next)) ∧
    (at_ (.shBrk e d x n) → (s.dev.engine e).debug = true → exec (.shBrk e d x n) s =
      .next { s with dev := s.dev.setEngine e (({ s.dev.engine e with halted := true } : Engine).setBank r.shadow next) }) ∧
    (x.toNat < 8 → ShGives s e r (.shMfs e d x n) fun b' => b.Keeps b' [d] 4 ∧ b.SameFlags b' ∧ b'.sat = b.sat ∧
      (x = 0 → d ≠ 0 → ∀ k < 32, (b'.xr d).getLsbD k = ([b.z, b.n, b.c, b.v, b.sat, b.av0, b.av1, r.shadow][k]?).getD false) ∧
      (x.toNat = 1 → b'.Holds d b.cb0) ∧ (x.toNat = 2 → b'.Holds d b.cb1) ∧ (x.toNat = 3 → b'.Holds d b.cb2) ∧
      (x.toNat = 4 → b'.Holds d b.cb3) ∧ (x.toNat = 5 → b'.Holds d 0) ∧ (x.toNat = 6 → b'.Holds d (BitVec.ofNat 32 b.stack.length)) ∧
      (x.toNat = 7 → b'.Holds d (BitVec.ofNat 32 e))) ∧
    (x.toNat < 8 → at_ (.shMts e d x n) → exec (.shMts e d x n) s = .next (s.withBank e r
      (let w := b.xr d
       let m := w &&& 0xFFFCFFFC
       match x.toNat with
       | 0 => { next with z := w.getLsbD 0, n := w.getLsbD 1, c := w.getLsbD 2, v := w.getLsbD 3, sat := w.getLsbD 4, av0 := w.getLsbD 5,
                          av1 := w.getLsbD 6 }
       | 1 => { next with cb0 := m }
       | 2 => { next with cb1 := m }
       | 3 => { next with cb2 := m }
       | 4 => { next with cb3 := m }
       | _ => next))) ∧
    (8 ≤ x.toNat → ShTraps s e r (.shMfs e d x n) 1 0 ∧ ShTraps s e r (.shMts e d x n) 1 0) ∧
    (d.toNat % 2 = 0 → ShGives s e r (.shTimr e d x n) fun b' => b.Keeps b' [d, d + 1] 4 ∧ b.SameFlags b' ∧ b'.sat = b.sat ∧
      b'.Holds d (BitVec.ofNat 32 s.clk.ns) ∧ b'.Holds (d + 1) (BitVec.ofNat 32 (s.clk.ns / 2 ^ 32))) ∧
    (d.toNat % 2 = 1 → ShTraps s e r (.shTimr e d x n) 1 0) ∧
    (r.isExt = true → ShTraps s e r (.shIold e d x n) 1 0 ∧ ShTraps s e r (.shIost e d x n) 1 0) ∧
    (r.isExt = false → (b.xr x).toNat % 4 ≠ 0 → ShTraps s e r (.shIold e d x n) 2 (b.xr x).toNat ∧ ShTraps s e r (.shIost e d x n) 2 (b.xr x).toNat) ∧
    (r.isExt = false → (b.xr x).toNat % 4 = 0 →
      let rd := s.dev.hostRead s.clk (b.xr x).toNat
      (at_ (.shIold e d x n) → exec (.shIold e d x n) s = .next ({ s with dev := rd.2 }.withBank e r { b.xw d rd.1 with pc := b.pc + 4 })) ∧
      (at_ (.shIost e d x n) → exec (.shIost e d x n) s = .next ({ s with
        dev := if isBlock (b.xr x).toNat then s.dev.regWrite s.clk (b.xr x).toNat (b.xr d) else s.dev }.withBank e r next))) ∧
    (n.toNat = 0 ∨ 8 < n.toNat → ShTraps s e r (.shSend e d x n) 1 0) ∧
    (1 ≤ n.toNat → n.toNat ≤ 8 → sends →
      (r.isExt = false → sent (word 0) fun d' => d'.fab = { s.dev.fab with flight := d'.fab.flight }) ∧
      (r.isExt = true →
        let ok := brandAddr (word 0) = 0 ∧ brandKind (word 0) = 0xD0 ∧ 0x40 ≤ brandUnit (word 0) ∧ brandUnit (word 0) ≤ 0x4F ∧ n.toNat = 4
        (¬ ok → ShTraps s e r (.shSend e d x n) 5 a) ∧
        (ok → ∃ seq, sent (mkBrand 0 (brandUnit (word 0)) 0xD0 (s.dev.lane e).epoch seq (brandOffs (word 0))) fun _ => True))) ∧
    (at_ (.shEnd e) → s.dev.jobBudget r.slot < r.execNs s.clk.osc → exec (.shEnd e) s = exec (.jobOverrun ⟨e.val, by omega⟩) s) ∧
    (at_ (.shEnd e) → r.execNs s.clk.osc ≤ s.dev.jobBudget r.slot → s.dev.badInbox e r = none → s.clk.ns ≤ s.dev.jobDeadline r.slot →
      exec (.shEnd e) s = .next { s with dev := ((s.dev.jobWork s.clk r).jobComplete s.clk e).pktAgain s.clk r.slot }) ∧
    (at_ (.shEnd e) → r.execNs s.clk.osc ≤ s.dev.jobBudget r.slot → r.isExt = true → s.dev.chain.again.get (fun _ => 0) r.slot = 0 →
      ∃ t, exec (.shEnd e) s = .next t ∧ t.clk = s.clk ∧ t.dev.jobState r.slot = jobFree ∧
        (t.dev.engX e).run.map (·.slot) = (s.dev.engX e).preempted.map (·.slot) ∧
        t.dev.get (HERDER_ENGe_DONE_DONE e) = (s.dev.get (HERDER_ENGe_DONE_DONE e) + 1) % 2 ^ (HERDER_ENGe_DONE_DONE e).width)

/-- Where loads and stores trap, PCEND, and what the exception record holds. Derived from R328, R331, R345, R355. -/
def Obligations.ShExceptionsTaken : Prop :=
  (∀ (s : State) (e : Fin 30) (r : RunJob) (b : Bank), ShRuns s e r b → ∀ (m : MemMode) (d p : BitVec 5),
    let a4 := (shAddr b m p 4).1
    let a8 := (shAddr b m p 8).1
    let traps4 (c : Nat) (i : Instr) : Prop := ShTraps s e r i c a4
    let traps8 (c : Nat) (i : Instr) : Prop := shLegal i = true → ShTraps s e r i c a8
    (a4 % 4 ≠ 0 → traps4 2 (.shLdW e m d p) ∧ traps4 2 (.shStW e m d p)) ∧
    (a8 % 8 ≠ 0 → traps8 2 (.shLdL e m d p) ∧ traps8 2 (.shLda e m d p) ∧ traps8 2 (.shStL e m d p) ∧ traps8 2 (.shSta e m d p)) ∧
    (a4 % 4 = 0 → r.isExt = true → 0x0500 ≤ a4 → a4 < 0xE000 → traps4 3 (.shLdW e m d p)) ∧
    (a8 % 8 = 0 → r.isExt = true → 0x0500 ≤ a8 → a8 < 0xE000 → traps8 3 (.shLdL e m d p) ∧ traps8 3 (.shLda e m d p)) ∧
    (a4 % 4 = 0 → a4 < (if r.isExt then 0xE000 else 0x0440) → traps4 3 (.shStW e m d p)) ∧
    (a8 % 8 = 0 → a8 < (if r.isExt then 0xE000 else 0x0440) → traps8 3 (.shStL e m d p) ∧ traps8 3 (.shSta e m d p)) ∧
    (a4 % 4 = 0 → canRead r.isExt a4 = true → (s.dev.rdWord (dataAddr e a4)).bad = true → traps4 6 (.shLdW e m d p)) ∧
    (a8 % 8 = 0 → canRead r.isExt a8 = true → (s.dev.rdWord (dataAddr e a8)).bad = true →
      traps8 6 (.shLdL e m d p) ∧ traps8 6 (.shLda e m d p))) ∧
  (∀ (s : State) (e : Fin 30) (r : RunJob) (i : Instr), shEngine i = some e → s.dev.dst.serves = true → (s.dev.engX e).run = some r →
    r.start ≤ s.clk.osc → (s.dev.engine e).halted = false →
    let pc := ((s.dev.engine e).bank r.shadow).pc
    let word := s.dev.progWord e pc
    (0x10000 ≤ pc → exec i s = .next { s with dev := s.dev.shExc s.clk e r pc 7 0 word }) ∧
    (pc < 0x10000 → ∀ a, s.dev.badProg e pc i = some a → exec i s = .next { s with
      dev := (s.dev.shAbort s.clk e r pc 6 a word).eccRegion s.clk (progAddr e a / 8 * 8) (s.dev.rdWord (progAddr e a)).syn }) ∧
    (pc < 0x10000 → s.dev.eccMask (progAddr e pc) = 0 → (shLong i = true → s.dev.eccMask (progAddr e (pc + 4)) = 0) →
      (s.dev.fetched e pc i = none → exec i s = .next { s with dev := s.dev.shExc s.clk e r pc 1 0 word }) ∧
      (s.dev.fetched e pc i = some false → exec i s = .next s))) ∧
  ∀ (d : Dev) (e : Fin 30) (r : RunJob) (pc cause addr word : Nat), d.flt.injMem = none → d.eccMask (dataAddr e 0x408) = 0 → cause < 8 → r.slot < 1024 →
    let d' := d.excRecord e r pc cause addr word
    d'.dataVal e 0x400 4 = cause + (if r.shadow then 8 else 0) + r.slot * 16 + pc % 65536 * 65536 ∧
      d'.dataVal e 0x404 4 % 65536 = addr % 65536 ∧ d'.dataVal e 0x408 4 = min (2 ^ 32 - 1) (d.dataVal e 0x408 4 + 1) ∧
      KeepsMem (fun h => dataAddr e 0x400 ≤ h ∧ h < dataAddr e 0x40C) d d'

/-- Every legal Shosto instruction is the one its word decodes to. Derived from R339, R340, R341, R342, R348. -/
def Obligations.ShRoundTrip : Prop :=
  ∀ (i : Instr) (e : Fin 30) (k : W32), shEngine i = some e → shLegal i = true →
    ∃ w imm, encodeSh i = some (w, imm) ∧ w < 2 ^ 32 ∧ decodeSh e w (imm.getD k) = some i

/-- Every Shosto instruction keeps the form of its job's bank, or takes an exception. Derived from R325, R326, R341, R342, R345. -/
def Obligations.ShKeepsBankForm : Prop :=
  ∀ (s : State) (e : Fin 30) (r : RunJob) (b : Bank) (i : Instr), shEngine i = some e → i ≠ .shEnd e → ShOn s e r b → b.form = true →
    ShFetches s e r i → (∃ cause addr, ShTraps s e r i cause addr) ∨
      ∃ t, exec i s = .next t ∧ ((t.dev.engine e).bank r.shadow).form = true ∧ t.clk = s.clk ∧ t.pending = s.pending

/-- Words written out from the encoding tables decode to their instructions. Derived from R339, R340. -/
def Obligations.ShWords : Prop :=
  ∀ (e : Fin 30) (k : W32),
    decodeSh e 0b0000_000010_00011_00001_00010_0000000 k = some (.shSub e 3 1 2) ∧
    decodeSh e 0b0001_0000_00101_00110_11111111111111 k = some (.shAddi e 5 6 0x3FFF) ∧
    decodeSh e 0b0010_0001_1_00100_00101_11_00000000000 k = some (.shMac e 1 4 5 3) ∧
    decodeSh e 0b0011_0_00110_00111_01_000000000000000 k = some (.shTap e 0 6 7 1) ∧
    decodeSh e 0b0100_0001_0_01000_011111_000000000000 k = some (.shExt e 0 8 31) ∧
    decodeSh e 0b0101_000_00_01010_01001_0000000000010 k = some (.shLdW e (.base 2) 10 9) ∧
    decodeSh e 0b0101_010_10_01010_00110_11_00000000001 k = some (.shStW e (.circ 3 1) 10 6) ∧
    decodeSh e 0b0110_0001_111111111111111111111110 k = some (.shBcc e 1 0xFFFFFE) ∧
    decodeSh e 0b0111_0010_000000000100_000000000000 k = some (.shRep e 4) ∧
    decodeSh e 0b1000_0011_01100_00000_0100_0000000000 k = some (.shSend e 12 0 4) ∧
    decodeSh e 0b1111_0000_00110_00000_00000000000000 0xE10C = some (.shLdi e 6 0 0xE10C) ∧
    decodeSh e 0b0000_000010_00011_00001_00010_0000001 k = none ∧ decodeSh e 0x90000000 k = none ∧ decodeSh e 0xC0000000 k = none ∧
    decodeSh e 0b0001_0111_00101_00110_11111111111111 k = none

/-- A gate fires when it is armed and its compare is reached, then acts by kind and target. Derived from R65, R66, R67, R70, R73, R83, R215,
R405, R508, R531. -/
def Obligations.GateFirings : Prop :=
  ∀ (s : State) (g : Fin 256), s.dev.dst.serves = true →
    let due (k : Nat) : Prop := s.dev.gateDue s.clk g k = true
    let fire := s.dev.gateFire s.clk g
    let now := s.dev.gateNext g
    let gives (i : Instr) (d : Dev) : Prop := exec i s = .next { s with dev := d }
    let per := s.dev.get (GATE_GTnnn_PER_ACT_PER g)
    let target := s.dev.get (GATE_GTnnn_CFG_ACT_TARGET g)
    let sub := s.dev.get (GATE_GTnnn_CFG_ACT_SUB g)
    let idle (k : Nat) (i : Instr) : Prop := s.dev.gateDue s.clk g k = false → exec i s = .next s
    let acts (own : Nat) : Dev := if own = g then fire else fire.setGateX own { fire.gateX own with last := now }
    let late : Dev := ((fire.setf (GATE_GTnnn_CTL_LATE g)).bump GATE_LATE_CNT_CNT).record s.clk 10 (fire.get (GATE_GTnnn_CFG_ACT_TARGET g)) g
    (idle 0 (.gateMark g) ∧ idle 1 (.reload g) ∧ idle 2 (.gateSample g) ∧ idle 3 (.gateLatch g) ∧ idle 4 (.gateField g) ∧
      idle 5 (.gateFrame g) ∧ idle 6 (.gateCapture g)) ∧
    ((fire.gateX g).fired = s.clk.ns ∧ (fire.gateX g).last = now ∧ (fire.gateX g).after = none ∧
      ((s.dev.gateX g).after = none →
        (per = 0 → fire.flag (GATE_GTnnn_CTL_ARMED g) = false) ∧
        (per ≠ 0 → fire.gateNext g = (now + 2 * per) % 2 ^ 64 ∧ fire.flag (GATE_GTnnn_CTL_ARMED g) = s.dev.flag (GATE_GTnnn_CTL_ARMED g)) ∧
        KeepsRegs (fun a => a = (GATE_GTnnn_CTL_ARMED g).addr ∨ a = (GATE_GTnnn_NEXT_LO_NEXT g).addr ∨ a = (GATE_GTnnn_NEXT_HI_NEXT g).addr)
          s.dev fire) ∧
      (∀ cfg p cmp, (s.dev.gateX g).after = some (cfg, p, cmp) → fire.reg (GATE_GTnnn_CFG_ACT_EN g).addr = BitVec.ofNat 32 cfg ∧
        fire.flag (GATE_GTnnn_CTL_CMT g) = false) ∧
      fire = { s.dev with regs := fire.regs, gates := fire.gates }) ∧
    (due 0 → gives (.gateMark g) fire) ∧
    (due 2 →
      (target < 24 → gives (.gateSample g) ((acts target).laneSample s.clk target now)) ∧
      (∀ k < 4, target = 0x68 + k → gives (.gateSample g) ((acts (84 + k)).linkGate s.clk k now)) ∧
      (target = 0xFE → 0x10 ≤ sub → sub < 0x20 → gives (.gateSample g) (fire.seqStart s.clk (sub % 16 / 4) (sub % 4) now)) ∧
      (24 ≤ target → (target < 0x68 ∨ 0x6C ≤ target) → (target ≠ 0xFE ∨ sub < 0x10 ∨ 0x20 ≤ sub) → gives (.gateSample g) fire)) ∧
    (due 1 →
      (target < 24 → gives (.reload g) ((acts (48 + target)).reloadLane s.clk target now)) ∧
      (∀ k < 8, target = 24 + k → gives (.reload g) ((acts (72 + k)).carrierStart s.clk k now)) ∧
      (∀ k < 4, target = 0x68 + k → gives (.reload g) ((acts (80 + k)).brakeReload k now)) ∧
      (32 ≤ target → (target < 0x68 ∨ 0x6C ≤ target) → gives (.reload g) fire)) ∧
    (due 3 → sarMode ((fire.portLatch s.clk target now (g.val = 24 + target)).fbMode target) = false →
      gives (.gateLatch g) (fire.portLatch s.clk target now (g.val = 24 + target))) ∧
    (due 4 → ∀ t, (fire.gateX (236 + sub)).dataAt = some t → now < t + fire.margin → gives (.gateField g) late) ∧
    (due 4 → (fire.gateX (236 + sub)).dataAt = none → (∀ cc < 24, fire.get (FIO_CHcc_CFG_ACT_GATE cc) ≠ sub) → s.dev.fio.sets = [] →
      ∃ t, exec (.gateField g) s = .next t ∧ t.dev.regs = fire.regs ∧ t.dev.fio = s.dev.fio) ∧
    (due 5 → target ≠ 0xFE ∨ (0x10 < sub ∧ sub < 0x20) ∨ 0x21 < sub → gives (.gateFrame g) fire) ∧
    (due 5 → target = 0xFE → sub < 16 → gives (.gateFrame g) (fire.launchDesc s.clk g sub now)) ∧
    (due 5 → target = 0xFE → sub = 16 → gives (.gateFrame g) (fire.launchService s.clk g now)) ∧
    (due 5 → target = 0xFE → ∀ p < 2, sub = 0x20 + p → gives (.gateFrame g) (fire.launchSync s.clk p now)) ∧
    (due 6 →
      ((fire.gateX g).dataAt = none → gives (.gateCapture g) fire) ∧
      (∀ t, (fire.gateX g).dataAt = some t → now < t + fire.margin → gives (.gateCapture g) late) ∧
      (∀ t (r : Fin 8), (fire.gateX g).dataAt = some t → t + fire.margin ≤ now → target = 0x58 + r →
        (s.dev.capX r).armWork.isSome = true →
        ∃ u, exec (.gateCapture g) s = .next u ∧ (u.dev.capX r).deadFrom = now ∧ (u.dev.capX r).next = some (s.dev.capGrid r now) ∧
          u.dev.get (CAP_Rr_STAT_STATE r) = (if s.dev.get (CAP_Rr_PRE_ACT_N r) = 0 then 2 else 1) ∧
          (s.dev.get (CAP_Rr_STAT_FULL r) < 2 ^ s.dev.get (CAP_Rr_CFG_ACT_NSEGLOG r) →
            u.dev.get (CAP_Rr_STAT_FULL r) = s.dev.get (CAP_Rr_STAT_FULL r) ∧ u.dev.get (CAP_Rr_STAT_WSEG r) =
              (s.dev.get (CAP_Rr_STAT_RSEG r) + s.dev.get (CAP_Rr_STAT_FULL r)) % 2 ^ s.dev.get (CAP_Rr_CFG_ACT_NSEGLOG r) % 2 ^ 4))) ∧
    (48 ≤ g.val → g.val < 72 →
      let x := s.dev.pwmX (g - 48)
      (x.lockUntil = 0 ∨ s.clk.ns < x.lockUntil → exec (.stagingLockEnd g) s = .next s) ∧
      (x.lockUntil ≠ 0 → x.lockUntil ≤ s.clk.ns → (∀ p ∈ x.held, isLoopMem p.1 = false) → ∃ t, exec (.stagingLockEnd g) s = .next t ∧
        (t.dev.pwmX (g - 48)).lockUntil = 0 ∧ (t.dev.pwmX (g - 48)).held = [] ∧
        t = { s with dev := { s.dev with regs := t.dev.regs, pwm := t.dev.pwm } } ∧
        t.dev.regs = (x.held.foldl (fun d p => d.regStore p.1 p.2) s.dev).regs)) ∧
    (72 ≤ g.val → g.val < 80 →
      let x := s.dev.stpX (g - 72)
      (x.lockUntil = 0 ∨ s.clk.ns < x.lockUntil → exec (.stagingLockEnd g) s = .next s) ∧
      (x.lockUntil ≠ 0 → x.lockUntil ≤ s.clk.ns → (∀ p ∈ x.held, isLoopMem p.1 = false) → ∃ t, exec (.stagingLockEnd g) s = .next t ∧
        (t.dev.stpX (g - 72)).lockUntil = 0 ∧ (t.dev.stpX (g - 72)).held = [] ∧
        t = { s with dev := { s.dev with regs := t.dev.regs, stp := t.dev.stp } } ∧
        t.dev.regs = (x.held.foldl (fun d p => d.regStore p.1 p.2) s.dev).regs)) ∧
    (g.val < 48 ∨ 80 ≤ g.val → exec (.stagingLockEnd g) s = .next s)

/-- The Herder's tick, dispatch, withdrawal, abort and statistics window. Derived from R293, R295, R297, R298, R299, R300, R301, R315, R317.
-/
def Obligations.HerderRows : Prop :=
  ∀ s : State, s.dev.dst.serves = true →
    let tick := s.dev.get HERDER_CTRL_TICK * 250
    let win := s.dev.get HERDER_CTRL_WIN * 1000000
    (tick = 0 ∨ s.clk.ns / tick = s.dev.her.tickDone → exec .herderTick s = .next s) ∧
    (tick ≠ 0 → s.clk.ns / tick ≠ s.dev.her.tickDone → ∃ t, exec .herderTick s = .next t ∧ t.clk = s.clk ∧
      t.dev.her.tickDone = s.clk.ns / tick ∧ (∀ j ∈ t.dev.her.delay, j ∈ s.dev.her.delay ∧ s.clk.ns / tick * tick < s.dev.jobLaunch j) ∧
      (∀ j ∈ s.dev.her.delay, s.dev.jobLaunch j ≤ s.clk.ns / tick * tick → j ∈ t.dev.her.ready) ∧ t.dev.mem = s.dev.mem) ∧
    (∀ e : Fin 31,
      (s.dev.canDispatch s.clk e = none → exec (.dispatch e) s = .next s) ∧
      (∀ j pre, s.dev.canDispatch s.clk e = some (j, pre) → s.dev.slotBad j = false → ∃ t r, exec (.dispatch e) s = .next t ∧
        (t.dev.engX e).run = some r ∧ r.slot = j ∧ r.start = s.clk.osc + 16 ∧ r.used = 0 ∧ r.shadow = pre ∧ j ∉ t.dev.her.ready ∧
        t.dev.her.lastDispatch = some s.clk.osc ∧ t.clk = s.clk ∧ (pre = true → (t.dev.engX e).preempted.map (·.slot) = (s.dev.engX e).run.map (·.slot)) ∧
        (e.val < 30 → ((t.dev.engine e).bank pre).pc = (s.dev.entryBank e j).pc ∧ (t.dev.engine e).bank (!pre) = (s.dev.engine e).bank (!pre))) ∧
      ((s.dev.engX e).run = none → exec (.jobOverrun e) s = .next s) ∧
      (∀ r, (s.dev.engX e).run = some r →
        (r.execNs s.clk.osc ≤ s.dev.jobBudget r.slot → exec (.jobOverrun e) s = .next s) ∧
        (s.dev.jobBudget r.slot < r.execNs s.clk.osc →
          exec (.jobOverrun e) s = .next { s with dev := (s.dev.jobAbort s.clk e).overrunOf s.clk e r.slot }) ∧
        (s.dev.jobBudget r.slot < r.execNs s.clk.osc → r.slot < 160 → ∃ t, exec (.jobOverrun e) s = .next t ∧ t.clk = s.clk ∧
          t.dev.flag (HERDER_ENGe_STAT_OVERRUN e) = true ∧ t.dev.jobState r.slot = jobFree ∧
          (t.dev.engX e).run.map (·.slot) = (s.dev.engX e).preempted.map (·.slot)))) ∧
    (∀ j : Fin 1024,
      (s.dev.jobLatest j = none ∨ (∃ t, s.dev.jobLatest j = some t ∧ s.clk.ns < t) ∨ s.dev.jobState j = jobFree ∨ s.dev.jobState j = jobRun ∨
        s.dev.jobState j = jobPreempted → exec (.withdraw j) s = .next s) ∧
      (∀ t, s.dev.jobLatest j = some t → t ≤ s.clk.ns → s.dev.jobState j = jobWait ∨ s.dev.jobState j = jobDelay ∨ s.dev.jobState j = jobReady →
        (96 ≤ j.val ∨ j.val % 4 ≠ 0) → ∃ u, exec (.withdraw j) s = .next u ∧ u.clk = s.clk ∧ u.dev.jobState j = jobFree ∧
          j.val ∉ u.dev.her.ready ∧ j.val ∉ u.dev.her.delay ∧
          (j.val < 96 → u.dev.flag (PWM_Lnn_CYC_STAT_SLOW_MISS (j / 4)) = true) ∧
          (96 ≤ j.val → j.val < 160 → u.dev.flag (TRJ_AXaa_STAT_SP_LATE (j - 96)) = true))) ∧
    (s.clk.ns < s.dev.her.winFrom + win ∨ win = 0 → exec .statisticsWindow s = .next s) ∧
    (s.dev.her.winFrom + win ≤ s.clk.ns → win ≠ 0 → ∃ t, exec .statisticsWindow s = .next t ∧ t.dev.her.winFrom = s.clk.ns / win * win ∧
      (∀ e < 31, (t.dev.engX e).load = 0 ∧ (t.dev.engX e).wcnt = 0 ∧ (t.dev.engX e).wsum = 0 ∧ (t.dev.engX e).wmax = 0 ∧
        (t.dev.engX e).run = (s.dev.engX e).run) ∧
      t = { s with dev := { s.dev with regs := t.dev.regs, engx := t.dev.engx, her := t.dev.her } })

/-- Delivery of a packet by the fabric and the decision of a mailbox's oldest request. Derived from R26, R28, R31, R32, R34, R129, R306,
R329, R370, R372, R376, R404. -/
def Obligations.FabricAndMailboxRows : Prop :=
  ∀ s : State, s.dev.dst.serves = true →
    (∀ n : Nat, s.dev.fab.flight.length ≤ n → exec (.packetDelivery n) s = .next s) ∧
    (∀ (n : Nat) (p : Packet), s.dev.fab.flight[n]? = some p →
      let early := brandType p.brand = 0x14 ∧ s.clk.ns < (s.dev.sarX (brandUnit p.brand / 6)).pairAt + 20
      let d := { s.dev with fab := { s.dev.fab with flight := s.dev.fab.flight.eraseIdx n } }
      let gives (d' : Dev) : Prop := exec (.packetDelivery n) s = .next { s with dev := d' }
      (early → exec (.packetDelivery n) s = .next s) ∧
      (¬ early → ∀ q, Packet_read p = some (q, 0) →
        let u := brandUnit q.brand
        (malformed q.brand = true → gives { d with fab := { d.fab with malformed := d.fab.malformed + 1 } }) ∧
        (malformed q.brand = false → d.isOutgoing q.brand = true → gives ((d.capture s.clk q).toChain s.clk q)) ∧
        (malformed q.brand = false → d.isOutgoing q.brand = false → (d.seqCheck 0 q).1 = false →
          gives { d with fab := { d.fab with stale := d.fab.stale + 1 } }) ∧
        (malformed q.brand = false → d.isOutgoing q.brand = false → (d.seqCheck 0 q).1 = true → (∀ cc < 64, d.capSelects cc q = false) →
          brandType q.brand = 0x41 → u < 0x40 → (∀ a < 64, ∀ m, (s.dev.axX a).mst = some m → m.key ≠ 128 + u) →
          let old := s.dev.sample (128 + u)
          (brandEpoch q.brand ≠ (s.dev.lane u).epoch → ∃ t, exec (.packetDelivery n) s = .next t ∧
            t.dev.get (TRJ_AXaa_EPSTALE_CNT u) = satU (TRJ_AXaa_EPSTALE_CNT u).width (s.dev.get (TRJ_AXaa_EPSTALE_CNT u) + 1) ∧
            t = { s with dev := { s.dev with regs := t.dev.regs, fab := t.dev.fab } }) ∧
          (brandEpoch q.brand = (s.dev.lane u).epoch → ∃ t, exec (.packetDelivery n) s = .next t ∧
            t.dev.sample (128 + u) = sampleOf (s.dev.packetNs s.clk.ns q) q ::
              (old.filter (fun x => s.clk.ns < x.t) ++ (old.filter (fun x => x.t ≤ s.clk.ns)).take 3) ∧
            t.dev.fab.flight = s.dev.fab.flight.eraseIdx n ∧
            t = { s with dev := { s.dev with fab := t.dev.fab, samples := t.dev.samples } })) ∧
        (malformed q.brand = false → d.isOutgoing q.brand = false → (d.seqCheck 0 q).1 = true →
          0x40 ≤ u ∨ brandEpoch q.brand = (((((d.seqCheck 0 q).2.capture s.clk q).safetySees q)).lane u).epoch →
          gives ((((d.seqCheck 0 q).2.capture s.clk q).safetySees q).consume s.clk q))) ∧
      (¬ early → Packet_read p = none → ∃ t, exec (.packetDelivery n) s = .next t ∧
        t.dev.fab.flight.take (s.dev.fab.flight.length - 1) = s.dev.fab.flight.eraseIdx n ∧
        t.dev.get FLT_ECC_ADDR_V = 0xFFFFFFFF)) ∧
    (∀ m : Fin 16,
      ((s.dev.mbox m).reqs = [] → exec (.mailboxDecision m) s = .next s) ∧
      (∀ r rest, (s.dev.mbox m).reqs = r :: rest →
        let ws := r.words
        let left := s.dev.setMbox m { s.dev.mbox m with reqs := rest }
        let ahead := (reqSeq ws + 65536 - s.dev.get (MBX_Mm_SEQ_LAST m)) % 65536
        let oneMore (t : State) : Prop := (s.dev.get MBX_ROUTE_ROUTE).testBit m = false → s.dev.get (MBX_Mm_STAT_RCOUNT m) < 16 →
          (s.dev.mbox m).wait = [] → t.dev.get (MBX_Mm_STAT_RCOUNT m) = s.dev.get (MBX_Mm_STAT_RCOUNT m) + 1 ∧ (t.dev.mbox m).reqs = rest
        (s.clk.tor < r.refTor ∨ s.dev.mboxFirst m r.refTor = false → exec (.mailboxDecision m) s = .next s) ∧
        (r.refTor ≤ s.clk.tor → s.dev.mboxFirst m r.refTor = true →
          (reqCrcOk ws = false → ∃ t, exec (.mailboxDecision m) s = .next t ∧ t.clk = s.clk ∧ oneMore t ∧
            t.dev.get (MBX_Mm_CNT_CRC m) = satU (MBX_Mm_CNT_CRC m).width (s.dev.get (MBX_Mm_CNT_CRC m) + 1)) ∧
          (reqCrcOk ws = true → s.dev.reqFormatBad m ws = false → commandOf (reqOpc ws) = none →
            (s.dev.flag (MBX_Mm_STAT_SEQV m) = false ∨ (ahead ≠ 0 ∧ ahead < 32768)) →
            ∃ t, exec (.mailboxDecision m) s = .next t ∧ t.clk = s.clk ∧ oneMore t ∧ t.dev.get (MBX_Mm_SEQ_LAST m) = reqSeq ws ∧
              t.dev.flag (MBX_Mm_STAT_SEQV m) = true ∧
              t.dev.get64 (MBX_Mm_TREF_LO_TREF m) (MBX_Mm_TREF_HI_TREF m) = (r.tArr + 100000) % 2 ^ 64) ∧
          (∀ i, requestOf i = some (reqOpc ws, reqOf m ws) → r.src = 0 → s.clk.ns = r.tArr + 100000 → s.clk.frac = r.frac → reqCrcOk ws = true →
            s.dev.reqFormatBad m ws = false → (left.verdictOf s.clk m ws s.clk.ns).badFormat = false →
            brandEpoch (ws.headD 0) = s.dev.get MBX_STAT_EPOCH → s.dev.flag (MBX_Mm_STAT_SEQV m) = true → ahead = 1 →
            ∃ u, exec i { s with dev := left.takeReq m (reqSeq ws) s.clk.ns false } = .next u ∧
              let freed : Dev := { u.dev with pair := { u.dev.pair with held := u.dev.pair.held.filter fun h => h ≠ (m.val, reqSeq ws) } }
              exec (.mailboxDecision m) s = .next { u with dev := freed.mboxTry s.clk m }))))

/-- Converter events: filter results, comparator, stuck bitstream, SAR conversions and DC-link samples. Derived from R111, R112, R117, R119,
R123, R124, R126, R128, R129, R130, R131, R133. -/
def Obligations.ConverterRows : Prop :=
  ∀ s : State, s.dev.dst.serves = true →
    (∀ (l : Fin 24) (w : DsfWindow),
      let g := (s.dev.gateX l).last
      let ch (i : Nat) : Nat := 3 * l + i
      let on (i : Nat) : Prop := i < 3 ∧ s.dev.flag (DSF_Cnn_CFG_ACT_EN (ch i)) = true
      let val (i : Nat) : Int × Bool :=
        let sc := s.dev.dsfScale (ch i) (s.dev.dsfEnd (ch i) g - s.dev.dsfLen (ch i))
        dsfValue (s.dev.get (DSF_Cnn_CFG_ACT_ORDER (ch i))) (s.dev.get (DSF_Cnn_CFG_ACT_OSR (ch i)))
          (if i = 0 then w.u else if i = 1 then w.v else w.w) sc.1 sc.2
      (g = 0 ∨ (s.dev.dsfX (ch 0)).forGate = some g ∨ (∀ i, ¬ on i) ∨ (∃ i, on i ∧ s.clk.ns < s.dev.dsfEnd (ch i) g + 40) →
        exec (.dsfResult l w) s = .next s) ∧
      (g ≠ 0 → (s.dev.dsfX (ch 0)).forGate ≠ some g → (∃ i, on i) → (∀ i, on i → s.dev.dsfEnd (ch i) g + 40 ≤ s.clk.ns) →
        (∀ i, on i → s.dev.dsfFull (ch i) g = true) →
        ∃ t, exec (.dsfResult l w) s = .next t ∧ t.clk = s.clk ∧ s.dev.fab.flight.length < t.dev.fab.flight.length ∧ t.dev.mem = s.dev.mem ∧
          ∀ i, on i → t.dev.getI (DSF_Cnn_RES_I (ch i)) = (val i).1 ∧ ((val i).2 = true → t.dev.flag (DSF_Cnn_STAT_SAT (ch i)) = true))) ∧
    (∀ (ch : Fin 72) (a : BitVec 16),
      let l := ch.val / 3
      (s.dev.cmpDue s.clk ch = none → exec (.comparatorOutput ch a) s = .next s) ∧
      (∀ n, s.dev.cmpDue s.clk ch = some n →
        let words := s.dev.cmpWords ch n
        let x : DsfX := { s.dev.dsfX ch with cmpN := n }
        let judged : Prop := s.dev.laneActive l = true ∧ (DSF_Cnn_CMP_ACT_CEN ch).of words.1 ≠ 0
        let v := cmpValue (s.dev.get (DSF_Cnn_CMP_ACT_CORD ch)) (s.dev.get (DSF_Cnn_CMP_ACT_COSR ch)) a.toNat
        let past : Prop := sInt 16 ((DSF_Cnn_THR_ACT_HI ch).of words.2) ≤ v ∨ v ≤ sInt 16 ((DSF_Cnn_THR_ACT_LO ch).of words.2)
        let act := (DSF_Cnn_CMP_ACT_ACT ch).of words.1
        let tripped (t : State) (u : Nat) : Prop := (t.dev.lane u).trip = true ∧ (t.dev.lane u).faulted = true
        (¬ judged → exec (.comparatorOutput ch a) s = .next { s with dev := s.dev.setDsfX ch x }) ∧
        (judged → x.ignore ≠ 0 → exec (.comparatorOutput ch a) s =
          .next { s with dev := s.dev.setDsfX ch { x with ignore := x.ignore - 1 } }) ∧
        (judged → x.ignore = 0 → s.dev.flag (DSF_Cnn_STAT_TRIP ch) = true ∨ ¬ past →
          exec (.comparatorOutput ch a) s = .next { s with dev := s.dev.setDsfX ch x }) ∧
        (judged → x.ignore = 0 → s.dev.flag (DSF_Cnn_STAT_TRIP ch) = false → past → (∀ u < 24, (s.dev.pwmX u).undo = none) →
          ∃ t, exec (.comparatorOutput ch a) s = .next t ∧ t.clk = s.clk ∧ t.dev.flag (DSF_Cnn_STAT_TRIP ch) = true ∧
            s.dev.fab.flight.length < t.dev.fab.flight.length ∧ (act = 0 → t.dev.lanes = s.dev.lanes) ∧ (act = 1 → tripped t l) ∧
            (act = 2 → ∀ u ∈ lanesOfGroup (groupOf l), tripped t u))) ∧
      (∀ level : Bool,
        ((s.dev.clockStart (ch.val / 12)).isSome = false → exec (.modStuck ch level) s = .next s) ∧
        ((s.dev.clockStart (ch.val / 12)).isSome = true → s.dev.laneActive l = false →
          exec (.modStuck ch level) s = .next { s with dev := s.dev.setf (DSF_Cnn_STAT_STUCK ch) }) ∧
        ((s.dev.clockStart (ch.val / 12)).isSome = true → s.dev.laneActive l = true → exec (.modStuck ch level) s =
          .next { s with dev := ((s.dev.setf (DSF_Cnn_STAT_STUCK ch)).record s.clk 52 l ch).laneFault s.clk 52 l }))) ∧
    (∀ (ch : Nat) (v : SarInput),
      let r : Nat := if s.dev.flag SAR_CTRL_REFSEL then v.vref else 2500000000
      let k := s.dev.sarCode ch v
      k < 2 ^ 16 ∧
      (ch < 14 → 0 < r → 0 < k → k < 0xFFFF → |2 * (65536 * v.v - k * r)| ≤ r) ∧
      (14 ≤ ch → 0 < r → -0x8000 < sInt 16 k → sInt 16 k < 0x7FFF → |2 * (32768 * v.v - sInt 16 k * r)| ≤ r)) ∧
    (∀ (m : Fin 4) (v : SarInput),
      let x := s.dev.sarX m
      (s.dev.sarOn m = false ∨ (x.held = [] ∧ x.seqs = []) → exec (.sarConversion m v) s = .next s) ∧
      (∀ ch t g rest, x.held = (ch, t, .link g) :: rest → s.dev.sarOn m = true →
        (s.clk.ns < max x.freeAt t + 200 → exec (.sarConversion m v) s = .next s) ∧
        (ch < 16 → max x.freeAt t + 200 ≤ s.clk.ns → ∃ u, exec (.sarConversion m v) s = .next u ∧
          (u.dev.sarX m).held = rest ∧ (u.dev.sarX m).freeAt = max x.freeAt t + 200 ∧
          u.dev.get (SAR_CVm_RESc_CODE m ch) = s.dev.sarCode ch v ∧
          u.dev.flag (SAR_CVm_STAT_BUSY m) = (!rest.isEmpty || !x.seqs.isEmpty) ∧
          u = { s with dev := { s.dev with regs := u.dev.regs, sar := u.dev.sar } })) ∧
      (∀ j i g0 rest, x.held = [] → x.seqs = (j, i, g0) :: rest → s.dev.sarOn m = true →
        let ch := s.dev.seqChan m j i
        let blocked : Prop := ∃ g ∈ s.dev.holdGates m, s.dev.flag (GATE_GTnnn_CTL_ARMED g) = true ∧ s.dev.gateNext g < s.clk.ns
        (s.clk.ns < max x.freeAt g0 + 200 ∨ blocked → exec (.sarConversion m v) s = .next s) ∧
        (max x.freeAt g0 + 200 ≤ s.clk.ns → ¬ blocked → ∃ u, exec (.sarConversion m v) s = .next u ∧ u.clk = s.clk ∧
          u.dev.get (SAR_CVm_RESc_CODE m ch) = s.dev.sarCode ch v ∧ (u.dev.sarX m).freeAt = s.clk.ns ∧
          (u.dev.sarX m).seqs = (if i + 1 < s.dev.seqLen m j ∧ x.cut = false then [(j, i + 1, g0)] else []) ++ rest ∧
          u.dev.fab.flight.length = s.dev.fab.flight.length + 1))) ∧
    (∀ (g : Fin 4) (a b : SarInput),
      let ma := g.val / 2 * 2
      let chan := 14 + g.val % 2
      ((s.dev.groupX g).dcAt = none ∨ (s.dev.sarOn ma = false ∧ s.dev.sarOn (ma + 1) = false) →
        exec (.dcLinkSample g a b) s = .next s) ∧
      (∀ t, (s.dev.groupX g).dcAt = some t → s.dev.sarOn ma = true → s.dev.sarOn (ma + 1) = true → (s.dev.sarX ma).held = [] →
        (s.dev.sarX (ma + 1)).held = [] →
        let p := sInt 16 (s.dev.get (SAR_CVm_RESc_CODE ma chan))
        let q := sInt 16 (s.dev.get (SAR_CVm_RESc_CODE (ma + 1) chan))
        let x16 := if (p - q).natAbs ≤ s.dev.get SAR_XCHK_TOL then p + q else 2 * max p q
        ∃ u, exec (.dcLinkSample g a b) s = .next u ∧ u.clk = s.clk ∧ (u.dev.groupX g).dcAt = none ∧
          u.dev.getI (SAR_Gg_VOLT_V g) = linkVolt x16 (s.dev.reg (SAR_Gg_OFFS_ACT_OFFS g).addr) (s.dev.reg (SAR_Gg_GAIN_ACT_GAIN g).addr) ∧
          s.dev.fab.flight.length < u.dev.fab.flight.length))

/-- Feedback events: quadrature edges, Hall codes, index, alarm, serial frames and probes. Derived from R139, R141, R142, R143, R146, R155,
R160, R161. -/
def Obligations.FeedbackRows : Prop :=
  ∀ s : State, s.dev.dst.serves = true → (∀ n : Fin 24,
    let x := s.dev.fbkX n
    let mode := s.dev.fbMode n
    let sign : Int := if s.dev.flag (FBK_nn_CFG_ACT_DIR n) then -1 else 1
    let noted (y : FbkX) : State := { s with dev := s.dev.setFbkX n y }
    let counts (i : Instr) (v : Int) : Prop := ∃ t, exec i s = .next t ∧ (t.dev.fbkX n).count = v ∧ t.dev.mem = s.dev.mem ∧ t.clk = s.clk
    (∀ a b : Bool,
      (mode = 0 ∨ (mode ≠ 1 ∧ mode ≠ 5) → exec (.quadratureEdge n a b) s = .next (noted { x with a := a, b := b })) ∧
      (mode = 1 ∨ mode = 5 → x.a ≠ a → x.b ≠ b → exec (.quadratureEdge n a b) s =
        .next { s with dev := (s.dev.setFbkX n { x with a := a, b := b }).illegal s.clk n 60 (s.dev.stamp s.clk n) }) ∧
      (mode = 1 ∨ mode = 5 → x.a ≠ a → x.b = b → counts (.quadratureEdge n a b) (x.count + sign * (if a = b then -1 else 1))) ∧
      (mode = 1 ∨ mode = 5 → x.a = a → x.b ≠ b → counts (.quadratureEdge n a b) (x.count + sign * (if a = b then 1 else -1)))) ∧
    (∀ code : BitVec 3,
      (mode ≠ 2 ∨ code.toNat = x.hall → exec (.hallChange n code) s = .next (noted { x with hall := code.toNat })) ∧
      (mode = 2 → ∀ i j, i < 6 → j < 6 → [1, 3, 2, 6, 4, 5][i]? = some x.hall → [1, 3, 2, 6, 4, 5][j]? = some code.toNat →
        (j = (i + 1) % 6 → counts (.hallChange n code) (x.count + sign)) ∧ (i = (j + 1) % 6 → counts (.hallChange n code) (x.count - sign)))) ∧
    (mode = 0 ∨ (mode ≠ 1 ∧ mode ≠ 5) ∨ s.dev.get (FBK_nn_CFG_ACT_IMODE n) = 0 ∨
      (s.dev.flag (FBK_nn_CFG_ACT_ZQ n) = true ∧ (x.a && x.b) = false) → exec (.indexEvent n) s = .next s) ∧
    (mode = 1 → s.dev.get (FBK_nn_CFG_ACT_IMODE n) = 1 → (s.dev.flag (FBK_nn_CFG_ACT_ZQ n) = false ∨ (x.a && x.b) = true) → x.learned = false →
      ∃ t, exec (.indexEvent n) s = .next t ∧ (t.dev.fbkX n).learned = true ∧ (t.dev.fbkX n).count = x.count ∧
        t.dev.get (FBK_nn_IREF_ACT_IREF n) = uInt 32 (x.count % (s.dev.cpr n : Int)) ∧
        KeepsRegs (· = (FBK_nn_IREF_ACT_IREF n).addr) s.dev t.dev) ∧
    (mode = 1 → s.dev.get (FBK_nn_CFG_ACT_IMODE n) ≠ 0 → (s.dev.flag (FBK_nn_CFG_ACT_ZQ n) = false ∨ (x.a && x.b) = true) →
      (s.dev.get (FBK_nn_CFG_ACT_IMODE n) = 1 → x.learned = true) → s.dev.flag (FBK_nn_CFG_ACT_ICOR n) = false →
      x.illAt ≠ some (s.dev.stamp s.clk n) →
      let cpr : Int := s.dev.cpr n
      let r := (x.count - s.dev.get (FBK_nn_IREF_ACT_IREF n)) % cpr
      let dv := if cpr < 2 * r then r - cpr else r
      dv.natAbs ≤ s.dev.get (FBK_nn_LIM_ACT_IWIN n) → ∃ t, exec (.indexEvent n) s = .next t ∧ t.clk = s.clk ∧
        t.dev.get (FBK_nn_IDEV_D n) = uInt (FBK_nn_IDEV_D n).width dv ∧ t.dev.flag (FBK_nn_STAT_UNC n) = false ∧
        t.dev.get (FBK_nn_STAT_ERUN n) = 0 ∧ (t.dev.fbkX n).count = x.count ∧ t.dev.fab.flight.length = s.dev.fab.flight.length + 1) ∧
    (∀ level : Bool,
      (mode = 0 ∨ s.dev.flag (FBK_nn_CFG_ACT_ALEN n) = false → exec (.alarmInput n level) s = .next (noted { x with alarm := level })) ∧
      (mode ≠ 0 → s.dev.flag (FBK_nn_CFG_ACT_ALEN n) = true → s.dev.laneActive n = false →
        ∃ t, exec (.alarmInput n level) s = .next t ∧ (t.dev.fbkX n).alarm = level ∧
          t.dev.flag (FBK_nn_STAT_ALARM n) = decide (level = s.dev.flag (FBK_nn_CFG_ACT_ALPOL n)) ∧ t.dev.lanes = s.dev.lanes)) ∧
    (∀ f : SerialFrame, x.gate = none ∨ mode = 0 ∨ (∃ g, x.gate = some g ∧ s.clk.ns + 40 < g + s.dev.dFb n) →
      exec (.serialFrame n f) s = .next s) ∧
    (∀ (f : SerialFrame) (g : Nat), x.gate = some g → mode ≠ 0 → g + s.dev.dFb n ≤ s.clk.ns + 40 → f.answered = false →
      let d0 := s.dev.setFbkX n { x with gate := none }
      let w := d0.takeSetPos n g (d0.extrapolate n) false
      exec (.serialFrame n f) s = .next { s with dev := (((((w.2.bump (FBK_nn_ERRC_SERR n)).reportLim s.clk 64 n).errPacket s.clk n 64).consecUp s.clk n
        (s.dev.get (FBK_nn_LIM_ACT_SLIM n))).finishLatch s.clk n g w.1 (d0.extrapolate n) true false true) }) ∧
    (∀ (f : SerialFrame) (g : Nat), x.gate = some g → mode ≠ 0 → g + s.dev.dFb n ≤ s.clk.ns + 40 → f.answered = true → f.stuck = false →
      s.dev.frameCrcOk n f.bits = true → x.raw = none → x.setPos = [] →
      ∃ t, exec (.serialFrame n f) s = .next t ∧ t.clk = s.clk ∧ (t.dev.fbkX n).gate = none ∧
        (t.dev.fbkX n).raw = some (s.dev.frameField n f.bits) ∧ (t.dev.fbkX n).at_ = some g ∧
        (t.dev.fbkX n).x = sInt 96 (uInt 96 ((s.dev.frameField n f.bits : Int) * 2 ^ 32 -
          x.v * (s.dev.get (FBK_nn_LAT_ACT_ELAT n) : Nat) / 1000000000)) ∧ s.dev.fab.flight.length < t.dev.fab.flight.length)) ∧
  ∀ (p : Fin 8) (rising : Bool),
    ((s.dev.get (FBK_PRBp_CFG_EDGE p)).testBit (if rising then 0 else 1) = false →
      exec (.probeEvent p rising) s = .next { s with dev := s.dev.setf (FBK_PRBp_STAT_LEVEL p) rising }) ∧
    ((s.dev.get (FBK_PRBp_CFG_EDGE p)).testBit (if rising then 0 else 1) = true →
      ∃ t, exec (.probeEvent p rising) s = .next t ∧ t.dev.flag (FBK_PRBp_STAT_LEVEL p) = rising ∧ t.dev.flag (FBK_PRBp_STAT_NEW p) = true ∧
        t.dev.flag (FBK_PRBp_STAT_LAST p) = !rising ∧
        t.dev.get64 (FBK_PRBp_TS_LO_V p) (FBK_PRBp_TS_HI_V p) = (s.clk.ns - 2 * s.dev.get (FBK_PRBp_CFG_FILT p)) % 2 ^ 64 ∧
        t.dev.flag (FBK_PRBp_STAT_OVR p) = (s.dev.flag (FBK_PRBp_STAT_OVR p) || s.dev.flag (FBK_PRBp_STAT_NEW p)) ∧
        t.clk = s.clk ∧ (s.dev.get (FBK_PRBp_MASK_MASK p) = 0 → t = { s with dev := { s.dev with regs := t.dev.regs } }))

/-- Stride edges and pulses, and the command inputs. Derived from R164, R165, R167, R168, R194, R195, R196. -/
def Obligations.StrideAndCommandInputRows : Prop :=
  ∀ s : State, s.dev.dst.serves = true → ∀ n : Fin 8,
    let y := s.dev.strX n
    let form := s.dev.get (STR_s_CFG_ACT_FORM n)
    let z := s.dev.cmdX n
    let mode := s.dev.get (FBK_CMDc_CFG_MODE n)
    (s.dev.portRuns (s.dev.get (STR_s_CFG_ACT_SRC n)) = false ∨ (∀ p ∈ y.pend ++ (s.dev.strAhead n).toList, s.clk.ns + 24 < p.t) →
      exec (.strideEdgeFixed n) s = .next s) ∧
    (s.dev.portRuns (s.dev.get (STR_s_CFG_ACT_SRC n)) = true → ∀ p, y.pend ++ (s.dev.strAhead n).toList = [p] → p.t ≤ s.clk.ns + 24 →
      ∀ close : Bool, close = (p.extrap && decide (p.t + 2 ≤ s.clk.ns + 24)) → ∀ at_ : Nat, at_ = (if close then (s.clk.ns + 25) / 2 * 2 else p.t) →
      (∀ t, y.lastAt = some t → t + s.dev.strSpacing n ≤ at_) →
      ∃ t, exec (.strideEdgeFixed n) s = .next t ∧ (t.dev.strX n).pend = [] ∧ (t.dev.strX n).out = y.out ++ [(at_, p.fwd, false)] ∧
        (t.dev.strX n).u = (if p.fwd then max y.u p.u else min y.u (p.u - 1)) ∧ (p.extrap = true → t.dev.flag (STR_s_STAT_EXTRAP n) = true) ∧
        (close = true → t.dev.flag (STR_s_STAT_LAG n) = true) ∧ (t.dev.strX n).lastAt = some at_ ∧
        OnlyRegs (fun a => a = (STR_s_STAT_EXTRAP n).addr ∨ (close = true ∧ a = (STR_s_STAT_LAG n).addr)) s.dev { t.dev with str := s.dev.str }) ∧
    (y.out = [] ∨ (∃ o rest, y.out = o :: rest ∧ s.clk.ns < o.1) → exec (.strideEdge n) s = .next s) ∧
    (∀ t fwd q rest, y.out = (t, fwd, q) :: rest → t ≤ s.clk.ns → ∃ u, exec (.strideEdge n) s = .next u ∧ (u.dev.strX n).out = rest ∧
      (form = 0 → (u.dev.strX n).a = true ∧ (u.dev.strX n).b = fwd) ∧
      (form ≠ 0 → form ≠ 1 → fwd = true → (u.dev.strX n).a = true ∧ (u.dev.strX n).b = y.b) ∧
      (form ≠ 0 → form ≠ 1 → fwd = false → (u.dev.strX n).b = true ∧ (u.dev.strX n).a = y.a) ∧
      (form ≠ 1 → (u.dev.strX n).pulseEnd = some (t + 2 * s.dev.get (STR_s_CFG_ACT_PW n))) ∧
      (form = 1 → (y.stop = false ∨ rest ≠ []) → fwd = true → ((u.dev.strX n).a, (u.dev.strX n).b) = (!y.b, y.a)) ∧
      (form = 1 → y.stop = true → rest = [] → (u.dev.strX n).a = false ∧ (u.dev.strX n).b = false) ∧
      OnlyRegs (· = (STR_s_STAT_QDEPTH n).addr) s.dev { u.dev with str := s.dev.str }) ∧
    (y.pulseEnd = none ∨ (∃ t, y.pulseEnd = some t ∧ s.clk.ns < t) → exec (.stridePulseEnd n) s = .next s) ∧
    (∀ t, y.pulseEnd = some t → t ≤ s.clk.ns → ∃ u, exec (.stridePulseEnd n) s = .next u ∧ (u.dev.strX n).a = false ∧
      (u.dev.strX n).pulseEnd = none ∧ ((u.dev.strX n).b = true → form = 0 ∧ y.b = true) ∧ u = { s with dev := { s.dev with str := u.dev.str } }) ∧
    (∀ high : Nat,
      (mode < 2 → exec (.cmdinEdge n high) s = .next s) ∧
      (2 ≤ mode → z.lastEdge = none → ∃ t, exec (.cmdinEdge n high) s = .next t ∧ t.dev.flag (FBK_CMDc_RAW_LOST n) = false ∧
        (t.dev.cmdX n).lastEdge = some (s.clk.ns - 2 * s.dev.get (FBK_CMDc_CFG_FILT n)) ∧
        OnlyRegs (· = (FBK_CMDc_RAW_LOST n).addr) s.dev { t.dev with cmdin := s.dev.cmdin }) ∧
      (mode = 2 → ∀ t0, z.lastEdge = some t0 → t0 < s.clk.ns - 2 * s.dev.get (FBK_CMDc_CFG_FILT n) →
        ∃ t, exec (.cmdinEdge n high) s = .next t ∧ t.dev.get (FBK_CMDc_RAW_X n) =
          min 65535 (high * 65536 / (s.clk.ns - 2 * s.dev.get (FBK_CMDc_CFG_FILT n) - t0)))) ∧
    (∀ code : BitVec 16, ∃ t, exec (.cmdinConversion code) s = .next t ∧ t.dev.cmdNext = (s.dev.cmdNext + 1) % 8 ∧
      (s.dev.get (FBK_CMDc_CFG_MODE s.dev.cmdNext) ≠ 1 → t.dev.regs = s.dev.regs) ∧
      (s.dev.cmdNext < 8 → s.dev.get (FBK_CMDc_CFG_MODE s.dev.cmdNext) = 1 →
        t.dev.get (FBK_CMDc_RAW_X s.dev.cmdNext) = code.toNat % 4096 * 16)) ∧
    (mode < 2 ∨ s.dev.flag (FBK_CMDc_RAW_LOST n) = true ∨
      s.clk.ns < z.lastEdge.getD 0 + (if s.dev.get (FBK_CMDc_CFG_TMO n) = 0 then z.interval + 1 else s.dev.get (FBK_CMDc_CFG_TMO n) * 1000000) →
        exec (.cmdinLost n) s = .next s) ∧
    (2 ≤ mode → s.dev.flag (FBK_CMDc_RAW_LOST n) = false →
      z.lastEdge.getD 0 + (if s.dev.get (FBK_CMDc_CFG_TMO n) = 0 then z.interval + 1 else s.dev.get (FBK_CMDc_CFG_TMO n) * 1000000) ≤ s.clk.ns →
        ∃ t, exec (.cmdinLost n) s = .next t ∧ t.dev.get (FBK_CMDc_VAL_CMD n) = 0 ∧ t.dev.flag (FBK_CMDc_RAW_LOST n) = true ∧
          t.dev.lanes = s.dev.lanes)

/-- Switch edges, fault pins, start time-out and the stepper bridges. Derived from R193, R209, R223, R224, R259, R260, R261, R262. -/
def Obligations.BridgeAndPinRows : Prop :=
  ∀ s : State, s.dev.dst.serves = true →
    (∀ (l : Fin 24) (i : Fin 6) (on : Bool),
      let x := s.dev.pwmX l
      ((∀ g ∈ x.edges, ¬ (g.sw = i.val ∧ g.on = on ∧ g.t ≤ 4 * s.clk.ns)) → exec (.switchEdge l i on) s = .next s) ∧
      ((∃ g ∈ x.edges, g.sw = i.val ∧ g.on = on ∧ g.t ≤ 4 * s.clk.ns) → ∃ t, exec (.switchEdge l i on) s = .next t ∧
        ((t.dev.pwmX l).sw.getD i {}).on = on ∧ (∀ k < 6, k ≠ i.val → (t.dev.pwmX l).sw.getD k {} = x.sw.getD k {}) ∧
        (t.dev.pwmX l).edges.length < x.edges.length ∧ t.clk = s.clk ∧ KeepsRegs isPinReg s.dev t.dev)) ∧
    (∀ g : Fin 4, ∃ t, exec (.fltNAsserted g) s = .next t ∧ t.clk = s.clk ∧ t.pending = s.pending ∧
      ((∀ u ∈ lanesOfGroup g, (s.dev.pwmX u).undo = none) →
        (t.dev.get PWM_FLT_STAT_LAT).testBit g = true ∧ (t.dev.get PWM_FLT_STAT_PIN).testBit g = true ∧
        ∀ u ∈ lanesOfGroup g, s.dev.laneActive u = true → (t.dev.lane u).faulted = true) ∧
      ((∀ u ∈ lanesOfGroup g, (s.dev.lane u).state = .disabled ∨ (s.dev.lane u).state = .fault) →
        (t.dev.get PWM_FLT_STAT_LAT).testBit g = true ∧ (t.dev.get PWM_FLT_STAT_PIN).testBit g = true ∧ t.dev.lanes = s.dev.lanes ∧
        t.dev.work = s.dev.work)) ∧
    (∀ l : Fin 24,
      let due : Prop := (s.dev.lane l).state = .enabled ∧ (s.dev.lane l).faulted = false ∧ 3 ≤ s.dev.get (PWM_Lnn_CC_STAT_START l) ∧
        s.dev.get (PWM_Lnn_CC_STAT_START l) ≤ 5 ∧ (s.dev.lane l).enabledAt + s.dev.get (PWM_Lnn_CC_REV_ACT_REVTMO l) * 1000000 ≤ s.clk.ns
      (¬ due → exec (.startTimeout l) s = .next s) ∧
      (due → ∃ t, exec (.startTimeout l) s = .next t ∧ (t.dev.lane l).faulted = true ∧
        (t.dev.lane l).chg = [{ at_ := s.clk.ns, target := .fault, work := none, code := 73 }])) ∧
    (∀ (n : Fin 8) (bB : Bool),
      let side (d : Dev) (other : Bool) : Bridge := if bB ≠ other then (d.stpX n).b else (d.stpX n).a
      let b := side s.dev false
      let acts (i : Instr) (p : Bridge → Prop) : Prop := ∃ t, exec i s = .next t ∧ p (side t.dev false) ∧ side t.dev true = side s.dev true ∧
        KeepsRegs isPinReg s.dev t.dev ∧ t.clk = s.clk
      acts (.cmpinTrip n bB) (fun b' => if b.st = .drive ∧ b.blank ≤ s.clk.ns then b'.st = .off ∧ b'.trip = true ∧ b'.rev = false ∧
        b'.offEnd = s.clk.ns + 250 * s.dev.get (PWM_Ss_CHOP_ACT_TOFF n) else b' = b) ∧
      acts (.blankingEnd n bB) (fun b' => b' = if b.st = .drive ∧ b.blank ≤ s.clk.ns then { b with blank := 0 } else b) ∧
      acts (.offTimeEnd n bB) (fun b' => if b.st = .off ∧ b.offEnd ≤ s.clk.ns ∧ (b.rev = true ∨ b.driven = none ∨ b.driven = some b.pos) then
          b'.rev = false ∧ (b.rev = true → b'.st = .drive ∧ b'.driven = some b.pos ∧
            b'.blank = b.offEnd + 2 * s.dev.get (PWM_Ss_CHOP_ACT_TBLANK n))
        else (b.st ≠ .off ∨ s.clk.ns < b.offEnd → b' = b))) ∧
    (∀ n : Fin 8,
      let x := s.dev.stpX n
      let t := s.dev.get (PWM_Ss_HOLD_ACT_HOLDT n) * 1000000
      (x.m.isSome = false ∨ t = 0 ∨ s.clk.ns < x.since + t → exec (.holdCurrent n) s = .next s) ∧
      (x.m.isSome = true → t ≠ 0 → x.since + t ≤ s.clk.ns → ∃ u, exec (.holdCurrent n) s = .next u ∧ u.dev.flag (PWM_Ss_STAT_HOLD n) = true ∧
        (u.dev.stpX n).hold = true ∧ OnlyRegs (· = (PWM_Ss_STAT_HOLD n).addr) s.dev { u.dev with stp := s.dev.stp }))

/-- Trajectory instants, loop instants, loop jobs and loop outputs. Derived from R232, R268, R269, R274, R275. -/
def Obligations.TrajectoryAndLoopRows : Prop :=
  ∀ s : State, s.dev.dst.serves = true →
    (∀ a : Fin 64,
      (s.dev.axDue s.clk a = none → exec (.trajectoryInstant a) s = .next s) ∧
      (∀ t, s.dev.axDue s.clk a = some t →
        (s.dev.idleHerd t = true → exec (.trajectoryInstant a) s = .next { s with dev := s.dev.setAxX a { s.dev.axX a with tj := t } }) ∧
        (let x := s.dev.axX a
         s.dev.idleHerd t = false → a.val < 24 → x.live = false → x.pend = [] → x.disc = false → x.halt = false → x.replan = false →
          x.hold31 = false → s.dev.imgs = [] → s.dev.flag (TRJ_AXaa_CTL_CMT a) = false → s.dev.axMode a = modeHold →
          s.dev.flag (TRJ_AXaa_CFG_ACT_PUB a) = false → s.dev.jobState (slotSetpoint a) = jobFree →

          ∃ u, exec (.trajectoryInstant a) s = .next u ∧ u.clk = s.clk ∧ u.pending = s.pending ∧ (u.dev.axX a).tj = t ∧
            u.dev.get64 (TRJ_AXaa_SP_LO_V a) (TRJ_AXaa_SP_HI_V a) = uInt 64 ((s.dev.fbkX a).x / 2 ^ 32) ∧
            u.dev.get (TRJ_AXaa_SP_FRAC_V a) = uInt 32 (s.dev.fbkX a).x ∧
            u.dev.get64 (TRJ_AXaa_SV_LO_V a) (TRJ_AXaa_SV_HI_V a) = 0 ∧ u.dev.axMode a = modeHold ∧
            u.dev.lanes = s.dev.lanes ∧ u.dev.mem = s.dev.mem))) ∧
    (∀ b : Fin 16,
      (s.dev.loopDue s.clk b = none → exec (.loopInstant b) s = .next s) ∧
      (∀ t, s.dev.loopDue s.clk b = some t → (s.dev.loopX b).pend = [] → s.dev.imgs = [] → s.dev.flag (LPB_bb_CTL_CMT b) = false →
        s.dev.ecc = [] → (s.dev.loopX b).due = none → s.dev.loopMode b = loopOff →
        ∃ u, exec (.loopInstant b) s = .next u ∧ (u.dev.loopX b).tj = t ∧ (s.dev.get (LPB_bb_PSRC_ACT_TYPE b) ≠ 4 →
          u.dev.loopX b = { s.dev.loopX b with tj := t }) ∧ u = { s with dev := { s.dev with loops := u.dev.loops } }) ∧
      ((∀ r, (s.dev.engX 30).run = some r → r.slot ≠ slotLoop b) → exec (.loopJobComplete b) s = .next s) ∧
      (∀ r, (s.dev.engX 30).run = some r → r.slot = slotLoop b →
        let late : Prop := s.dev.jobDeadline r.slot < s.clk.ns
        let mode := s.dev.loopMode b
        ∃ u, exec (.loopJobComplete b) s = .next u ∧ u.clk = s.clk ∧ u.pending = s.pending ∧ (u.dev.loopX b).due = none ∧
          s.dev.fab.flight.length < u.dev.fab.flight.length ∧ (late → (s.dev.loopX b).due.isSome = true → u.dev.flag (LPB_bb_STAT_LATE b) = true) ∧
          (late ∨ mode = loopOff → (u.dev.loopX b).outs = (s.dev.loopX b).outs ∧ u.dev.get (LPB_bb_OUT_VAL b) = s.dev.get (LPB_bb_OUT_VAL b)) ∧
          (¬ late → mode = loopManual → 0 ≤ s.dev.getI (LPB_bb_OSLEW_ACT_V b) → u.dev.getI (LPB_bb_OUT_VAL b) = slewTo (s.dev.getI (LPB_bb_OUT_VAL b))
            (s.dev.getI (LPB_bb_OSLEW_ACT_V b)) (clampI (s.dev.getI (LPB_bb_OMIN_ACT_V b)) (s.dev.getI (LPB_bb_OMAX_ACT_V b))
              (s.dev.getI (LPB_bb_MOUT_ACT_V b))) ∧
            ((u.dev.loopX b).outs.head?.map (·.at_)) = some ((s.dev.jobX r.slot).inst + s.dev.loopT b))) ∧
      ((s.dev.loopX b).due = none ∨ (∃ o, (s.dev.loopX b).due = some o ∧ s.clk.ns < o) → exec (.loopOutput b) s = .next s) ∧
      (∀ o, (s.dev.loopX b).due = some o → o ≤ s.clk.ns →
        (s.dev.loopMode b = loopOff →
          exec (.loopOutput b) s = .next { s with dev := s.dev.setLoopX b { s.dev.loopX b with due := none } }) ∧
        (s.dev.loopMode b ≠ loopOff → ∃ u, exec (.loopOutput b) s = .next u ∧ (u.dev.loopX b).due = none ∧
          u.dev.flag (LPB_bb_STAT_LATE b) = true ∧ (u.dev.loopX b).outs = (s.dev.loopX b).outs ∧ u.clk = s.clk)))

/-- Sync, peer delay, Announce, and what the time servo does when its master or its limits fail. Derived from R59, R62, R63, R64, R412,
R414, R415, R416, R417. -/
def Obligations.TimeServoRows : Prop :=
  ∀ s : State, s.dev.dst.serves = true →
    let d := s.dev
    let st := d.get TIME_STAT_STATE
    (∀ m : PtpSync,
      let two := ptpTwoStep m.sync
      let sound : Prop := d.flag (chLink m.port) = true ∧ isPtp m.sync = true ∧ ptpType m.sync = 0
      let bad : Prop := m.sync.bad = true ∨ lengthOk m.sync = false ∨ (two = true ∧ (m.follow.bad = true ∨ lengthOk m.follow = false))
      let free (q : Nat) : Prop := d.flag (chLink q) = true ∧ d.chBusy s.clk q = false ∧ (d.chPort q).store = [] ∧ d.chGuarded s.clk q = false
      (¬ sound → exec (.syncReceived m) s = .next s) ∧
      (sound → two = false → lengthOk m.sync = false → exec (.syncReceived m) s = .next { s with dev := d.bump (CHAIN_CHp_RXERR_V m.port) }) ∧
      (sound → bad → ∃ t, exec (.syncReceived m) s = .next t ∧ t.clk = s.clk ∧ t.dev.servo = d.servo ∧ t.dev.lanes = d.lanes ∧
        t.dev.get (CHAIN_CHp_RXERR_V m.port) = satU 32 (d.get (CHAIN_CHp_RXERR_V m.port) +
          ((if m.sync.bad = true ∨ lengthOk m.sync = false then 1 else 0) + if two = true ∧ (m.follow.bad = true ∨ lengthOk m.follow = false) then 1 else 0)) ∧
        (two = true → m.sync.bad = true → lengthOk m.sync = true → d.flag (chCap m.port) = true → free (1 - m.port.val) →
          (t.dev.chPort (1 - m.port.val)).sent = some (s.clk.ns, m.sync)) ∧
        (two = false → lengthOk m.sync = true → d.flag (chCap m.port) = true → free (1 - m.port.val) →
          ∃ f, (t.dev.chPort (1 - m.port.val)).sent = some (s.clk.ns, f) ∧ f.bad = true)) ∧
      (sound → ¬ bad → (d.flag (chCap m.port) = false ∨
          (two = true ∧ (isPtp m.follow && ptpType m.follow = 8 && ptpSeq m.follow = ptpSeq m.sync) = false)) →
        ∃ t, exec (.syncReceived m) s = .next t ∧ t.clk = s.clk ∧ t.dev.servo = d.servo ∧
          (d.flag (chCap m.port) = false → t.dev.chain.ports = d.chain.ports) ∧
          (d.flag (chCap m.port) = true → free (1 - m.port.val) → (t.dev.chPort (1 - m.port.val)).sent = some (s.clk.ns, m.sync)) ∧
          t.dev.get (CHAIN_CHp_RXOK_V m.port) = satU 32 (d.get (CHAIN_CHp_RXOK_V m.port) + if two then 2 else 1)) ∧
      (sound → ¬ bad → d.flag (chCap m.port) = true → two = false →
        let q : Nat := 1 - m.port.val
        let mine : Prop := d.get TIME_CTRL_MODE = 1 ∧ d.get TIME_CTRL_PORT = m.port.val ∧ d.ptpMine m.sync = true
        ∃ t, exec (.syncReceived m) s = .next t ∧ t.clk = s.clk ∧
          t.dev.get (CHAIN_CHp_RXOK_V m.port) = satU 32 (d.get (CHAIN_CHp_RXOK_V m.port) + 1) ∧
          (d.flag (chLink q) = true → d.chBusy s.clk q = false → (d.chPort q).store = [] → d.chGuarded s.clk q = false →
            (t.dev.chPort q).sent = some (s.clk.ns, addCorr m.sync
              ((d.egress q m.egress - 64 * 65536 : Nat) - (d.ingress m.port m.ingress : Nat) + d.linkDelay m.port))) ∧
          (¬ mine → t.dev.servo = d.servo) ∧
          (mine → t.dev.servo.seen = true ∧ t.dev.servo.watchFrom = s.clk.ns ∧ t.dev.servo.lossReported = false))) ∧
    (∀ p : Fin 2,
      (d.flag (chLink p) = false → exec (.pdelayReq p) s = .next s ∧ ∀ m, exec (.pdelayMessage p m) s = .next s) ∧
      (let elapsed := intervalOver (d.chPort p).reqAt s.clk.ns (logSecs (d.getI CHAIN_PTP_ACT_LPDLY))
       (elapsed = false → exec (.pdelayReq p) s = .next s) ∧
       (elapsed = true → d.flag (chLink p) = true → ∃ t, exec (.pdelayReq p) s = .next t ∧ t.clk = s.clk ∧
        (t.dev.chPort p).open_ = true ∧ (t.dev.chPort p).reqAt = some s.clk.ns ∧
        (t.dev.chPort p).seq = ((d.chPort p).seq + 1) % 65536)) ∧
      (∀ m : PdelayMsg, d.flag (chLink p) = true → isPtp m.frame = true → m.frame.bad = true ∨ lengthOk m.frame = false →
        exec (.pdelayMessage p m) s = .next { s with dev := d.bump (CHAIN_CHp_RXERR_V p) }) ∧
      (∀ m : PdelayMsg, d.flag (chLink p) = true → isPtp m.frame = true → m.frame.bad = false → lengthOk m.frame = true →
        ptpType m.frame = 3 → (d.chPort p).open_ = true → ptpSeq m.frame = (d.chPort p).seq → d.ptpToMe p m.frame = true →
        ∃ t, exec (.pdelayMessage p m) s = .next t ∧ t.clk = s.clk ∧
          t.dev.chPort p = { d.chPort p with resp := some (((ptpNs m.frame : Int) * 65536 - ptpCorr m.frame).toNat, d.ingress p m.ingress) } ∧
          t.dev.get (CHAIN_CHp_RXOK_V p) = satU 32 (d.get (CHAIN_CHp_RXOK_V p) + 1) ∧ t.dev.servo = d.servo ∧
          (d.jobState (197 + p) ≠ jobFree → OnlyRegs (· = (CHAIN_CHp_RXOK_V p).addr) d { t.dev with chain := d.chain }))) ∧
    (d.get TIME_CTRL_MODE ≠ 2 ∨ intervalOver d.chain.annAt s.clk.ns (logSecs (d.getI CHAIN_PTP_ACT_LANN)) = false →
      exec .announce s = .next s) ∧
    (d.get TIME_CTRL_MODE = 2 → intervalOver d.chain.annAt s.clk.ns (logSecs (d.getI CHAIN_PTP_ACT_LANN)) = true →
      d.flag (chLink 0) = false → d.flag (chLink 1) = false → ∃ t, exec .announce s = .next t ∧
      t = { s with dev := { d with chain := { d.chain with annAt := some s.clk.ns, seqs := t.dev.chain.seqs } } } ∧
      t.dev.chain.seqs.get (fun _ => 0) 65538 = (d.chain.seqs.get (fun _ => 0) 65538 + 1) % 65536) ∧
    (d.get TIME_CTRL_MODE ≠ 1 ∨ d.servo.lossReported = true ∨ s.clk.ns < d.servo.watchFrom + 3 * d.servo.syncNs →
      exec .masterLost s = .next s) ∧
    (d.get TIME_CTRL_MODE = 1 → d.servo.lossReported = false → d.servo.watchFrom + 3 * d.servo.syncNs ≤ s.clk.ns → ∃ t,
      exec .masterLost s = .next t ∧ t.dev.flag TIME_STAT_MASTER_LOST = true ∧ t.dev.servo.lossReported = true ∧
        t.dev.get TIME_STAT_STATE = (if st = servoFree then servoFree else servoHoldover)) ∧
    (¬ (st = servoHoldover ∧ d.servo.expired = false ∧ d.get TIME_HOLD_HLIM * 1000000 * 2 ^ 48 < s.clk.tor - d.servo.holdFrom) →
      exec .holdoverLimit s = .next s) ∧
    (st = servoHoldover → d.servo.expired = false → d.get TIME_HOLD_HLIM * 1000000 * 2 ^ 48 < s.clk.tor - d.servo.holdFrom →
      (∀ a < 64, (d.axX a).mst = none) → ∃ t, exec .holdoverLimit s = .next t ∧ t.dev.flag TIME_STAT_HOLD_EXP = true ∧
        t.dev.servo.expired = true ∧ OnlyRegs (· = TIME_STAT_HOLD_EXP.addr) d { t.dev with servo := d.servo }) ∧
    (¬ (st = servoSlew ∧ d.servo.slewRem = 0) → exec .slewComplete s = .next s) ∧
    (st = servoSlew → d.servo.slewRem = 0 → ∃ t, exec .slewComplete s = .next t ∧ t.dev.get TIME_STAT_STATE = servoAcquire ∧
      t.dev.servo.good = 0 ∧ t.dev.epochOf 0x6E = (d.epochOf 0x6E + 1) % 256 ∧
      OnlyRegs (fun a => a = TIME_STAT_STATE.addr ∨ a = TIME_RATE_Y.addr) d { t.dev with servo := d.servo, epochs := d.epochs })

/-- Links, switched frames, the store buffer, received Ruori frames and enumeration. Derived from R392, R393, R395, R396, R401, R402, R410,
R419, R423, R424. -/
def Obligations.ChainRows : Prop :=
  ∀ s : State, s.dev.dst.serves = true → ∀ (p : Fin 2),
    let d := s.dev
    let x := d.chPort p
    let gives (i : Instr) (e : Dev) : Prop := exec i s = .next { s with dev := e }
    gives (.linkUp p) (d.setf (chLink p)) ∧
    (d.flag (chLink p) = true → ∃ t, exec (.linkDown p) s = .next t ∧ t.dev.flag (chLink p) = false ∧ t.dev.flag (chCap p) = false ∧
      (t.dev.chPort p).open_ = false ∧ (t.dev.chPort p).good = 0 ∧ (t.dev.chPort p).prev = none ∧ t.clk = s.clk ∧ t.dev.mem = d.mem) ∧
    (d.flag (chLink p) = false → exec (.linkDown p) s = .next s ∧ exec (.storeBufferSend p) s = .next s ∧
      ∀ f : EthFrame, exec (.forward p f) s = .next s ∧ exec (.ruoriFrameReceived p f) s = .next s ∧ exec (.enumerationFrame p f) s = .next s) ∧
    (d.flag (chLink p) = true → ∀ f : EthFrame,
      (lengthOk f = false → gives (.forward p f) (d.bump (CHAIN_CHp_RXERR_V p))) ∧
      (lengthOk f = true → fetype f = 0x8808 → gives (.forward p f) (d.bump (CHAIN_CHp_DROP_V p))) ∧
      (lengthOk f = true → fetype f ≠ 0x8808 → d.isRuori f = false → isPtp f = false → d.flag CHAIN_CFG_ACT_FWDF = false →
        gives (.forward p f) ((d.bump (CHAIN_CHp_FOREIGN_V p)).bump (if f.bad then CHAIN_CHp_RXERR_V p else CHAIN_CHp_RXOK_V p))) ∧
      (lengthOk f = true → fetype f ≠ 0x8808 → d.isRuori f = true → brandUnit (fword f 0) = 0xFE → 1 ≤ brandAddr (fword f 0) →
        brandAddr (fword f 0) ≤ 0x40 → brandAddr (fword f 0) ≠ d.get CHAIN_STAT_ADDR →
        gives (.forward p f) ((d.bump (if f.bad then CHAIN_CHp_RXERR_V p else CHAIN_CHp_RXOK_V p)).chForward s.clk (1 - p) f) ∧
        (let q : Nat := 1 - p.val
         d.flag (chLink q) = true → d.chBusy s.clk q = false → (d.chPort q).store = [] → d.chGuarded s.clk q = false →
          ∃ t, exec (.forward p f) s = .next t ∧ (t.dev.chPort q).sent = some (s.clk.ns, f) ∧
            (t.dev.chPort q).busy = s.clk.ns + 8 * (f.bytes.length + 24) ∧ t.dev.lanes = d.lanes)) ∧
      (let mine : Prop := d.isRuori f = true ∧ brandUnit (fword f 0) ≠ 0xF0 ∧
          (d.chainMine (brandAddr (fword f 0)) = true ∨ (brandAddr (fword f 0) = 0xFF ∧ brandUnit (fword f 0) = 0xFE))
       (¬ mine → exec (.ruoriFrameReceived p f) s = .next s) ∧
       (mine → f.bad = true ∨ lengthOk f = false → brandAddr (fword f 0) ≠ 0xFF →
         gives (.ruoriFrameReceived p f) ((d.bump (CHAIN_CHp_RXERR_V p)).reportLim s.clk 141 0xFE p p)) ∧
       (mine → f.bad = false → lengthOk f = true → ruoriBlocks f 0xFE = none →
         gives (.ruoriFrameReceived p f) ((d.bump (CHAIN_CHp_MALF_V p)).reportLim s.clk 141 0xFE p p)) ∧
       (mine → f.bad = false → lengthOk f = true → ∀ bs, ruoriBlocks f 0xFE = some bs → ((d.bump (CHAIN_CHp_RXOK_V p)).headerSeq f).1 = true →
         gives (.ruoriFrameReceived p f) (((orderBlocks bs).foldl (fun e b => e.block s.clk p (bits64 (fword f 3) 0 8) b)
           ((d.bump (CHAIN_CHp_RXOK_V p)).headerSeq f).2).pktArm s.clk (193 + p))) ∧
       (mine → f.bad = false → lengthOk f = true → ∀ bs, ruoriBlocks f 0xFE = some bs → ((d.bump (CHAIN_CHp_RXOK_V p)).headerSeq f).1 = false →
         ∃ t, exec (.ruoriFrameReceived p f) s = .next t ∧ t.dev.get (CHAIN_CHp_RXOK_V p) = satU 32 (d.get (CHAIN_CHp_RXOK_V p) + 1) ∧
           t.dev.lanes = d.lanes ∧ t.dev.mem = d.mem ∧ t.dev.fab.flight = d.fab.flight)) ∧
      (d.isRuori f = false ∨ brandUnit (fword f 0) ≠ 0xF0 → exec (.enumerationFrame p f) s = .next s) ∧
      (d.isRuori f = true → brandUnit (fword f 0) = 0xF0 →
        (f.bad = true ∨ lengthOk f = false → gives (.enumerationFrame p f) ((d.bump (CHAIN_CHp_RXERR_V p)).reportLim s.clk 141 0xFE p p)) ∧
        (f.bad = false → lengthOk f = true → ∀ b bs, ruoriBlocks f 0xF0 = some (b :: bs) → brandType b.brand = 0x69 →
          ((d.bump (CHAIN_CHp_RXOK_V p)).headerSeq f).1 = true → gives (.enumerationFrame p f) (((d.bump (CHAIN_CHp_RXOK_V p)).headerSeq f).2.enumerate
            s.clk p f (bits64 (b.words.headD 0) 0 8) (bits64 (b.words.headD 0) 16 16)) ∧
          (let hop := bits64 (b.words.headD 0) 0 8
           1 ≤ hop → hop ≤ 64 → d.noLaneRunning = true → ∃ t, exec (.enumerationFrame p f) s = .next t ∧ t.clk = s.clk ∧
            t.dev.get CHAIN_STAT_ADDR = hop ∧ t.dev.get CHAIN_STAT_UP = p ∧ t.dev.flag CHAIN_STAT_UPV = true ∧
            t.dev.get CHAIN_STAT_ENUMID = bits64 (b.words.headD 0) 16 16)))) ∧
    (s.clk.ns < x.busy ∨ (x.wait = [] ∧ x.store = []) → exec (.storeBufferSend p) s = .next s) ∧
    (d.flag (chLink p) = true → x.busy ≤ s.clk.ns →
      let starts (f : EthFrame) (store : List EthFrame) : Prop := ∃ t, exec (.storeBufferSend p) s = .next t ∧ t.clk = s.clk ∧
        (t.dev.chPort p).sent = some (s.clk.ns, f) ∧ (t.dev.chPort p).busy = s.clk.ns + 8 * (f.bytes.length + 24) ∧
        (t.dev.chPort p).store = store ∧ t.dev = { d with chain := t.dev.chain }
      (∀ f r, x.wait = f :: r → starts f x.store) ∧
      (∀ f r, x.wait = [] → x.store = f :: r → if d.chGuarded s.clk p then exec (.storeBufferSend p) s = .next s else starts f r)) ∧
    (∀ b : RuoriBlock,
      (d.flag CHAIN_STAT_CTRL = false ∨ brandKind b.brand ≠ 0x6D ∨ b.words.length ≠ 8 → exec (.identity b) s = .next s) ∧
      (d.flag CHAIN_STAT_CTRL = true → brandKind b.brand = 0x6D → b.words.length = 8 →
        let (fresh, e) := d.seqCheck (brandAddr b.brand + 1) b
        (fresh = false → gives (.identity b) { d with fab := { d.fab with stale := d.fab.stale + 1 } }) ∧
        (fresh = true → d.chain.enum = none → gives (.identity b) e) ∧
        (fresh = true → d.chain.enum.isSome = true → bits64 (b.words.getD 1 0) 9 1 = 0 → ∃ t, exec (.identity b) s = .next t ∧
          t.dev.chain.idents.length = d.chain.idents.length + 1 ∧
          t = { s with dev := { d with fab := e.fab, chain := { d.chain with idents := t.dev.chain.idents } } }))) ∧
    (d.chain.enum = none ∨ (∃ w t, d.chain.enum = some (w, t) ∧ s.clk.ns < t) → exec .enumTimeout s = .next s) ∧
    (∀ w t, d.chain.enum = some (w, t) → t ≤ s.clk.ns → gives .enumTimeout (d.enumDone s.clk) ∧
      ∃ u, exec .enumTimeout s = .next u ∧ u.clk = s.clk ∧ u.dev.chain.enum = none ∧ (∀ k ∈ u.dev.work, k.id ≠ w))

/-- CAN events: reception, transmission, expiry, errors, bus-off, integration and wake from SLEEP. Derived from R431, R432, R438, R439,
R441, R442, R443, R446. -/
def Obligations.CanRows : Prop :=
  ∀ s : State, s.dev.dst.serves = true → ∀ ch : Fin 8,
    let d := s.dev
    let st := d.canState ch
    let x := d.canX ch
    let gives (i : Instr) (e : Dev) : Prop := exec i s = .next { s with dev := e }
    let onBus : Prop := canOnBus st = true ∨ st = stListen
    (∀ (f : CanFrame) (sof : Nat), let stamp := canStamp sof
      (¬ onBus ∨ (f.fdf = true ∧ d.flag (CAN_CHc_CFG_ACT_FDEN ch) = false) → exec (.canFrameReceived ch f sof) s = .next s) ∧
      (st = stListen → canOnBus st = false → (f.fdf = true → d.flag (CAN_CHc_CFG_ACT_FDEN ch) = true) → x.cur = none →
        ∃ t, exec (.canFrameReceived ch f sof) s = .next t ∧ t.clk = s.clk ∧
          (x.rx.length < 64 → (t.dev.canX ch).rx = x.rx ++ [[BitVec.ofNat 32 stamp, BitVec.ofNat 32 (stamp / 2 ^ 32),
            BitVec.ofNat 32 (CanFrame_w2 f), BitVec.ofNat 32 (CanFrame_w3 f % 2 ^ 16 + x.seq % 65536 * 2 ^ 16)] ++
              canWords (canBytes f.dlc.toNat f.fdf f.rtr) f.data]) ∧
          (64 ≤ x.rx.length → (t.dev.canX ch).rx = x.rx) ∧
          t.dev.get (CAN_CHc_ERRC_REC ch) = d.get (CAN_CHc_ERRC_REC ch) ∧ t.dev.mem = d.mem)) ∧
    (x.cur.isSome = true ∨ st = stInteg → exec (.canTransmitStart ch) s = .next s) ∧
    (x.cur = none → st ≠ stInteg →
      let d1 := d.canIdle s.clk ch
      let may : Prop := canOnBus (d1.canState ch) = true ∧ d1.dst ≠ .mirror ∧ d1.pforce = false
      (¬ may → gives (.canTransmitStart ch) d1) ∧
      (may → ∀ i, d1.canPick s.clk ch = some i → gives (.canTransmitStart ch) (d1.setCanX ch { d1.canX ch with cur := some (i, s.clk.ns) })) ∧
      (may → d1.canPick s.clk ch = none → gives (.canTransmitStart ch) d1)) ∧
    (∀ stamp tdcv : Nat,
      (x.cur = none → exec (.canTransmitEnd ch stamp tdcv) s = .next s) ∧
      (∀ i k e, x.cur = some (i, k) → x.tx[i]? = some e → e.w3.getLsbD 4 = false → d.flag (CAN_CHc_CFG_ACT_ECHO ch) = false →
        let d3 := (d.canRemove ch i s.clk.ns 0).finishDone e.work s.clk.ns
        gives (.canTransmitEnd ch stamp tdcv) ((d3.put (CAN_CHc_ERRC_TEC ch) (d3.get (CAN_CHc_ERRC_TEC ch) - 1)).canJudge s.clk ch)) ∧
      (∀ i k e, x.cur = some (i, k) → x.tx[i]? = some e → e.w3.getLsbD 4 = false → d.flag (CAN_CHc_CFG_ACT_ECHO ch) = false →
        ∃ t, exec (.canTransmitEnd ch stamp tdcv) s = .next t ∧ t.clk = s.clk ∧ (t.dev.canX ch).tx = x.tx.eraseIdx i ∧ (t.dev.canX ch).cur = none ∧
          t.dev.get (CAN_CHc_ERRC_TEC ch) = d.get (CAN_CHc_ERRC_TEC ch) - 1)) ∧
    (∀ i : Nat,
      (x.tx[i]? = none ∨ (∃ e, x.tx[i]? = some e ∧ (s.clk.ns < e.expiry ∨ x.cur.map (·.1) = some i)) →
        exec (.canEntryExpiry ch i) s = .next s) ∧
      (∀ e, x.tx[i]? = some e → e.expiry ≤ s.clk.ns → x.cur.map (·.1) ≠ some i →
        gives (.canEntryExpiry ch i) (((d.canRemove ch i e.expiry 1).finishFault e.work s.clk 153).reportLim s.clk 153 (canUnit ch)) ∧
        ∃ t, exec (.canEntryExpiry ch i) s = .next t ∧ t.clk = s.clk ∧ (t.dev.canX ch).tx = x.tx.eraseIdx i ∧
          t.dev.get (CAN_CHc_TXSTAT_UNSENT ch) = satU (CAN_CHc_TXSTAT_UNSENT ch).width (d.get (CAN_CHc_TXSTAT_UNSENT ch) + 1))) ∧
    (∀ k : CanErr,
      (¬ onBus → exec (.canBusError ch k) s = .next s) ∧
      (st = stListen → canOnBus st = false → k.kind.val < 5 → ∀ f, canCounter ch k.kind.val = some f → gives (.canBusError ch k) (d.bump f)) ∧
      (onBus → k.kind.val = 6 → k.tdcv = none → ∃ t, exec (.canBusError ch k) s = .next t ∧ (t.dev.canX ch).overloads = x.overloads + 1 ∧
        t = { s with dev := { d with can := t.dev.can } }) ∧
      (onBus → k.kind.val = 5 → d.flag (CAN_CHc_CFG_ACT_PEX ch) = true → ∃ t, exec (.canBusError ch k) s = .next t ∧
        t.dev.flag (CAN_CHc_STAT_PEXF ch) = true)) ∧
    (st ≠ stBusOff ∨ (x.recov = false ∧ d.flag (CAN_CHc_CFG_ACT_AUTOREC ch) = false) → exec (.busOffRecovered ch) s = .next s) ∧
    (st = stBusOff → x.recov = true ∨ d.flag (CAN_CHc_CFG_ACT_AUTOREC ch) = true → ∃ d1 : Dev,
      d1.get (CAN_CHc_ERRC_TEC ch) = 0 ∧ d1.get (CAN_CHc_ERRC_REC ch) = 0 ∧ d1.flag (CAN_CHc_CTL_REC ch) = false ∧ (d1.canX ch).recov = false ∧
        gives (.busOffRecovered ch) ((d1.canTo s.clk ch stActive).canIdle s.clk ch)) ∧
    (let quiet : Prop := d.imgs = [] ∧ d.flag (CAN_CHc_CTL_CMT ch) = false
     let enters (i : Instr) (v : Nat) : Prop := ∃ t, exec i s = .next t ∧ t.clk = s.clk ∧ t.dev.canState ch = v ∧
       s.dev.fab.flight.length < t.dev.fab.flight.length
     (quiet → st = stBusOff → x.recov = true ∨ d.flag (CAN_CHc_CFG_ACT_AUTOREC ch) = true → enters (.busOffRecovered ch) stActive) ∧
     (quiet → st = stInteg → enters (.busIntegration ch) (if d.canMode ch = canListen then stListen else
       if 256 ≤ d.get (CAN_CHc_ERRC_TEC ch) then stBusOff
       else if 128 ≤ d.get (CAN_CHc_ERRC_TEC ch) ∨ 128 ≤ d.get (CAN_CHc_ERRC_REC ch) then stPassive else stActive))) ∧
    (st ≠ stInteg → exec (.busIntegration ch) s = .next s) ∧
    (st = stInteg → gives (.busIntegration ch)
      ((d.canTo s.clk ch (if d.canMode ch = canListen then stListen else d.canConfined ch)).canIdle s.clk ch)) ∧
    (∀ ns : Nat,
      (st ≠ stSleep ∨ 6 ≤ ch.val ∨ ns < 500 * d.get CAN_WAKE_CFG_WFILT → exec (.sleepWake ch ns) s = .next s) ∧
      (st = stSleep → ch.val < 6 → 500 * d.get CAN_WAKE_CFG_WFILT ≤ ns → d.flag (CAN_CHc_CFG_ACT_AUTOW ch) = false →
        gives (.sleepWake ch ns) (d.setf (CAN_CHc_STAT_WAKE ch))))

/-- The pair link: training, loss, frames, heartbeats, misses and mirror records. Derived from R453, R454, R455, R456, R458, R461, R464. -/
def Obligations.PairLinkRows : Prop :=
  ∀ s : State, s.dev.dst.serves = true →
    let d := s.dev
    let gives (i : Instr) (e : Dev) : Prop := exec i s = .next { s with dev := e }
    let beatNow := s.clk.ns / 2000 * 2000
    (∀ (same : Bool) (addr : BitVec 8), ∃ t, exec (.pairLinkTrained same addr) s = .next t ∧ t.dev.flag PAIR_STAT_LINK = true ∧
      t.dev.get PAIR_STAT_PADDR = addr.toNat ∧ t.dev.pair.same = same ∧ t.dev.pair.beat = s.clk.ns / 2000 ∧
      KeepsRegs (fun a => a = PAIR_STAT_LINK.addr ∨ a = PAIR_STAT_PADDR.addr) d t.dev ∧
      t = { s with dev := { d with regs := t.dev.regs, pair := { d.pair with same := same, beat := s.clk.ns / 2000 } } }) ∧
    (d.flag PAIR_STAT_LINK = false → exec .pairLinkLost s = .next s ∧ exec .heartbeatSend s = .next s ∧
      (∀ (crc : W64) (f : LinkFrame), exec (.pairLinkFrame crc f) s = .next s) ∧
      (∀ h : Heartbeat, exec (.heartbeatReceived h) s = .next s) ∧ ∀ code : BitVec 16, exec (.safeNotice code) s = .next s) ∧
    (d.flag PAIR_STAT_LINK = true →
      gives .pairLinkLost ((d.setf PAIR_STAT_LINK false).reportLim s.clk 160 0x6F) ∧
      (∀ (crc : W64) (f : LinkFrame),
        let whole : Prop := f.words.length = bits64 f.header 8 8 ∧ f.words.length ≤ 64 ∧ crc.toNat = crcWords (f.header :: f.words)
        (whole → gives (.pairLinkFrame crc f) { d with pair := { d.pair with link := { d.pair.link with rx := some f.header } } }) ∧
        (¬ whole → gives (.pairLinkFrame crc f) ((d.bump PAIR_CNT_LERR).reportLim s.clk 160 0x6F))) ∧
      (beatNow ≤ d.pair.sentAt ∨ s.clk.ns < d.flt.silentUntil → exec .heartbeatSend s = .next s) ∧
      (d.pair.sentAt < beatNow → d.flt.silentUntil ≤ s.clk.ns → ∃ t, exec .heartbeatSend s = .next t ∧ t.clk = s.clk ∧
        t.dev.pair.sentAt = beatNow ∧ t.dev.pair.sent = [] ∧ hbRole t.dev.pair.word = d.role ∧ hbState t.dev.pair.word = d.dst.code ∧
        hbPstate t.dev.pair.word = d.pstate ∧ hbAllow t.dev.pair.word = d.flag PAIR_CFG_ALLOW ∧
        hbCount t.dev.pair.word = t.dev.pair.out.length % 2 ^ 16 ∧ bits64 t.dev.pair.word 32 32 = s.clk.ns % 2 ^ 32 ∧ t.dev.mem = d.mem ∧
        (d.role ≠ roleActive → t.dev.pair.out = d.pair.sent) ∧
        (∃ f, f ∈ t.dev.pair.link.frames ∧ bits64 f.header 0 8 = 0 ∧ f.words.headD 0 = t.dev.pair.word)) ∧
      (∀ h : Heartbeat,
        (hbInstant s.clk h.word + 1000 < s.clk.ns → exec (.heartbeatReceived h) s = .next s) ∧
        (s.clk.ns ≤ hbInstant s.clk h.word + 1000 → d.role = 0 → ∃ t, exec (.heartbeatReceived h) s = .next t ∧
          t.dev.get PAIR_STAT_MISS = 0 ∧ t.dev.pair.seen = some h.word ∧ t.dev.getI PAIR_OFFS_OFFS = satS 32 (hbOffset s.clk h) ∧
          t.dev.lanes = d.lanes ∧ t.dev.mem = d.mem ∧ t.dev.dst = d.dst)) ∧
      (∀ code : BitVec 16, code.toNat % 1024 ∉ [34, 111, 115, 121, 203, 77, 165, 175] →
        gives (.safeNotice code) { d with pair := { d.pair with notice := some s.clk.ns } }) ∧
      (∀ code : BitVec 16, code.toNat % 1024 ∈ [77, 165, 175] → d.role = roleStandby → d.dst = .mirror →
        ∃ t, exec (.safeNotice code) s = .next t ∧ t.clk = s.clk ∧ t.dev.dst = .safe ∧ t.dev.pstate = psLost ∧ t.dev.work = [] ∧
          t.dev.get MBX_STAT_EPOCH = (d.get MBX_STAT_EPOCH + 1) % 2 ^ 8) ∧
      (∀ code : BitVec 16, code.toNat % 1024 ∈ [34, 111, 115, 121, 203] → d.role = roleStandby → d.pstate = psMirrored → d.dst = .mirror →
        d.flt.active = [] → ∃ t, exec (.safeNotice code) s = .next t ∧ t.dev.role = roleActive ∧ t.dev.dst = .run ∧ t.dev.pstate = psLost ∧
          t.dev.get MBX_STAT_EPOCH = (d.get MBX_STAT_EPOCH + 1) % 2 ^ 8)) ∧
    (s.clk.ns < 1000 ∨ (s.clk.ns - 1000) / 2000 ≤ d.pair.beat ∨ d.pstate = psSolo → exec .heartbeatMiss s = .next s) ∧
    (1000 ≤ s.clk.ns → d.pair.beat < (s.clk.ns - 1000) / 2000 → d.pstate ≠ psSolo →
      (let n := min 15 (d.get PAIR_STAT_MISS + 1)
       let e : Dev := ({ d with pair := { d.pair with beat := d.pair.beat + 1 } } : Dev).put PAIR_STAT_MISS n
       (n ≠ 3 → gives .heartbeatMiss e) ∧
       (n = 3 → ¬ (d.role = roleStandby ∧ d.pstate = psMirrored ∧ d.dst = .mirror ∧ d.flt.active = []) →
         gives .heartbeatMiss (if d.pstate = psLost then e else (e.pairTo psLost).record s.clk 166 0x6F 0)) ∧
       (n = 3 → d.role = roleStandby → d.pstate = psMirrored → d.dst = .mirror → d.flt.active = [] →
         gives .heartbeatMiss (e.takeover s.clk) ∧ ∃ t, exec .heartbeatMiss s = .next t ∧ t.clk = s.clk ∧ t.dev.role = roleActive ∧
           t.dev.dst = .run ∧ t.dev.pstate = psLost ∧ t.dev.pair.tk = some s.clk.ns ∧ t.dev.pair.resume = s.clk.ns + 2000 ∧
           t.dev.work = [] ∧ t.dev.get MBX_STAT_EPOCH = (d.get MBX_STAT_EPOCH + 1) % 2 ^ 8))) ∧
    (∀ (r : MirrorRec) (ws : List W64) (m : Fin 16) (rs : List Packet),
      (d.follows = false → exec (.mirrorRecord r) s = .next s ∧ exec (.snapshot rs) s = .next s ∧ exec (.requestHold m ws) s = .next s ∧
        exec (.decision m ws) s = .next s) ∧
      (d.follows = true →
        gives (.mirrorRecord r) (({ d with pair := { d.pair with got := d.pair.got + 1 } } : Dev).takeRecord s.clk r) ∧
        (brandType r.brand = 0x76 → s.clk.ns < r.timeNs → ((recPairs r).all fun x => isProfile x.1) = false →
          ∃ t, exec (.mirrorRecord r) s = .next t ∧
          t = { s with dev := { d with pair := { d.pair with got := d.pair.got + 1, recs := d.pair.recs ++ [r] } } }) ∧
        gives (.snapshot rs) (rs.foldl (fun e r => e.takeRecord s.clk r) d)))

/-- Held requests, decisions, readback compares, PFORCE_N, OWN_IN and failed joins. Derived from R452, R461, R464, R465, R466, R467, R473.
-/
def Obligations.PairRequestAndForcingRows : Prop :=
  ∀ s : State, s.dev.dst.serves = true →
    let d := s.dev
    let gives (i : Instr) (e : Dev) : Prop := exec i s = .next { s with dev := e }
    let able : Prop := d.role = roleStandby ∧ d.pstate = psMirrored ∧ d.dst = .mirror ∧ d.flt.active = []
    let per := 2 * d.get PAIR_CFG_RBPER
    let now := s.clk.ns / per * per
    (∀ (m : Fin 16) (ws : List W64), d.follows = true →
      (let id := 65536 * m.val + brandSeq (ws.headD 0)
       ∃ t, exec (.requestHold m ws) s = .next t ∧ t.dev.pair.store.get (fun _ => []) id = ws ∧
        (∀ k, k ≠ id → t.dev.pair.store.get (fun _ => []) k = d.pair.store.get (fun _ => []) k) ∧
        t.dev.pair.link.frames.dropLast = d.pair.link.frames ∧ t.dev.pair.link.frames.getLast?.map (fun f => (bits64 f.header 0 8, f.words)) =
          some (3, [BitVec.ofNat 64 (m.val + brandSeq (ws.headD 0) * 2 ^ 16)]) ∧
        t = { s with dev := { d with pair := { d.pair with store := t.dev.pair.store, link := t.dev.pair.link } } }) ∧
      (let w3 := ws.getD 3 0
       let id := 65536 * m.val + bits64 w3 32 16
       ∃ t, exec (.decision m ws) s = .next t ∧ t.dev.get (MBX_Mm_SEQ_LAST m) = bits64 w3 32 16 ∧
        t.dev.flag (MBX_Mm_STAT_SEQV m) = true ∧ t.dev.pair.decided.get (fun _ => []) m = ws ∧ t.dev.lanes = d.lanes ∧
        (bits64 w3 16 2 ≠ 0 → t.dev.pair.store.get (fun _ => []) id = []) ∧
        (∀ k ∈ t.dev.work, k.id = id ∨ k ∈ d.work) ∧
        (bits64 w3 16 2 = 0 → onlyAccepted.contains (bits64 w3 0 16) = false → ∃ k ∈ t.dev.work, k.id = id ∧
          k.opc = bits64 w3 0 16 ∧ k.promise = (ws.getD 1 0).toNat ∧ k.src.toNat = brandAddr (ws.headD 0)) ∧
        (bits64 w3 0 16 ≠ 0x0212 → t.dev.mem = d.mem ∧
          KeepsRegs (fun a => a = (MBX_Mm_SEQ_LAST m).addr ∨ a = (MBX_Mm_STAT_SEQV m).addr) d t.dev))) ∧
    (∀ (m : Fin 16) (seq : BitVec 16),
      (d.role ≠ roleActive ∨ (m.val, seq.toNat) ∈ d.pair.held → exec (.holdAcknowledge m seq) s = .next s) ∧
      (d.role = roleActive → (m.val, seq.toNat) ∉ d.pair.held →
        gives (.holdAcknowledge m seq) { d with pair := { d.pair with held := d.pair.held ++ [(m.val, seq.toNat)] } })) ∧
    (∀ levels : Nat,
      (per = 0 ∨ now ≤ d.pair.rbAt ∨ d.role ≠ roleStandby ∨ d.pstate ≠ psMirrored ∨ d.dst ≠ .mirror →
        exec (.readbackCompare levels) s = .next s) ∧
      (per ≠ 0 → d.pair.rbAt < now → d.role = roleStandby → d.pstate = psMirrored → d.dst = .mirror →
        (let e : Dev := { d with pair := { d.pair with rbAt := now } }
         let n := min 15 (d.get PAIR_STAT_RBRUN + 1)
         let bad : Dev := ((e.bump PAIR_CNT_RBMIS).put PAIR_STAT_RBRUN n).reportLim s.clk 164 0x6F
         ((∀ p ∈ d.shadowLines now, levels.testBit p.1 = p.2) → gives (.readbackCompare levels) (e.put PAIR_STAT_RBRUN 0)) ∧
         ((∃ p ∈ d.shadowLines now, levels.testBit p.1 ≠ p.2) → n < d.get PAIR_CFG_RBLIM → gives (.readbackCompare levels) bad) ∧
         ((∃ p ∈ d.shadowLines now, levels.testBit p.1 ≠ p.2) → d.get PAIR_CFG_RBLIM ≤ n → d.flt.active = [] →
           gives (.readbackCompare levels) (bad.takeover s.clk))))) ∧
    (d.flag PAIR_STAT_PULL = true ∨ d.pforce = true → gives .pforceNLow (d.setf PAIR_STAT_PFORCE false)) ∧
    (d.flag PAIR_STAT_PULL = false → d.pforce = false → ∃ t, exec .pforceNLow s = .next t ∧ t.dev.pforce = true ∧
      t.dev.flag PAIR_STAT_PFORCE = false ∧
      (d.role = roleActive → d.dst = .ready ∨ d.dst = .run → t.dev.dst = .safe ∧ t.dev.work = []) ∧
      (d.role ≠ roleActive ∨ ¬ (d.dst = .ready ∨ d.dst = .run) → t.dev.dst = d.dst ∧ t.dev.lanes = d.lanes)) ∧
    (d.flag PAIR_STAT_PULL = true → exec .pforceNRelease s = .next s) ∧
    (d.flag PAIR_STAT_PULL = false → ∃ t, exec .pforceNRelease s = .next t ∧ t.dev.pforce = false ∧ t.dev.flag PAIR_STAT_PFORCE = true ∧
      t.dev.dst = d.dst ∧ t.dev.lanes = d.lanes ∧ t.dev.mem = d.mem) ∧
    (let e := d.setf PAIR_STAT_OWNIN false
     (∀ t, d.pair.notice = some t → s.clk.ns ≤ t + 1000 → gives .ownInFall e) ∧
     ((∀ t, d.pair.notice = some t → t + 1000 < s.clk.ns) → (able → gives .ownInFall (e.takeover s.clk)) ∧ (¬ able → gives .ownInFall e))) ∧
    (d.pair.join = none ∨ d.pstate = psMirrored ∨ (∃ t w, d.pair.join = some (t, w) ∧ s.clk.ns < t) → exec .joinFailed s = .next s) ∧
    (∀ t w, d.pair.join = some (t, w) → t ≤ s.clk.ns → d.pstate ≠ psMirrored → ∃ u, exec .joinFailed s = .next u ∧
      u.dev.pair.join = none ∧ u.dev.role = 0 ∧ u.dev.pstate = psSolo ∧ u.dev.dst = d.dst ∧
      (∀ x ∈ u.dev.work, x ∈ d.work ∧ x.id ≠ w))

/-- The safety unit's cycle, timers and diagnostics. Derived from R480, R481, R486, R487, R489, R490, R491, R493, R494, R496, R498. -/
def Obligations.SafetyUnitRows : Prop :=
  ∀ s : State,
    let d := s.dev
    let c := s.clk
    (d.timeRuns = false → exec .supsil s = .next s ∧
      (∀ b : Bool, exec (.oscCheck b) s = .next s) ∧ (∀ a b : Bool, exec (.safetyCrcCheck a b) s = .next s) ∧
      (∀ g : Fin 4, exec (.ss1Expiry g) s = .next s ∧ exec (.slsRampEnd g) s = .next s) ∧
      (∀ i : Fin 8, exec (.resetStuck i) s = .next s ∧ ∀ b : Bool, exec (.testPulse b i) s = .next s) ∧
      ∀ i : SafetyIn, exec (.safetyCycle i) s = .next s) ∧
    (exec (.oscCheck true) s = .next s ∧ exec (.safetyCrcCheck true true) s = .next s) ∧
    (d.timeRuns = true →
      (let fails (i : Instr) (cause : Nat) : Prop :=
        (d.flag SAFE_STAT_DIAG = true → exec i s = .next s) ∧
        (d.flag SAFE_STAT_DIAG = false → ∃ t, exec i s = .next t ∧ t.dev.flag SAFE_STAT_DIAG = true ∧ t.dev.get SAFE_DIAG_CAUSE = cause ∧
          (∀ g < 4, t.dev.sg g = sgSto ∧ t.dev.flag (SAFE_Gg_STAT_STOPIN g) = false) ∧
          (d.dst = .ready ∨ d.dst = .run ∨ d.dst = .mirror → t.dev.dst = .safe) ∧
          (d.dst.serves = true → 175 ∈ t.dev.flt.active) ∧ t.clk = c ∧ t.pending = s.pending)
       fails (.oscCheck false) 4 ∧ (∀ b : Bool, fails (.safetyCrcCheck false b) 1) ∧ fails (.safetyCrcCheck true false) 3 ∧
       (d.safe.watch = true → d.dst.serves = true → fails .supsil 7) ∧
       (d.safe.watch = false ∨ d.dst.serves = false → exec .supsil s = .next s)) ∧
      (∀ g : Fin 4,
        let due (n : Nat) : Prop := d.sg g = sgSs1 ∧ 10 * d.get (SAFE_Gg_SS1T_ACT_SS1T g) ≤ d.safe.n - n
        ((∀ n, d.safe.ss1.get (fun _ => none) g = some n → ¬ due n) → exec (.ss1Expiry g) s = .next s) ∧
        (∀ n, d.safe.ss1.get (fun _ => none) g = some n → due n → ∃ t, exec (.ss1Expiry g) s = .next t ∧ t.dev.sg g = sgSto ∧
          t.dev.flag (SAFE_Gg_STAT_STOPIN g) = false ∧ ∀ k < 4, k ≠ g.val → t.dev.sg k = d.sg k) ∧
        ((∀ n, d.safe.sls.get (fun _ => none) g = some n → d.safe.n - n < 10 * d.get SAFE_SLS_ACT_SLSRAMP) → exec (.slsRampEnd g) s = .next s) ∧
        (∀ n, d.safe.sls.get (fun _ => none) g = some n → 10 * d.get SAFE_SLS_ACT_SLSRAMP ≤ d.safe.n - n → ∃ t,
          exec (.slsRampEnd g) s = .next t ∧ t.dev.safe.ramped.get (fun _ => false) g = true ∧
          t = { s with dev := { d with safe := { d.safe with ramped := t.dev.safe.ramped } } })) ∧
      (∀ i : Fin 8,
        ((∀ p, (d.safeIn i).press = some p → 4 * d.safe.n - p < 80000) → exec (.resetStuck i) s = .next s) ∧
        (∀ p, (d.safeIn i).press = some p → 80000 ≤ 4 * d.safe.n - p → ∃ t, exec (.resetStuck i) s = .next t ∧
          t.dev.flag SAFE_STAT_STUCK = true ∧ (t.dev.safeIn i).press = none ∧ (t.dev.safeIn i).stuck = true ∧ ∀ g < 4, t.dev.sg g = d.sg g) ∧
        (∀ b : Bool,
          (d.get (SAFE_SIi_CFG_ACT_TYPE i) ≠ 3 ∨ (d.fioCh (24 + i)).cmd = b → exec (.testPulse b i) s = .next s) ∧
          (d.get (SAFE_SIi_CFG_ACT_TYPE i) = 3 → ∃ t, exec (.testPulse b i) s = .next t ∧ (t.dev.fioCh (24 + i)).cmd = b ∧
            (∀ k, k ≠ 24 + i.val → t.dev.fioCh k = d.fioCh k) ∧ t.dev.regs = d.regs))) ∧
      ∀ i : SafetyIn, ∃ t, exec (.safetyCycle i) s = .next t ∧ t.dev.safe.n = d.safe.n + 1 ∧ t.dev.safe.events = 0 ∧ t.clk = c ∧
        t.pending = s.pending ∧
        (t.dev.flag SAFE_STAT_DIAG = true → d.safe.cfg = none → d.flag SAFE_STAT_DIAG = false → ∀ g < 4, t.dev.sg g = sgSto) ∧
        (d.safe.cfg = none → ∀ g < 4,
          (d.sg g = sgSto → t.dev.sg g = sgSto ∨ t.dev.sg g = sgWait) ∧
          (d.sg g = sgInit → t.dev.sg g = sgInit ∨ t.dev.sg g = sgWait ∨ t.dev.sg g = sgSto) ∧
          (d.sg g = sgWait → (t.dev.sg g = sgWait ∨ t.dev.sg g = sgSto ∨ t.dev.sg g = sgEnable) ∧
            ((∀ k < 8, d.get (SAFE_SIi_CFG_ACT_ROLE k) ≠ 3) → t.dev.sg g ≠ sgEnable)) ∧
          (d.sg g = sgEnable → t.dev.sg g = sgEnable ∨ t.dev.sg g = sgSto ∨ t.dev.sg g = sgSs1) ∧
          (d.sg g = sgSs1 → t.dev.sg g = sgSs1 ∨ t.dev.sg g = sgSto)) ∧
        (∀ g < 4, t.dev.flag (SAFE_Gg_STAT_STOPIN g) = true → (t.dev.sg g = sgEnable ∨ t.dev.sg g = sgSs1) ∧
          t.dev.flag SAFE_STAT_DIAG = false ∧ (t.dev.dst = .ready ∨ t.dev.dst = .run ∨ t.dev.dst = .mirror)))

/-- The field frame, protection, the field watchdog, the diagnostic window and the field supply. Derived from R506, R507, R511, R512, R515,
R516, R518. -/
def Obligations.FieldRows : Prop :=
  ∀ s : State,
    let d := s.dev
    let gives (i : Instr) (e : Dev) : Prop := exec i s = .next { s with dev := e }
    let frame := (s.clk.ns - 1500) / 5000 * 5000
    (d.dst.serves = false → exec .diagnosticWindowEnd s = .next s ∧ (∀ i : FieldIn, exec (.fieldFrame i) s = .next s) ∧
      ∀ ch : Fin 32, exec (.outputOverload ch) s = .next s ∧ exec (.inputOverload ch) s = .next s) ∧
    (d.dst.serves = true →
      (∀ i : FieldIn,
        (s.clk.ns < 1500 ∨ frame ≤ d.fio.lastFrame → exec (.fieldFrame i) s = .next s) ∧
        (1500 ≤ s.clk.ns → d.fio.lastFrame < frame → ∃ t, exec (.fieldFrame i) s = .next t ∧ t.dev.fio.lastFrame = frame ∧
          t.dev.fio.wd = false ∧ (d.fio.wd = true → t.dev.flag FIO_STAT_WDEXP = true) ∧ t.clk = s.clk ∧ t.dev.lanes = d.lanes ∧
          t.dev.dst = d.dst ∧ t.pending = s.pending)) ∧
      (∀ ch : Fin 32,
        (d.dieMode ch ≠ 3 → exec (.outputOverload ch) s = .next s) ∧
        (d.dieMode ch ≠ 1 ∧ d.dieMode ch ≠ 2 → exec (.inputOverload ch) s = .next s) ∧
        (∀ i : Instr, (i = .outputOverload ch ∧ d.dieMode ch = 3) ∨ (i = .inputOverload ch ∧ (d.dieMode ch = 1 ∨ d.dieMode ch = 2)) →
          ∃ t, exec i s = .next t ∧ t.dev.flag (FIO_CHcc_OUT_LATCH ch) = true ∧ (t.dev.fioCh ch).ovl = true ∧ t.dev.fioOn ch = false ∧
            KeepsRegs (fun a => a = (FIO_CHcc_OUT_LATCH ch).addr) d t.dev ∧ (∀ k, k ≠ ch.val → t.dev.fioCh k = d.fioCh k) ∧
            t = { s with dev := { d with regs := t.dev.regs, fio := { d.fio with ch := t.dev.fio.ch } } })) ∧
      (∃ t, exec .diagnosticWindowEnd s = .next t ∧ t.dev.fio.wins = d.fio.wins.filter (fun w => decide (s.clk.ns < w.2.1)) ∧
        t.dev.flag FIO_STAT_WIN = (d.fio.winBoot || t.dev.fio.wins.any fun w => decide (w.1 ≤ s.clk.ns)) ∧ t.dev.fio.ch = d.fio.ch ∧
        t.clk = s.clk ∧ t.dev.dst = d.dst) ∧
      (d.fio.low = false → ∃ t, exec .vfldLow s = .next t ∧ t.dev.flag FIO_STAT_VLOW = true ∧ t.dev.fio.low = true ∧ (∀ cc, t.dev.fioOn cc = false) ∧
        t.dev.lanes = d.lanes ∧ t.dev.dst = d.dst)) ∧
    (d.fio.wd = true ∨ (d.dst.serves = true ∧ s.clk.ns < d.fio.lastFrame + 950000 * d.get FIO_WDT_ACT_WDT) →
      exec .fieldWatchdog s = .next s) ∧
    (d.fio.wd = false → (d.dst.serves = true → d.fio.lastFrame + 950000 * d.get FIO_WDT_ACT_WDT ≤ s.clk.ns) →
      ∃ t, exec .fieldWatchdog s = .next t ∧ t.dev.fio.wd = true ∧ t.dev.regs = d.regs ∧
      (∀ cc < 32, (t.dev.fioCh cc).cmd = (d.fioCh cc).safest) ∧ (∀ cc, 32 ≤ cc → t.dev.fioCh cc = d.fioCh cc) ∧
      t = { s with dev := { d with fio := t.dev.fio } }) ∧
    (d.fio.low = true → exec .vfldLow s = .next s) ∧
    (d.fio.low = false → d.dst.serves = false → gives .vfldLow { d with fio := { d.fio with low := true } }) ∧
    gives .vfldRestored { d with fio := { d.fio with low := false } } ∧
    (∃ t, exec .fieldDieReset s = .next t ∧ (∀ cc < 32, t.dev.flag (FIO_CHcc_OUT_LATCH cc) = false) ∧ t.dev.fio.ch = [] ∧
      t.dev.fio.common = false ∧ t.dev.fio.wd = false ∧ (∀ cc < 24, t.dev.fioOn cc = false) ∧
      KeepsRegs (fun a => ∃ cc < 32, a = (FIO_CHcc_OUT_LATCH cc).addr) d t.dev ∧
      t = { s with dev := { d with regs := t.dev.regs, fio := t.dev.fio } })

/-- Capture samples, scrub reads, fault injection and the end of a disputed lane. Derived from R526, R529, R534, R545, R547, R548, R558,
R561, R562. -/
def Obligations.CaptureScrubAndInjectionRows : Prop :=
  ∀ s : State, s.dev.dst.serves = true →
    let d := s.dev
    let gives (i : Instr) (e : Dev) : Prop := exec i s = .next { s with dev := e }
    (∀ r : Fin 8,
      let x := d.capX r
      let lag := 1000 * d.get (CAP_Rr_CFG_ACT_RLAG r)
      (∀ t, x.next = some t → s.clk.ns < t + lag → exec (.captureSample r) s = .next s) ∧
      (x.next = none → x.stop = none → exec (.captureSample r) s = .next s) ∧
      (∀ t, x.next = some t → t + lag ≤ s.clk.ns → x.stop = none → x.trig = none → d.get (CAP_Rr_POST_ACT_N r) ≠ 0 → x.pos < d.capRing r →
        let n := (d.capChans r).length
        let base := d.capSegBase r (d.get (CAP_Rr_STAT_WSEG r)) + 64 + x.pos * frameBytes n
        ∃ u, exec (.captureSample r) s = .next u ∧ (u.dev.capX r).last = t ∧ (u.dev.capX r).next = some (t + d.capT r) ∧
          (u.dev.capX r).count = x.count + 1 ∧ (u.dev.capX r).stored = min (d.capRing r) (x.stored + 1) ∧
          (u.dev.capX r).pos = (x.pos + 1) % d.capRing r ∧ u.clk = s.clk ∧
          (x.armWork = none → KeepsMem (fun a => base ≤ a ∧ a < base + frameBytes n) d u.dev))) ∧
    (∀ addr : W32,
      let w := addr.toNat / 8 * 8
      let r := d.rdWord w
      (isScrubbed addr.toNat = false → exec (.scrubRead addr) s = .next s) ∧
      (isScrubbed addr.toNat = true → d.flt.scrubbed + 1 < scrubWords → r.bad = false →
        (r.syn = 0 → gives (.scrubRead addr) { d with flt := { d.flt with scrubbed := d.flt.scrubbed + 1 } }) ∧
        (r.syn ≠ 0 → isHerderMem w = false → d.injMask w = none → ∃ t, exec (.scrubRead addr) s = .next t ∧ (t.dev.rdWord w).syn = 0 ∧
          (t.dev.rdWord w).data = r.data ∧ (∀ a, a < w ∨ w + 8 ≤ a → t.dev.byte a = d.byte a) ∧ t.dev.lanes = d.lanes)) ∧
      (isScrubbed addr.toNat = true → r.bad = false → r.syn = 0 → scrubWords ≤ d.flt.scrubbed + 1 → ∃ t, exec (.scrubRead addr) s = .next t ∧
        t.dev.flt.scrubbed = 0 ∧ t.dev.flt.passFrom = s.clk.osc ∧ t.dev.mem = d.mem)) ∧
    (∀ dr : BitVec 128,
      let kind := dr.toNat % 2 ^ 3
      let at_ := dr.toNat / 2 ^ 64
      (kind = 0 ∨ at_ ≠ 0 → ∃ t, exec (.fltinj dr) s = .next t ∧ t.dev.get FLT_INJ_CFG_KIND = kind ∧
        t.dev.get FLT_INJ_CFG_POSA = dr.toNat / 2 ^ 4 % 2 ^ 7 ∧ t.dev.get FLT_INJ_CFG_POSB = dr.toNat / 2 ^ 12 % 2 ^ 7 ∧
        t.dev.get FLT_INJ_ARG_V = dr.toNat / 2 ^ 32 % 2 ^ 32 ∧ t.dev.get64 FLT_INJ_T_LO_V FLT_INJ_T_HI_V = at_ ∧
        t.dev.flag FLT_INJ_CFG_DONE = false ∧ t.dev.flag FLT_INJ_CFG_REJ = false ∧ t = { s with dev := { d with regs := t.dev.regs } }) ∧
      (kind ≠ 0 → at_ = 0 → ∃ t, exec (.fltinj dr) s = .next t ∧ t.dev.get FLT_INJ_CFG_KIND = 0 ∧ t.dev.flag FLT_INJ_CFG_DONE = true)) ∧
    (let tick := max 1 (d.get HERDER_CTRL_TICK * 250)
     let due := (d.get64 FLT_INJ_T_LO_V FLT_INJ_T_HI_V + tick - 1) / tick * tick
     (d.get FLT_INJ_CFG_KIND = 0 ∨ s.clk.ns < due → exec .faultInjection s = .next s) ∧
     (d.get FLT_INJ_CFG_KIND ≠ 0 → due ≤ s.clk.ns → ∃ t, exec .faultInjection s = .next t ∧ t.dev.get FLT_INJ_CFG_KIND = 0 ∧
       t.dev.flag FLT_INJ_CFG_DONE = true ∧
       (d.get FLT_INJ_CFG_KIND = 3 → 170 ≤ d.get FLT_INJ_ARG_V % 1024 → d.get FLT_INJ_ARG_V % 1024 ≤ 176 →
         t.dev.flag FLT_INJ_CFG_REJ = true ∧ t = { s with dev := { d with regs := t.dev.regs } }) ∧
       (d.get FLT_INJ_CFG_KIND = 4 → t = { s with dev := { d with regs := t.dev.regs, flt := { d.flt with
         silentUntil := s.clk.ns + 1000 * d.get FLT_INJ_ARG_V } } }))) ∧
    (∀ l : Fin 24,
      let x := d.lane l
      (x.disputed = false ∨ x.state ≠ .stopping ∨ s.clk.ns < x.disputedAt + 1000000000 → exec (.disputedTimeout l) s = .next s) ∧
      (x.disputed = true → x.state = .stopping → x.disputedAt + 1000000000 ≤ s.clk.ns → ∃ t, exec (.disputedTimeout l) s = .next t ∧
        (t.dev.lane l).state = .disabled ∧ (t.dev.lane l).disputed = true ∧ (∀ u, u ≠ l.val → t.dev.lane u = d.lane u) ∧ t.clk = s.clk))

/-- Where the device serves nothing, every row but those of power, reset, boot, safety and field supply leaves the state alone. Derived from
R39, R358, R479. -/
def Obligations.OffServiceNothingHappens : Prop :=
  ∀ (i : Instr) (s : State), s.dev.dst.serves = false →
    match i with
    | .bootst | .powerOn | .brownOut | .resetNLow _ | .resetNRise | .softReset | .standbyEntry | .wakeN _ | .hpiCsNWake _ | .canEdgeWake _ _
    | .canWakeFrame _ _ | .overTemperature _ | .coolDown _ | .vioBankRise _ | .vioBankFall _ | .bootComplete _ | .bootFailure _
    | .safetyCycle _ | .ss1Expiry _ | .slsRampEnd _ | .resetStuck _ | .oscCheck _ | .safetyCrcCheck _ _ | .fieldWatchdog | .vfldLow
    | .vfldRestored | .fieldDieReset | .testPulse _ _ => True
    | _ => exec i s = .next s
end

