-- ==== Sys2Proof/Laws/Table.lean ====
section
/-! SUPPORT. Sparse tables: what a read gives after a write, and that a write keeps the canonical form. -/

namespace Sys2Proof.Machine

variable {α : Type} {dflt : Nat → α} {t : Tab α} {j k : Nat} {v : α}

theorem Tab.get_ins_self (h : ∀ p ∈ t, p.1 ≠ k) : Tab.get dflt (Tab.ins k v t) k = v := by
  induction t with
  | nil => simp [Tab.ins, Tab.get]
  | cons p t ih =>
    obtain ⟨a, w⟩ := p
    have ha : a ≠ k := h (a, w) (by simp)
    have hr : ∀ p ∈ t, p.1 ≠ k := fun p hp => h p (by simp [hp])
    by_cases hk : k < a
    · simp [Tab.ins, Tab.get, hk]
    · simp [Tab.ins, Tab.get, hk, ha, ih hr]

theorem Tab.get_ins_other (hj : k ≠ j) : Tab.get dflt (Tab.ins k v t) j = Tab.get dflt t j := by
  induction t with
  | nil => simp [Tab.ins, Tab.get, hj]
  | cons p t ih =>
    obtain ⟨a, w⟩ := p
    by_cases hk : k < a
    · rw [Tab.ins, if_pos hk, Tab.get, if_neg hj]
    · rw [Tab.ins, if_neg hk, Tab.get, Tab.get, ih]

theorem Tab.get_erase_self : Tab.get dflt (t.filter fun p => p.1 ≠ k) k = dflt k := by
  induction t with
  | nil => simp [Tab.get]
  | cons p t ih =>
    obtain ⟨a, w⟩ := p
    by_cases ha : a = k
    · simpa [List.filter_cons, ha] using ih
    · simpa [List.filter_cons, ha, Tab.get] using ih

theorem Tab.get_erase_other (hj : k ≠ j) : Tab.get dflt (t.filter fun p => p.1 ≠ k) j = Tab.get dflt t j := by
  induction t with
  | nil => simp [Tab.get]
  | cons p t ih =>
    obtain ⟨a, w⟩ := p
    by_cases ha : a = k
    · have hk : a ≠ j := by rw [ha]; exact hj
      simpa [List.filter_cons, ha, Tab.get, hj] using ih
    · by_cases hb : a = j
      · have hc : ¬ j = k := fun h => hj h.symm
        simp [Tab.get, hb, hc]
      · simpa [List.filter_cons, ha, hb, Tab.get] using ih

/-- A read after a write: the value at the key written, every other key as before. -/
theorem Tab.get_set [DecidableEq α] :
    Tab.get dflt (Tab.set dflt t k v) j = if k = j then v else Tab.get dflt t j := by
  have hf : ∀ p ∈ (t.filter fun p => p.1 ≠ k), p.1 ≠ k := by
    intro p hp
    simpa using (List.mem_filter.mp hp).2
  by_cases hj : k = j
  · subst hj
    by_cases hv : v = dflt k
    · rw [if_pos rfl, Tab.set, if_pos hv, Tab.get_erase_self, hv]
    · rw [if_pos rfl, Tab.set, if_neg hv, Tab.get_ins_self hf]
  · by_cases hv : v = dflt k
    · rw [if_neg hj, Tab.set, if_pos hv, Tab.get_erase_other hj]
    · rw [if_neg hj, Tab.set, if_neg hv, Tab.get_ins_other hj, Tab.get_erase_other hj]

@[simp] theorem Tab.get_set_self [DecidableEq α] : Tab.get dflt (Tab.set dflt t k v) k = v := by
  rw [Tab.get_set, if_pos rfl]

theorem Tab.get_set_ne [DecidableEq α] (h : k ≠ j) : Tab.get dflt (Tab.set dflt t k v) j = Tab.get dflt t j := by
  rw [Tab.get_set, if_neg h]

/-! The canonical form. -/

theorem Tab.wf_cons [DecidableEq α] {p : Nat × α} :
    Tab.wf dflt (p :: t) = true ↔ p.2 ≠ dflt p.1 ∧ (∀ q ∈ t, p.1 < q.1) ∧ Tab.wf dflt t = true := by
  obtain ⟨a, w⟩ := p
  simp [Tab.wf, and_assoc]

theorem Tab.wf_filter [DecidableEq α] (f : Nat × α → Bool) (h : Tab.wf dflt t = true) :
    Tab.wf dflt (t.filter f) = true := by
  induction t with
  | nil => simp [Tab.wf]
  | cons p t ih =>
    obtain ⟨h1, h2, h3⟩ := Tab.wf_cons.mp h
    by_cases hf : f p
    · rw [List.filter_cons_of_pos hf, Tab.wf_cons]
      exact ⟨h1, fun q hq => h2 q (List.mem_filter.mp hq).1, ih h3⟩
    · rw [List.filter_cons_of_neg hf]
      exact ih h3

theorem Tab.mem_ins {p : Nat × α} (h : p ∈ Tab.ins k v t) : p = (k, v) ∨ p ∈ t := by
  induction t with
  | nil => simpa [Tab.ins] using h
  | cons q t ih =>
    obtain ⟨a, w⟩ := q
    by_cases hk : k < a
    · simpa [Tab.ins, hk] using h
    · rw [Tab.ins, if_neg hk, List.mem_cons] at h
      rcases h with h | h
      · exact .inr (by simp [h])
      · rcases ih h with h | h
        · exact .inl h
        · exact .inr (by simp [h])

theorem Tab.wf_ins [DecidableEq α] (hv : v ≠ dflt k) (hk : ∀ p ∈ t, p.1 ≠ k) (h : Tab.wf dflt t = true) :
    Tab.wf dflt (Tab.ins k v t) = true := by
  induction t with
  | nil => simp [Tab.ins, Tab.wf, hv]
  | cons p t ih =>
    obtain ⟨a, w⟩ := p
    obtain ⟨h1, h2, h3⟩ := Tab.wf_cons.mp h
    have ha : a ≠ k := hk (a, w) (by simp)
    have hr : ∀ p ∈ t, p.1 ≠ k := fun p hp => hk p (by simp [hp])
    by_cases hlt : k < a
    · rw [Tab.ins, if_pos hlt, Tab.wf_cons]
      refine ⟨hv, ?_, h⟩
      intro q hq
      rcases List.mem_cons.mp hq with rfl | hq
      · exact hlt
      · exact lt_trans hlt (h2 q hq)
    · rw [Tab.ins, if_neg hlt, Tab.wf_cons]
      refine ⟨h1, ?_, ih hr h3⟩
      intro q hq
      rcases Tab.mem_ins hq with rfl | hq
      · show a < k
        omega
      · exact h2 q hq

/-- A write keeps the canonical form. -/
theorem Tab.wf_set [DecidableEq α] (h : Tab.wf dflt t = true) : Tab.wf dflt (Tab.set dflt t k v) = true := by
  have hf : ∀ p ∈ (t.filter fun p => p.1 ≠ k), p.1 ≠ k := by
    intro p hp
    simpa using (List.mem_filter.mp hp).2
  by_cases hv : v = dflt k
  · rw [Tab.set, if_pos hv]
    exact Tab.wf_filter _ h
  · rw [Tab.set, if_neg hv]
    exact Tab.wf_ins hv hf (Tab.wf_filter _ h)

theorem Tab.get_eq_dflt (h : ∀ p ∈ t, j < p.1) : Tab.get dflt t j = dflt j := by
  induction t with
  | nil => rfl
  | cons p t ih =>
    obtain ⟨a, w⟩ := p
    have ha : j < a := h (a, w) (by simp)
    rw [Tab.get, if_neg (by omega), ih fun q hq => h q (by simp [hq])]

/-- Canonical tables that read alike are equal. -/
theorem Tab.ext_wf [DecidableEq α] {u : Tab α} (ht : Tab.wf dflt t = true) (hu : Tab.wf dflt u = true)
    (h : ∀ j, Tab.get dflt t j = Tab.get dflt u j) : t = u := by
  induction t generalizing u with
  | nil =>
    cases u with
    | nil => rfl
    | cons q u =>
      obtain ⟨b, w⟩ := q
      obtain ⟨h1, -, -⟩ := Tab.wf_cons.mp hu
      have := h b
      simp [Tab.get] at this
      exact absurd this.symm h1
  | cons p t ih =>
    obtain ⟨a, v⟩ := p
    obtain ⟨p1, p2, p3⟩ := Tab.wf_cons.mp ht
    cases u with
    | nil =>
      have := h a
      simp [Tab.get] at this
      exact absurd this p1
    | cons q u =>
      obtain ⟨b, w⟩ := q
      obtain ⟨q1, q2, q3⟩ := Tab.wf_cons.mp hu
      have hab : a = b := by
        rcases Nat.lt_trichotomy a b with hlt | heq | hgt
        · have hx := h a
          rw [Tab.get, if_pos rfl, Tab.get_eq_dflt (t := (b, w) :: u)] at hx
          · exact absurd hx p1
          · intro r hr
            rcases List.mem_cons.mp hr with rfl | hr
            · exact hlt
            · exact lt_trans hlt (q2 r hr)
        · exact heq
        · have hx := h b
          rw [Tab.get_eq_dflt (t := (a, v) :: t), Tab.get, if_pos rfl] at hx
          · exact absurd hx.symm q1
          · intro r hr
            rcases List.mem_cons.mp hr with rfl | hr
            · exact hgt
            · exact lt_trans hgt (p2 r hr)
      subst hab
      have hvw : v = w := by
        have := h a
        simpa [Tab.get] using this
      subst hvw
      congr 1
      refine ih p3 q3 fun j => ?_
      by_cases hj : a = j
      · subst hj
        rw [Tab.get_eq_dflt p2, Tab.get_eq_dflt q2]
      · have := h j
        simpa [Tab.get, hj] using this

end Sys2Proof.Machine
end

