-- ==== Sys2Proof/Laws/State.lean ====
section
/-! SUPPORT. The small laws of the device's record: one per field and update of a register, a byte, an error mask or a hidden record, and
what a register field or a byte reads after a write. -/

namespace Sys2Proof.Machine

variable {d : Dev} {a b k : Nat} {w : W32} {f g : Field} {v : Nat}

/-! setReg. -/

@[simp] theorem Dev.setReg_dst : (d.setReg a w).dst = d.dst := rfl
@[simp] theorem Dev.setReg_mem : (d.setReg a w).mem = d.mem := rfl
@[simp] theorem Dev.setReg_ecc : (d.setReg a w).ecc = d.ecc := rfl
@[simp] theorem Dev.setReg_free : (d.setReg a w).free = d.free := rfl
@[simp] theorem Dev.setReg_hpi : (d.setReg a w).hpi = d.hpi := rfl
@[simp] theorem Dev.setReg_hpio : (d.setReg a w).hpio = d.hpio := rfl
@[simp] theorem Dev.setReg_released : (d.setReg a w).released = d.released := rfl
@[simp] theorem Dev.setReg_servo : (d.setReg a w).servo = d.servo := rfl
@[simp] theorem Dev.setReg_gates : (d.setReg a w).gates = d.gates := rfl
@[simp] theorem Dev.setReg_mbx : (d.setReg a w).mbx = d.mbx := rfl
@[simp] theorem Dev.setReg_work : (d.setReg a w).work = d.work := rfl
@[simp] theorem Dev.setReg_flt : (d.setReg a w).flt = d.flt := rfl
@[simp] theorem Dev.setReg_jobs : (d.setReg a w).jobs = d.jobs := rfl
@[simp] theorem Dev.setReg_engx : (d.setReg a w).engx = d.engx := rfl
@[simp] theorem Dev.setReg_her : (d.setReg a w).her = d.her := rfl
@[simp] theorem Dev.setReg_lanes : (d.setReg a w).lanes = d.lanes := rfl
@[simp] theorem Dev.setReg_epochs : (d.setReg a w).epochs = d.epochs := rfl
@[simp] theorem Dev.setReg_pwm : (d.setReg a w).pwm = d.pwm := rfl
@[simp] theorem Dev.setReg_groups : (d.setReg a w).groups = d.groups := rfl
@[simp] theorem Dev.setReg_pforce : (d.setReg a w).pforce = d.pforce := rfl
@[simp] theorem Dev.setReg_eng : (d.setReg a w).eng = d.eng := rfl
@[simp] theorem Dev.setReg_fab : (d.setReg a w).fab = d.fab := rfl
@[simp] theorem Dev.setReg_imgs : (d.setReg a w).imgs = d.imgs := rfl
@[simp] theorem Dev.setReg_fbk : (d.setReg a w).fbk = d.fbk := rfl
@[simp] theorem Dev.setReg_str : (d.setReg a w).str = d.str := rfl
@[simp] theorem Dev.setReg_ax : (d.setReg a w).ax = d.ax := rfl
@[simp] theorem Dev.setReg_samples : (d.setReg a w).samples = d.samples := rfl
@[simp] theorem Dev.setReg_cams : (d.setReg a w).cams = d.cams := rfl
@[simp] theorem Dev.setReg_camLoads : (d.setReg a w).camLoads = d.camLoads := rfl
@[simp] theorem Dev.setReg_exts : (d.setReg a w).exts = d.exts := rfl
@[simp] theorem Dev.setReg_extLoads : (d.setReg a w).extLoads = d.extLoads := rfl
@[simp] theorem Dev.setReg_loops : (d.setReg a w).loops = d.loops := rfl
@[simp] theorem Dev.setReg_stp : (d.setReg a w).stp = d.stp := rfl
@[simp] theorem Dev.setReg_sysStop : (d.setReg a w).sysStop = d.sysStop := rfl
@[simp] theorem Dev.setReg_copies : (d.setReg a w).copies = d.copies := rfl
@[simp] theorem Dev.setReg_dsf : (d.setReg a w).dsf = d.dsf := rfl
@[simp] theorem Dev.setReg_dsck : (d.setReg a w).dsck = d.dsck := rfl
@[simp] theorem Dev.setReg_sar : (d.setReg a w).sar = d.sar := rfl
@[simp] theorem Dev.setReg_prb : (d.setReg a w).prb = d.prb := rfl
@[simp] theorem Dev.setReg_cmdin : (d.setReg a w).cmdin = d.cmdin := rfl
@[simp] theorem Dev.setReg_cmdNext : (d.setReg a w).cmdNext = d.cmdNext := rfl
@[simp] theorem Dev.setReg_latch : (d.setReg a w).latch = d.latch := rfl
@[simp] theorem Dev.setReg_fio : (d.setReg a w).fio = d.fio := rfl
@[simp] theorem Dev.setReg_cap : (d.setReg a w).cap = d.cap := rfl
@[simp] theorem Dev.setReg_capCh : (d.setReg a w).capCh = d.capCh := rfl
@[simp] theorem Dev.setReg_can : (d.setReg a w).can = d.can := rfl
@[simp] theorem Dev.setReg_chain : (d.setReg a w).chain = d.chain := rfl
@[simp] theorem Dev.setReg_pair : (d.setReg a w).pair = d.pair := rfl
@[simp] theorem Dev.setReg_safe : (d.setReg a w).safe = d.safe := rfl
@[simp] theorem Dev.setReg_safeStore : (d.setReg a w).safeStore = d.safeStore := rfl
@[simp] theorem Dev.setReg_pow : (d.setReg a w).pow = d.pow := rfl

/-! put. -/

@[simp] theorem Dev.put_dst : (d.put f v).dst = d.dst := rfl
@[simp] theorem Dev.put_mem : (d.put f v).mem = d.mem := rfl
@[simp] theorem Dev.put_ecc : (d.put f v).ecc = d.ecc := rfl
@[simp] theorem Dev.put_free : (d.put f v).free = d.free := rfl
@[simp] theorem Dev.put_hpi : (d.put f v).hpi = d.hpi := rfl
@[simp] theorem Dev.put_hpio : (d.put f v).hpio = d.hpio := rfl
@[simp] theorem Dev.put_released : (d.put f v).released = d.released := rfl
@[simp] theorem Dev.put_servo : (d.put f v).servo = d.servo := rfl
@[simp] theorem Dev.put_gates : (d.put f v).gates = d.gates := rfl
@[simp] theorem Dev.put_mbx : (d.put f v).mbx = d.mbx := rfl
@[simp] theorem Dev.put_work : (d.put f v).work = d.work := rfl
@[simp] theorem Dev.put_flt : (d.put f v).flt = d.flt := rfl
@[simp] theorem Dev.put_jobs : (d.put f v).jobs = d.jobs := rfl
@[simp] theorem Dev.put_engx : (d.put f v).engx = d.engx := rfl
@[simp] theorem Dev.put_her : (d.put f v).her = d.her := rfl
@[simp] theorem Dev.put_lanes : (d.put f v).lanes = d.lanes := rfl
@[simp] theorem Dev.put_epochs : (d.put f v).epochs = d.epochs := rfl
@[simp] theorem Dev.put_pwm : (d.put f v).pwm = d.pwm := rfl
@[simp] theorem Dev.put_groups : (d.put f v).groups = d.groups := rfl
@[simp] theorem Dev.put_pforce : (d.put f v).pforce = d.pforce := rfl
@[simp] theorem Dev.put_eng : (d.put f v).eng = d.eng := rfl
@[simp] theorem Dev.put_fab : (d.put f v).fab = d.fab := rfl
@[simp] theorem Dev.put_imgs : (d.put f v).imgs = d.imgs := rfl
@[simp] theorem Dev.put_fbk : (d.put f v).fbk = d.fbk := rfl
@[simp] theorem Dev.put_str : (d.put f v).str = d.str := rfl
@[simp] theorem Dev.put_ax : (d.put f v).ax = d.ax := rfl
@[simp] theorem Dev.put_samples : (d.put f v).samples = d.samples := rfl
@[simp] theorem Dev.put_cams : (d.put f v).cams = d.cams := rfl
@[simp] theorem Dev.put_camLoads : (d.put f v).camLoads = d.camLoads := rfl
@[simp] theorem Dev.put_exts : (d.put f v).exts = d.exts := rfl
@[simp] theorem Dev.put_extLoads : (d.put f v).extLoads = d.extLoads := rfl
@[simp] theorem Dev.put_loops : (d.put f v).loops = d.loops := rfl
@[simp] theorem Dev.put_stp : (d.put f v).stp = d.stp := rfl
@[simp] theorem Dev.put_sysStop : (d.put f v).sysStop = d.sysStop := rfl
@[simp] theorem Dev.put_copies : (d.put f v).copies = d.copies := rfl
@[simp] theorem Dev.put_dsf : (d.put f v).dsf = d.dsf := rfl
@[simp] theorem Dev.put_dsck : (d.put f v).dsck = d.dsck := rfl
@[simp] theorem Dev.put_sar : (d.put f v).sar = d.sar := rfl
@[simp] theorem Dev.put_prb : (d.put f v).prb = d.prb := rfl
@[simp] theorem Dev.put_cmdin : (d.put f v).cmdin = d.cmdin := rfl
@[simp] theorem Dev.put_cmdNext : (d.put f v).cmdNext = d.cmdNext := rfl
@[simp] theorem Dev.put_latch : (d.put f v).latch = d.latch := rfl
@[simp] theorem Dev.put_fio : (d.put f v).fio = d.fio := rfl
@[simp] theorem Dev.put_cap : (d.put f v).cap = d.cap := rfl
@[simp] theorem Dev.put_capCh : (d.put f v).capCh = d.capCh := rfl
@[simp] theorem Dev.put_can : (d.put f v).can = d.can := rfl
@[simp] theorem Dev.put_chain : (d.put f v).chain = d.chain := rfl
@[simp] theorem Dev.put_pair : (d.put f v).pair = d.pair := rfl
@[simp] theorem Dev.put_safe : (d.put f v).safe = d.safe := rfl
@[simp] theorem Dev.put_safeStore : (d.put f v).safeStore = d.safeStore := rfl
@[simp] theorem Dev.put_pow : (d.put f v).pow = d.pow := rfl

/-! setByte. -/

@[simp] theorem Dev.setByte_dst (x : Byte) : (d.setByte a x).dst = d.dst := rfl
@[simp] theorem Dev.setByte_regs (x : Byte) : (d.setByte a x).regs = d.regs := rfl
@[simp] theorem Dev.setByte_ecc (x : Byte) : (d.setByte a x).ecc = d.ecc := rfl
@[simp] theorem Dev.setByte_free (x : Byte) : (d.setByte a x).free = d.free := rfl
@[simp] theorem Dev.setByte_hpi (x : Byte) : (d.setByte a x).hpi = d.hpi := rfl
@[simp] theorem Dev.setByte_hpio (x : Byte) : (d.setByte a x).hpio = d.hpio := rfl
@[simp] theorem Dev.setByte_released (x : Byte) : (d.setByte a x).released = d.released := rfl
@[simp] theorem Dev.setByte_servo (x : Byte) : (d.setByte a x).servo = d.servo := rfl
@[simp] theorem Dev.setByte_gates (x : Byte) : (d.setByte a x).gates = d.gates := rfl
@[simp] theorem Dev.setByte_mbx (x : Byte) : (d.setByte a x).mbx = d.mbx := rfl
@[simp] theorem Dev.setByte_work (x : Byte) : (d.setByte a x).work = d.work := rfl
@[simp] theorem Dev.setByte_flt (x : Byte) : (d.setByte a x).flt = d.flt := rfl
@[simp] theorem Dev.setByte_jobs (x : Byte) : (d.setByte a x).jobs = d.jobs := rfl
@[simp] theorem Dev.setByte_engx (x : Byte) : (d.setByte a x).engx = d.engx := rfl
@[simp] theorem Dev.setByte_her (x : Byte) : (d.setByte a x).her = d.her := rfl
@[simp] theorem Dev.setByte_lanes (x : Byte) : (d.setByte a x).lanes = d.lanes := rfl
@[simp] theorem Dev.setByte_epochs (x : Byte) : (d.setByte a x).epochs = d.epochs := rfl
@[simp] theorem Dev.setByte_pwm (x : Byte) : (d.setByte a x).pwm = d.pwm := rfl
@[simp] theorem Dev.setByte_groups (x : Byte) : (d.setByte a x).groups = d.groups := rfl
@[simp] theorem Dev.setByte_pforce (x : Byte) : (d.setByte a x).pforce = d.pforce := rfl
@[simp] theorem Dev.setByte_eng (x : Byte) : (d.setByte a x).eng = d.eng := rfl
@[simp] theorem Dev.setByte_fab (x : Byte) : (d.setByte a x).fab = d.fab := rfl
@[simp] theorem Dev.setByte_imgs (x : Byte) : (d.setByte a x).imgs = d.imgs := rfl
@[simp] theorem Dev.setByte_fbk (x : Byte) : (d.setByte a x).fbk = d.fbk := rfl
@[simp] theorem Dev.setByte_str (x : Byte) : (d.setByte a x).str = d.str := rfl
@[simp] theorem Dev.setByte_ax (x : Byte) : (d.setByte a x).ax = d.ax := rfl
@[simp] theorem Dev.setByte_samples (x : Byte) : (d.setByte a x).samples = d.samples := rfl
@[simp] theorem Dev.setByte_cams (x : Byte) : (d.setByte a x).cams = d.cams := rfl
@[simp] theorem Dev.setByte_camLoads (x : Byte) : (d.setByte a x).camLoads = d.camLoads := rfl
@[simp] theorem Dev.setByte_exts (x : Byte) : (d.setByte a x).exts = d.exts := rfl
@[simp] theorem Dev.setByte_extLoads (x : Byte) : (d.setByte a x).extLoads = d.extLoads := rfl
@[simp] theorem Dev.setByte_loops (x : Byte) : (d.setByte a x).loops = d.loops := rfl
@[simp] theorem Dev.setByte_stp (x : Byte) : (d.setByte a x).stp = d.stp := rfl
@[simp] theorem Dev.setByte_sysStop (x : Byte) : (d.setByte a x).sysStop = d.sysStop := rfl
@[simp] theorem Dev.setByte_copies (x : Byte) : (d.setByte a x).copies = d.copies := rfl
@[simp] theorem Dev.setByte_dsf (x : Byte) : (d.setByte a x).dsf = d.dsf := rfl
@[simp] theorem Dev.setByte_dsck (x : Byte) : (d.setByte a x).dsck = d.dsck := rfl
@[simp] theorem Dev.setByte_sar (x : Byte) : (d.setByte a x).sar = d.sar := rfl
@[simp] theorem Dev.setByte_prb (x : Byte) : (d.setByte a x).prb = d.prb := rfl
@[simp] theorem Dev.setByte_cmdin (x : Byte) : (d.setByte a x).cmdin = d.cmdin := rfl
@[simp] theorem Dev.setByte_cmdNext (x : Byte) : (d.setByte a x).cmdNext = d.cmdNext := rfl
@[simp] theorem Dev.setByte_latch (x : Byte) : (d.setByte a x).latch = d.latch := rfl
@[simp] theorem Dev.setByte_fio (x : Byte) : (d.setByte a x).fio = d.fio := rfl
@[simp] theorem Dev.setByte_cap (x : Byte) : (d.setByte a x).cap = d.cap := rfl
@[simp] theorem Dev.setByte_capCh (x : Byte) : (d.setByte a x).capCh = d.capCh := rfl
@[simp] theorem Dev.setByte_can (x : Byte) : (d.setByte a x).can = d.can := rfl
@[simp] theorem Dev.setByte_chain (x : Byte) : (d.setByte a x).chain = d.chain := rfl
@[simp] theorem Dev.setByte_pair (x : Byte) : (d.setByte a x).pair = d.pair := rfl
@[simp] theorem Dev.setByte_safe (x : Byte) : (d.setByte a x).safe = d.safe := rfl
@[simp] theorem Dev.setByte_safeStore (x : Byte) : (d.setByte a x).safeStore = d.safeStore := rfl
@[simp] theorem Dev.setByte_pow (x : Byte) : (d.setByte a x).pow = d.pow := rfl

/-! setEcc. -/

@[simp] theorem Dev.setEcc_dst : (d.setEcc a v).dst = d.dst := rfl
@[simp] theorem Dev.setEcc_regs : (d.setEcc a v).regs = d.regs := rfl
@[simp] theorem Dev.setEcc_mem : (d.setEcc a v).mem = d.mem := rfl
@[simp] theorem Dev.setEcc_free : (d.setEcc a v).free = d.free := rfl
@[simp] theorem Dev.setEcc_hpi : (d.setEcc a v).hpi = d.hpi := rfl
@[simp] theorem Dev.setEcc_hpio : (d.setEcc a v).hpio = d.hpio := rfl
@[simp] theorem Dev.setEcc_released : (d.setEcc a v).released = d.released := rfl
@[simp] theorem Dev.setEcc_servo : (d.setEcc a v).servo = d.servo := rfl
@[simp] theorem Dev.setEcc_gates : (d.setEcc a v).gates = d.gates := rfl
@[simp] theorem Dev.setEcc_mbx : (d.setEcc a v).mbx = d.mbx := rfl
@[simp] theorem Dev.setEcc_work : (d.setEcc a v).work = d.work := rfl
@[simp] theorem Dev.setEcc_flt : (d.setEcc a v).flt = d.flt := rfl
@[simp] theorem Dev.setEcc_jobs : (d.setEcc a v).jobs = d.jobs := rfl
@[simp] theorem Dev.setEcc_engx : (d.setEcc a v).engx = d.engx := rfl
@[simp] theorem Dev.setEcc_her : (d.setEcc a v).her = d.her := rfl
@[simp] theorem Dev.setEcc_lanes : (d.setEcc a v).lanes = d.lanes := rfl
@[simp] theorem Dev.setEcc_epochs : (d.setEcc a v).epochs = d.epochs := rfl
@[simp] theorem Dev.setEcc_pwm : (d.setEcc a v).pwm = d.pwm := rfl
@[simp] theorem Dev.setEcc_groups : (d.setEcc a v).groups = d.groups := rfl
@[simp] theorem Dev.setEcc_pforce : (d.setEcc a v).pforce = d.pforce := rfl
@[simp] theorem Dev.setEcc_eng : (d.setEcc a v).eng = d.eng := rfl
@[simp] theorem Dev.setEcc_fab : (d.setEcc a v).fab = d.fab := rfl
@[simp] theorem Dev.setEcc_imgs : (d.setEcc a v).imgs = d.imgs := rfl
@[simp] theorem Dev.setEcc_fbk : (d.setEcc a v).fbk = d.fbk := rfl
@[simp] theorem Dev.setEcc_str : (d.setEcc a v).str = d.str := rfl
@[simp] theorem Dev.setEcc_ax : (d.setEcc a v).ax = d.ax := rfl
@[simp] theorem Dev.setEcc_samples : (d.setEcc a v).samples = d.samples := rfl
@[simp] theorem Dev.setEcc_cams : (d.setEcc a v).cams = d.cams := rfl
@[simp] theorem Dev.setEcc_camLoads : (d.setEcc a v).camLoads = d.camLoads := rfl
@[simp] theorem Dev.setEcc_exts : (d.setEcc a v).exts = d.exts := rfl
@[simp] theorem Dev.setEcc_extLoads : (d.setEcc a v).extLoads = d.extLoads := rfl
@[simp] theorem Dev.setEcc_loops : (d.setEcc a v).loops = d.loops := rfl
@[simp] theorem Dev.setEcc_stp : (d.setEcc a v).stp = d.stp := rfl
@[simp] theorem Dev.setEcc_sysStop : (d.setEcc a v).sysStop = d.sysStop := rfl
@[simp] theorem Dev.setEcc_copies : (d.setEcc a v).copies = d.copies := rfl
@[simp] theorem Dev.setEcc_dsf : (d.setEcc a v).dsf = d.dsf := rfl
@[simp] theorem Dev.setEcc_dsck : (d.setEcc a v).dsck = d.dsck := rfl
@[simp] theorem Dev.setEcc_sar : (d.setEcc a v).sar = d.sar := rfl
@[simp] theorem Dev.setEcc_prb : (d.setEcc a v).prb = d.prb := rfl
@[simp] theorem Dev.setEcc_cmdin : (d.setEcc a v).cmdin = d.cmdin := rfl
@[simp] theorem Dev.setEcc_cmdNext : (d.setEcc a v).cmdNext = d.cmdNext := rfl
@[simp] theorem Dev.setEcc_latch : (d.setEcc a v).latch = d.latch := rfl
@[simp] theorem Dev.setEcc_fio : (d.setEcc a v).fio = d.fio := rfl
@[simp] theorem Dev.setEcc_cap : (d.setEcc a v).cap = d.cap := rfl
@[simp] theorem Dev.setEcc_capCh : (d.setEcc a v).capCh = d.capCh := rfl
@[simp] theorem Dev.setEcc_can : (d.setEcc a v).can = d.can := rfl
@[simp] theorem Dev.setEcc_chain : (d.setEcc a v).chain = d.chain := rfl
@[simp] theorem Dev.setEcc_pair : (d.setEcc a v).pair = d.pair := rfl
@[simp] theorem Dev.setEcc_safe : (d.setEcc a v).safe = d.safe := rfl
@[simp] theorem Dev.setEcc_safeStore : (d.setEcc a v).safeStore = d.safeStore := rfl
@[simp] theorem Dev.setEcc_pow : (d.setEcc a v).pow = d.pow := rfl

/-! setLane. -/

theorem Dev.lane_setLane {x : LaneX} : (d.setLane k x).lane b = if k = b then x else d.lane b := Tab.get_set
@[simp] theorem Dev.lane_setLane_self {x : LaneX} : (d.setLane k x).lane k = x := Tab.get_set_self
@[simp] theorem Dev.setLane_dst {x : LaneX} : (d.setLane k x).dst = d.dst := rfl
@[simp] theorem Dev.setLane_regs {x : LaneX} : (d.setLane k x).regs = d.regs := rfl
@[simp] theorem Dev.setLane_mem {x : LaneX} : (d.setLane k x).mem = d.mem := rfl
@[simp] theorem Dev.setLane_ecc {x : LaneX} : (d.setLane k x).ecc = d.ecc := rfl
@[simp] theorem Dev.setLane_released {x : LaneX} : (d.setLane k x).released = d.released := rfl
@[simp] theorem Dev.setLane_work {x : LaneX} : (d.setLane k x).work = d.work := rfl
@[simp] theorem Dev.setLane_flt {x : LaneX} : (d.setLane k x).flt = d.flt := rfl
@[simp] theorem Dev.setLane_fab {x : LaneX} : (d.setLane k x).fab = d.fab := rfl
@[simp] theorem Dev.setLane_imgs {x : LaneX} : (d.setLane k x).imgs = d.imgs := rfl
@[simp] theorem Dev.setLane_gates {x : LaneX} : (d.setLane k x).gates = d.gates := rfl
@[simp] theorem Dev.setLane_mbx {x : LaneX} : (d.setLane k x).mbx = d.mbx := rfl
@[simp] theorem Dev.setLane_her {x : LaneX} : (d.setLane k x).her = d.her := rfl
@[simp] theorem Dev.setLane_eng {x : LaneX} : (d.setLane k x).eng = d.eng := rfl
@[simp] theorem Dev.setLane_reg {x : LaneX} : (d.setLane k x).reg a = d.reg a := rfl
@[simp] theorem Dev.setLane_byte {x : LaneX} : (d.setLane k x).byte a = d.byte a := rfl

/-! setPwmX. -/

theorem Dev.pwmX_setPwmX {x : PwmX} : (d.setPwmX k x).pwmX b = if k = b then x else d.pwmX b := Tab.get_set
@[simp] theorem Dev.pwmX_setPwmX_self {x : PwmX} : (d.setPwmX k x).pwmX k = x := Tab.get_set_self
@[simp] theorem Dev.setPwmX_dst {x : PwmX} : (d.setPwmX k x).dst = d.dst := rfl
@[simp] theorem Dev.setPwmX_regs {x : PwmX} : (d.setPwmX k x).regs = d.regs := rfl
@[simp] theorem Dev.setPwmX_mem {x : PwmX} : (d.setPwmX k x).mem = d.mem := rfl
@[simp] theorem Dev.setPwmX_ecc {x : PwmX} : (d.setPwmX k x).ecc = d.ecc := rfl
@[simp] theorem Dev.setPwmX_released {x : PwmX} : (d.setPwmX k x).released = d.released := rfl
@[simp] theorem Dev.setPwmX_work {x : PwmX} : (d.setPwmX k x).work = d.work := rfl
@[simp] theorem Dev.setPwmX_flt {x : PwmX} : (d.setPwmX k x).flt = d.flt := rfl
@[simp] theorem Dev.setPwmX_lanes {x : PwmX} : (d.setPwmX k x).lanes = d.lanes := rfl
@[simp] theorem Dev.setPwmX_fab {x : PwmX} : (d.setPwmX k x).fab = d.fab := rfl
@[simp] theorem Dev.setPwmX_imgs {x : PwmX} : (d.setPwmX k x).imgs = d.imgs := rfl
@[simp] theorem Dev.setPwmX_gates {x : PwmX} : (d.setPwmX k x).gates = d.gates := rfl
@[simp] theorem Dev.setPwmX_mbx {x : PwmX} : (d.setPwmX k x).mbx = d.mbx := rfl
@[simp] theorem Dev.setPwmX_her {x : PwmX} : (d.setPwmX k x).her = d.her := rfl
@[simp] theorem Dev.setPwmX_eng {x : PwmX} : (d.setPwmX k x).eng = d.eng := rfl
@[simp] theorem Dev.setPwmX_reg {x : PwmX} : (d.setPwmX k x).reg a = d.reg a := rfl
@[simp] theorem Dev.setPwmX_byte {x : PwmX} : (d.setPwmX k x).byte a = d.byte a := rfl

/-! setGroupX. -/

theorem Dev.groupX_setGroupX {x : GroupX} : (d.setGroupX k x).groupX b = if k = b then x else d.groupX b := Tab.get_set
@[simp] theorem Dev.groupX_setGroupX_self {x : GroupX} : (d.setGroupX k x).groupX k = x := Tab.get_set_self
@[simp] theorem Dev.setGroupX_dst {x : GroupX} : (d.setGroupX k x).dst = d.dst := rfl
@[simp] theorem Dev.setGroupX_regs {x : GroupX} : (d.setGroupX k x).regs = d.regs := rfl
@[simp] theorem Dev.setGroupX_mem {x : GroupX} : (d.setGroupX k x).mem = d.mem := rfl
@[simp] theorem Dev.setGroupX_ecc {x : GroupX} : (d.setGroupX k x).ecc = d.ecc := rfl
@[simp] theorem Dev.setGroupX_released {x : GroupX} : (d.setGroupX k x).released = d.released := rfl
@[simp] theorem Dev.setGroupX_work {x : GroupX} : (d.setGroupX k x).work = d.work := rfl
@[simp] theorem Dev.setGroupX_flt {x : GroupX} : (d.setGroupX k x).flt = d.flt := rfl
@[simp] theorem Dev.setGroupX_lanes {x : GroupX} : (d.setGroupX k x).lanes = d.lanes := rfl
@[simp] theorem Dev.setGroupX_fab {x : GroupX} : (d.setGroupX k x).fab = d.fab := rfl
@[simp] theorem Dev.setGroupX_imgs {x : GroupX} : (d.setGroupX k x).imgs = d.imgs := rfl
@[simp] theorem Dev.setGroupX_gates {x : GroupX} : (d.setGroupX k x).gates = d.gates := rfl
@[simp] theorem Dev.setGroupX_mbx {x : GroupX} : (d.setGroupX k x).mbx = d.mbx := rfl
@[simp] theorem Dev.setGroupX_her {x : GroupX} : (d.setGroupX k x).her = d.her := rfl
@[simp] theorem Dev.setGroupX_eng {x : GroupX} : (d.setGroupX k x).eng = d.eng := rfl
@[simp] theorem Dev.setGroupX_reg {x : GroupX} : (d.setGroupX k x).reg a = d.reg a := rfl
@[simp] theorem Dev.setGroupX_byte {x : GroupX} : (d.setGroupX k x).byte a = d.byte a := rfl

/-! setGateX. -/

theorem Dev.gateX_setGateX {x : GateX} : (d.setGateX k x).gateX b = if k = b then x else d.gateX b := Tab.get_set
@[simp] theorem Dev.gateX_setGateX_self {x : GateX} : (d.setGateX k x).gateX k = x := Tab.get_set_self
@[simp] theorem Dev.setGateX_dst {x : GateX} : (d.setGateX k x).dst = d.dst := rfl
@[simp] theorem Dev.setGateX_regs {x : GateX} : (d.setGateX k x).regs = d.regs := rfl
@[simp] theorem Dev.setGateX_mem {x : GateX} : (d.setGateX k x).mem = d.mem := rfl
@[simp] theorem Dev.setGateX_ecc {x : GateX} : (d.setGateX k x).ecc = d.ecc := rfl
@[simp] theorem Dev.setGateX_released {x : GateX} : (d.setGateX k x).released = d.released := rfl
@[simp] theorem Dev.setGateX_work {x : GateX} : (d.setGateX k x).work = d.work := rfl
@[simp] theorem Dev.setGateX_flt {x : GateX} : (d.setGateX k x).flt = d.flt := rfl
@[simp] theorem Dev.setGateX_lanes {x : GateX} : (d.setGateX k x).lanes = d.lanes := rfl
@[simp] theorem Dev.setGateX_fab {x : GateX} : (d.setGateX k x).fab = d.fab := rfl
@[simp] theorem Dev.setGateX_imgs {x : GateX} : (d.setGateX k x).imgs = d.imgs := rfl
@[simp] theorem Dev.setGateX_mbx {x : GateX} : (d.setGateX k x).mbx = d.mbx := rfl
@[simp] theorem Dev.setGateX_her {x : GateX} : (d.setGateX k x).her = d.her := rfl
@[simp] theorem Dev.setGateX_eng {x : GateX} : (d.setGateX k x).eng = d.eng := rfl
@[simp] theorem Dev.setGateX_reg {x : GateX} : (d.setGateX k x).reg a = d.reg a := rfl
@[simp] theorem Dev.setGateX_byte {x : GateX} : (d.setGateX k x).byte a = d.byte a := rfl

/-! setMbox. -/

theorem Dev.mbox_setMbox {x : Mbox} : (d.setMbox k x).mbox b = if k = b then x else d.mbox b := Tab.get_set
@[simp] theorem Dev.mbox_setMbox_self {x : Mbox} : (d.setMbox k x).mbox k = x := Tab.get_set_self
@[simp] theorem Dev.setMbox_dst {x : Mbox} : (d.setMbox k x).dst = d.dst := rfl
@[simp] theorem Dev.setMbox_regs {x : Mbox} : (d.setMbox k x).regs = d.regs := rfl
@[simp] theorem Dev.setMbox_mem {x : Mbox} : (d.setMbox k x).mem = d.mem := rfl
@[simp] theorem Dev.setMbox_ecc {x : Mbox} : (d.setMbox k x).ecc = d.ecc := rfl
@[simp] theorem Dev.setMbox_released {x : Mbox} : (d.setMbox k x).released = d.released := rfl
@[simp] theorem Dev.setMbox_work {x : Mbox} : (d.setMbox k x).work = d.work := rfl
@[simp] theorem Dev.setMbox_flt {x : Mbox} : (d.setMbox k x).flt = d.flt := rfl
@[simp] theorem Dev.setMbox_lanes {x : Mbox} : (d.setMbox k x).lanes = d.lanes := rfl
@[simp] theorem Dev.setMbox_fab {x : Mbox} : (d.setMbox k x).fab = d.fab := rfl
@[simp] theorem Dev.setMbox_imgs {x : Mbox} : (d.setMbox k x).imgs = d.imgs := rfl
@[simp] theorem Dev.setMbox_gates {x : Mbox} : (d.setMbox k x).gates = d.gates := rfl
@[simp] theorem Dev.setMbox_her {x : Mbox} : (d.setMbox k x).her = d.her := rfl
@[simp] theorem Dev.setMbox_eng {x : Mbox} : (d.setMbox k x).eng = d.eng := rfl
@[simp] theorem Dev.setMbox_reg {x : Mbox} : (d.setMbox k x).reg a = d.reg a := rfl
@[simp] theorem Dev.setMbox_byte {x : Mbox} : (d.setMbox k x).byte a = d.byte a := rfl

/-! setJobX. -/

theorem Dev.jobX_setJobX {x : JobX} : (d.setJobX k x).jobX b = if k = b then x else d.jobX b := Tab.get_set
@[simp] theorem Dev.jobX_setJobX_self {x : JobX} : (d.setJobX k x).jobX k = x := Tab.get_set_self
@[simp] theorem Dev.setJobX_dst {x : JobX} : (d.setJobX k x).dst = d.dst := rfl
@[simp] theorem Dev.setJobX_regs {x : JobX} : (d.setJobX k x).regs = d.regs := rfl
@[simp] theorem Dev.setJobX_mem {x : JobX} : (d.setJobX k x).mem = d.mem := rfl
@[simp] theorem Dev.setJobX_ecc {x : JobX} : (d.setJobX k x).ecc = d.ecc := rfl
@[simp] theorem Dev.setJobX_released {x : JobX} : (d.setJobX k x).released = d.released := rfl
@[simp] theorem Dev.setJobX_work {x : JobX} : (d.setJobX k x).work = d.work := rfl
@[simp] theorem Dev.setJobX_flt {x : JobX} : (d.setJobX k x).flt = d.flt := rfl
@[simp] theorem Dev.setJobX_lanes {x : JobX} : (d.setJobX k x).lanes = d.lanes := rfl
@[simp] theorem Dev.setJobX_fab {x : JobX} : (d.setJobX k x).fab = d.fab := rfl
@[simp] theorem Dev.setJobX_imgs {x : JobX} : (d.setJobX k x).imgs = d.imgs := rfl
@[simp] theorem Dev.setJobX_gates {x : JobX} : (d.setJobX k x).gates = d.gates := rfl
@[simp] theorem Dev.setJobX_mbx {x : JobX} : (d.setJobX k x).mbx = d.mbx := rfl
@[simp] theorem Dev.setJobX_her {x : JobX} : (d.setJobX k x).her = d.her := rfl
@[simp] theorem Dev.setJobX_eng {x : JobX} : (d.setJobX k x).eng = d.eng := rfl
@[simp] theorem Dev.setJobX_reg {x : JobX} : (d.setJobX k x).reg a = d.reg a := rfl
@[simp] theorem Dev.setJobX_byte {x : JobX} : (d.setJobX k x).byte a = d.byte a := rfl

/-! setEngX. -/

theorem Dev.engX_setEngX {x : EngX} : (d.setEngX k x).engX b = if k = b then x else d.engX b := Tab.get_set
@[simp] theorem Dev.engX_setEngX_self {x : EngX} : (d.setEngX k x).engX k = x := Tab.get_set_self
@[simp] theorem Dev.setEngX_dst {x : EngX} : (d.setEngX k x).dst = d.dst := rfl
@[simp] theorem Dev.setEngX_regs {x : EngX} : (d.setEngX k x).regs = d.regs := rfl
@[simp] theorem Dev.setEngX_mem {x : EngX} : (d.setEngX k x).mem = d.mem := rfl
@[simp] theorem Dev.setEngX_ecc {x : EngX} : (d.setEngX k x).ecc = d.ecc := rfl
@[simp] theorem Dev.setEngX_released {x : EngX} : (d.setEngX k x).released = d.released := rfl
@[simp] theorem Dev.setEngX_work {x : EngX} : (d.setEngX k x).work = d.work := rfl
@[simp] theorem Dev.setEngX_flt {x : EngX} : (d.setEngX k x).flt = d.flt := rfl
@[simp] theorem Dev.setEngX_lanes {x : EngX} : (d.setEngX k x).lanes = d.lanes := rfl
@[simp] theorem Dev.setEngX_fab {x : EngX} : (d.setEngX k x).fab = d.fab := rfl
@[simp] theorem Dev.setEngX_imgs {x : EngX} : (d.setEngX k x).imgs = d.imgs := rfl
@[simp] theorem Dev.setEngX_gates {x : EngX} : (d.setEngX k x).gates = d.gates := rfl
@[simp] theorem Dev.setEngX_mbx {x : EngX} : (d.setEngX k x).mbx = d.mbx := rfl
@[simp] theorem Dev.setEngX_her {x : EngX} : (d.setEngX k x).her = d.her := rfl
@[simp] theorem Dev.setEngX_eng {x : EngX} : (d.setEngX k x).eng = d.eng := rfl
@[simp] theorem Dev.setEngX_reg {x : EngX} : (d.setEngX k x).reg a = d.reg a := rfl
@[simp] theorem Dev.setEngX_byte {x : EngX} : (d.setEngX k x).byte a = d.byte a := rfl

/-! setEngine. -/

theorem Dev.engine_setEngine {x : Engine} : (d.setEngine k x).engine b = if k = b then x else d.engine b := Tab.get_set
@[simp] theorem Dev.engine_setEngine_self {x : Engine} : (d.setEngine k x).engine k = x := Tab.get_set_self
@[simp] theorem Dev.setEngine_dst {x : Engine} : (d.setEngine k x).dst = d.dst := rfl
@[simp] theorem Dev.setEngine_regs {x : Engine} : (d.setEngine k x).regs = d.regs := rfl
@[simp] theorem Dev.setEngine_mem {x : Engine} : (d.setEngine k x).mem = d.mem := rfl
@[simp] theorem Dev.setEngine_ecc {x : Engine} : (d.setEngine k x).ecc = d.ecc := rfl
@[simp] theorem Dev.setEngine_released {x : Engine} : (d.setEngine k x).released = d.released := rfl
@[simp] theorem Dev.setEngine_work {x : Engine} : (d.setEngine k x).work = d.work := rfl
@[simp] theorem Dev.setEngine_flt {x : Engine} : (d.setEngine k x).flt = d.flt := rfl
@[simp] theorem Dev.setEngine_lanes {x : Engine} : (d.setEngine k x).lanes = d.lanes := rfl
@[simp] theorem Dev.setEngine_fab {x : Engine} : (d.setEngine k x).fab = d.fab := rfl
@[simp] theorem Dev.setEngine_imgs {x : Engine} : (d.setEngine k x).imgs = d.imgs := rfl
@[simp] theorem Dev.setEngine_gates {x : Engine} : (d.setEngine k x).gates = d.gates := rfl
@[simp] theorem Dev.setEngine_mbx {x : Engine} : (d.setEngine k x).mbx = d.mbx := rfl
@[simp] theorem Dev.setEngine_her {x : Engine} : (d.setEngine k x).her = d.her := rfl
@[simp] theorem Dev.setEngine_reg {x : Engine} : (d.setEngine k x).reg a = d.reg a := rfl
@[simp] theorem Dev.setEngine_byte {x : Engine} : (d.setEngine k x).byte a = d.byte a := rfl

/-! setFbkX. -/

theorem Dev.fbkX_setFbkX {x : FbkX} : (d.setFbkX k x).fbkX b = if k = b then x else d.fbkX b := Tab.get_set
@[simp] theorem Dev.fbkX_setFbkX_self {x : FbkX} : (d.setFbkX k x).fbkX k = x := Tab.get_set_self
@[simp] theorem Dev.setFbkX_dst {x : FbkX} : (d.setFbkX k x).dst = d.dst := rfl
@[simp] theorem Dev.setFbkX_regs {x : FbkX} : (d.setFbkX k x).regs = d.regs := rfl
@[simp] theorem Dev.setFbkX_mem {x : FbkX} : (d.setFbkX k x).mem = d.mem := rfl
@[simp] theorem Dev.setFbkX_ecc {x : FbkX} : (d.setFbkX k x).ecc = d.ecc := rfl
@[simp] theorem Dev.setFbkX_released {x : FbkX} : (d.setFbkX k x).released = d.released := rfl
@[simp] theorem Dev.setFbkX_work {x : FbkX} : (d.setFbkX k x).work = d.work := rfl
@[simp] theorem Dev.setFbkX_flt {x : FbkX} : (d.setFbkX k x).flt = d.flt := rfl
@[simp] theorem Dev.setFbkX_lanes {x : FbkX} : (d.setFbkX k x).lanes = d.lanes := rfl
@[simp] theorem Dev.setFbkX_fab {x : FbkX} : (d.setFbkX k x).fab = d.fab := rfl
@[simp] theorem Dev.setFbkX_imgs {x : FbkX} : (d.setFbkX k x).imgs = d.imgs := rfl
@[simp] theorem Dev.setFbkX_gates {x : FbkX} : (d.setFbkX k x).gates = d.gates := rfl
@[simp] theorem Dev.setFbkX_mbx {x : FbkX} : (d.setFbkX k x).mbx = d.mbx := rfl
@[simp] theorem Dev.setFbkX_her {x : FbkX} : (d.setFbkX k x).her = d.her := rfl
@[simp] theorem Dev.setFbkX_eng {x : FbkX} : (d.setFbkX k x).eng = d.eng := rfl
@[simp] theorem Dev.setFbkX_reg {x : FbkX} : (d.setFbkX k x).reg a = d.reg a := rfl
@[simp] theorem Dev.setFbkX_byte {x : FbkX} : (d.setFbkX k x).byte a = d.byte a := rfl

/-! setStrX. -/

theorem Dev.strX_setStrX {x : StrX} : (d.setStrX k x).strX b = if k = b then x else d.strX b := Tab.get_set
@[simp] theorem Dev.strX_setStrX_self {x : StrX} : (d.setStrX k x).strX k = x := Tab.get_set_self
@[simp] theorem Dev.setStrX_dst {x : StrX} : (d.setStrX k x).dst = d.dst := rfl
@[simp] theorem Dev.setStrX_regs {x : StrX} : (d.setStrX k x).regs = d.regs := rfl
@[simp] theorem Dev.setStrX_mem {x : StrX} : (d.setStrX k x).mem = d.mem := rfl
@[simp] theorem Dev.setStrX_ecc {x : StrX} : (d.setStrX k x).ecc = d.ecc := rfl
@[simp] theorem Dev.setStrX_released {x : StrX} : (d.setStrX k x).released = d.released := rfl
@[simp] theorem Dev.setStrX_work {x : StrX} : (d.setStrX k x).work = d.work := rfl
@[simp] theorem Dev.setStrX_flt {x : StrX} : (d.setStrX k x).flt = d.flt := rfl
@[simp] theorem Dev.setStrX_lanes {x : StrX} : (d.setStrX k x).lanes = d.lanes := rfl
@[simp] theorem Dev.setStrX_fab {x : StrX} : (d.setStrX k x).fab = d.fab := rfl
@[simp] theorem Dev.setStrX_imgs {x : StrX} : (d.setStrX k x).imgs = d.imgs := rfl
@[simp] theorem Dev.setStrX_gates {x : StrX} : (d.setStrX k x).gates = d.gates := rfl
@[simp] theorem Dev.setStrX_mbx {x : StrX} : (d.setStrX k x).mbx = d.mbx := rfl
@[simp] theorem Dev.setStrX_her {x : StrX} : (d.setStrX k x).her = d.her := rfl
@[simp] theorem Dev.setStrX_eng {x : StrX} : (d.setStrX k x).eng = d.eng := rfl
@[simp] theorem Dev.setStrX_reg {x : StrX} : (d.setStrX k x).reg a = d.reg a := rfl
@[simp] theorem Dev.setStrX_byte {x : StrX} : (d.setStrX k x).byte a = d.byte a := rfl

/-! setAxX. -/

theorem Dev.axX_setAxX {x : AxX} : (d.setAxX k x).axX b = if k = b then x else d.axX b := Tab.get_set
@[simp] theorem Dev.axX_setAxX_self {x : AxX} : (d.setAxX k x).axX k = x := Tab.get_set_self
@[simp] theorem Dev.setAxX_dst {x : AxX} : (d.setAxX k x).dst = d.dst := rfl
@[simp] theorem Dev.setAxX_regs {x : AxX} : (d.setAxX k x).regs = d.regs := rfl
@[simp] theorem Dev.setAxX_mem {x : AxX} : (d.setAxX k x).mem = d.mem := rfl
@[simp] theorem Dev.setAxX_ecc {x : AxX} : (d.setAxX k x).ecc = d.ecc := rfl
@[simp] theorem Dev.setAxX_released {x : AxX} : (d.setAxX k x).released = d.released := rfl
@[simp] theorem Dev.setAxX_work {x : AxX} : (d.setAxX k x).work = d.work := rfl
@[simp] theorem Dev.setAxX_flt {x : AxX} : (d.setAxX k x).flt = d.flt := rfl
@[simp] theorem Dev.setAxX_lanes {x : AxX} : (d.setAxX k x).lanes = d.lanes := rfl
@[simp] theorem Dev.setAxX_fab {x : AxX} : (d.setAxX k x).fab = d.fab := rfl
@[simp] theorem Dev.setAxX_imgs {x : AxX} : (d.setAxX k x).imgs = d.imgs := rfl
@[simp] theorem Dev.setAxX_gates {x : AxX} : (d.setAxX k x).gates = d.gates := rfl
@[simp] theorem Dev.setAxX_mbx {x : AxX} : (d.setAxX k x).mbx = d.mbx := rfl
@[simp] theorem Dev.setAxX_her {x : AxX} : (d.setAxX k x).her = d.her := rfl
@[simp] theorem Dev.setAxX_eng {x : AxX} : (d.setAxX k x).eng = d.eng := rfl
@[simp] theorem Dev.setAxX_reg {x : AxX} : (d.setAxX k x).reg a = d.reg a := rfl
@[simp] theorem Dev.setAxX_byte {x : AxX} : (d.setAxX k x).byte a = d.byte a := rfl

/-! setDsfX. -/

theorem Dev.dsfX_setDsfX {x : DsfX} : (d.setDsfX k x).dsfX b = if k = b then x else d.dsfX b := Tab.get_set
@[simp] theorem Dev.dsfX_setDsfX_self {x : DsfX} : (d.setDsfX k x).dsfX k = x := Tab.get_set_self
@[simp] theorem Dev.setDsfX_dst {x : DsfX} : (d.setDsfX k x).dst = d.dst := rfl
@[simp] theorem Dev.setDsfX_regs {x : DsfX} : (d.setDsfX k x).regs = d.regs := rfl
@[simp] theorem Dev.setDsfX_mem {x : DsfX} : (d.setDsfX k x).mem = d.mem := rfl
@[simp] theorem Dev.setDsfX_ecc {x : DsfX} : (d.setDsfX k x).ecc = d.ecc := rfl
@[simp] theorem Dev.setDsfX_released {x : DsfX} : (d.setDsfX k x).released = d.released := rfl
@[simp] theorem Dev.setDsfX_work {x : DsfX} : (d.setDsfX k x).work = d.work := rfl
@[simp] theorem Dev.setDsfX_flt {x : DsfX} : (d.setDsfX k x).flt = d.flt := rfl
@[simp] theorem Dev.setDsfX_lanes {x : DsfX} : (d.setDsfX k x).lanes = d.lanes := rfl
@[simp] theorem Dev.setDsfX_fab {x : DsfX} : (d.setDsfX k x).fab = d.fab := rfl
@[simp] theorem Dev.setDsfX_imgs {x : DsfX} : (d.setDsfX k x).imgs = d.imgs := rfl
@[simp] theorem Dev.setDsfX_gates {x : DsfX} : (d.setDsfX k x).gates = d.gates := rfl
@[simp] theorem Dev.setDsfX_mbx {x : DsfX} : (d.setDsfX k x).mbx = d.mbx := rfl
@[simp] theorem Dev.setDsfX_her {x : DsfX} : (d.setDsfX k x).her = d.her := rfl
@[simp] theorem Dev.setDsfX_eng {x : DsfX} : (d.setDsfX k x).eng = d.eng := rfl
@[simp] theorem Dev.setDsfX_reg {x : DsfX} : (d.setDsfX k x).reg a = d.reg a := rfl
@[simp] theorem Dev.setDsfX_byte {x : DsfX} : (d.setDsfX k x).byte a = d.byte a := rfl

/-! setSarX. -/

theorem Dev.sarX_setSarX {x : SarX} : (d.setSarX k x).sarX b = if k = b then x else d.sarX b := Tab.get_set
@[simp] theorem Dev.sarX_setSarX_self {x : SarX} : (d.setSarX k x).sarX k = x := Tab.get_set_self
@[simp] theorem Dev.setSarX_dst {x : SarX} : (d.setSarX k x).dst = d.dst := rfl
@[simp] theorem Dev.setSarX_regs {x : SarX} : (d.setSarX k x).regs = d.regs := rfl
@[simp] theorem Dev.setSarX_mem {x : SarX} : (d.setSarX k x).mem = d.mem := rfl
@[simp] theorem Dev.setSarX_ecc {x : SarX} : (d.setSarX k x).ecc = d.ecc := rfl
@[simp] theorem Dev.setSarX_released {x : SarX} : (d.setSarX k x).released = d.released := rfl
@[simp] theorem Dev.setSarX_work {x : SarX} : (d.setSarX k x).work = d.work := rfl
@[simp] theorem Dev.setSarX_flt {x : SarX} : (d.setSarX k x).flt = d.flt := rfl
@[simp] theorem Dev.setSarX_lanes {x : SarX} : (d.setSarX k x).lanes = d.lanes := rfl
@[simp] theorem Dev.setSarX_fab {x : SarX} : (d.setSarX k x).fab = d.fab := rfl
@[simp] theorem Dev.setSarX_imgs {x : SarX} : (d.setSarX k x).imgs = d.imgs := rfl
@[simp] theorem Dev.setSarX_gates {x : SarX} : (d.setSarX k x).gates = d.gates := rfl
@[simp] theorem Dev.setSarX_mbx {x : SarX} : (d.setSarX k x).mbx = d.mbx := rfl
@[simp] theorem Dev.setSarX_her {x : SarX} : (d.setSarX k x).her = d.her := rfl
@[simp] theorem Dev.setSarX_eng {x : SarX} : (d.setSarX k x).eng = d.eng := rfl
@[simp] theorem Dev.setSarX_reg {x : SarX} : (d.setSarX k x).reg a = d.reg a := rfl
@[simp] theorem Dev.setSarX_byte {x : SarX} : (d.setSarX k x).byte a = d.byte a := rfl

/-! setPrbX. -/

theorem Dev.prbX_setPrbX {x : PinX} : (d.setPrbX k x).prbX b = if k = b then x else d.prbX b := Tab.get_set
@[simp] theorem Dev.prbX_setPrbX_self {x : PinX} : (d.setPrbX k x).prbX k = x := Tab.get_set_self
@[simp] theorem Dev.setPrbX_dst {x : PinX} : (d.setPrbX k x).dst = d.dst := rfl
@[simp] theorem Dev.setPrbX_regs {x : PinX} : (d.setPrbX k x).regs = d.regs := rfl
@[simp] theorem Dev.setPrbX_mem {x : PinX} : (d.setPrbX k x).mem = d.mem := rfl
@[simp] theorem Dev.setPrbX_ecc {x : PinX} : (d.setPrbX k x).ecc = d.ecc := rfl
@[simp] theorem Dev.setPrbX_released {x : PinX} : (d.setPrbX k x).released = d.released := rfl
@[simp] theorem Dev.setPrbX_work {x : PinX} : (d.setPrbX k x).work = d.work := rfl
@[simp] theorem Dev.setPrbX_flt {x : PinX} : (d.setPrbX k x).flt = d.flt := rfl
@[simp] theorem Dev.setPrbX_lanes {x : PinX} : (d.setPrbX k x).lanes = d.lanes := rfl
@[simp] theorem Dev.setPrbX_fab {x : PinX} : (d.setPrbX k x).fab = d.fab := rfl
@[simp] theorem Dev.setPrbX_imgs {x : PinX} : (d.setPrbX k x).imgs = d.imgs := rfl
@[simp] theorem Dev.setPrbX_gates {x : PinX} : (d.setPrbX k x).gates = d.gates := rfl
@[simp] theorem Dev.setPrbX_mbx {x : PinX} : (d.setPrbX k x).mbx = d.mbx := rfl
@[simp] theorem Dev.setPrbX_her {x : PinX} : (d.setPrbX k x).her = d.her := rfl
@[simp] theorem Dev.setPrbX_eng {x : PinX} : (d.setPrbX k x).eng = d.eng := rfl
@[simp] theorem Dev.setPrbX_reg {x : PinX} : (d.setPrbX k x).reg a = d.reg a := rfl
@[simp] theorem Dev.setPrbX_byte {x : PinX} : (d.setPrbX k x).byte a = d.byte a := rfl

/-! setLoopX. -/

theorem Dev.loopX_setLoopX {x : LoopX} : (d.setLoopX k x).loopX b = if k = b then x else d.loopX b := Tab.get_set
@[simp] theorem Dev.loopX_setLoopX_self {x : LoopX} : (d.setLoopX k x).loopX k = x := Tab.get_set_self
@[simp] theorem Dev.setLoopX_dst {x : LoopX} : (d.setLoopX k x).dst = d.dst := rfl
@[simp] theorem Dev.setLoopX_regs {x : LoopX} : (d.setLoopX k x).regs = d.regs := rfl
@[simp] theorem Dev.setLoopX_mem {x : LoopX} : (d.setLoopX k x).mem = d.mem := rfl
@[simp] theorem Dev.setLoopX_ecc {x : LoopX} : (d.setLoopX k x).ecc = d.ecc := rfl
@[simp] theorem Dev.setLoopX_released {x : LoopX} : (d.setLoopX k x).released = d.released := rfl
@[simp] theorem Dev.setLoopX_work {x : LoopX} : (d.setLoopX k x).work = d.work := rfl
@[simp] theorem Dev.setLoopX_flt {x : LoopX} : (d.setLoopX k x).flt = d.flt := rfl
@[simp] theorem Dev.setLoopX_lanes {x : LoopX} : (d.setLoopX k x).lanes = d.lanes := rfl
@[simp] theorem Dev.setLoopX_fab {x : LoopX} : (d.setLoopX k x).fab = d.fab := rfl
@[simp] theorem Dev.setLoopX_imgs {x : LoopX} : (d.setLoopX k x).imgs = d.imgs := rfl
@[simp] theorem Dev.setLoopX_gates {x : LoopX} : (d.setLoopX k x).gates = d.gates := rfl
@[simp] theorem Dev.setLoopX_mbx {x : LoopX} : (d.setLoopX k x).mbx = d.mbx := rfl
@[simp] theorem Dev.setLoopX_her {x : LoopX} : (d.setLoopX k x).her = d.her := rfl
@[simp] theorem Dev.setLoopX_eng {x : LoopX} : (d.setLoopX k x).eng = d.eng := rfl
@[simp] theorem Dev.setLoopX_reg {x : LoopX} : (d.setLoopX k x).reg a = d.reg a := rfl
@[simp] theorem Dev.setLoopX_byte {x : LoopX} : (d.setLoopX k x).byte a = d.byte a := rfl

/-! setStpX. -/

theorem Dev.stpX_setStpX {x : StpX} : (d.setStpX k x).stpX b = if k = b then x else d.stpX b := Tab.get_set
@[simp] theorem Dev.stpX_setStpX_self {x : StpX} : (d.setStpX k x).stpX k = x := Tab.get_set_self
@[simp] theorem Dev.setStpX_dst {x : StpX} : (d.setStpX k x).dst = d.dst := rfl
@[simp] theorem Dev.setStpX_regs {x : StpX} : (d.setStpX k x).regs = d.regs := rfl
@[simp] theorem Dev.setStpX_mem {x : StpX} : (d.setStpX k x).mem = d.mem := rfl
@[simp] theorem Dev.setStpX_ecc {x : StpX} : (d.setStpX k x).ecc = d.ecc := rfl
@[simp] theorem Dev.setStpX_released {x : StpX} : (d.setStpX k x).released = d.released := rfl
@[simp] theorem Dev.setStpX_work {x : StpX} : (d.setStpX k x).work = d.work := rfl
@[simp] theorem Dev.setStpX_flt {x : StpX} : (d.setStpX k x).flt = d.flt := rfl
@[simp] theorem Dev.setStpX_lanes {x : StpX} : (d.setStpX k x).lanes = d.lanes := rfl
@[simp] theorem Dev.setStpX_fab {x : StpX} : (d.setStpX k x).fab = d.fab := rfl
@[simp] theorem Dev.setStpX_imgs {x : StpX} : (d.setStpX k x).imgs = d.imgs := rfl
@[simp] theorem Dev.setStpX_gates {x : StpX} : (d.setStpX k x).gates = d.gates := rfl
@[simp] theorem Dev.setStpX_mbx {x : StpX} : (d.setStpX k x).mbx = d.mbx := rfl
@[simp] theorem Dev.setStpX_her {x : StpX} : (d.setStpX k x).her = d.her := rfl
@[simp] theorem Dev.setStpX_eng {x : StpX} : (d.setStpX k x).eng = d.eng := rfl
@[simp] theorem Dev.setStpX_reg {x : StpX} : (d.setStpX k x).reg a = d.reg a := rfl
@[simp] theorem Dev.setStpX_byte {x : StpX} : (d.setStpX k x).byte a = d.byte a := rfl

/-! setCamTab. -/

theorem Dev.camTab_setCamTab {x : CamTab} : (d.setCamTab k x).camTab b = if k = b then x else d.camTab b := Tab.get_set
@[simp] theorem Dev.camTab_setCamTab_self {x : CamTab} : (d.setCamTab k x).camTab k = x := Tab.get_set_self
@[simp] theorem Dev.setCamTab_dst {x : CamTab} : (d.setCamTab k x).dst = d.dst := rfl
@[simp] theorem Dev.setCamTab_regs {x : CamTab} : (d.setCamTab k x).regs = d.regs := rfl
@[simp] theorem Dev.setCamTab_mem {x : CamTab} : (d.setCamTab k x).mem = d.mem := rfl
@[simp] theorem Dev.setCamTab_ecc {x : CamTab} : (d.setCamTab k x).ecc = d.ecc := rfl
@[simp] theorem Dev.setCamTab_released {x : CamTab} : (d.setCamTab k x).released = d.released := rfl
@[simp] theorem Dev.setCamTab_work {x : CamTab} : (d.setCamTab k x).work = d.work := rfl
@[simp] theorem Dev.setCamTab_flt {x : CamTab} : (d.setCamTab k x).flt = d.flt := rfl
@[simp] theorem Dev.setCamTab_lanes {x : CamTab} : (d.setCamTab k x).lanes = d.lanes := rfl
@[simp] theorem Dev.setCamTab_fab {x : CamTab} : (d.setCamTab k x).fab = d.fab := rfl
@[simp] theorem Dev.setCamTab_imgs {x : CamTab} : (d.setCamTab k x).imgs = d.imgs := rfl
@[simp] theorem Dev.setCamTab_gates {x : CamTab} : (d.setCamTab k x).gates = d.gates := rfl
@[simp] theorem Dev.setCamTab_mbx {x : CamTab} : (d.setCamTab k x).mbx = d.mbx := rfl
@[simp] theorem Dev.setCamTab_her {x : CamTab} : (d.setCamTab k x).her = d.her := rfl
@[simp] theorem Dev.setCamTab_eng {x : CamTab} : (d.setCamTab k x).eng = d.eng := rfl
@[simp] theorem Dev.setCamTab_reg {x : CamTab} : (d.setCamTab k x).reg a = d.reg a := rfl
@[simp] theorem Dev.setCamTab_byte {x : CamTab} : (d.setCamTab k x).byte a = d.byte a := rfl

/-! setSample. -/

theorem Dev.sample_setSample {x : List Sample} : (d.setSample k x).sample b = if k = b then x else d.sample b := Tab.get_set
@[simp] theorem Dev.sample_setSample_self {x : List Sample} : (d.setSample k x).sample k = x := Tab.get_set_self
@[simp] theorem Dev.setSample_dst {x : List Sample} : (d.setSample k x).dst = d.dst := rfl
@[simp] theorem Dev.setSample_regs {x : List Sample} : (d.setSample k x).regs = d.regs := rfl
@[simp] theorem Dev.setSample_mem {x : List Sample} : (d.setSample k x).mem = d.mem := rfl
@[simp] theorem Dev.setSample_ecc {x : List Sample} : (d.setSample k x).ecc = d.ecc := rfl
@[simp] theorem Dev.setSample_released {x : List Sample} : (d.setSample k x).released = d.released := rfl
@[simp] theorem Dev.setSample_work {x : List Sample} : (d.setSample k x).work = d.work := rfl
@[simp] theorem Dev.setSample_flt {x : List Sample} : (d.setSample k x).flt = d.flt := rfl
@[simp] theorem Dev.setSample_lanes {x : List Sample} : (d.setSample k x).lanes = d.lanes := rfl
@[simp] theorem Dev.setSample_fab {x : List Sample} : (d.setSample k x).fab = d.fab := rfl
@[simp] theorem Dev.setSample_imgs {x : List Sample} : (d.setSample k x).imgs = d.imgs := rfl
@[simp] theorem Dev.setSample_gates {x : List Sample} : (d.setSample k x).gates = d.gates := rfl
@[simp] theorem Dev.setSample_mbx {x : List Sample} : (d.setSample k x).mbx = d.mbx := rfl
@[simp] theorem Dev.setSample_her {x : List Sample} : (d.setSample k x).her = d.her := rfl
@[simp] theorem Dev.setSample_eng {x : List Sample} : (d.setSample k x).eng = d.eng := rfl
@[simp] theorem Dev.setSample_reg {x : List Sample} : (d.setSample k x).reg a = d.reg a := rfl
@[simp] theorem Dev.setSample_byte {x : List Sample} : (d.setSample k x).byte a = d.byte a := rfl

/-! setCmdX. -/

theorem Dev.cmdX_setCmdX {x : PinX} : (d.setCmdX k x).cmdX b = if k = b then x else d.cmdX b := Tab.get_set
@[simp] theorem Dev.cmdX_setCmdX_self {x : PinX} : (d.setCmdX k x).cmdX k = x := Tab.get_set_self
@[simp] theorem Dev.setCmdX_dst {x : PinX} : (d.setCmdX k x).dst = d.dst := rfl
@[simp] theorem Dev.setCmdX_regs {x : PinX} : (d.setCmdX k x).regs = d.regs := rfl
@[simp] theorem Dev.setCmdX_mem {x : PinX} : (d.setCmdX k x).mem = d.mem := rfl
@[simp] theorem Dev.setCmdX_ecc {x : PinX} : (d.setCmdX k x).ecc = d.ecc := rfl
@[simp] theorem Dev.setCmdX_released {x : PinX} : (d.setCmdX k x).released = d.released := rfl
@[simp] theorem Dev.setCmdX_work {x : PinX} : (d.setCmdX k x).work = d.work := rfl
@[simp] theorem Dev.setCmdX_flt {x : PinX} : (d.setCmdX k x).flt = d.flt := rfl
@[simp] theorem Dev.setCmdX_lanes {x : PinX} : (d.setCmdX k x).lanes = d.lanes := rfl
@[simp] theorem Dev.setCmdX_fab {x : PinX} : (d.setCmdX k x).fab = d.fab := rfl
@[simp] theorem Dev.setCmdX_imgs {x : PinX} : (d.setCmdX k x).imgs = d.imgs := rfl
@[simp] theorem Dev.setCmdX_gates {x : PinX} : (d.setCmdX k x).gates = d.gates := rfl
@[simp] theorem Dev.setCmdX_mbx {x : PinX} : (d.setCmdX k x).mbx = d.mbx := rfl
@[simp] theorem Dev.setCmdX_her {x : PinX} : (d.setCmdX k x).her = d.her := rfl
@[simp] theorem Dev.setCmdX_eng {x : PinX} : (d.setCmdX k x).eng = d.eng := rfl
@[simp] theorem Dev.setCmdX_reg {x : PinX} : (d.setCmdX k x).reg a = d.reg a := rfl
@[simp] theorem Dev.setCmdX_byte {x : PinX} : (d.setCmdX k x).byte a = d.byte a := rfl

/-! setFioCh. -/

theorem Dev.fioCh_setFioCh {x : FioCh} : (d.setFioCh k x).fioCh b = if k = b then x else d.fioCh b := Tab.get_set
@[simp] theorem Dev.fioCh_setFioCh_self {x : FioCh} : (d.setFioCh k x).fioCh k = x := Tab.get_set_self
@[simp] theorem Dev.setFioCh_dst {x : FioCh} : (d.setFioCh k x).dst = d.dst := rfl
@[simp] theorem Dev.setFioCh_regs {x : FioCh} : (d.setFioCh k x).regs = d.regs := rfl
@[simp] theorem Dev.setFioCh_mem {x : FioCh} : (d.setFioCh k x).mem = d.mem := rfl
@[simp] theorem Dev.setFioCh_ecc {x : FioCh} : (d.setFioCh k x).ecc = d.ecc := rfl
@[simp] theorem Dev.setFioCh_released {x : FioCh} : (d.setFioCh k x).released = d.released := rfl
@[simp] theorem Dev.setFioCh_work {x : FioCh} : (d.setFioCh k x).work = d.work := rfl
@[simp] theorem Dev.setFioCh_flt {x : FioCh} : (d.setFioCh k x).flt = d.flt := rfl
@[simp] theorem Dev.setFioCh_lanes {x : FioCh} : (d.setFioCh k x).lanes = d.lanes := rfl
@[simp] theorem Dev.setFioCh_fab {x : FioCh} : (d.setFioCh k x).fab = d.fab := rfl
@[simp] theorem Dev.setFioCh_imgs {x : FioCh} : (d.setFioCh k x).imgs = d.imgs := rfl
@[simp] theorem Dev.setFioCh_gates {x : FioCh} : (d.setFioCh k x).gates = d.gates := rfl
@[simp] theorem Dev.setFioCh_mbx {x : FioCh} : (d.setFioCh k x).mbx = d.mbx := rfl
@[simp] theorem Dev.setFioCh_her {x : FioCh} : (d.setFioCh k x).her = d.her := rfl
@[simp] theorem Dev.setFioCh_eng {x : FioCh} : (d.setFioCh k x).eng = d.eng := rfl
@[simp] theorem Dev.setFioCh_reg {x : FioCh} : (d.setFioCh k x).reg a = d.reg a := rfl
@[simp] theorem Dev.setFioCh_byte {x : FioCh} : (d.setFioCh k x).byte a = d.byte a := rfl

/-! setCapX. -/

theorem Dev.capX_setCapX {x : CapX} : (d.setCapX k x).capX b = if k = b then x else d.capX b := Tab.get_set
@[simp] theorem Dev.capX_setCapX_self {x : CapX} : (d.setCapX k x).capX k = x := Tab.get_set_self
@[simp] theorem Dev.setCapX_dst {x : CapX} : (d.setCapX k x).dst = d.dst := rfl
@[simp] theorem Dev.setCapX_regs {x : CapX} : (d.setCapX k x).regs = d.regs := rfl
@[simp] theorem Dev.setCapX_mem {x : CapX} : (d.setCapX k x).mem = d.mem := rfl
@[simp] theorem Dev.setCapX_ecc {x : CapX} : (d.setCapX k x).ecc = d.ecc := rfl
@[simp] theorem Dev.setCapX_released {x : CapX} : (d.setCapX k x).released = d.released := rfl
@[simp] theorem Dev.setCapX_work {x : CapX} : (d.setCapX k x).work = d.work := rfl
@[simp] theorem Dev.setCapX_flt {x : CapX} : (d.setCapX k x).flt = d.flt := rfl
@[simp] theorem Dev.setCapX_lanes {x : CapX} : (d.setCapX k x).lanes = d.lanes := rfl
@[simp] theorem Dev.setCapX_fab {x : CapX} : (d.setCapX k x).fab = d.fab := rfl
@[simp] theorem Dev.setCapX_imgs {x : CapX} : (d.setCapX k x).imgs = d.imgs := rfl
@[simp] theorem Dev.setCapX_gates {x : CapX} : (d.setCapX k x).gates = d.gates := rfl
@[simp] theorem Dev.setCapX_mbx {x : CapX} : (d.setCapX k x).mbx = d.mbx := rfl
@[simp] theorem Dev.setCapX_her {x : CapX} : (d.setCapX k x).her = d.her := rfl
@[simp] theorem Dev.setCapX_eng {x : CapX} : (d.setCapX k x).eng = d.eng := rfl
@[simp] theorem Dev.setCapX_reg {x : CapX} : (d.setCapX k x).reg a = d.reg a := rfl
@[simp] theorem Dev.setCapX_byte {x : CapX} : (d.setCapX k x).byte a = d.byte a := rfl

/-! setCapChX. -/

theorem Dev.capChX_setCapChX {x : CapCh} : (d.setCapChX k x).capChX b = if k = b then x else d.capChX b := Tab.get_set
@[simp] theorem Dev.capChX_setCapChX_self {x : CapCh} : (d.setCapChX k x).capChX k = x := Tab.get_set_self
@[simp] theorem Dev.setCapChX_dst {x : CapCh} : (d.setCapChX k x).dst = d.dst := rfl
@[simp] theorem Dev.setCapChX_regs {x : CapCh} : (d.setCapChX k x).regs = d.regs := rfl
@[simp] theorem Dev.setCapChX_mem {x : CapCh} : (d.setCapChX k x).mem = d.mem := rfl
@[simp] theorem Dev.setCapChX_ecc {x : CapCh} : (d.setCapChX k x).ecc = d.ecc := rfl
@[simp] theorem Dev.setCapChX_released {x : CapCh} : (d.setCapChX k x).released = d.released := rfl
@[simp] theorem Dev.setCapChX_work {x : CapCh} : (d.setCapChX k x).work = d.work := rfl
@[simp] theorem Dev.setCapChX_flt {x : CapCh} : (d.setCapChX k x).flt = d.flt := rfl
@[simp] theorem Dev.setCapChX_lanes {x : CapCh} : (d.setCapChX k x).lanes = d.lanes := rfl
@[simp] theorem Dev.setCapChX_fab {x : CapCh} : (d.setCapChX k x).fab = d.fab := rfl
@[simp] theorem Dev.setCapChX_imgs {x : CapCh} : (d.setCapChX k x).imgs = d.imgs := rfl
@[simp] theorem Dev.setCapChX_gates {x : CapCh} : (d.setCapChX k x).gates = d.gates := rfl
@[simp] theorem Dev.setCapChX_mbx {x : CapCh} : (d.setCapChX k x).mbx = d.mbx := rfl
@[simp] theorem Dev.setCapChX_her {x : CapCh} : (d.setCapChX k x).her = d.her := rfl
@[simp] theorem Dev.setCapChX_eng {x : CapCh} : (d.setCapChX k x).eng = d.eng := rfl
@[simp] theorem Dev.setCapChX_reg {x : CapCh} : (d.setCapChX k x).reg a = d.reg a := rfl
@[simp] theorem Dev.setCapChX_byte {x : CapCh} : (d.setCapChX k x).byte a = d.byte a := rfl

/-! setCanX. -/

theorem Dev.canX_setCanX {x : CanX} : (d.setCanX k x).canX b = if k = b then x else d.canX b := Tab.get_set
@[simp] theorem Dev.canX_setCanX_self {x : CanX} : (d.setCanX k x).canX k = x := Tab.get_set_self
@[simp] theorem Dev.setCanX_dst {x : CanX} : (d.setCanX k x).dst = d.dst := rfl
@[simp] theorem Dev.setCanX_regs {x : CanX} : (d.setCanX k x).regs = d.regs := rfl
@[simp] theorem Dev.setCanX_mem {x : CanX} : (d.setCanX k x).mem = d.mem := rfl
@[simp] theorem Dev.setCanX_ecc {x : CanX} : (d.setCanX k x).ecc = d.ecc := rfl
@[simp] theorem Dev.setCanX_released {x : CanX} : (d.setCanX k x).released = d.released := rfl
@[simp] theorem Dev.setCanX_work {x : CanX} : (d.setCanX k x).work = d.work := rfl
@[simp] theorem Dev.setCanX_flt {x : CanX} : (d.setCanX k x).flt = d.flt := rfl
@[simp] theorem Dev.setCanX_lanes {x : CanX} : (d.setCanX k x).lanes = d.lanes := rfl
@[simp] theorem Dev.setCanX_fab {x : CanX} : (d.setCanX k x).fab = d.fab := rfl
@[simp] theorem Dev.setCanX_imgs {x : CanX} : (d.setCanX k x).imgs = d.imgs := rfl
@[simp] theorem Dev.setCanX_gates {x : CanX} : (d.setCanX k x).gates = d.gates := rfl
@[simp] theorem Dev.setCanX_mbx {x : CanX} : (d.setCanX k x).mbx = d.mbx := rfl
@[simp] theorem Dev.setCanX_her {x : CanX} : (d.setCanX k x).her = d.her := rfl
@[simp] theorem Dev.setCanX_eng {x : CanX} : (d.setCanX k x).eng = d.eng := rfl
@[simp] theorem Dev.setCanX_reg {x : CanX} : (d.setCanX k x).reg a = d.reg a := rfl
@[simp] theorem Dev.setCanX_byte {x : CanX} : (d.setCanX k x).byte a = d.byte a := rfl

/-! setChPort. -/

theorem Dev.chPort_setChPort {x : ChainPort} : (d.setChPort k x).chPort b = if k = b then x else d.chPort b := Tab.get_set
@[simp] theorem Dev.chPort_setChPort_self {x : ChainPort} : (d.setChPort k x).chPort k = x := Tab.get_set_self
@[simp] theorem Dev.setChPort_dst {x : ChainPort} : (d.setChPort k x).dst = d.dst := rfl
@[simp] theorem Dev.setChPort_regs {x : ChainPort} : (d.setChPort k x).regs = d.regs := rfl
@[simp] theorem Dev.setChPort_mem {x : ChainPort} : (d.setChPort k x).mem = d.mem := rfl
@[simp] theorem Dev.setChPort_ecc {x : ChainPort} : (d.setChPort k x).ecc = d.ecc := rfl
@[simp] theorem Dev.setChPort_released {x : ChainPort} : (d.setChPort k x).released = d.released := rfl
@[simp] theorem Dev.setChPort_work {x : ChainPort} : (d.setChPort k x).work = d.work := rfl
@[simp] theorem Dev.setChPort_flt {x : ChainPort} : (d.setChPort k x).flt = d.flt := rfl
@[simp] theorem Dev.setChPort_lanes {x : ChainPort} : (d.setChPort k x).lanes = d.lanes := rfl
@[simp] theorem Dev.setChPort_fab {x : ChainPort} : (d.setChPort k x).fab = d.fab := rfl
@[simp] theorem Dev.setChPort_imgs {x : ChainPort} : (d.setChPort k x).imgs = d.imgs := rfl
@[simp] theorem Dev.setChPort_gates {x : ChainPort} : (d.setChPort k x).gates = d.gates := rfl
@[simp] theorem Dev.setChPort_mbx {x : ChainPort} : (d.setChPort k x).mbx = d.mbx := rfl
@[simp] theorem Dev.setChPort_her {x : ChainPort} : (d.setChPort k x).her = d.her := rfl
@[simp] theorem Dev.setChPort_eng {x : ChainPort} : (d.setChPort k x).eng = d.eng := rfl
@[simp] theorem Dev.setChPort_reg {x : ChainPort} : (d.setChPort k x).reg a = d.reg a := rfl
@[simp] theorem Dev.setChPort_byte {x : ChainPort} : (d.setChPort k x).byte a = d.byte a := rfl

/-! setSafeIn. -/

theorem Dev.safeIn_setSafeIn {x : SafeIn} : (d.setSafeIn k x).safeIn b = if k = b then x else d.safeIn b := Tab.get_set
@[simp] theorem Dev.safeIn_setSafeIn_self {x : SafeIn} : (d.setSafeIn k x).safeIn k = x := Tab.get_set_self
@[simp] theorem Dev.setSafeIn_dst {x : SafeIn} : (d.setSafeIn k x).dst = d.dst := rfl
@[simp] theorem Dev.setSafeIn_regs {x : SafeIn} : (d.setSafeIn k x).regs = d.regs := rfl
@[simp] theorem Dev.setSafeIn_mem {x : SafeIn} : (d.setSafeIn k x).mem = d.mem := rfl
@[simp] theorem Dev.setSafeIn_ecc {x : SafeIn} : (d.setSafeIn k x).ecc = d.ecc := rfl
@[simp] theorem Dev.setSafeIn_released {x : SafeIn} : (d.setSafeIn k x).released = d.released := rfl
@[simp] theorem Dev.setSafeIn_work {x : SafeIn} : (d.setSafeIn k x).work = d.work := rfl
@[simp] theorem Dev.setSafeIn_flt {x : SafeIn} : (d.setSafeIn k x).flt = d.flt := rfl
@[simp] theorem Dev.setSafeIn_lanes {x : SafeIn} : (d.setSafeIn k x).lanes = d.lanes := rfl
@[simp] theorem Dev.setSafeIn_fab {x : SafeIn} : (d.setSafeIn k x).fab = d.fab := rfl
@[simp] theorem Dev.setSafeIn_imgs {x : SafeIn} : (d.setSafeIn k x).imgs = d.imgs := rfl
@[simp] theorem Dev.setSafeIn_gates {x : SafeIn} : (d.setSafeIn k x).gates = d.gates := rfl
@[simp] theorem Dev.setSafeIn_mbx {x : SafeIn} : (d.setSafeIn k x).mbx = d.mbx := rfl
@[simp] theorem Dev.setSafeIn_her {x : SafeIn} : (d.setSafeIn k x).her = d.her := rfl
@[simp] theorem Dev.setSafeIn_eng {x : SafeIn} : (d.setSafeIn k x).eng = d.eng := rfl
@[simp] theorem Dev.setSafeIn_reg {x : SafeIn} : (d.setSafeIn k x).reg a = d.reg a := rfl
@[simp] theorem Dev.setSafeIn_byte {x : SafeIn} : (d.setSafeIn k x).byte a = d.byte a := rfl

/-! Registers. -/

theorem Dev.reg_setReg : (d.setReg a w).reg b = if a = b then w else d.reg b := Tab.get_set

@[simp] theorem Dev.reg_setReg_self : (d.setReg a w).reg a = w := Tab.get_set_self

theorem Dev.reg_setReg_ne (h : a ≠ b) : (d.setReg a w).reg b = d.reg b := Tab.get_set_ne h

@[simp] theorem Dev.setReg_byte : (d.setReg a w).byte b = d.byte b := rfl

@[simp] theorem Dev.put_byte : (d.put f v).byte b = d.byte b := rfl

theorem Dev.reg_put_ne (h : f.addr ≠ a) : (d.put f v).reg a = d.reg a := Dev.reg_setReg_ne h

@[simp] theorem Dev.reg_setByte {x : Byte} : (d.setByte a x).reg b = d.reg b := rfl

@[simp] theorem Dev.reg_setEcc : (d.setEcc a v).reg b = d.reg b := rfl

/-- Bit i of a word whose bits lo + n - 1 to lo are replaced. -/
theorem insBits_testBit {x : W32} {lo n v i : Nat} (h : lo + n ≤ 32) :
    (insBits x lo n v).toNat.testBit i =
      if i < lo then x.toNat.testBit i else if i < lo + n then v.testBit (i - lo) else x.toNat.testBit i := by
  have hb : ∀ m, x.toNat / 2 ^ m * 2 ^ m ≤ x.toNat := fun m => Nat.div_mul_le_self _ _
  have hA : x.toNat % 2 ^ lo < 2 ^ lo := Nat.mod_lt _ (by positivity)
  have hB : v % 2 ^ n < 2 ^ n := Nat.mod_lt _ (by positivity)
  set C := x.toNat / 2 ^ (lo + n) with hC
  have hsum : x.toNat % 2 ^ lo + v % 2 ^ n * 2 ^ lo + C * 2 ^ (lo + n) =
      2 ^ lo * (2 ^ n * C + v % 2 ^ n) + x.toNat % 2 ^ lo := by
    rw [pow_add]; ring
  have hCl : C < 2 ^ (32 - (lo + n)) := by
    rw [hC, Nat.div_lt_iff_lt_mul (by positivity), ← pow_add, Nat.sub_add_cancel h]
    exact x.isLt
  have hlt : x.toNat % 2 ^ lo + v % 2 ^ n * 2 ^ lo + C * 2 ^ (lo + n) < 2 ^ 32 := by
    have h1 : (C + 1) * 2 ^ (lo + n) ≤ 2 ^ 32 := by
      calc (C + 1) * 2 ^ (lo + n) ≤ 2 ^ (32 - (lo + n)) * 2 ^ (lo + n) := Nat.mul_le_mul_right _ hCl
        _ = 2 ^ 32 := by rw [← pow_add, Nat.sub_add_cancel h]
    have h2 : (v % 2 ^ n + 1) * 2 ^ lo ≤ 2 ^ (lo + n) := by
      calc (v % 2 ^ n + 1) * 2 ^ lo ≤ 2 ^ n * 2 ^ lo := Nat.mul_le_mul_right _ hB
        _ = 2 ^ (lo + n) := by rw [← pow_add, Nat.add_comm]
    nlinarith
  rw [insBits, BitVec.toNat_ofNat, Nat.mod_eq_of_lt hlt, hsum, Nat.testBit_two_pow_mul_add _ hA]
  by_cases h1 : i < lo
  · simp [h1, Nat.testBit_mod_two_pow]
  · rw [if_neg h1, if_neg h1, Nat.testBit_two_pow_mul_add _ hB]
    by_cases h2 : i < lo + n
    · rw [if_pos (by omega), if_pos h2, Nat.testBit_mod_two_pow]
      simp [show i - lo < n by omega]
    · rw [if_neg (by omega), if_neg h2, hC, Nat.testBit_div_two_pow]
      congr 1
      omega

/-- A field reads what was written, to its width. -/
theorem Dev.get_put_self (h : f.lo + f.width ≤ 32) : (d.put f v).get f = v % 2 ^ f.width := by
  refine Nat.eq_of_testBit_eq fun i => ?_
  rw [Dev.get, Dev.put, Dev.reg_setReg_self, Nat.testBit_mod_two_pow, Nat.testBit_div_two_pow, insBits_testBit h,
    Nat.testBit_mod_two_pow]
  by_cases hi : i < f.width
  · simp [hi, show i + f.lo < f.lo + f.width by omega]
  · simp [hi]

/-- A write of one field leaves every field of another register. -/
theorem Dev.get_put_ne (h : f.addr ≠ g.addr) : (d.put f v).get g = d.get g := by
  rw [Dev.get, Dev.reg_put_ne h, Dev.get]

/-- A write of one field leaves the other fields of its register. -/
theorem Dev.get_put_disjoint (h : f.lo + f.width ≤ 32) (hd : g.lo + g.width ≤ f.lo ∨ f.lo + f.width ≤ g.lo) :
    (d.put f v).get g = d.get g := by
  by_cases ha : f.addr = g.addr
  · refine Nat.eq_of_testBit_eq fun i => ?_
    rw [Dev.get, Dev.put, ← ha, Dev.reg_setReg_self, Dev.get, ← ha, Nat.testBit_mod_two_pow, Nat.testBit_div_two_pow,
      insBits_testBit h, Nat.testBit_mod_two_pow, Nat.testBit_div_two_pow]
    by_cases hi : i < g.width
    · rcases hd with hd | hd
      · simp [hi, show i + g.lo < f.lo by omega]
      · simp [hi, show ¬ i + g.lo < f.lo by omega, show ¬ i + g.lo < f.lo + f.width by omega]
    · simp [hi]
  · exact Dev.get_put_ne ha

/-! Memory. -/

theorem Dev.byte_setByte {x : Byte} : (d.setByte a x).byte b = if a = b then x else d.byte b := Tab.get_set

@[simp] theorem Dev.byte_setByte_self {x : Byte} : (d.setByte a x).byte a = x := Tab.get_set_self

theorem Dev.byte_setByte_ne {x : Byte} (h : a ≠ b) : (d.setByte a x).byte b = d.byte b := Tab.get_set_ne h

@[simp] theorem Dev.byte_setEcc : (d.setEcc a v).byte b = d.byte b := rfl

/-- A store of n bytes leaves every byte outside them. -/
theorem Dev.byte_wrN_outside {n : Nat} (h : b < a ∨ a + n ≤ b) : (d.wrN a n v).byte b = d.byte b := by
  induction n generalizing d a v with
  | zero => rfl
  | succ n ih => rw [Dev.wrN, ih (by omega), Dev.byte_setByte_ne (by omega)]

/-- A store of n bytes writes them little-endian (R5). -/
theorem Dev.rdN_wrN {n : Nat} : (d.wrN a n v).rdN a n = v % 256 ^ n := by
  induction n generalizing d a v with
  | zero => simp [Dev.rdN, Nat.mod_one]
  | succ n ih =>
    have h : v % 256 ^ (n + 1) = v % 256 + 256 * (v / 256 % 256 ^ n) := by rw [pow_succ', Nat.mod_mul]
    rw [Dev.wrN, Dev.rdN, ih, Dev.byte_wrN_outside (by omega), Dev.byte_setByte_self, BitVec.toNat_ofNat, h]

@[simp] theorem Dev.wrN_regs {n : Nat} : (d.wrN a n v).regs = d.regs := by
  induction n generalizing d a v with
  | zero => rfl
  | succ n ih => rw [Dev.wrN, ih]; rfl

@[simp] theorem Dev.touchEcc_mem : (d.touchEcc a).mem = d.mem := by
  unfold Dev.touchEcc
  split <;> rfl

@[simp] theorem Dev.touchEcc_regs : (d.touchEcc a).regs = d.regs := by
  unfold Dev.touchEcc
  split <;> rfl

@[simp] theorem Dev.touchEcc_byte : (d.touchEcc a).byte b = d.byte b := by
  rw [Dev.byte, Dev.byte, Dev.touchEcc_mem]

theorem Dev.byte_wr64_outside {x : W64} (h : b / 8 ≠ a / 8) : (d.wr64 a x).byte b = d.byte b := by
  rw [Dev.wr64, Dev.touchEcc_byte, Dev.byte_wrN_outside (by omega)]

/-- Memory is in canonical form. -/
abbrev Memory.wf (d : Dev) : Prop := Tab.wf memDflt d.mem = true

theorem Memory.wf_reset : Memory.wf State.reset.dev := rfl

theorem Memory.wf_setByte {x : Byte} (h : Memory.wf d) : Memory.wf (d.setByte a x) := Tab.wf_set h

theorem Memory.wf_wrN {n : Nat} (h : Memory.wf d) : Memory.wf (d.wrN a n v) := by
  induction n generalizing d a v with
  | zero => exact h
  | succ n ih => exact ih (Memory.wf_setByte h)

theorem Memory.wf_touchEcc (h : Memory.wf d) : Memory.wf (d.touchEcc a) := by
  rw [Memory.wf, Dev.touchEcc_mem]
  exact h

theorem Memory.wf_wr64 {x : W64} (h : Memory.wf d) : Memory.wf (d.wr64 a x) :=
  Memory.wf_touchEcc (Memory.wf_wrN h)

theorem Memory.wf_wr32 (h : Memory.wf d) : Memory.wf (d.wr32 a w) :=
  Memory.wf_touchEcc (Memory.wf_wrN (Memory.wf_wrN h))

theorem Memory.wf_wrWords {ws : List W64} (h : Memory.wf d) : Memory.wf (d.wrWords a ws) := by
  induction ws generalizing d a with
  | nil => exact h
  | cons w ws ih => exact ih (Memory.wf_wr64 h)

@[simp] theorem Memory.wf_setReg : Memory.wf (d.setReg a w) ↔ Memory.wf d := .rfl

end Sys2Proof.Machine
end

