-- ==== Sys2Proof/Laws/Frames.lean ====
section
/-! SUPPORT. What the shared forms of a command's meaning leave alone: the queue, the clock, and the device where the form has no effect. -/

namespace Sys2Proof.Machine

variable {s : State} {f : Clock → Dev → Dev}

@[simp] theorem State.onDev_pending : (s.onDev f).pending = s.pending := rfl
@[simp] theorem State.onDev_clk : (s.onDev f).clk = s.clk := rfl
@[simp] theorem State.onDev_dev : (s.onDev f).dev = f s.clk s.dev := rfl

@[simp] theorem State.onServing_pending : (s.onServing f).pending = s.pending := by
  unfold State.onServing
  split <;> rfl

@[simp] theorem State.onServing_clk : (s.onServing f).clk = s.clk := by
  unfold State.onServing
  split <;> rfl

theorem State.onServing_dev (h : s.dev.dst.serves = true) : (s.onServing f).dev = f s.clk s.dev := by
  rw [State.onServing, if_pos h, State.onDev_dev]

theorem State.onServing_off (h : s.dev.dst.serves = false) : s.onServing f = s := by
  simp [State.onServing, h]

@[simp] theorem State.command_pending {opc : Nat} {g : CmdFn} {q : Request} : (s.command opc g q).pending = s.pending := by
  unfold State.command
  split <;> rfl

@[simp] theorem State.command_clk {opc : Nat} {g : CmdFn} {q : Request} : (s.command opc g q).clk = s.clk := by
  unfold State.command
  split <;> rfl

theorem State.command_dev {opc : Nat} {g : CmdFn} {q : Request} (h : s.dev.dst.serves = true) :
    (s.command opc g q).dev = s.dev.conclude s.clk s.clk.ns s.clk.frac q 0 opc (g s.clk s.clk.ns q s.dev) := by
  rw [State.command, if_pos h]

@[simp] theorem State.shosto_pending {e : Fin 30} {i : Instr} {op : ShEnv → ShOut} : (s.shosto e i op).pending = s.pending :=
  State.onServing_pending

@[simp] theorem State.shosto_clk {e : Fin 30} {i : Instr} {op : ShEnv → ShOut} : (s.shosto e i op).clk = s.clk :=
  State.onServing_clk

@[simp] theorem State.toBoot_pending {c : Nat} {w u : Bool} : (s.toBoot c w u).pending = s.pending := rfl
@[simp] theorem State.toBoot_clk {c : Nat} {w u : Bool} : (s.toBoot c w u).clk = {} := rfl
@[simp] theorem State.wake_pending {b : Nat} : (s.wake b).pending = s.pending := rfl
@[simp] theorem State.wake_clk {b : Nat} : (s.wake b).clk = {} := rfl
@[simp] theorem State.toOff_pending : s.toOff.pending = s.pending := rfl
@[simp] theorem State.toOff_clk : s.toOff.clk = {} := rfl

@[simp] theorem State.wakeEvent_pending {b : Nat} : (s.wakeEvent b).pending = s.pending := by
  unfold State.wakeEvent
  split
  · rfl
  · split <;> rfl

end Sys2Proof.Machine
end

