-- ==== Sys2Proof/Laws/Commands.lean ====
section
/-! SUPPORT. The frame every request row shares: how its verdict becomes the next state (R371, R374). -/

namespace Sys2Proof.Machine

variable {s : State} {q : Request} {opc : Nat} {f : CmdFn} {p : Nat} {d : Dev}

/-- A request that MIRROR does not bar keeps its verdict. -/
theorem Dev.inMirror_here {e : Dev} {v : Verdict} (h : e.dst = .mirror → mirrorServes.contains opc = true) :
    e.inMirror opc v = v := by
  unfold Dev.inMirror
  by_cases hx : e.dst = .mirror
  · rw [if_pos (.inr (h hx))]
  · rw [if_pos (.inl hx)]

theorem State.command_done {r : Rsp} (h : f s.clk s.clk.ns q s.dev = .done r d) (hs : Served s q opc s.clk.ns) :
    s.command opc f q = s.done opc q d r := by
  rw [State.command, if_pos hs.serves, h, Dev.conclude, Dev.inMirror_here hs.here]
  simp only [hs.mirrored, hs.inTime, State.done, Bool.false_eq_true, if_false]

theorem State.command_accept (h : f s.clk s.clk.ns q s.dev = .accept p d) (hs : Served s q opc p) :
    s.command opc f q = s.accepted opc q p d := by
  rw [State.command, if_pos hs.serves, h, Dev.conclude, Dev.inMirror_here hs.here]
  simp only [hs.mirrored, hs.inTime, State.accepted, Dev.withWork, Bool.false_eq_true, if_false]

theorem State.command_acceptOnly (h : f s.clk s.clk.ns q s.dev = .acceptOnly p d) (hs : Served s q opc p) :
    s.command opc f q = s.acceptedOnly opc q p d := by
  rw [State.command, if_pos hs.serves, h, Dev.conclude, Dev.inMirror_here hs.here]
  simp only [hs.mirrored, hs.inTime, State.acceptedOnly, Bool.false_eq_true, if_false]

theorem State.command_refuse {code eng cls : Nat} (h : f s.clk s.clk.ns q s.dev = .refuse code eng cls)
    (hs : s.dev.dst.serves = true) (hm : s.dev.dst ≠ .mirror) (hc : code < rcTooLate) :
    s.command opc f q = s.refused opc q s.dev code eng cls := by
  rw [State.command, if_pos hs, h, Dev.conclude, Dev.inMirror_here fun hx => absurd hx hm]
  simp only [hc, State.refused, if_true]

theorem State.command_tooLate (h : f s.clk s.clk.ns q s.dev = .accept p d) (hs : s.dev.dst.serves = true)
    (hm : s.dev.dst ≠ .mirror) (ht : tooLate q s.clk.ns p = true) :
    s.command opc f q = s.refused opc q s.dev rcTooLate 31 0 := by
  rw [State.command, if_pos hs, h, Dev.conclude, Dev.inMirror_here fun hx => absurd hx hm]
  simp only [ht, State.refused, if_true]

theorem State.command_silent (h : s.dev.dst.serves = false) : s.command opc f q = s := by
  simp [State.command, h]

end Sys2Proof.Machine
end

