-- ==== Sys2Proof/Machine/SharedPins.lean ====
section
/-! DEFINITION. The outputs that R451 gives to the active member only, beside the lanes, BRKg and STRn: modulator clocks, feedback outputs,
excitation; and OWN_OUT (R108, R146, R147, R152, R451, R452). None of a level stands for high impedance. -/

namespace Sys2Proof.Machine

/-- These outputs are driven: firmware runs, and the device is not forced out, does not mirror and does not wait to drive (R39, R452). -/
def Dev.sharedDriven (d : Dev) : Bool := d.dst.serves && !d.sharedZ

/-- OWN_OUT: high while the device is the active member and PFORCE_N is high at its pin (R452). -/
def Dev.ownOut (d : Dev) : Bool := d.dst.serves && decide (d.get PAIR_STAT_ROLE = 1) && d.flag PAIR_STAT_PFORCE

/-- DSD_CKm at an instant: while the clock runs it rises at the multiples of 2 × DIV ns with a duty cycle of 50 % (R108, R109); else low (log
entry 100). -/
def Dev.dsdCk (d : Dev) (m now : Nat) : Option Bool :=
  let div := d.get (DSF_CKm_CFG_DIV m)
  if d.sharedDriven then some ((d.clockStart m).isSome && decide (now % (2 * div) < div)) else none

/-- Pin RES_EXCm at an instant (R152): the square wave with EN; else low (log entry 100). -/
def Dev.excPin (d : Dev) (c : Clock) (m : Nat) : Option Bool := if d.sharedDriven then some (d.resExc c m) else none

/-- Bit period of port n in ns. -/
def Dev.fbkBit (d : Dev) (n : Nat) : Nat := 2 * d.get (FBK_nn_SER0_ACT_BDIV n)

/-- Time since the gate at which port n's frame started, while the frame is under way. -/
def Dev.frameAge (d : Dev) (n now : Nat) : Option Nat := (d.fbkX n).gate.map fun g => now - g

/-- Pin A of a port in SSI mode: the clock falls at the gate, runs NB + 1 periods and stays high (R146). -/
def Dev.ssiClock (d : Dev) (n now : Nat) : Option Bool :=
  if d.fbMode n ≠ fbSsi || !d.sharedDriven then none
  else some (match d.frameAge n now with
    | some t => decide ((d.get (FBK_nn_SER0_ACT_NB n) + 1) * d.fbkBit n ≤ t) || decide (d.fbkBit n ≤ 2 * (t % d.fbkBit n))
    | none => true)

/-- Pins A and C of a port in serial absolute mode: TXD while the request goes out, bit by bit, the least significant first; and DE (R147).
Outside the request TXD has no level of the spec. -/
def Dev.serialPins (d : Dev) (n now : Nat) : Option (Option Bool × Bool) :=
  if d.fbMode n ≠ fbSerial || !d.sharedDriven then none
  else some (match d.frameAge n now with
    | some t =>
      let k := if d.fbkBit n = 0 then 0 else t / d.fbkBit n
      if k < d.get (FBK_nn_SER1_ACT_REQB n) then (some ((d.get (FBK_nn_REQ_ACT_REQ n)).testBit k), true) else (none, false)
    | none => (none, false))

end Sys2Proof.Machine
end

