-- ==== Sys2Proof/Tests/Slice0.lean ====
section
/-! SUPPORT. Tests: ill-formed terms, words of the spec's encodings, results the spec's own figures give, and for every obligation with
hypotheses a state and operands that meet them. -/

namespace Sys2Proof.Tests
open Sys2Proof Sys2Proof.Machine

set_option maxRecDepth 20000
set_option Elab.async false

/-! Small states. -/

/-- A device in a state at an instant, with register fields poked. -/
def mk (st : DevState) (ns : Nat) (l : List (Field × Nat) := []) : State :=
  { pending := [], clk := { osc := ns / 2, tor := ns * 2 ^ 48 }
    dev := l.foldl (fun d p => d.put p.1 p.2) { State.reset.dev with dst := st } }

/-- The same with its device changed. -/
def on (s : State) (f : Dev → Dev) : State := { s with dev := f s.dev }

/-- An ASAP request of mailbox 0 without a deadline. -/
def rq (target : Nat) (payload : List W64 := []) : Request :=
  { mbx := 0, seq := 1, asap := true, launch := 0, frac := 0, dl := 0, target := BitVec.ofNat 8 target, payload := payload }

/-- An address and value pair of an image. -/
def pr (f : Field) (v : Nat) : W64 := BitVec.ofNat 64 (f.addr * 2 ^ 32 + v)

/-! Requests that meet no common bar. -/

def served (s : State) (q : Request) (opc p : Nat) : Bool :=
  s.dev.dst.serves && (decide (s.dev.dst ≠ .mirror) || mirrorServes.contains opc) && !s.dev.notMirrored q opc && !tooLate q s.clk.ns p

theorem served_spec {s : State} {q : Request} {opc p : Nat} (h : served s q opc p = true) : Served s q opc p := by
  simp only [served, Bool.and_eq_true, Bool.or_eq_true, decide_eq_true_eq, Bool.not_eq_true'] at h
  obtain ⟨⟨⟨h1, h2⟩, h3⟩, h4⟩ := h
  exact ⟨h1, fun hm => h2.resolve_left fun hn => hn hm, h3, h4⟩

/-- The command accepts, or is done, or accepts alone, and the request meets no common bar. -/
def taken (f : CmdFn) (opc : Nat) (q : Request) (s : State) : Bool :=
  match f s.clk s.clk.ns q s.dev with
  | .accept p _ => served s q opc p
  | _ => false

def finished (f : CmdFn) (opc : Nat) (q : Request) (s : State) : Bool :=
  match f s.clk s.clk.ns q s.dev with
  | .done _ _ => served s q opc s.clk.ns
  | _ => false

def alone (f : CmdFn) (opc : Nat) (q : Request) (s : State) : Bool :=
  match f s.clk s.clk.ns q s.dev with
  | .acceptOnly p _ => served s q opc p
  | _ => false

def refuses (f : CmdFn) (q : Request) (s : State) : Option Nat :=
  match f s.clk s.clk.ns q s.dev with
  | .refuse c _ _ => some c
  | _ => none

theorem taken_spec {f : CmdFn} {opc : Nat} {q : Request} {s : State} (h : taken f opc q s = true) :
    ∃ p d, f s.clk s.clk.ns q s.dev = .accept p d ∧ Served s q opc p := by
  unfold taken at h
  split at h
  · exact ⟨_, _, by assumption, served_spec h⟩
  · cases h

theorem finished_spec {f : CmdFn} {opc : Nat} {q : Request} {s : State} (h : finished f opc q s = true) :
    ∃ r d, f s.clk s.clk.ns q s.dev = .done r d ∧ Served s q opc s.clk.ns := by
  unfold finished at h
  split at h
  · exact ⟨_, _, by assumption, served_spec h⟩
  · cases h

theorem alone_spec {f : CmdFn} {opc : Nat} {q : Request} {s : State} (h : alone f opc q s = true) :
    ∃ p d, f s.clk s.clk.ns q s.dev = .acceptOnly p d ∧ Served s q opc p := by
  unfold alone at h
  split at h
  · exact ⟨_, _, by assumption, served_spec h⟩
  · cases h

/-! Witnesses: steps, power and boot. -/

/-- StepRunsFrontCommand and IdleStepTicksOrRests: an empty queue with the time base at rest, running, and running without a step. -/
theorem test_wit_IdleStepTicksOrRests :
    ((mk .off 0).pending = [] ∧ (mk .off 0).dev.timeRuns = false) ∧
    ((mk .run 1000).pending = [] ∧ (mk .run 1000).dev.timeRuns = true ∧ (mk .run 1000).dev.servo.stepNow = none) := by decide

/-- ClockMovesOnlyByReset: a row that answers, with the clock kept and with it lost. -/
theorem test_wit_ClockMovesOnlyByReset :
    (∃ t, exec .bootedRead (mk .run 1000) = .next t) ∧ ∃ t, exec .brownOut (mk .run 1000) = .next t := ⟨⟨_, rfl⟩, ⟨_, rfl⟩⟩

theorem test_wit_StepKeepsClockAndQueueForm : State.reset.Inv := ⟨fun _ => rfl, fun _ h => nomatch h⟩

def offDown : State := on (mk .off 0) fun d => { d with pow := { d.pow with vin := false, brown := true } }
def held : State := on (mk .run 5000) fun d => { d with pow := { d.pow with resetLow := true } }
def soft : State := on (mk .run 5000) fun d => { d with pow := { d.pow with softAt := some 5000 } }
def hot : State := on (mk .off 0) fun d => { d with pow := { d.pow with hot := true } }

theorem test_wit_PowerSourcesEnterBoot :
    (offDown.dev.dst = .off ∧ offDown.dev.pow.vin = false ∧ offDown.dev.pow.resetLow = false ∧ offDown.dev.pow.hot = false) ∧
    (held.dev.dst ≠ .off ∧ held.dev.pow.vin = true ∧ held.dev.pow.resetLow = true ∧ held.dev.pow.hot = false) ∧
    (mk .safe 0).dev.dst.serves = true ∧ (soft.dev.pow.softAt = some 5000 ∧ 5000 ≤ soft.clk.ns) ∧
    ((129 : Int) < 130 ∧ hot.dev.pow.hot = true ∧ hot.dev.pow.vin = true ∧ hot.dev.pow.resetLow = false) := by decide

def asleep (st : DevState) : State :=
  on (mk st 0 [(CAN_WAKE_CFG_DMSK, 0x20), (CAN_WAKE_CFG_SMSK, 1), (CAN_CHc_WCFG_WEN 5, 1)]) fun d => { d with pow := { d.pow with vio := 63 } }
def sleeping (early : Nat) : State :=
  on (mk .ready 7000) fun d => { d with pow := { d.pow with sleepAt := some (7000, .doze), early := early } }
def wakeFrame : CanFrame := { ide := false, fdf := false, brs := false, rtr := false, esi := false, id := 0, dlc := 0, data := [] }

theorem test_wit_WakeEventsEnterBoot :
    ((asleep .standby).dev.dst = .standby ∧ 10000 ≤ 10000 ∧ 100 ≤ 100 ∧ (asleep .standby).dev.pow.vio.testBit 0 = true) ∧
    ((asleep .standby).dev.wakeFilter ≤ (asleep .standby).dev.wakeFilter ∧ (asleep .standby).dev.pow.vio.testBit 5 = true ∧
      ((asleep .standby).dev.get CAN_WAKE_CFG_SMSK).testBit 0 = true) ∧
    ((asleep .doze).dev.dst = .doze ∧ ((asleep .doze).dev.get CAN_WAKE_CFG_DMSK).testBit 5 = true ∧
      (asleep .doze).dev.wakeMatch 5 wakeFrame = true ∧ (asleep .doze).dev.pow.vio.testBit 5 = true) ∧
    ((sleeping 1).dev.pow.sleepAt = some (7000, .doze) ∧ 7000 ≤ (sleeping 1).clk.ns ∧ (sleeping 1).dev.pow.early ≠ 0) ∧
    9999 < 10000 ∧ 99 < 100 := by decide

theorem test_wit_ShutdownsLoseTheCore :
    ((150 : Int) < 151 ∧ (mk .run 0).dev.pow.hot = false) ∧
    ((sleeping 0).dev.pow.sleepAt = some (7000, .doze) ∧ DevState.doze ≠ .boot ∧ 7000 ≤ (sleeping 0).clk.ns ∧ (sleeping 0).dev.pow.early = 0) ∧
    (1000 ≤ 1000 ∧ (mk .run 0).dev.dst ≠ .off) ∧ 999 < 1000 := by decide

theorem test_wit_BootRows :
    ((mk .boot 0).dev.dst = .boot ∧ (mk .boot 0).dev.pow.resetLow = false ∧ (1 : BitVec 3) ≠ 0 ∧ (1 : BitVec 3) ≠ 7 ∧ (6 : BitVec 3) ≠ 7) ∧
    (mk .boot 0).dev.dst ≠ .off ∧ (mk .ready 0).dev.dst.serves = true ∧ (0 ≠ (5 : Fin 6).val ∧ bankOf 0 = 1 ∧ bankOf 31 = 2) := by decide

def booted : BootResult := { slotB := false, ares := 1, bres := 0, cfgbad := false, eccc := 0, btime := 1, pass := 60 }

theorem test_wit_BootCompletesIntoReady :
    ((mk .boot 0).dev.dst = .boot ∧ (mk .boot 0).dev.pow.resetLow = false ∧ (mk .boot 0).dev.get SYS_BOOT_CAUSE = 0 ∧
      BootResult_accepted booted = true) ∧
    ¬ ((mk .run 0).dev.dst = .boot ∧ (mk .run 0).dev.pow.resetLow = false ∧ (mk .run 0).dev.get SYS_BOOT_CAUSE = 0 ∧
      BootResult_accepted booted = true) := by decide

/-! Witnesses: requests. `taken`, `finished` and `alone` say that a command accepts, is done or accepts alone, and that the request meets no
common bar; taken_spec, finished_spec and alone_spec give the hypotheses of the statements from them. -/

/-- ResponseOccupiesOneEntry: at reset the link serves none of mailboxes 0 to 7. -/
theorem test_wit_ResponseOccupiesOneEntry : ∀ m < 8, ((mk .run 0).dev.get MBX_ROUTE_ROUTE).testBit m = false := by decide

theorem test_wit_RequestsAnsweredByVerdict :
    requestOf (.sysRun (rq 0xFE)) = some (0x0003, rq 0xFE) ∧ requestOf (.regWrite (rq 0xFE)) = some (0x0B01, rq 0xFE) ∧
    (mk .boot 0).dev.dst.serves = false ∧
    (refuses cmdSysRun (rq 0xFE) (mk .run 9) = some rcBadState ∧ (mk .run 9).dev.dst.serves = true ∧ (mk .run 9).dev.dst ≠ .mirror ∧
      rcBadState < rcTooLate) ∧
    finished cmdSysRun 0x0003 (rq 0xFE) (mk .ready 9) = true ∧ taken cmdSysStop 0x0004 (rq 0xFE) (mk .run 9) = true ∧
    alone cmdSysStandby 0x0005 (rq 0xFE) (mk .ready 9) = true := by decide

/-- A promise past the deadline: sys.stop with no lane running, launched at 5000, deadline 1 µs, lane 0's gate far off. -/
theorem test_wit_TooLate :
    let q : Request := { rq 0xFE with asap := false, launch := 2000000, dl := 1 }
    (match cmdIoDiag (mk .run 9).clk (mk .run 9).clk.ns { q with target := 0x6D, payload := [1] } (mk .run 9).dev with
      | .accept p _ => tooLate { q with target := 0x6D, payload := [1] } (mk .run 9).clk.ns p
      | _ => false) = true := by decide

theorem test_wit_SystemStateCommands :
    (rq 0xFE).target = 0xFE ∧
    ((rq 0xFE).payload = [] ∧ served (mk .ready 9) (rq 0xFE) 0x0003 9 = true ∧ (mk .ready 9).dev.dst = .ready ∧
      (mk .ready 9).dev.sysStop = none) ∧
    (served (mk .safe 9) (rq 0xFE) 0x0008 9 = true ∧ (mk .safe 9).dev.dst = .safe ∧ (mk .safe 9).dev.flt.active = []) ∧
    ((mk .run 9).dev.dst = .run ∧ (mk .run 9).dev.sysStop = none ∧ taken cmdSysStop 0x0004 (rq 0xFE) (mk .run 9) = true) ∧
    (served (mk .ready 9) (rq 0xFE) 0x0005 1000009 = true ∧ (mk .ready 9).dev.pow.sleepAt = none) ∧
    (let q := rq 0xFE [0x100]
     let s := mk .ready 9 [(CAN_CHc_CFG_ACT_MODE 0, 1)]
     q.payload.length = 1 ∧ bits64 (q.pw 0) 6 2 = 0 ∧ bits64 (q.pw 0) 14 50 = 0 ∧ bits64 (q.pw 0) 8 6 ≠ 0 ∧
       (∀ ch < 6, (bits64 (q.pw 0) 8 6).testBit ch = true → s.dev.canMode ch = canNormal ∧ 160 ≤ s.dev.canBitClocks ch) ∧
       served s q 0x0006 1000009 = true ∧ s.dev.dst = .ready ∧ s.dev.pow.sleepAt = none) ∧
    served (mk .run 9) (rq 0xFE) 0x0007 1000009 = true ∧
    ((mk .safe 9).dev.dst.serves = true ∧ (mk .safe 9).dev.dst ≠ .mirror ∧ (mk .safe 9).dev.dst ≠ .ready ∧ (mk .safe 9).dev.dst ≠ .run) := by decide

/-- reg.read of the 128 registers from CAP0 on, and of one. -/
theorem test_wit_QueryCommands :
    (served (mk .mirror 9) (rq 0xFE) 0x0000 9 = true ∧ served (mk .mirror 9) (rq 0xFE) 0x0002 9 = true ∧
      served (mk .run 9) (rq 0xFE) 0x0001 9 = true) ∧
    ((rq 0x6C).target = 0x6C ∧ served (mk .run 9) (rq 0x6C) 0x0701 9 = true) ∧
    ((rq 0x6F).target.toNat = pairUnit ∧ served (mk .mirror 9) (rq 0x6F) 0x0902 9 = true) ∧
    (let q := rq 0xFE [0x0000008040000000]
     q.payload.length = 1 ∧ bits64 (q.pw 0) 0 32 % 4 = 0 ∧ bits64 (q.pw 0) 48 16 = 0 ∧ 0 < bits64 (q.pw 0) 32 16 ∧
       bits64 (q.pw 0) 32 16 ≤ 128 ∧ served (mk .run 9) q 0x0B00 9 = true) := by decide

/-- A loop block's image that passes every check. -/
def loopImg : List W64 := [pr (LPB_bb_LPER_LPER 0) 50000, pr (LPB_bb_PGAIN_G 0) 1, pr (LPB_bb_OSCALE_V 0) 1, pr (LPB_bb_SCHED_NREG 0) 1,
  pr (LPB_bb_PSRC_TYPE 0) 1]

def R : State := mk .ready 1000000
def U : State := mk .run 1000000

/-- The pair that leaves a register at its reset value. -/
def keep (f : Field) : W64 := pr f (R.dev.reg f.addr).toNat

/-! Each witness of an image command goes through the hypotheses of its clause in their order. -/

theorem test_wit_Images_laneServo :
    let q := rq 0 [pr (PWM_Lnn_DT_DT 0) 5]
    let s := mk .ready 1000000 [(FBK_nn_CFG_ACT_MODE 0, 1)]
    let d := s.dev
    let lead := imageLead q s.clk.ns
    let t := d.firingAhead 48 lead
    let d1 := (d.atCommit t q.image).setLane 0 { d.lane 0 with state := d.stateAt 0 t }
    let d2 : Dev := { d with imgs := d.imgs ++ [{ group := laneBase 0, from_ := lead, due := t, pairs := q.image, work := some q.id }] }
    q.payload ≠ [] ∧ q.target.toNat = 0 ∧ d.isReleased 4 0 = false ∧ imageOk (fun a => laneGroupOffs.any fun p => a = laneBase 0 + p.1) q.image = true ∧
      d1.laneCycleClash 0 = false ∧ d1.laneZero 0 = false ∧ d1.laneRange 0 = false ∧ d1.laneStateClash 0 = false ∧ d.cmdinOf 0 = none ∧
      (d.imagesBy t).laneCfgAdmit d1 0 = none ∧ d2.fitsCap (slotEngine 0) = true ∧ d2.mirrorOver = false ∧ served s q 0x0100 t = true := by
  decide +kernel

theorem test_wit_Images_laneStepper :
    let q := rq 24 [pr (PWM_Ss_CFG_FCOAST 0) 1]
    let d := R.dev
    let t := d.firingAhead 72 (imageLead q R.clk.ns)
    let d1 := (d.atCommit t q.image).setLane 24 { d.lane 24 with state := d.stateAt 24 t }
    q.target.toNat = 24 ∧ d.isReleased 4 24 = false ∧ imageOk (fun a => stpOffs.any fun p => a = stpBase 0 + p.1) q.image = true ∧
      d1.stpZero 0 = false ∧ d1.stpConflict 0 = false ∧ served R q 0x0100 t = true := by decide +kernel

theorem test_wit_Images_dcg :
    let q := rq 0x68 [keep (PWM_Gg_BON_ON 0)]
    let d := R.dev
    let t := d.firingAhead 84 (imageLead q R.clk.ns)
    q.target.toNat = 0x68 + 0 ∧ d.anyReleased 4 = false ∧
      imageOk (fun a => (groupBase 0 ≤ a && a < groupBase 0 + 0x18) || a = groupBase 0 + 0x80 || a = groupBase 0 + 0x84) q.image = true ∧
      (d.atCommit t q.image).dcgZero 0 = false ∧ (d.atCommit t q.image).dcgConflict 0 = false ∧ served R q 0x0106 t = true := by decide +kernel

/-- The test of the addresses of an image in a range. -/
def inRange (q : Request) (lo len : Nat) : Bool := imageOk (fun a => lo ≤ a && a < lo + len) q.image

theorem test_wit_Images_fbk :
    let q := rq 0 [keep (FBK_nn_CFG_DIR 0)]
    let d := R.dev
    let t := d.firingAhead 24 (imageLead q R.clk.ns)
    d.isReleased 7 0 = false ∧ inRange q (fbkBase 0) 0x2C = true ∧ (d.atCommit t q.image).fbkZero 0 = false ∧
      (d.atCommit t q.image).fbkConflict 0 (d.stateAt 0 t) = false ∧ served R q 0x0108 t = true := by decide +kernel

theorem test_wit_Images_str :
    let q := rq 0x50 [keep (STR_s_CFG_FORM 0)]
    let d := R.dev
    let lead := imageLead q R.clk.ns
    let t := d.firingAhead (24 + (d.atCommit lead q.image).get (STR_s_CFG_SRC 0)) lead
    q.target.toNat = 0x50 + 0 ∧ d.isReleased 8 0 = false ∧ inRange q (strBase 0) 0x1C = true ∧ (d.atCommit t q.image).strZero 0 = false ∧
      (d.atCommit t q.image).strConflict 0 = false ∧ served R q 0x010B t = true := by decide +kernel

theorem test_wit_Images_axis :
    let q := rq 0x20 [keep (TRJ_AXaa_TPER_TPER 32)]
    let d := R.dev
    let lead := imageLead q R.clk.ns
    let t := d.axGridAhead 32 lead
    let d1 := d.enrol (slotSetpoint 32)
    let d2 : Dev := { d1 with imgs := d1.imgs ++ [{ group := trjBase 32, from_ := lead, due := t, pairs := q.image, work := some q.id }] }
    q.target.toNat = 32 ∧ d.isReleased 9 32 = false ∧ inRange q (trjBase 32) 0x40 = true ∧ (d.atCommit t q.image).axZero 32 = false ∧
      (d.atCommit t q.image).axConflict 32 (decide ((d.axTo R.clk 32 t).axMode 32 = modeHold)) = false ∧
      d2.fitsCap (slotEngine 32) = true ∧ d2.mirrorOver = false ∧ served R q 0x0206 t = true := by decide +kernel

theorem test_wit_Images_loop :
    let q := rq 0x40 loopImg
    let d := R.dev
    let lead := imageLead q R.clk.ns
    let t := d.loopNext R.clk.ns 0 lead
    let d1 := d.enrol (slotLoop 0)
    let d2 : Dev := { d1 with imgs := d1.imgs ++ [{ group := lpbBase 0, from_ := lead, due := t, pairs := q.image, work := some q.id }] }
    q.target.toNat = 0x40 + 0 ∧ d.isReleased 10 0 = false ∧ inRange q (lpbBase 0) 0x100 = true ∧ (d.atCommit t q.image).loopZero 0 = false ∧
      (d.atCommit t q.image).loopConflict 0 (d.loopJudged 0 t) = false ∧ d2.fitsCap 30 = true ∧ d2.mirrorOver = false ∧
      served R q 0x0300 t = true := by decide +kernel

theorem test_wit_Images_io :
    let q := rq 0x6D [keep (FIO_CHcc_CFG_MODE 0)]
    let d := R.dev
    let t := (imageLead q R.clk.ns + 4999) / 5000 * 5000
    let ps := q.image.filter fioKept
    let d1 := (d.atCommit t ps).fioCandidate true (d.atCommit t ps).fioOwn
    q.target.toNat = 0x6D ∧ (ps.all fun p => (fioChOf p.1).all fun cc => !d.isReleased 0x10 cc) = true ∧ imageOk isFioCfg q.image = true ∧
      d1.fioZero = false ∧ d1.fioConflict (d.imagesBy t) = false ∧ served R q 0x0600 t = true := by decide +kernel

theorem test_wit_Images_chain :
    let q := rq 0xFE [keep CHAIN_SVC_PORTS]
    let d := R.dev
    let t := d.cycleAt (imageLead q R.clk.ns)
    d.anyReleased 0x0C = false ∧ inRange q chainBase 0x1000 = true ∧ (d.atCommit t q.image).chainZero = false ∧
      (d.atCommit t q.image).chainConflict ((List.range 32).any fun u => (d.stateAt u t).running) = false ∧
      ({ (d.atCommit t q.image).chainInForce with imgs := [] } : Dev).chainMisfit = none ∧ served R q 0x0800 t = true := by decide +kernel

theorem test_wit_Images_can :
    let q := rq 0x60 [keep (CAN_CHc_CFG_MODE 0)]
    let d := R.dev
    let lead := imageLead q R.clk.ns
    d.imgs = [] ∧ d.canQuiet 0 = true ∧ q.target.toNat = 0x60 + 0 ∧ imageOk (isCanCfg 0) q.image = true ∧
      (d.writePairs q.image).canZero 0 = false ∧ (d.writePairs q.image).canConflict 0 = false ∧ served R q 0x0810 lead = true := by decide +kernel

/-- conv.cfg: a filter channel, a DC group and a sequence in one image. -/
theorem test_wit_Images_conv :
    let q := rq 0xFE [keep (DSF_Cnn_OFFS_OFFS 0), keep (SAR_Gg_CFG_DCPER 1), keep (SAR_CVm_SEQLEN_LEN 0)]
    let d := R.dev
    let lead := imageLead q R.clk.ns
    let gate (g : Nat) : Nat := d.firingAhead (84 + g) lead
    let stored (t : Nat) : Dev := q.image.foldl (fun e p => e.convStore R.clk p) (d.imagesBy t)
    imageOk isConvReg q.image = true ∧ d.anyReleased 5 = false ∧ d.anyReleased 6 = false ∧ d.anyReleased 7 = false ∧
      (q.image.all fun p => ((dsfLaneOf p.1).all fun l => !(stored lead).dsfZero l && !(stored lead).dsfConflict l (d.stateAt l lead)) &&
        ((sarGroupOf p.1).all fun g => !(stored lead).sarGroupZero g && !(stored (gate g)).sarGroupConflict g) &&
        (seqSarOf p.1).all fun m => !seqBad (stored lead) m) = true ∧
      (q.image.map fun p => ((dsfLaneOf p.1).isSome, (sarGroupOf p.1).isSome, (seqSarOf p.1).isSome)) =
        [(true, false, false), (false, true, false), (false, false, true)] ∧
      served R q 0x010A (gate 1) = true := by decide +kernel

/-- Lane 0 in a state, in RUN with its group released by the safety unit and a converter channel on. -/
def lane (st : LaneState) (l : List (Field × Nat) := []) : State :=
  on (mk .run 1000000 ([(SAFE_Gg_STAT_STATE 0, 3), (DSF_Cnn_CFG_ACT_EN 0, 1), (PWM_Lnn_CC_ZSPD_ACT_SPD 0, 1)] ++ l)) fun d =>
    d.setLane 0 { d.lane 0 with state := st }

theorem test_wit_LaneStateCommands :
    let armG (s : State) := s.dev.changeGate 0 ((rq 0).at_ s.clk.ns)
    (rq 0).target.toNat < 32 ∧
    (let s := lane .disabled
     s.dev.dst = .run ∧ s.dev.laneLeads 0 = .disabled ∧ (s.dev.lane 0).disputed = false ∧
       (s.dev.get PWM_FLT_STAT_LAT).testBit (groupOf 0) = false ∧ s.dev.linkDark (groupOf 0) = false ∧ s.dev.laneReleased 0 = false ∧
       served s (rq 0) 0x0101 (armG s) = true) ∧
    ((lane .armed).dev.laneLeads 0 = .armed ∧ served (lane .armed) (rq 0) 0x0103 (armG (lane .armed)) = true) ∧
    ((lane .fault).dev.laneLeads 0 = .fault ∧ served (lane .fault) (rq 0) 0x0105 (armG (lane .fault)) = true) ∧
    (let s := lane .armed
     let q := rq 0 [3]
     q.payload.length = 1 ∧ bits64 (q.pw 0) 2 62 = 0 ∧ bits64 (q.pw 0) 0 2 = 3 ∧ s.dev.dst = .run ∧ (s.dev.lane 0).staysDisputed = false ∧
       s.dev.sysStop = none ∧ s.dev.get (SAFE_Gg_STAT_STATE (groupOf 0)) = 3 ∧ s.dev.flag (DSF_Cnn_CFG_ACT_EN 0) = true ∧
       faster (s.dev.fbkX 0).v (s.dev.get (PWM_Lnn_CC_ZSPD_ACT_SPD 0)) = false ∧ served s q 0x0102 (armG s) = true) := by decide

/-- lane.stop of a lane whose slot has trajectory instants, and of one whose slot has none. -/
theorem test_wit_LaneStop :
    (let s := lane .enabled [(PWM_Lnn_PER_ACT_PER 0, 10000), (PWM_Lnn_CYC_ACT_VDIV 0, 1), (PWM_Lnn_CYC_ACT_PDIV 0, 2)]
     s.dev.laneLeads 0 = .enabled ∧ s.dev.trajT 0 ≠ 0 ∧
       served s (rq 0) 0x0104 (s.dev.stopGateAt s.clk 0 (s.dev.axTakeover 0 ((rq 0).at_ s.clk.ns) s.clk.ns)) = true) ∧
    (let s := lane .enabled [(PWM_Lnn_CYC_ACT_PDIV 0, 0)]
     let at_ := (rq 0).at_ s.clk.ns
     s.dev.laneLeads 0 = .enabled ∧ s.dev.trajT 0 = 0 ∧
       served s (rq 0) 0x0104 ((s.dev.setLane 0 { s.dev.lane 0 with
         chg := (s.dev.lane 0).chg ++ [{ at_ := at_, target := .stopping, work := none }] }).changeGate 0 at_) = true) := by decide

/-- The conditions on slot a that all its trajectory commands share: not released, trajectory instants, no REGEN, no master. -/
def slotFree (s : State) (a : Nat) (q : Request) : Bool :=
  let t := s.dev.axTakeover a (q.at_ s.clk.ns) s.clk.ns
  let w := s.dev.axTo s.clk a t
  decide (q.target.toNat = a) && decide (a < 64) && !s.dev.isReleased 9 a && !s.dev.axClosed a t && !s.dev.axRegen a && (w.axX a).mst.isNone &&
    decide (w.axMode a ≠ modeStop)

/-- The command with operation `op` finds room in the engine's admission and meets no common bar: the hypotheses of `waits`. -/
def slotRoom (s : State) (a : Nat) (q : Request) (opc plan : Nat) (op : AxOp) (ends : Bool) : Bool :=
  let d := s.dev
  let t := d.axTakeover a (q.at_ s.clk.ns) s.clk.ns
  let w := d.axTo s.clk a t
  let p := if ends then ((w.axTake s.clk a t { op := op, ta := t, work := none }).axX a).tc.getD t else t
  let d1 := (d.setAxX a { d.axX a with pend := (d.axX a).pend ++ [{ op := op, ta := t, work := some q.id }] }).enrol (slotSetpoint a)
  let tick := d.get HERDER_CTRL_TICK
  d1.fitsCap (slotEngine a) && d1.fitsOneShot (slotEngine a) (d1.engDens tick (slotEngine a))
    (d.cost plan - d.cost (d.modeClass a (w.axMode a) (w.axX a).mst)) (w.trajT a - 1000 - 250 * tick) (t - 1000) && served s q opc p

theorem test_wit_Trajectory_moves :
    let q := rq 0x20 [0, 0]
    slotFree U 32 q = true ∧ q.payload.length = 2 ∧ slotRoom U 32 q 0x0200 0x15 (.moveAbs (posOf 0 0)) true = true ∧
    slotRoom U 32 q 0x0201 0x15 (.moveRel (posOf 0 0)) true = true ∧
    (slotFree U 32 (rq 0x20) = true ∧ slotRoom U 32 (rq 0x20) 0x0204 0x15 (.stop false) false = true) := by decide +kernel
theorem test_wit_Trajectory_vel :
    let q := rq 0x20 [1]
    let t := U.dev.axTakeover 32 (q.at_ U.clk.ns) U.clk.ns
    slotFree U 32 q = true ∧ absQ (mkRat (q.pw 0).toInt (2 ^ 32)) ≤ ((U.dev.axTo U.clk 32 t).axLims 32).v ∧
      slotRoom U 32 q 0x0203 0x15 (.moveVel 1) true = true := by decide +kernel
theorem test_wit_Trajectory_limits :
    let q := rq 0x20 [1, 1, 1, 1]
    let s := mk .run 1000000 [(TRJ_AXaa_TPER_ACT_TPER 32, 0)]
    U.dev.trajT 32 ≠ 0 ∧ q.payload.all (· ≠ 0) = true ∧ (q.pw 0).msb = false ∧ slotFree U 32 q = true ∧
      slotRoom U 32 q 0x0205 0x15 (.limits 1 1 1 1) false = true ∧
      (U.dev.axTo U.clk 32 (U.dev.axTakeover 32 (q.at_ U.clk.ns) U.clk.ns)).axMoving 32 = false ∧
    (s.dev.trajT 32 = 0 ∧ served s q 0x0205 s.clk.ns = true) := by decide +kernel
theorem test_wit_Trajectory_retarget :
    let q := rq 0x20 [0, 0]
    let s := mk .run 1000000 [(TRJ_AXaa_STAT_MODE 32, modePosition)]
    slotFree s 32 q = true ∧ (s.dev.axTo s.clk 32 (s.dev.axTakeover 32 (q.at_ s.clk.ns) s.clk.ns)).axMode 32 = modePosition ∧
      slotRoom s 32 q 0x0202 0x15 (.retarget (posOf 0 0)) true = true := by decide +kernel
theorem test_wit_Trajectory_masters :
    let q := rq 0x20 [1, 0x100000001, 0, 0]
    let s := mk .run 1000000 [(TRJ_CAMDIR_md_LEN 0 0, 2)]
    let t := s.dev.axTakeover 32 (q.at_ s.clk.ns) s.clk.ns
    slotFree U 32 q = true ∧ masterFormatOk false q = true ∧ q.payload.length = 4 ∧ (masterOf false q).m ≠ 0 ∧
      (masterOf false q).n.natAbs ≤ 2 ^ 31 * (masterOf false q).m ∧ (masterOf false q).toMatch = false ∧ (masterOf false q).typ ≠ 2 ∧
      slotRoom U 32 q 0x0210 0x16 (.master (masterOf false q)) false = true ∧
    (slotFree s 32 q = true ∧ masterFormatOk true q = true ∧ (masterOf true q).toMatch = false ∧ (masterOf true q).typ ≠ 2 ∧
      camIdx 32 (masterOf true q).table = 0 ∧ (s.dev.axTo s.clk 32 t).get (TRJ_CAMDIR_md_LEN 0 0) ≠ 0 ∧
      slotRoom s 32 q 0x0211 0x16 (.master (masterOf true q)) false = true) := by decide +kernel

theorem test_wit_LoopModeAndSetWaitForTakeover :
    let room (q : Request) (b : Nat) (opc : Nat) (x : Nat → LoopCmd) : Prop :=
      let t := U.dev.loopNext U.clk.ns b (max (q.at_ U.clk.ns) (U.clk.ns + U.dev.loopT b))
      let d := (U.dev.setLoopX b { U.dev.loopX b with pend := (U.dev.loopX b).pend ++ [x t] }).enrol (slotLoop b)
      q.target.toNat = 0x40 + b ∧ q.payload.length = 1 ∧ U.dev.isReleased 10 b = false ∧ d.fitsCap 30 = true ∧ served U q opc t = true
    (bits64 ((rq 0x40 [2]).pw 0) 0 2 ≤ 2 ∧ bits64 ((rq 0x40 [2]).pw 0) 2 30 = 0 ∧
      room (rq 0x40 [2]) 0 0x0301 fun t => { ta := t, mode := some (2, 0), work := some (rq 0x40 [2]).id }) ∧
    (bits64 ((rq 0x4F [1]).pw 0) 32 32 = 0 ∧
      room (rq 0x4F [1]) 15 0x0302 fun t => { ta := t, sp := 1, work := some (rq 0x4F [1]).id }) := by decide

theorem test_wit_ConfigurationsInForceAtOnce :
    ((rq 0xF0 [1, 1]).payload.length = 2 ∧ served U (rq 0xF0 [1, 1]) 0x0411 U.clk.ns = true) ∧
    (let q := rq 0xFE [0x0000FFFF0003FFFF]
     q.payload.length = 1 ∧ bits64 (q.pw 0) 18 14 = 0 ∧ bits64 (q.pw 0) 48 16 = 0 ∧ served U q 0x000B U.clk.ns = true) ∧
    (let s := mk .run 9 [(PWM_Gg_BLO_ACT_V 3, 1)]
     (rq 0x6B).target.toNat = 0x68 + 3 ∧ s.dev.getI (SAR_Gg_VOLT_V 3) < s.dev.getI (PWM_Gg_BLO_ACT_V 3) ∧
       (s.dev.get PWM_FLT_STAT_PIN).testBit 3 = false ∧ served s (rq 0x6B) 0x0107 s.clk.ns = true) ∧
    (let q := rq 0 [pr (FBK_CMDc_CFG_MODE 0) 0]
     q.target.toNat < 24 ∧ q.payload ≠ [] ∧ U.dev.isReleased 7 q.target.toNat = false ∧ imageOk isCmdinReg q.image = true ∧
       served U q 0x010C U.clk.ns = true) := by decide
/-- time.cfg that leaves MODE, and one that changes it. -/
theorem test_wit_TimeCfg :
    let ok (q : Request) : Prop := q.target = 0x6E ∧ q.payload ≠ [] ∧ timeCfgZero (U.dev.writePairs q.image) = false ∧
      timeCfgConflict (U.dev.writePairs q.image) = false ∧ served U q 0x0400 U.clk.ns = true
    (ok (rq 0x6E [pr TIME_CTRL_MODE 0]) ∧ (U.dev.writePairs (rq 0x6E [pr TIME_CTRL_MODE 0]).image).get TIME_CTRL_MODE = U.dev.get TIME_CTRL_MODE) ∧
    (ok (rq 0x6E [pr TIME_CTRL_MODE 1]) ∧ (U.dev.writePairs (rq 0x6E [pr TIME_CTRL_MODE 1]).image).get TIME_CTRL_MODE ≠ U.dev.get TIME_CTRL_MODE) := by
  decide
theorem test_wit_CapCfg :
    let q := rq 0x58 [keep (CAP_Rr_CFG_MODE 0)]
    let d1 := U.dev.writePairs q.image
    q.target.toNat = 0x58 + 0 ∧ U.dev.capBusy 0 = false ∧ imageOk (isCapCfg 0) q.image = true ∧ d1.capZero 0 = false ∧ d1.capConflict 0 = false ∧
      d1.capOverload 0 = false ∧ served U q 0x0500 U.clk.ns = true := by decide +kernel
theorem test_wit_HerderCfg :
    let q := rq 0xF0 [0x00505050000A0004]
    let f (k w : Nat) : Nat := bits64 (q.pw 0) k w
    f 7 9 = 0 ∧ f 26 6 = 0 ∧ f 56 8 = 0 ∧ f 0 7 = U.dev.get HERDER_CTRL_TICK ∧ 1 ≤ f 0 7 ∧ f 0 7 ≤ 64 ∧ 1 ≤ f 16 10 ∧ f 16 10 ≤ 1000 ∧
      (∀ k ∈ [32, 40, 48], 50 ≤ f k 8 ∧ f k 8 ≤ 100) ∧ ((List.range 31).all fun e => decide (e < 24) || (U.dev.engineMisfit (f 0 7) e 80 false).isNone) = true ∧
      served U q 0x0410 U.clk.ns = true := by decide +kernel

/-- Feedback port 3 of block 8 may be taken, its lane being DISABLED; a register of a released block may be written. -/
theorem test_wit_OwnershipCommands :
    (let q := rq 0xFE [0x0308]
     q.payload.length = 1 ∧ bits64 (q.pw 0) 16 48 = 0 ∧ mayTake (bits64 (q.pw 0) 0 8) (bits64 (q.pw 0) 8 8) = true ∧
       (∀ u ∈ laneOfInst (bits64 (q.pw 0) 0 8) (bits64 (q.pw 0) 8 8), (U.dev.lane u).state = .disabled ∧ (U.dev.lane u).chg = []) ∧
       served U q 0x0009 U.clk.ns = true ∧ served U q 0x000A (U.clk.ns + 1000000) = true) ∧
    (let q := rq 0xFE [0x4000005000000001]
     q.payload ≠ [] ∧ (∀ p ∈ q.image, p.1 % 4 = 0) ∧ served U q 0x0B01 U.clk.ns = true) ∧
    (∃ p ∈ (rq 0xFE [pr (PWM_Lnn_PER_PER 0) 5000]).image, p.1 % 4 = 0 ∧ isMapped p.1 = true ∧ U.dev.hostOwns p.1 = false) := by decide

theorem test_wit_DelayedWorkCommands :
    (U.dev.isReleased 7 0 = false ∧ served U (rq 0 [0, 0]) 0x0109 (U.dev.firingAhead 24 ((rq 0 [0, 0]).at_ U.clk.ns)) = true) ∧
    (let q := rq 0x6D [1]
     let s := mk .run 1000000 [(FIO_CHcc_CFG_ACT_MODE 0, 3)]
     let from_ := max (q.at_ s.clk.ns) (s.clk.ns + 10000)
     s.dev.fioMode 0 = 3 ∧ s.dev.loopFeeds 0 true = false ∧ s.dev.isReleased 0x10 0 = false ∧ (∀ cc < 32, (1 : Nat).testBit cc = true → cc = 0) ∧
       served s q 0x0601 (max from_ (s.dev.fioFiring 0 from_ (s.dev.imagesOf fun x => x.group = fioBase) 0)) = true ∧
       served s (rq 0x6D [0]) 0x0601 s.clk.ns = true) ∧
    (served U (rq 0x6D [1]) 0x0602 ((rq 0x6D [1]).at_ U.clk.ns + 1000000) = true ∧ served U (rq 0x6D [0]) 0x0602 U.clk.ns = true) ∧
    (let q : Request := { rq 0x58 with asap := false, launch := 1010000 }
     let s := mk .run 1000000 [(CAP_Rr_CFG_ACT_MODE 0, 1)]
     s.dev.capBusy 0 = false ∧ (s.dev.capX 0).armWork = none ∧ s.dev.get (CAP_Rr_CFG_ACT_MODE 0) ≠ 0 ∧ s.clk.ns + 10000 ≤ q.at_ s.clk.ns ∧
       q.at_ s.clk.ns < 2 ^ 64 ∧ s.dev.flag (GATE_GTnnn_CTL_ARMED (capGate 0)) = false ∧ served s q 0x0501 (s.dev.capGrid 0 (q.at_ s.clk.ns)) = true) ∧
    (let s := on U fun d => d.setCapX 7 { next := some 5000 }
     s.dev.capBusy 7 = true ∧ (s.dev.capX 7).stop = none ∧ served s (rq 0x5F) 0x0502
       (s.dev.capGrid 7 ((rq 0x5F).at_ s.clk.ns) + 1000 * s.dev.get (CAP_Rr_CFG_ACT_RLAG 7)) = true) ∧
    (let q := rq 0x60 [0x0001000000000000]
     let s := mk .run 1000000 [(CAN_CHc_CFG_ACT_MODE 0, 1)]
     let w2 : W32 := BitVec.ofNat 32 (bits64 (q.pw 0) 0 32)
     let w3 : W32 := BitVec.ofNat 32 (bits64 (q.pw 0) 32 32)
     q.payload.length = 1 + (w2Bytes w2 w3 + 7) / 8 ∧ w2.getLsbD 31 = false ∧ w3.toNat / 2 ^ 8 % 2 ^ 8 = 0 ∧ s.dev.canMode 0 = canNormal ∧
       w3.toNat / 2 ^ 16 ≠ 0 ∧ canBad w2 w3 = false ∧ (s.dev.canX 0).tx.length < 32 ∧
       served s q 0x0811 (q.at_ s.clk.ns + w3.toNat / 2 ^ 16 * 100000) = true) := by decide +kernel

/-- The first segment of an image, and the last of one that holds a header and two words, NOP and END. -/
def extHead : List W64 := [0, 0x20000, 100]
def extCode : List W64 := [0x10005, 0x7100000070000000]

theorem test_wit_SegmentedLoads_ext :
    let s := on U fun d => d.setMbox 0 { d.mbox 0 with stage := some (0x0A00, 0, [extHead]) }
    let q := rq 0 (extCode.modifyHead (· + 0x100))
    let t := s.dev.firingAhead 0 (q.at_ s.clk.ns)
    (bits64 ((rq 0 extHead).pw 0) 8 8 = 0 ∧ bits64 ((rq 0 extHead).pw 0) 2 1 = 0 ∧ extSegOk extHead = true ∧
      served U (rq 0 extHead) 0x0A00 U.clk.ns = true) ∧
    bits64 (q.pw 0) 8 8 = 0 + 1 ∧ (s.dev.mbox 0).stage = some (0x0A00, 0, [extHead]) ∧ extSegOk q.payload = true ∧ s.dev.isReleased 4 0 = false ∧
    bits64 (q.pw 0) 2 1 = 1 ∧ (match extImage ([extHead] ++ [q.payload]) with
      | some (img, len, dl, have_, dhave) => decide (img.entry < len) && decide (len ≤ 4096) && decide (dl ≤ 8192) && decide (dl % 8 = 0) &&
          decide ((len + 1) / 2 * 2 = have_) && decide (dl / 8 = dhave) && decide (0 < img.cost) && decide (img.cost < 2 ^ 24) &&
          (match img.wcalc with
            | some h => decide (h ≤ 2 * img.cost)
            | none => false) && !s.dev.laneOver (s.dev.imagesBy t).laneTAct 0 (some img.cost)
      | none => false) = true ∧ (s.dev.judged 0).running = false ∧ served s q 0x0A00 t = true := by decide +kernel

/-- cam.load: a segment that is not the last, an empty table, and one of two points. -/
theorem test_wit_SegmentedLoads_cam :
    let ok (q : Request) : Prop := q.target.toNat = 32 ∧ bits64 (q.pw 0) 16 6 ≤ 29 ∧ q.payload.length = 1 + 2 * bits64 (q.pw 0) 16 6 ∧
      bits64 (q.pw 0) 7 1 = 0 ∧ bits64 (q.pw 0) 22 10 = 0 ∧ bits64 (q.pw 0) 45 19 = 0 ∧ bits64 (q.pw 0) 8 8 = 0
    let q0 := rq 0x20 [0x0000000200010000, 0, 0]
    let q1 := rq 0x20 [0x0000000000000040]
    let q2 := rq 0x20 [0x0000000200020040, 0, 0, 1, 1]
    let d := (U.dev.setMbox 0 { U.dev.mbox 0 with stage := none }).setf (MBX_Mm_STAT_STAGE 0) false
    let t := U.dev.nextTick U.clk.ns
    U.dev.isReleased 9 32 = false ∧ U.dev.sysStop = none ∧ ok q0 ∧ bits64 (q0.pw 0) 6 1 = 0 ∧ served U q0 0x0212 U.clk.ns = true ∧
    (ok q1 ∧ bits64 (q1.pw 0) 6 1 = 1 ∧ (d.camRefs (slotEngine 32)).testBit 0 = false ∧ camIdx 32 0 % 16 = 0 ∧ segPts ([] ++ [q1.payload]) = [] ∧
      bits64 (q1.pw 0) 32 13 = 0 ∧ camRises [] = true ∧ 0 + d.camPoints (slotEngine 32) (camIdx 32 0) ≤ 4096 ∧ served U q1 0x0212 U.clk.ns = true) ∧
    (ok q2 ∧ bits64 (q2.pw 0) 6 1 = 1 ∧ (segPts ([] ++ [q2.payload])).length = bits64 (q2.pw 0) 32 13 ∧ (segPts ([] ++ [q2.payload])).length = 2 ∧
      camRises (segPts ([] ++ [q2.payload])) = true ∧ 2 + d.camPoints (slotEngine 32) (camIdx 32 0) ≤ 4096 ∧ d.freeSlot = some 256 ∧
      d.blocksFit (slotEngine 32) t 1 = true ∧ served U q2 0x0212 (t + 1 * 1000000) = true) := by decide +kernel

theorem test_wit_UnitCommands :
    (let s := mk .run 9 [(TIME_STAT_STEP_PEND, 1)]
     (rq 0x6E [1]).payload.length = 1 ∧ s.dev.flag TIME_STAT_STEP_PEND = true ∧ served s (rq 0x6E [1]) 0x0401 9 = true ∧
       ((rq 0x6E [1]).pw 0).toNat % 2 = 1 ∧ ((rq 0x6E [0]).pw 0).toNat % 2 = 0 ∧ s.dev.noLaneRunning = true) ∧
    (U.dev.anyReleased 0x0C = false ∧ U.dev.noLaneRunning = true ∧ U.dev.chain.enum = none ∧ served U (rq 0xFE) 0x0801 (U.clk.ns + 10000000) = true) ∧
    (let s := mk .run 9 [(PAIR_STAT_ROLE, 1)]
     s.dev.get PAIR_STAT_ROLE = roleActive ∧ served s (rq 0x6F) 0x0901 9 = true) ∧
    (let s := mk .mirror 9 [(PAIR_STAT_ROLE, 2)]
     s.dev.get PAIR_STAT_ROLE = roleStandby ∧ served s (rq 0x6F) 0x0901 1000009 = true) := by decide
theorem test_wit_SafeCfg :
    let q := rq 0x6C [pr (SAFE_SIi_CFG_TYPE 0) 6]
    let d1 := U.dev.writePairs q.image
    q.target = 0x6C ∧ q.payload ≠ [] ∧ imageOk (fun a => safeCfgRegs.contains a) q.image = true ∧
      (∀ g < 4, U.dev.sg g ≠ sgEnable ∧ U.dev.sg g ≠ sgSs1) ∧ U.dev.safe.cfg = none ∧ d1.safeZero = false ∧ d1.safeConflict = false ∧
      served U q 0x0700 (U.clk.ns + 200000000) = true := by decide +kernel
theorem test_wit_PairJoin :
    let ok (s : State) (q : Request) : Prop := q.payload.length = 1 ∧ bits64 (q.pw 0) 10 1 = 0 ∧ bits64 (q.pw 0) 13 3 = 0 ∧ bits64 (q.pw 0) 44 4 = 0 ∧
      bits64 (q.pw 0) 56 8 = 0 ∧ s.dev.pair.join = none ∧ (s.dev.pairCfg (q.pw 0)).get PAIR_CFG_MDIV ≠ 0 ∧
      (s.dev.pairCfg (q.pw 0)).get PAIR_CFG_RBPER ≠ 0 ∧ (s.dev.pairCfg (q.pw 0)).get PAIR_CFG2_TOFFLIM ≠ 0
    (let q := rq 0x6F [0x0010000000640801]
     ok R q ∧ bits64 (q.pw 0) 11 2 = roleActive ∧ R.dev.dst = .ready ∧ R.dev.pstate = psSolo ∧ served R q 0x0900 R.clk.ns = true) ∧
    (let q := rq 0x6F [0x0010000000641001]
     let s := on (mk .ready 1000000 [(PAIR_STAT_LINK, 1)]) fun d => { d with pair := { d.pair with same := true, seen := some 0x110 } }
     ok s q ∧ bits64 (q.pw 0) 11 2 = roleStandby ∧ s.dev.dst = .ready ∧ s.dev.partnerReady = true ∧ s.dev.pair.same = true ∧
       s.dev.mirrorLoad ((s.dev.pairCfg (q.pw 0)).get PAIR_CFG_MDIV) ≤ 200 ∧ served s q 0x0900 (s.clk.ns + 200000000) = true) := by decide +kernel

/-! Witnesses: the host port, reads and commits. -/

theorem test_wit_HostPortAccesses :
    U.dev.dst.serves = true ∧ (0x40000001 : W32).toNat % 4 ≠ 0 ∧
    ((0x4F000000 : W32).toNat % 4 = 0 ∧ isMapped (0x4F000000 : W32).toNat = false) ∧
    (let a : W32 := BitVec.ofNat 32 (PWM_Lnn_PER_PER 0).addr
     a.toNat % 4 = 0 ∧ isMapped a.toNat = true ∧ isReqBuf a.toNat = false ∧ U.dev.hostOwns a.toNat = false) ∧
    ((0x39 : BitVec 8) ≠ 0x38 ∧ (0x39 : BitVec 8) ≠ 0xEB ∧ (0x39 : BitVec 8) ≠ 0x05) ∧
    ((0x400B0200 : W32).toNat % 4 = 0 ∧ 0x400B0200 ≤ (0x400B0200 : W32).toNat ∧ (0x400BFFFC : W32).toNat < 0x400C0000) ∧
    ((0x40000050 : W32).toNat % 4 = 0 ∧ anyUnmapped (0x40000050 : W32).toNat 1 = false) ∧
    (let b : RuoriBlock := { brand := mkBrand 1 0xFE 0x6A 0 0 0, words := [0x0000002040000001] }
     brandType b.brand = 0x6A ∧ bits64 (b.word 1) 32 6 ≤ 32 ∧ bits64 (b.word 1) 0 32 % 4 ≠ 0) ∧
    (mk .boot 0).dev.dst.serves = false := by decide

theorem test_wit_FirstReadsLatchTheRest : U.dev.dst.serves = true := by decide

theorem test_wit_ReadsAndWritesThatClear :
    (let s := mk .run 9 [(CAP_Rr_STAT_FULL 7, 16), (MBX_Mm_STAT_RCOUNT 15, 16), (CAN_CHc_STAT_STATE 0, stBusOff)]
     s.dev.dst.serves = true ∧ s.dev.get (CAP_Rr_STAT_FULL 7) ≠ 0 ∧ s.dev.get (MBX_Mm_STAT_RCOUNT 15) ≠ 0 ∧ (s.dev.mbox 15).wait = [] ∧
       s.dev.canState 0 = stBusOff ∧ s.dev.flt.log.length ≤ 128) ∧
    (U.dev.get (CAP_Rr_STAT_FULL 0) = 0 ∧ U.dev.get (MBX_Mm_STAT_RCOUNT 0) = 0 ∧ U.dev.canState 0 ≠ stBusOff) := by decide

theorem test_wit_CommitsWaitForTheirInstant : U.dev.dst.serves = true ∧ (23 : Fin 32).val < 24 ∧ 24 ≤ (24 : Fin 32).val ∧ U.dev.trajT 32 ≠ 0 := by decide

theorem test_wit_CommitsInForceAtOnce :
    U.dev.dst.serves = true ∧ (mk .run 9 [(DSF_Cnn_GAIN_GAIN 71, 0)]).dev.dsfZero 23 = true ∧
    (let s := mk .run 9 [(DSF_Cnn_CFG_OSR 0, 3)]
     s.dev.dsfZero 0 = false ∧ s.dev.dsfConflict 0 (s.dev.lane 0).state = true) ∧
    (U.dev.dsfZero 0 = false ∧ U.dev.dsfConflict 0 (U.dev.lane 0).state = false) ∧
    seqBad (mk .run 9 [(SAR_CVm_SEQLEN_LEN 3, 9)]).dev 3 = true ∧ seqBad U.dev 0 = false ∧
    (on U fun d => d.setCapX 0 { next := some 5 }).dev.capBusy 0 = true ∧
    32 ≤ ((on U fun d => d.setCanX 0 { tx := List.replicate 32 { launch := 0, w2 := 0, w3 := 0, data := [] } }).dev.canX 0).tx.length ∧
    ((U.dev.canX 7).tx.length < 32 ∧ canBad (U.dev.reg (CAN_CHc_TXWw_W 7 2).addr) (U.dev.reg (CAN_CHc_TXWw_W 7 3).addr) = false) ∧
    (U.dev.canQuiet 0 = true ∧ (mk .run 9 [(CAN_CHc_CFG_ACT_MODE 0, canNormal)]).dev.canQuiet 0 = false) := by decide

/-! Witnesses: Shosto. -/

/-- Engine 0 runs a vendor job, or the extension of lane 0, in a bank. -/
def vendor : RunJob := { slot := 0, start := 0, used := 0, shadow := false }
def ext : RunJob := { slot := 3, start := 0, used := 0, shadow := true }
def sh (r : RunJob) (b : Bank) : State :=
  on (mk .run 1000) fun d => (d.setEngX 0 { run := some r }).setEngine 0 (({} : Engine).setBank r.shadow b)

/-- A job on engine 0 in this bank runs there, under no repeat and no loop. -/
def runs (s : State) (r : RunJob) (b : Bank) : Bool :=
  s.dev.dst.serves && decide ((s.dev.engX 0).run = some r) && decide (r.start ≤ s.clk.osc) && !(s.dev.engine 0).halted &&
    decide ((s.dev.engine 0).bank r.shadow = b) && decide (b.pc < 0x10000) && decide (s.dev.eccMask (progAddr 0 b.pc) = 0)

theorem runs_spec {s : State} {r : RunJob} {b : Bank} (h : runs s r b = true) : ShOn s 0 r b := by
  simp only [runs, Bool.and_eq_true, decide_eq_true_eq, Bool.not_eq_true'] at h
  obtain ⟨⟨⟨⟨⟨⟨h1, h2⟩, h3⟩, h4⟩, h5⟩, h6⟩, h7⟩ := h
  exact ⟨h1, h2, h3, h4, h5, h6, h7⟩

/-- The same with the words of instruction i at its PC. -/
def shAt (r : RunJob) (b : Bank) (i : Instr) : State :=
  on (sh r b) fun d => match encodeSh i with
    | some (w, k) => { d with mem := ((List.range 8).map fun n => (progAddr 0 b.pc + n, BitVec.ofNat 8 ((w + (k.getD 0).toNat * 2 ^ 32) / 256 ^ n))) }
    | none => d

/-- Instruction i stands at the PC of the job (ShFetches). -/
def stands (r : RunJob) (b : Bank) (i : Instr) : Bool :=
  let d := (shAt r b i).dev
  let pc := ((d.engine 0).bank r.shadow).pc
  (!shLong i || decide (d.eccMask (progAddr 0 (pc + 4)) = 0)) && decide (d.fetched 0 pc i = some true)

theorem stands_spec {r : RunJob} {b : Bank} {i : Instr} (h : stands r b i = true) : ShFetches (shAt r b i) 0 r i := by
  simp only [stands, Bool.and_eq_true, Bool.or_eq_true, decide_eq_true_eq, Bool.not_eq_true'] at h
  exact ⟨fun hl => h.1.resolve_left (by simp [hl]), h.2⟩

/-- Banks: at the first and the last word, with a full return stack, under a repeat, and at the end of a loop. -/
def b0 : Bank := { x := [(1, 0xFFFFFFFF), (2, 1)] }
def b1 : Bank := { pc := 0xFFFC, stack := List.replicate 8 0 }
def bRep : Bank := { rep := some 1 }
def bLoop : Bank := { pc := 8, loop := some (4, 12, 1) }
/-- Pointers in vendor and in extension data. -/
def bMem : Bank := { x := [(1, 0x0500), (2, 0xE000)] }

theorem test_wit_ShRuns :
    (runs (sh vendor b0) vendor b0 = true ∧ b0.rep = none ∧ b0.loop = none) ∧ (runs (sh ext b0) ext b0 = true ∧ ext.isExt = true) ∧
    (runs (sh vendor b1) vendor b1 = true ∧ b1.rep = none ∧ b1.loop = none ∧ 8 ≤ b1.stack.length) := by decide

/-- Every Shosto row stands at the PC where its words do, legal ones and those with a field that takes ILLEGAL. -/
theorem test_wit_ShFetches_registers : ([.shAdd 0 3 1 2, .shSub 0 0 1 2, .shAdds 0 3 1 2, .shSubs 0 3 1 2, .shAnd 0 3 1 2, .shOr 0 3 1 2,
    .shXor 0 3 1 2, .shShl 0 3 1 2, .shShr 0 3 1 2, .shSra 0 3 1 2, .shMin 0 3 1 2, .shMax 0 3 1 2, .shAbss 0 3 1 0, .shNegs 0 3 1 0,
    .shNorm 0 3 1 0, .shDiv 0 3 1 2, .shDivu 0 3 1 2, .shShls 0 3 1 2, .shAddi 0 3 1 9, .shAndi 0 3 1 9, .shOri 0 3 1 9, .shXori 0 3 1 9,
    .shShli 0 3 1 63, .shShli 0 3 1 64, .shShri 0 3 1 64, .shSrai 0 3 1 64, .shShri 0 3 1 63, .shSrai 0 3 1 63, .shLdi 0 3 0 0xFFFFFFFF,
    .shAddi32 0 3 1 7] : List Instr).all (stands vendor b0) = true := by decide +kernel
theorem test_wit_ShFetches_accumulators : ([.shMpy 0 1 1 2 3, .shMac 0 1 1 2 3, .shMsu 0 0 1 2 3, .shTap 0 1 1 2 3, .shClr 0 1 0 0, .shExt 0 1 4 63,
    .shExtu 0 1 4 63, .shExtl 0 1 4 63, .shExtl 0 1 5 63, .shMvg 0 1 4 0, .shLdal 0 1 4 0, .shLdal 0 1 5 0, .shLdag 0 1 4 0, .shAdda 0 1 0 0,
    .shMova 0 1 0 0, .shLdW 0 (.base 8) 4 1, .shLdL 0 (.post 1) 4 1, .shLdL 0 (.post 1) 5 1, .shStW 0 (.circ 1 8) 4 1, .shStL 0 (.index 3) 4 1,
    .shStL 0 (.base 0) 5 1, .shLda 0 (.base 0) 1 1, .shLda 0 (.base 0) 2 1, .shSta 0 (.base 0) 1 1, .shSta 0 (.base 0) 2 1] : List Instr).all
      (stands vendor bMem) = true := by decide +kernel
theorem test_wit_ShFetches_control : ([.shBcc 0 11 1, .shBcc 0 12 1, .shCall 0 0xFFFFFF, .shRet 0, .shNop 0, .shEnd 0, .shRep 0 0, .shRep 0 4095,
    .shRepx 0 1, .shLoop 0 1 2, .shLoop 0 0 0, .shMfs 0 1 7 0, .shMfs 0 1 8 0, .shMts 0 1 7 0, .shMts 0 1 8 0, .shTimr 0 2 0 0, .shTimr 0 1 0 0,
    .shSend 0 2 0 8, .shSend 0 2 0 0, .shSend 0 2 0 9, .shIold 0 1 2 0, .shIost 0 1 2 0, .shBrk 0 0 0 0] : List Instr).all (stands ext b1) = true := by
  decide +kernel

/-- ShRegisterResults, ShSaturationAndDivision, ShExtracts, ShAccumulators: both sides of each condition. -/
theorem test_wit_ShOperands :
    ((63 : BitVec 14).toNat < 64 ∧ 64 ≤ (64 : BitVec 14).toNat) ∧ (b0.xr 2 ≠ 0 ∧ b0.xr 0 = 0) ∧
    ((4 : BitVec 5).toNat % 2 = 0 ∧ (31 : BitVec 5).toNat % 2 = 1) := by decide

/-- ShLoadsAndStores and ShTapRow. -/
theorem test_wit_ShLoadsAndStores :
    (let s := sh vendor bMem
     let a := (shAddr bMem (.base 0) 1 8).1
     runs s vendor bMem = true ∧ a % 8 = 0 ∧ canRead vendor.isExt a = true ∧ canWrite vendor.isExt a = true) ∧
    (let s := sh ext bMem
     let a := (shAddr bMem (.post 1) 2 4).1
     runs s ext bMem = true ∧ a % 4 = 0 ∧ canRead ext.isExt a = true ∧ canWrite ext.isExt a = true) ∧
    ((1 : BitVec 5).toNat < 2 ∧ 2 ≤ (2 : BitVec 5).toNat) ∧ (shAddr bMem (.post 1) 2 4).2 = some 0xE004 ∧ (2 : BitVec 5) ∉ [(4 : BitVec 5)] := by decide
theorem test_wit_ShDataClean : (sh vendor bMem).dev.dataClean 0 0x0500 := rfl
theorem test_wit_ShTapRow :
    (let p := (bMem.xr 1).toNat % 65536
     let h := (bMem.xr 2).toNat % 65536
     let w := circ p 4 (bMem.cb 0)
     p % 4 = 0 ∧ h % 4 = 0 ∧ w % 4 = 0 ∧ canRead vendor.isExt p = true ∧ canRead vendor.isExt h = true ∧ canWrite vendor.isExt w = true) ∧
    (sh vendor bMem).dev.eccMask (dataAddr 0 (circ 0x0500 4 (bMem.cb 0))) = 0 ∧ (1 : BitVec 5) ≠ 2 := by decide

theorem test_wit_ShBranches :
    (0x6F000001 / 2 ^ 24 % 256 = 0x6F ∧ 0x6F000001 % 2 ^ 24 ≠ 0) ∧ (11 : BitVec 4).toNat < 12 ∧ 12 ≤ (12 : BitVec 4).toNat ∧
    ((0xC000 : Int) ≤ (0xC000 : Int) ∧ (0xC000 : Int) < 0x10000) ∧ ((0 : Int) ≤ b0.pc + 4 * (0 : BitVec 24).toInt) ∧
    ((b0.pc : Int) + 4 * (0xFFFFFF : BitVec 24).toInt < 0 ∧ (0x10000 : Int) ≤ b1.pc + 4 * (1 : BitVec 24).toInt) ∧ b0.stack.length < 8 ∧
    8 ≤ b1.stack.length ∧ b1.stack = 0 :: List.replicate 7 0 ∧ b0.stack = [] := by decide

theorem test_wit_ShRepeatsAndLoops :
    (runs (sh vendor bRep) vendor bRep = true ∧ bRep.rep = some 1 ∧ bRep.loop = none ∧ 1 < 2 ∧ 1 ≤ 1) ∧
    (shEngine (.shCall 0 0) = some 0 ∧ shRepeatable (.shCall 0 0) = false) ∧
    (let b : Bank := { rep := some 2 }; runs (sh vendor b) vendor b = true) ∧
    (runs (sh vendor bLoop) vendor bLoop = true ∧ bLoop.rep = none ∧ bLoop.loop = some (4, 12, 1) ∧ bLoop.pc + 4 = 12 ∧ 1 ≤ 1) ∧
    (let b : Bank := { pc := 4, loop := some (4, 12, 2) }; runs (sh vendor b) vendor b = true ∧ b.pc + 4 ≠ 12 ∧ 1 < 2) ∧
    ((0 : BitVec 12).toNat = 0 ∧ (4095 : BitVec 12).toNat ≠ 0) := by decide

theorem test_wit_ShSystemRows :
    ((7 : BitVec 5).toNat < 8 ∧ 8 ≤ (8 : BitVec 5).toNat ∧ (0 : BitVec 5).toNat % 2 = 0) ∧ (ext.isExt = true ∧ vendor.isExt = false) ∧
    ((b0.xr 0).toNat % 4 = 0 ∧ (0 : BitVec 4).toNat = 0 ∧ 8 < (9 : BitVec 4).toNat ∧ 1 ≤ (8 : BitVec 4).toNat ∧ (8 : BitVec 4).toNat ≤ 8) ∧
    ((bMem.xr 2).toNat % 65536 % 8 = 0 ∧ ∀ k < 8, canRead ext.isExt ((0xE000 + 8 * k) % 65536) = true ∧
      (sh ext bMem).dev.eccMask (dataAddr 0 ((0xE000 + 8 * k) % 65536)) = 0) ∧
    (brandAddr (mkBrand 0 0x4F 0xD0 0 0 0) = 0 ∧ brandKind (mkBrand 0 0x4F 0xD0 0 0 0) = 0xD0 ∧ brandUnit (mkBrand 0 0x4F 0xD0 0 0 0) = 0x4F) := by decide
theorem test_wit_ShEnd :
    let s := sh vendor b0
    (s.dev.jobBudget 0 < ({ vendor with used := 2000000 } : RunJob).execNs s.clk.osc) ∧ s.dev.badInbox 0 vendor = none ∧
      ({ vendor with start := 500 } : RunJob).execNs s.clk.osc ≤ s.dev.jobBudget 0 := by decide

theorem test_wit_ShExceptionsTaken :
    ((shAddr bMem (.index 3) 1 4).1 % 4 = 0 ∧ (shAddr { bMem with x := [(1, 1)] } (.base 0) 1 4).1 % 4 ≠ 0) ∧
    (ext.isExt = true ∧ 0x0500 ≤ (shAddr bMem (.base 0) 1 4).1 ∧ (shAddr bMem (.base 0) 1 4).1 < 0xE000) ∧
    ((shAddr { bMem with x := [(1, 0x43C)] } (.base 0) 1 4).1 < 0x0440 ∧ shLegal (.shLdL 0 (.base 0) 2 1) = true) ∧
    ((on (sh vendor bMem) fun d => d.setEcc (dataAddr 0 0x0500) 3).dev.rdWord (dataAddr 0 0x0500)).bad = true ∧
    (let b : Bank := { pc := 0x10000 }
     let s := sh vendor b
     shEngine (.shNop 0) = some 0 ∧ s.dev.dst.serves = true ∧ (s.dev.engX 0).run = some vendor ∧ (s.dev.engine 0).halted = false ∧
       0x10000 ≤ ((s.dev.engine 0).bank false).pc) ∧
    (U.dev.flt.injMem = none ∧ U.dev.eccMask (dataAddr 29 0x408) = 0 ∧ 7 < 8 ∧ 1023 < 1024) := by decide

/-- ShRoundTrip and ShKeepsBankForm. -/
theorem test_wit_ShRoundTrip :
    shEngine (.shLdi 29 31 0 0xFFFFFFFF) = some 29 ∧ shLegal (.shLdi 29 31 0 0xFFFFFFFF) = true ∧
      shLegal (.shTimr 0 30 0 0) = true := by decide
theorem test_wit_ShKeepsBankForm :
    shEngine (.shRet 0) = some 0 ∧ Instr.shRet 0 ≠ .shEnd 0 ∧ runs (sh vendor b1) vendor b1 = true ∧ b1.form = true ∧ b0.form = true ∧
      bRep.form = true ∧ bLoop.form = true := by decide

/-! Witnesses: gates, the Herder, the fabric and the mailboxes. -/

/-- Gate g armed for a kind, its compare at `next`. -/
def gate (g kind target sub next : Nat) (l : List (Field × Nat) := []) : State :=
  mk .run 1000 ([(GATE_GTnnn_CTL_ARMED g, 1), (GATE_GTnnn_CFG_ACT_KIND g, kind), (GATE_GTnnn_CFG_ACT_TARGET g, target),
    (GATE_GTnnn_CFG_ACT_SUB g, sub), (GATE_GTnnn_NEXT_LO_NEXT g, next)] ++ l)

def due (s : State) (g : Fin 256) (k : Nat) : Bool := s.dev.gateDue s.clk g k

theorem test_wit_GateFirings :
    (gate 0 0 0 0 1000).dev.dst.serves = true ∧ due (gate 0 0 0 0 1002) 0 0 = false ∧ due (gate 255 0 0 0 1000) 255 0 = true ∧
    ((gate 255 0 0 0 1000).dev.get (GATE_GTnnn_PER_ACT_PER 255) = 0 ∧ (gate 0 0 0 0 1000 [(GATE_GTnnn_PER_ACT_PER 0, 5)]).dev.get (GATE_GTnnn_PER_ACT_PER 0) ≠ 0) ∧
    due (gate 23 2 23 0 1000) 23 2 = true ∧ due (gate 87 2 0x6B 0 1000) 87 2 = true ∧ due (gate 88 2 0xFE 0x1F 1000) 88 2 = true ∧
    due (gate 83 2 0xFE 0x20 1000) 83 2 = true ∧ due (gate 71 1 23 0 1000) 71 1 = true ∧ due (gate 79 1 31 0 1000) 79 1 = true ∧
    due (gate 83 1 0x6B 0 1000) 83 1 = true ∧ due (gate 84 1 0 0 1000) 84 1 = true := by decide
theorem test_wit_GateFirings_latch :
    (let s := gate 47 3 23 0 1000
     let fire := s.dev.gateFire s.clk 47
     due s 47 3 = true ∧ sarMode ((fire.portLatch s.clk (s.dev.get (GATE_GTnnn_CFG_ACT_TARGET 47)) (s.dev.gateNext 47) true).fbMode 23) = false) ∧
    (let s := on (gate 240 6 0x58 0 1000) fun d => d.setGateX 240 { dataAt := some 1000 }
     due s 240 6 = true ∧ (s.dev.gateFire s.clk 240).margin ≠ 0 ∧ ((s.dev.gateFire s.clk 240).gateX 240).dataAt = some 1000) := by decide +kernel
theorem test_wit_GateFirings_frame :
    (due (gate 236 4 0x6D 3 1000) 236 4 = true ∧ (∀ cc < 24, (gate 236 4 0x6D 3 1000).dev.get (FIO_CHcc_CFG_ACT_GATE cc) ≠ 3)) ∧
    due (gate 199 5 0xFE 0 1000) 199 5 = true ∧ due (gate 215 5 0xFE 15 1000) 215 5 = true ∧ due (gate 216 5 0xFE 16 1000) 216 5 = true ∧
    due (gate 218 5 0xFE 0x21 1000) 218 5 = true := by decide
theorem test_wit_GateFirings_capture :
    (let s := on (gate 247 6 0x5F 0 1000) fun d => (d.setGateX 247 { dataAt := some 0 }).setCapX 7 { armWork := some 1 }
     due s 247 6 = true ∧ ((s.dev.gateFire s.clk 247).gateX 247).dataAt = some 0 ∧ 0 + (s.dev.gateFire s.clk 247).margin ≤ 1000 ∧
       s.dev.get (GATE_GTnnn_CFG_ACT_TARGET 247) = 0x58 + 7 ∧ (s.dev.capX 7).armWork.isSome = true) ∧
    (let s := on (gate 240 6 0x58 0 1000) fun d => d.setGateX 240 { after := some (0, 0, 0) }
     due s 240 6 = true ∧ (s.dev.gateX 240).after = some (0, 0, 0) ∧ ((s.dev.gateFire s.clk 240).gateX 240).dataAt = none) ∧
    ((on U fun d => d.setPwmX 23 { lockUntil := 1000000 }).dev.pwmX 23).lockUntil ≤ U.clk.ns := by decide

/-- A job slot in a state on engine e with a priority. -/
def slot (j e st prio : Nat) : List (Field × Nat) :=
  [(HERDER_JOBj_CFG_STATE j, st), (HERDER_JOBj_CFG_ENG j, e), (HERDER_JOBj_CFG_PRIO j, prio)]
def ready (j e prio : Nat) (l : List (Field × Nat) := []) : State :=
  on (mk .run 1000 (slot j e jobReady prio ++ l)) fun d => { d with her := { d.her with ready := [j] } }

theorem test_wit_HerderRows :
    ((mk .run 1000).dev.get HERDER_CTRL_TICK * 250 ≠ 0 ∧ (mk .run 1000).dev.her.tickDone < 1000 / ((mk .run 1000).dev.get HERDER_CTRL_TICK * 250) ∧
      (mk .run 999).clk.ns / ((mk .run 999).dev.get HERDER_CTRL_TICK * 250) ≤ (mk .run 999).dev.her.tickDone) ∧
    ((mk .run 1000).dev.canDispatch (mk .run 1000).clk 30 = none) ∧
    ((ready 1023 30 15).dev.canDispatch (ready 1023 30 15).clk 30 = some (1023, false) ∧ (ready 1023 30 15).dev.slotBad 1023 = false) ∧
    (let s := on (ready 0 0 1) fun d => d.setEngX 0 { run := some vendor }
     let s1 := on (ready 256 0 1) fun d => d.setEngX 0 { run := some vendor }
     s.dev.canDispatch s.clk 0 = none ∧ s1.dev.canDispatch s1.clk 0 = some (256, true) ∧ s1.dev.slotBad 256 = false) := by decide
theorem test_wit_HerderRows_monitor :
    (let s := on (mk .run 1000 [(HERDER_COSTc_COST 0, 1000)]) fun d => d.setEngX 30 { run := some vendor }
     (s.dev.engX 30).run = some vendor ∧ vendor.execNs s.clk.osc ≤ s.dev.jobBudget vendor.slot) ∧
    (let s := on (mk .run 1002 [(HERDER_COSTc_COST 0, 1000)]) fun d => d.setEngX 30 { run := some vendor }
     s.dev.jobBudget vendor.slot < vendor.execNs s.clk.osc) ∧
    (let s := mk .run 1000 (slot 159 28 jobWait 0 ++ [(HERDER_JOBj_CNT_LSO 159, 1), (HERDER_JOBj_DLREL_DLREL 159, 1008)])
     s.dev.jobLatest 159 = some 1000 ∧ s.dev.jobState 159 = jobWait) ∧
    (mk .run 1000).dev.jobLatest 1023 = none ∧
    ((mk .run 99999999).clk.ns < (mk .run 99999999).dev.her.winFrom + (mk .run 99999999).dev.get HERDER_CTRL_WIN * 1000000) ∧
    ((mk .run 100000000).dev.her.winFrom + (mk .run 100000000).dev.get HERDER_CTRL_WIN * 1000000 ≤ (mk .run 100000000).clk.ns ∧
      (mk .run 100000000).dev.get HERDER_CTRL_WIN * 1000000 ≠ 0) := by decide

/-- One packet on its way. -/
def fly (p : Packet) : State := on (mk .run 1000) fun d => { d with fab := { d.fab with flight := [p] } }
def pkt (addr unit typ epoch : Nat) : Packet := { brand := mkBrand addr unit typ epoch 0 0, words := [] }

theorem test_wit_FabricAndMailboxRows :
    (mk .run 1000).dev.fab.flight.length ≤ 0 ∧
    (let p := pkt 0x41 0x00 0x41 0
     (fly p).dev.fab.flight[0]? = some p ∧ Packet_read p = some (p, 0) ∧ malformed p.brand = true) ∧
    (let p := pkt 0x40 0x3F 0x41 0
     Packet_read p = some (p, 0) ∧ malformed p.brand = false ∧ (fly p).dev.isOutgoing p.brand = true) := by decide +kernel
theorem test_wit_FabricAndMailboxRows_seq :
    (let p := pkt 0 0x40 0x10 0
     Packet_read p = some (p, 0) ∧ malformed p.brand = false ∧ (fly p).dev.isOutgoing p.brand = false ∧ ((fly p).dev.seqCheck 0 p).1 = true ∧
       0x40 ≤ brandUnit p.brand ∧ (((fly p).dev.seqCheck 0 p).2.seqCheck 0 p).1 = false) ∧
    (let p := pkt 0 0x3F 0x10 0
     malformed p.brand = false ∧ ((fly p).dev.seqCheck 0 p).1 = true ∧
       brandEpoch p.brand = ((((fly p).dev.seqCheck 0 p).2.capture (fly p).clk p).safetySees p |>.lane (brandUnit p.brand)).epoch) ∧
    Packet_read { pkt 0 0 0x10 0 with errs := [(0, 3)] } = none := by decide +kernel
theorem test_wit_FabricAndMailboxRows_mailbox :
    ((mk .run 1000).dev.mbox 15).reqs = [] ∧
    (let r : MbxReq := { tArr := 0, frac := 0, src := 0, words := [] }
     let s := on (mk .run 100000) fun d => d.setMbox 15 { reqs := [r] }
     (s.dev.mbox 15).reqs = r :: [] ∧ r.tArr + 100000 ≤ s.clk.ns ∧ (99998 : Nat) < r.tArr + 100000) := by decide

/-! Witnesses: converters, feedback, pins. -/

/-- Channel 0 on with its clock running since 0 and its sample gate fired. -/
def dsfS (ns g : Nat) (on_ : Nat) : State :=
  on (mk .run ns [(DSF_Cnn_CFG_ACT_EN 0, on_), (DSF_Cnn_CFG_ACT_ORDER 0, 3), (DSF_Cnn_CFG_ACT_OSR 0, 32), (DSF_CKm_CFG_DIV 0, 10)])
    fun d => { d.setGateX 0 { last := g } with dsck := [(0, some 0)] }

def cmpS (thr : Nat) : State :=
  on (lane .enabled [(DSF_Cnn_CMP_ACT_CEN 0, 1), (DSF_Cnn_THR_ACT_HI 0, thr), (DSF_Cnn_CMP_ACT_ACT 0, 3)]) fun d => { d with dsck := [(0, some 0)] }

theorem test_wit_ConverterRows_dsf :
    (let s := dsfS 200000 100000 1
     (s.dev.gateX 0).last = 100000 ∧ (s.dev.dsfX 0).forGate ≠ some 100000 ∧ ∀ i < 3, s.dev.flag (DSF_Cnn_CFG_ACT_EN i) = true ∧
       s.dev.dsfEnd i 100000 + 40 ≤ s.clk.ns ∧ s.dev.dsfFull i 100000 = true) ∧
    (let s := dsfS 100000 100000 1
     s.dev.flag (DSF_Cnn_CFG_ACT_EN 0) = true ∧ s.clk.ns < s.dev.dsfEnd 0 100000 + 40) ∧ ((dsfS 9 0 1).dev.gateX 0).last = 0 := by decide
theorem test_wit_ConverterRows_comparator :
    ((on (cmpS 100) fun d => d.setDsfX 0 { ignore := 1 }).dev.dsfX 0).ignore ≠ 0 ∧ (cmpS 100).dev.laneActive 0 = true ∧
    ((U.dev.clockStart 5).isSome = false ∧ (dsfS 9 0 0).dev.laneActive 0 = false ∧ ((dsfS 9 0 0).dev.clockStart 0).isSome = true) := by decide

/-- Converter 0 and 1 on, each with the held sample of group 1's link. -/
def sarS (ns : Nat) : State :=
  on (mk .run ns [(SAR_CTRL_EN, 3)]) fun d =>
    ((d.setSarX 0 { held := [(15, 0, .link 1)] }).setSarX 1 { held := [(15, 0, .link 1)] }).setGroupX 1 { dcAt := some 0 }

theorem test_wit_ConverterRows_sar :
    (mk .run 9 [(SAR_CTRL_EN, 7)]).dev.sarOn 3 = false ∧
    (let s := sarS 220
     s.dev.sarOn 0 = true ∧ (s.dev.sarX 0).held = (15, 0, .link 1) :: [] ∧ max (s.dev.sarX 0).freeAt 0 + 200 ≤ s.clk.ns ∧
       199 < max (s.dev.sarX 0).freeAt 0 + 200 ∧ (s.dev.groupX 1).dcAt = some 0 ∧ s.dev.sarOn 1 = true) ∧
    ((mk .run 9).dev.groupX 3).dcAt = none := by decide

/-- Port n in a mode. -/
def port (n mode : Nat) (l : List (Field × Nat) := []) : State := mk .run 1000000 ((FBK_nn_CFG_ACT_MODE n, mode) :: l)

theorem test_wit_FeedbackRows :
    (port 0 0).dev.fbMode 0 = 0 ∧ ((port 23 2).dev.fbMode 23 ≠ 1 ∧ (port 23 2).dev.fbMode 23 ≠ 5) ∧
    (let s := port 23 1
     s.dev.fbMode 23 = 1 ∧ (∀ k < 8, s.dev.get (STR_s_CFG_ACT_SRC k) ≠ 23) ∧ (s.dev.fbkX 23).a ≠ true ∧ (s.dev.fbkX 23).b = false) ∧
    (let s := on (port 23 2) fun d => d.setFbkX 23 { d.fbkX 23 with hall := 5 }
     s.dev.fbMode 23 = 2 ∧ [1, 3, 2, 6, 4, 5][5]? = some (s.dev.fbkX 23).hall ∧ [1, 3, 2, 6, 4, 5][0]? = some (1 : BitVec 3).toNat ∧ 0 = (5 + 1) % 6 ∧
       [1, 3, 2, 6, 4, 5][4]? = some (4 : BitVec 3).toNat ∧ 5 = (4 + 1) % 6) ∧
    (let s := port 1 1 [(FBK_nn_CFG_ACT_IMODE 1, 1)]
     s.dev.fbMode 1 = 1 ∧ s.dev.get (FBK_nn_CFG_ACT_IMODE 1) = 1 ∧ s.dev.flag (FBK_nn_CFG_ACT_ZQ 1) = false ∧ (s.dev.fbkX 1).learned = false) ∧
    (let s := port 1 1 [(FBK_nn_CFG_ACT_ALEN 1, 1)]
     s.dev.fbMode 1 ≠ 0 ∧ s.dev.flag (FBK_nn_CFG_ACT_ALEN 1) = true ∧ s.dev.laneActive 1 = false) := by decide
theorem test_wit_FeedbackRows_serial :
    let s := on (port 0 3) fun d => d.setFbkX 0 { d.fbkX 0 with gate := some 1000 }
    ((s.dev.fbkX 0).gate = some 1000 ∧ s.dev.fbMode 0 ≠ 0 ∧ 1000 + s.dev.dFb 0 ≤ s.clk.ns + 40) ∧
    (U.dev.fbkX 0).gate = none ∧ ((mk .run 9).clk.ns + 40 < 1000 + s.dev.dFb 0) ∧
    ((U.dev.get (FBK_PRBp_CFG_EDGE 7)).testBit 0 = false) ∧
    (let t := mk .run 9 [(FBK_PRBp_CFG_EDGE 7, 2)]
     (t.dev.get (FBK_PRBp_CFG_EDGE 7)).testBit 1 = true ∧ t.dev.get (FBK_PRBp_MASK_MASK 7) = 0) := by decide

theorem test_wit_StrideAndCommandInputRows :
    (U.dev.strX 7).pend = [] ∧
    (let s := on U fun d => d.setStrX 7 { pend := [{ u := 1, fwd := true, t := 1000024, extrap := false }] }
     (s.dev.strX 7).pend = [{ u := 1, fwd := true, t := 1000024, extrap := false }] ∧ 1000024 ≤ s.clk.ns + 24 ∧ (s.dev.strX 7).lastAt = none) ∧
    (let s := on U fun d => d.setStrX 0 { out := [(1000000, true, false)], pulseEnd := some 1000000 }
     (s.dev.strX 0).out = (1000000, true, false) :: [] ∧ (s.dev.strX 0).pulseEnd = some 1000000 ∧ 1000000 ≤ s.clk.ns ∧ s.dev.get (STR_s_CFG_ACT_FORM 0) = 0) ∧
    U.dev.get (FBK_CMDc_CFG_MODE 7) < 2 ∧
    (let s := mk .run 10000000 [(FBK_CMDc_CFG_MODE 7, 2)]
     2 ≤ s.dev.get (FBK_CMDc_CFG_MODE 7) ∧ (s.dev.cmdX 7).lastEdge = none ∧ s.dev.flag (FBK_CMDc_RAW_LOST 7) = false ∧
       (s.dev.cmdX 7).lastEdge.getD 0 + (if s.dev.get (FBK_CMDc_CFG_TMO 7) = 0 then (s.dev.cmdX 7).interval + 1
         else s.dev.get (FBK_CMDc_CFG_TMO 7) * 1000000) ≤ s.clk.ns) ∧
    (let s := on (mk .run 1000000 [(FBK_CMDc_CFG_MODE 0, 2)]) fun d => { d with cmdin := [(0, { lastEdge := some 0 })] }
     (s.dev.cmdX 0).lastEdge = some 0 ∧ 0 < s.clk.ns - 2 * s.dev.get (FBK_CMDc_CFG_FILT 0)) ∧
    ((mk .run 9 [(FBK_CMDc_CFG_MODE 0, 1)]).dev.cmdNext < 8 ∧
      (mk .run 9 [(FBK_CMDc_CFG_MODE 0, 1)]).dev.get (FBK_CMDc_CFG_MODE (mk .run 9 [(FBK_CMDc_CFG_MODE 0, 1)]).dev.cmdNext) = 1) := by decide

theorem test_wit_BridgeAndPinRows :
    (∀ g ∈ (U.dev.pwmX 23).edges, ¬ (g.sw = 5 ∧ g.on = true ∧ g.t ≤ 4 * U.clk.ns)) ∧
    (let s := on U fun d => d.setPwmX 23 { edges := [{ t := 4000000, sw := 5, on := true }] }
     ∃ g ∈ (s.dev.pwmX 23).edges, g.sw = 5 ∧ g.on = true ∧ g.t ≤ 4 * s.clk.ns) ∧
    (∀ u ∈ lanesOfGroup 3, (U.dev.lane u).state = .disabled ∨ (U.dev.lane u).state = .fault) ∧
    (let s := lane .enabled [(PWM_Lnn_CC_STAT_START 0, 3), (PWM_Lnn_CC_REV_ACT_REVTMO 0, 1)]
     (s.dev.lane 0).state = .enabled ∧ (s.dev.lane 0).faulted = false ∧ 3 ≤ s.dev.get (PWM_Lnn_CC_STAT_START 0) ∧
       s.dev.get (PWM_Lnn_CC_STAT_START 0) ≤ 5 ∧ (s.dev.lane 0).enabledAt + s.dev.get (PWM_Lnn_CC_REV_ACT_REVTMO 0) * 1000000 ≤ s.clk.ns) ∧
    (let b : Bridge := { st := .drive, blank := 1000000 }
     b.st = .drive ∧ b.blank ≤ U.clk.ns) ∧
    (let b : Bridge := { st := .off, offEnd := 1000000, rev := true, driven := some true }
     b.st = .off ∧ b.offEnd ≤ U.clk.ns ∧ b.rev = true ∧ b.driven = some b.pos) ∧
    (U.dev.stpX 7).m.isSome = false ∧
    (let s := on (mk .run 1000000 [(PWM_Ss_HOLD_ACT_HOLDT 7, 1)]) fun d => d.setStpX 7 { m := some 0 }
     (s.dev.stpX 7).m.isSome = true ∧ s.dev.get (PWM_Ss_HOLD_ACT_HOLDT 7) * 1000000 ≠ 0 ∧
       (s.dev.stpX 7).since + s.dev.get (PWM_Ss_HOLD_ACT_HOLDT 7) * 1000000 ≤ s.clk.ns) := by decide

/-- Block 0's grid at every T_loop. -/
def loopS : State := mk .run 1000000 [(LPB_bb_LPER_ACT_LPER 0, 50000)]

theorem test_wit_TrajectoryAndLoopRows :
    (let s := on U fun d => d.setGateX 0 { last := 0 }
     s.dev.axDue s.clk 0 = none) ∧
    (U.dev.axDue U.clk 63 = some 1000000 ∧ U.dev.idleHerd 1000000 = false ∧ (mk .mirror 1000000).dev.idleHerd 1000000 = true) ∧
    (mk .run 9 [(LPB_bb_LPER_ACT_LPER 15, 0)]).dev.loopDue (mk .run 9).clk 15 = none ∧
    (loopS.dev.loopDue loopS.clk 0 = some 1000000 ∧ (loopS.dev.loopX 0).pend = [] ∧ loopS.dev.imgs = [] ∧ loopS.dev.flag (LPB_bb_CTL_CMT 0) = false ∧
      loopS.dev.loopMode 0 = loopOff) ∧
    (let r : RunJob := { slot := slotLoop 15, start := 0, used := 0, shadow := false }
     let s := on (mk .run 1000000 [(HERDER_JOBj_DLREL_DLREL (slotLoop 15), 1000000)]) fun d => d.setEngX 30 { run := some r }
     (s.dev.engX 30).run = some r ∧ r.slot = slotLoop 15 ∧ s.clk.ns ≤ s.dev.jobDeadline r.slot) ∧
    (U.dev.engX 30).run = none ∧
    (let s := on U fun d => d.setLoopX 15 { due := some 1000000 }
     (s.dev.loopX 15).due = some 1000000 ∧ 1000000 ≤ s.clk.ns ∧ s.dev.loopMode 15 = loopOff) := by decide

/-- A PTP frame of 64 bytes of a type, domain 0. -/
def ptpF (typ : Nat) (bad : Bool) : EthFrame :=
  { bytes := List.replicate 12 0 ++ [0x88, 0xF7, BitVec.ofNat 8 typ] ++ List.replicate 55 0 ++ [0, 1], bad := bad }
def linked (l : List (Field × Nat) := []) : State := mk .run 1000000 ([(CHAIN_STAT_LINK0, 1), (CHAIN_STAT_LINK1, 1)] ++ l)

theorem test_wit_TimeServoRows :
    (U.dev.flag (chLink 0) = false ∧ linked.dev.flag (chLink 1) = true ∧ isPtp (ptpF 0 false) = true ∧ ptpType (ptpF 0 false) = 0 ∧
      lengthOk (ptpF 0 false) = true ∧ ptpTwoStep (ptpF 0 false) = false ∧ linked.dev.flag (chCap 1) = false ∧
      (linked [(CHAIN_STAT_CAP1, 1)]).dev.flag (chCap 1) = true ∧ (ptpF 0 true).bad = true) ∧
    (let s := on linked fun d => d.setChPort 1 { open_ := true }
     ptpType (ptpF 3 false) = 3 ∧ (s.dev.chPort 1).open_ = true ∧ ptpSeq (ptpF 3 false) = (s.dev.chPort 1).seq) ∧
    (U.dev.get TIME_CTRL_MODE ≠ 2 ∧ U.dev.get TIME_CTRL_MODE ≠ 1) ∧
    (let s := mk .run 1000000 [(TIME_CTRL_MODE, 2)]
     s.dev.get TIME_CTRL_MODE = 2 ∧ s.dev.flag (chLink 0) = false ∧ s.dev.flag (chLink 1) = false) ∧
    (let s := mk .run 100000000 [(TIME_CTRL_MODE, 1)]
     s.dev.get TIME_CTRL_MODE = 1 ∧ s.dev.servo.lossReported = false ∧ s.dev.servo.watchFrom + 3 * s.dev.servo.syncNs ≤ s.clk.ns ∧
       93749999 < s.dev.servo.watchFrom + 3 * s.dev.servo.syncNs) := by decide
theorem test_wit_TimeServoRows_servo :
    (let s := mk .run 1000001 [(TIME_STAT_STATE, 3), (TIME_HOLD_HLIM, 1)]
     s.dev.get TIME_STAT_STATE = servoHoldover ∧ s.dev.servo.expired = false ∧
       s.dev.get TIME_HOLD_HLIM * 1000000 * 2 ^ 48 < s.clk.tor - s.dev.servo.holdFrom ∧ ∀ a < 64, (s.dev.axX a).mst = none) ∧
    (let s := mk .run 1000000 [(TIME_STAT_STATE, 4)]
     s.dev.get TIME_STAT_STATE = servoSlew ∧ s.dev.servo.slewRem = 0) ∧
    (let s := on (mk .run 9) fun d => { d with regs := [(0x40000008, 0), (0x4000000C, 5)] }
     s.dev.ptpToMe 1 { ptpF 3 false with bytes := (ptpF 3 false).bytes.take 58 ++ [0, 0, 0, 5, 0, 0, 0, 0, 0, 2] } = true) := by decide

/-! Witnesses: chain and CAN. -/

/-- A frame of an EtherType to the all-zero address. -/
def ethF (ty : Nat) (n : Nat) (bad : Bool := false) : EthFrame :=
  { bytes := List.replicate 12 0 ++ [BitVec.ofNat 8 (ty / 256), BitVec.ofNat 8 ty] ++ List.replicate n 0, bad := bad }

/-- A linked device at chain address 1, and a Ruori frame of its own with these blocks. -/
def chained : State := linked [(CHAIN_STAT_ADDR, 1)]
def ruoriF (addr unit : Nat) (pay : List W64) : EthFrame := (chained.dev.ruoriFrame 1 addr unit 0 pay).1
def enumF : EthFrame := ruoriF 0xFF 0xF0 [mkBrand 0 0xFE 0x69 0 0 0, 0x10001]
def setF : EthFrame := ruoriF 1 0xFE [mkBrand 1 0 0xD0 0 0 0, 0, 0, 0]

theorem test_wit_ChainRows :
    (U.dev.flag (chLink 1) = false ∧ chained.dev.flag (chLink 1) = true ∧ (chained.dev.chPort 1).wait = [] ∧ (chained.dev.chPort 1).store = []) ∧
    (lengthOk (ethF 0x800 45) = false ∧ lengthOk (ethF 0x8808 46) = true ∧ fetype (ethF 0x8808 46) = 0x8808) ∧
    (fetype (ethF 0x800 46) ≠ 0x8808 ∧ chained.dev.isRuori (ethF 0x800 46) = false ∧ isPtp (ethF 0x800 46) = false ∧
      (linked [(CHAIN_CFG_ACT_FWDF, 0)]).dev.flag CHAIN_CFG_ACT_FWDF = false) ∧
    (U.dev.chain.enum = none ∧ U.dev.flag CHAIN_STAT_CTRL = false) ∧
    (let s := on (mk .run 9 [(CHAIN_STAT_CTRL, 1)]) fun d => { d with chain := { d.chain with enum := some (1, 9) } }
     s.dev.flag CHAIN_STAT_CTRL = true ∧ s.dev.chain.enum = some (1, 9) ∧ 9 ≤ s.clk.ns ∧
       brandKind (mkBrand 0 0xFE 0x6D 0 0 0) = 0x6D ∧ bits64 (([0, 0, 0, 0, 0, 0, 0, 0] : List W64).getD 1 0) 9 1 = 0) := by decide
theorem test_wit_ChainRows_frames :
    (let f := ruoriF 0x40 0xFE []
     lengthOk f = true ∧ fetype f ≠ 0x8808 ∧ chained.dev.isRuori f = true ∧ brandUnit (fword f 0) = 0xFE ∧ brandAddr (fword f 0) = 0x40 ∧
       brandAddr (fword f 0) ≠ chained.dev.get CHAIN_STAT_ADDR ∧ chained.dev.chainMine (brandAddr (fword f 0)) = false) ∧
    (chained.dev.isRuori setF = true ∧ brandUnit (fword setF 0) ≠ 0xF0 ∧ chained.dev.chainMine (brandAddr (fword setF 0)) = true ∧
      setF.bad = false ∧ lengthOk setF = true ∧ (ruoriBlocks setF 0xFE).map (·.length) = some 1 ∧
      ((chained.dev.bump (CHAIN_CHp_RXOK_V 1)).headerSeq setF).1 = true) ∧
    (ruoriBlocks { setF with bytes := setF.bytes.dropLast ++ [1] } 0xFE = none ∧ lengthOk { setF with bytes := setF.bytes.dropLast ++ [1] } = true) := by
  decide +kernel
theorem test_wit_ChainRows_enumeration :
    chained.dev.isRuori enumF = true ∧ brandUnit (fword enumF 0) = 0xF0 ∧ enumF.bad = false ∧ lengthOk enumF = true ∧
    ((ruoriBlocks enumF 0xF0).any fun bs => bs.head?.any fun b => brandType b.brand = 0x69) = true ∧
    ((chained.dev.bump (CHAIN_CHp_RXOK_V 0)).headerSeq enumF).1 = true := by decide +kernel
theorem test_wit_ChainRows_store :
    (let s := on chained fun d => d.setChPort 0 { wait := [enumF], busy := 1000000 }
     s.dev.flag (chLink 0) = true ∧ (s.dev.chPort 0).busy ≤ s.clk.ns ∧ (s.dev.chPort 0).wait = enumF :: []) ∧
    (let s := on chained fun d => d.setChPort 0 { store := [ethF 0 46] }
     (s.dev.chPort 0).wait = [] ∧ (s.dev.chPort 0).store = ethF 0 46 :: [] ∧ s.dev.chGuarded s.clk 0 = false) := by decide +kernel

/-- Channel ch of the CAN unit in a state and a mode. -/
def canS (ch st mode : Nat) (l : List (Field × Nat) := []) : State :=
  mk .run 1000000 ([(CAN_CHc_STAT_STATE ch, st), (CAN_CHc_CFG_ACT_MODE ch, mode)] ++ l)
def canF (fdf : Bool) : CanFrame := { ide := false, fdf := fdf, brs := false, rtr := false, esi := false, id := 0, dlc := 0, data := [] }
def canE (launch : Nat) (w3 : W32 := 0x10000) : CanTx := { launch := launch, w2 := 0, w3 := w3, data := [] }

theorem test_wit_CanRows :
    (¬ (canOnBus (U.dev.canState 0) = true ∨ U.dev.canState 0 = stListen) ∧ ((canF true).fdf = true ∧ (canS 0 stActive canNormal [(CAN_CHc_CFG_ACT_FDEN 0, 0)]).dev.flag (CAN_CHc_CFG_ACT_FDEN 0) = false)) ∧
    (let s := canS 7 stListen canListen
     s.dev.canState 7 = stListen ∧ canOnBus stListen = false ∧ (canF false).fdf = false ∧ (s.dev.canX 7).cur = none ∧ (s.dev.canX 7).rx.length < 64 ∧
       64 ≤ ((on s fun d => d.setCanX 7 { rx := List.replicate 64 [] }).dev.canX 7).rx.length) ∧
    ((canS 0 stInteg canNormal).dev.canState 0 = stInteg) ∧
    (let s := canS 0 stActive canNormal
     (s.dev.canX 0).cur = none ∧ s.dev.canState 0 ≠ stInteg ∧ canOnBus ((s.dev.canIdle s.clk 0).canState 0) = true ∧
       (s.dev.canIdle s.clk 0).dst ≠ .mirror ∧ (s.dev.canIdle s.clk 0).canPick s.clk 0 = none) ∧
    (let s := on (canS 0 stActive canNormal) fun d => d.setCanX 0 { tx := [canE 1000000 0x20000] }
     (s.dev.canIdle s.clk 0).canPick s.clk 0 = some 0) ∧
    (¬ canOnBus ((U.dev.canIdle U.clk 0).canState 0) = true) := by decide +kernel
theorem test_wit_CanRows_end :
    (let s := on (canS 0 stActive canNormal) fun d => d.setCanX 0 { tx := [canE 0], cur := some (0, 5) }
     (s.dev.canX 0).cur = some (0, 5) ∧ (s.dev.canX 0).tx[0]? = some (canE 0) ∧ (canE 0).w3.getLsbD 4 = false ∧
       s.dev.flag (CAN_CHc_CFG_ACT_ECHO 0) = false) ∧
    (let s := on (canS 0 stActive canNormal) fun d => d.setCanX 0 { tx := [canE 900000] }
     (s.dev.canX 0).tx[0]? = some (canE 900000) ∧ (canE 900000).expiry ≤ s.clk.ns ∧ (999999 : Nat) < (canE 900000).expiry ∧
       (s.dev.canX 0).cur.map (·.1) ≠ some 0) ∧
    (U.dev.canX 0).tx[31]? = none ∧
    ((canCounter 7 4).isSome = true ∧ (canS 7 stActive canNormal [(CAN_CHc_CFG_ACT_PEX 7, 1)]).dev.flag (CAN_CHc_CFG_ACT_PEX 7) = true) ∧
    (U.dev.canState 0 ≠ stBusOff ∧ U.dev.canState 0 ≠ stInteg ∧ U.dev.canState 0 ≠ stSleep) ∧
    ((canS 0 stBusOff canNormal).dev.canState 0 = stBusOff ∧ ((on (canS 0 stBusOff canNormal) fun d => d.setCanX 0 { recov := true }).dev.canX 0).recov = true) ∧
    (let s := canS 5 stSleep canSleep
     s.dev.canState 5 = stSleep ∧ 500 * s.dev.get CAN_WAKE_CFG_WFILT ≤ 500 * s.dev.get CAN_WAKE_CFG_WFILT ∧ 0 < 500 * s.dev.get CAN_WAKE_CFG_WFILT ∧
       s.dev.flag (CAN_CHc_CFG_ACT_AUTOW 5) = false) := by decide

/-! Witnesses: pair, safety, field, capture, injection. -/

/-- A pair member in a role and pair state. -/
def pairS (st : DevState) (role ps : Nat) (l : List (Field × Nat) := []) : State :=
  mk st 1000000 ([(PAIR_STAT_ROLE, role), (PAIR_STAT_PSTATE, ps), (PAIR_STAT_LINK, 1)] ++ l)

theorem test_wit_PairLinkRows :
    (U.dev.flag PAIR_STAT_LINK = false ∧ (pairS .run 1 0).dev.flag PAIR_STAT_LINK = true) ∧
    ((pairS .run 1 0).dev.pair.sentAt < (pairS .run 1 0).clk.ns / 2000 * 2000 ∧ (pairS .run 1 0).dev.flt.silentUntil ≤ (pairS .run 1 0).clk.ns ∧
      (mk .run 1999).clk.ns / 2000 * 2000 ≤ (mk .run 1999).dev.pair.sentAt ∧ (pairS .run 2 1).dev.role ≠ roleActive) ∧
    ((pairS .run 0 0).clk.ns ≤ hbInstant (pairS .run 0 0).clk (BitVec.ofNat 64 (999000 * 2 ^ 32)) + 1000 ∧
      hbInstant (pairS .run 0 0).clk (BitVec.ofNat 64 (998999 * 2 ^ 32)) + 1000 < (pairS .run 0 0).clk.ns ∧ (pairS .run 0 0).dev.role = 0) ∧
    ((0 : BitVec 16).toNat % 1024 ∉ [34, 111, 115, 121, 203, 77, 165, 175] ∧ (203 : BitVec 16).toNat % 1024 ∈ [34, 111, 115, 121, 203]) ∧
    (let s := pairS .mirror 2 2
     s.dev.role = roleStandby ∧ s.dev.pstate = psMirrored ∧ s.dev.dst = .mirror ∧ s.dev.flt.active = [] ∧ s.dev.follows = true) ∧
    (U.dev.follows = false ∧ U.dev.pstate = psSolo) ∧
    (let s := pairS .mirror 2 2 [(PAIR_STAT_MISS, 2)]
     1000 ≤ s.clk.ns ∧ s.dev.pair.beat < (s.clk.ns - 1000) / 2000 ∧ s.dev.pstate ≠ psSolo ∧ min 15 (s.dev.get PAIR_STAT_MISS + 1) = 3 ∧
       s.dev.role = roleStandby ∧ s.dev.dst = .mirror ∧ s.dev.flt.active = []) ∧
    (min 15 ((pairS .run 1 2 [(PAIR_STAT_MISS, 2)]).dev.get PAIR_STAT_MISS + 1) = 3 ∧ (pairS .run 1 2).dev.role ≠ roleStandby ∧
      min 15 ((pairS .run 1 2).dev.get PAIR_STAT_MISS + 1) ≠ 3) := by decide

theorem test_wit_PairRequestAndForcingRows :
    (pairS .mirror 2 1).dev.follows = true ∧
    (U.dev.role ≠ roleActive ∧ (pairS .run 1 2).dev.role = roleActive ∧ (15, 65535) ∉ (pairS .run 1 2).dev.pair.held) ∧
    (let s := pairS .mirror 2 2 [(PAIR_CFG_RBPER, 500)]
     2 * s.dev.get PAIR_CFG_RBPER ≠ 0 ∧ s.dev.pair.rbAt < s.clk.ns / (2 * s.dev.get PAIR_CFG_RBPER) * (2 * s.dev.get PAIR_CFG_RBPER) ∧
       s.dev.role = roleStandby ∧ s.dev.pstate = psMirrored ∧ s.dev.dst = .mirror ∧ s.dev.flt.active = []) ∧
    ((pairS .run 1 2 [(PAIR_STAT_PULL, 1)]).dev.flag PAIR_STAT_PULL = true ∧ U.dev.flag PAIR_STAT_PULL = false ∧ U.dev.pforce = false ∧
      (pairS .ready 1 2).dev.role = roleActive ∧ U.dev.role ≠ roleActive) ∧
    (U.dev.pair.notice = none ∧
      (let s := on U fun d => { d with pair := { d.pair with notice := some 999000 } }
       s.dev.pair.notice = some 999000 ∧ s.clk.ns ≤ 999000 + 1000 ∧ (998999 : Nat) + 1000 < s.clk.ns)) ∧
    (let s := on (pairS .mirror 2 1) fun d => { d with pair := { d.pair with join := some (1000000, 7) } }
     s.dev.pair.join = some (1000000, 7) ∧ 1000000 ≤ s.clk.ns ∧ s.dev.pstate ≠ psMirrored) ∧ U.dev.pair.join = none := by decide
theorem test_wit_PairReadback :
    let s := on (pairS .mirror 2 2 [(PAIR_CFG_RBPER, 500), (PAIR_CFG_RBLIM, 2), (SAFE_Gg_STAT_STATE 0, 3)]) fun d =>
      d.setLane 0 { d.lane 0 with state := .armed }
    (∃ p ∈ s.dev.shadowLines 1000000, (2 ^ 200 - 1).testBit p.1 ≠ p.2) ∧ (∀ p ∈ (pairS .mirror 2 2).dev.shadowLines 1000000, Nat.testBit 0 p.1 = p.2) ∧
    min 15 (s.dev.get PAIR_STAT_RBRUN + 1) < s.dev.get PAIR_CFG_RBLIM := by decide

theorem test_wit_SafetyUnitRows :
    (mk .doze 9).dev.timeRuns = false ∧ U.dev.timeRuns = true ∧ U.dev.flag SAFE_STAT_DIAG = false ∧
    (mk .run 9 [(SAFE_STAT_DIAG, 1)]).dev.flag SAFE_STAT_DIAG = true ∧
    ((on U fun d => { d with safe := { d.safe with watch := true } }).dev.safe.watch = true ∧ U.dev.dst.serves = true) ∧ U.dev.safe.watch = false ∧
    (let s := on (mk .run 9 [(SAFE_Gg_STAT_STATE 3, 4), (SAFE_Gg_SS1T_ACT_SS1T 3, 5)]) fun d => { d with safe := { d.safe with n := 50, ss1 := [(3, some 0)] } }
     s.dev.sg 3 = sgSs1 ∧ s.dev.safe.ss1.get (fun _ => none) 3 = some 0 ∧ 10 * s.dev.get (SAFE_Gg_SS1T_ACT_SS1T 3) ≤ s.dev.safe.n - 0 ∧
       (49 : Nat) < 10 * s.dev.get (SAFE_Gg_SS1T_ACT_SS1T 3)) ∧
    (let s := on (mk .run 9 [(SAFE_SLS_ACT_SLSRAMP, 5)]) fun d => { d with safe := { d.safe with n := 50, sls := [(0, some 0)] } }
     s.dev.safe.sls.get (fun _ => none) 0 = some 0 ∧ 10 * s.dev.get SAFE_SLS_ACT_SLSRAMP ≤ s.dev.safe.n - 0) ∧
    (let s := on U fun d => ({ d with safe := { d.safe with n := 20000 } } : Dev).setSafeIn 7 { press := some 0 }
     (s.dev.safeIn 7).press = some 0 ∧ 80000 ≤ 4 * s.dev.safe.n - 0 ∧ (4 * 19999 : Nat) < 80000) ∧
    ((mk .run 9 [(SAFE_SIi_CFG_ACT_TYPE 7, 3)]).dev.get (SAFE_SIi_CFG_ACT_TYPE 7) = 3 ∧ U.dev.get (SAFE_SIi_CFG_ACT_TYPE 0) ≠ 3) ∧
    (U.dev.safe.cfg = none ∧ U.dev.sg 0 = sgInit ∧ (mk .run 9 [(SAFE_Gg_STAT_STATE 0, 2)]).dev.sg 0 = sgWait ∧
      (∀ k < 8, U.dev.get (SAFE_SIi_CFG_ACT_ROLE k) ≠ 3)) := by decide

theorem test_wit_FieldRows :
    (mk .boot 9).dev.dst.serves = false ∧ (1499 : Nat) < 1500 ∧
    ((mk .run 6500).dev.fio.lastFrame < ((mk .run 6500).clk.ns - 1500) / 5000 * 5000 ∧ ((mk .run 6499).clk.ns - 1500) / 5000 * 5000 ≤ (mk .run 6499).dev.fio.lastFrame) ∧
    (U.dev.dieMode 0 ≠ 3 ∧ U.dev.dieMode 0 ≠ 1 ∧ U.dev.dieMode 0 ≠ 2 ∧ (mk .run 9 [(FIO_CHcc_CFG_ACT_MODE 23, 3)]).dev.dieMode 23 = 3 ∧
      (mk .run 9 [(FIO_CHcc_CFG_ACT_MODE 23, 1)]).dev.dieMode 23 = 1 ∧ (mk .run 9 [(FIO_CHcc_CFG_ACT_MODE 0, 2)]).dev.dieMode 0 = 2) ∧
    (U.dev.fio.low = false ∧ U.dev.fio.wd = false ∧ (on U fun d => { d with fio := { d.fio with wd := true, low := true } }).dev.fio.wd = true) ∧
    (let s := mk .run 950000 [(FIO_WDT_ACT_WDT, 1)]
     s.dev.fio.wd = false ∧ s.dev.fio.lastFrame + 950000 * s.dev.get FIO_WDT_ACT_WDT ≤ s.clk.ns ∧
       (949999 : Nat) < s.dev.fio.lastFrame + 950000 * s.dev.get FIO_WDT_ACT_WDT ∧ s.dev.dst.serves = true ∧
       U.dev.dst.serves = true) := by decide

theorem test_wit_CaptureScrubAndInjectionRows :
    (U.dev.capX 7).next = none ∧ (U.dev.capX 7).stop = none ∧
    (let s := on (mk .run 1000 [(CAP_CHcc_SRC_ACT_EN 63, 1), (CAP_CHcc_SRC_ACT_REC 63, 7), (CAP_Rr_MEM_ACT_LEN 7, 1), (CAP_Rr_POST_ACT_N 7, 1),
         (CAP_Rr_CFG_ACT_RLAG 7, 1)]) fun d => d.setCapX 7 { next := some 0 }
     (s.dev.capX 7).next = some 0 ∧ 0 + 1000 * s.dev.get (CAP_Rr_CFG_ACT_RLAG 7) ≤ s.clk.ns ∧ (s.dev.capX 7).stop = none ∧ (s.dev.capX 7).trig = none ∧
       s.dev.get (CAP_Rr_POST_ACT_N 7) ≠ 0 ∧ (s.dev.capX 7).pos < s.dev.capRing 7 ∧ (s.dev.capX 7).armWork = none ∧
       (999 : Nat) < 0 + 1000 * s.dev.get (CAP_Rr_CFG_ACT_RLAG 7)) ∧
    (isScrubbed 0x0FFFFFFF = false ∧ isScrubbed 0x10000000 = true ∧ isHerderMem 0x10000000 = false ∧ U.dev.injMask 0x10000000 = none ∧
      U.dev.flt.scrubbed + 1 < scrubWords) := by decide
theorem test_wit_CaptureScrubAndInjectionRows_words :
    ((U.dev.rdWord 0x10000000).bad = false ∧ (U.dev.rdWord 0x10000000).syn = 0) ∧
    (let s := on U fun d => { d with ecc := [(0x10000000, 1)] }
     (s.dev.rdWord 0x10000000).bad = false ∧ (s.dev.rdWord 0x10000000).syn ≠ 0) ∧
    scrubWords ≤ (on U fun d => { d with flt := { d.flt with scrubbed := scrubWords - 1 } }).dev.flt.scrubbed + 1 := by decide +kernel
theorem test_wit_CaptureScrubAndInjectionRows_inject :
    (U.dev.get FLT_INJ_CFG_KIND = 0) ∧
    (let s := mk .run 1000 [(FLT_INJ_CFG_KIND, 3), (FLT_INJ_ARG_V, 176), (FLT_INJ_T_LO_V, 1)]
     let tick := max 1 (s.dev.get HERDER_CTRL_TICK * 250)
     s.dev.get FLT_INJ_CFG_KIND = 3 ∧ (s.dev.get64 FLT_INJ_T_LO_V FLT_INJ_T_HI_V + tick - 1) / tick * tick ≤ s.clk.ns ∧
       (999 : Nat) < (s.dev.get64 FLT_INJ_T_LO_V FLT_INJ_T_HI_V + tick - 1) / tick * tick ∧ s.dev.get FLT_INJ_ARG_V % 1024 ≤ 176) ∧
    ((1 : BitVec 128).toNat % 2 ^ 3 ≠ 0 ∧ (1 : BitVec 128).toNat / 2 ^ 64 = 0) ∧
    (let s := on (mk .run 1000000000) fun d => d.setLane 23 { d.lane 23 with disputed := true, state := .stopping }
     (s.dev.lane 23).disputed = true ∧ (s.dev.lane 23).state = .stopping ∧ (s.dev.lane 23).disputedAt + 1000000000 ≤ s.clk.ns ∧
       (999999999 : Nat) < (s.dev.lane 23).disputedAt + 1000000000) := by decide

theorem test_wit_OffServiceNothingHappens : (mk .boot 9).dev.dst.serves = false ∧ (mk .off 9).dev.dst.serves = false := by decide

/-! Witnesses: the clauses of the request statements that name their conditions one by one. -/

/-- A lane whose every bar to lane.enable is out of the way; disputed lanes. -/
theorem test_wit_LaneStateCommands_enable :
    (let s := lane .armed
     (rq 0 [3]).payload.length = 1 ∧ bits64 ((rq 0 [3]).pw 0) 2 62 = 0 ∧ bits64 ((rq 0 [3]).pw 0) 0 2 = 3 ∧ s.dev.dst = .run ∧
       s.dev.laneLeads 0 = .armed ∧ (s.dev.lane 0).disputed = false ∧ s.dev.sysStop = none ∧ s.dev.get (SAFE_Gg_STAT_STATE (groupOf 0)) = 3 ∧
       faster (s.dev.fbkX 0).v (s.dev.get (PWM_Lnn_CC_ZSPD_ACT_SPD 0)) = false ∧ s.dev.flag (DSF_Cnn_CFG_ACT_EN (3 * 0 + 0)) = true ∧
       served s (rq 0 [3]) 0x0102 (s.dev.changeGate 0 ((rq 0 [3]).at_ s.clk.ns)) = true) ∧
    (let s := on (lane .disabled) fun d => d.setLane 0 { d.lane 0 with disputed := true }
     (s.dev.lane 0).disputed = true ∧ served s (rq 0) 0x0105 (s.dev.changeGate 0 ((rq 0).at_ s.clk.ns)) = true) := by decide

theorem test_wit_DelayedWorkCommands_field :
    (let s := mk .run 1000000 [(FIO_CHcc_CFG_ACT_MODE 0, 3)]
     bits64 ((rq 0x6D [1]).pw 0) 0 32 = 1 ∧ s.dev.fioMode 0 = 3 ∧ s.dev.loopFeeds 0 true = false ∧ s.dev.isReleased 0x10 0 = false) ∧
    (served U (rq 0x6D [0]) 0x0602 U.clk.ns = true ∧ bits64 ((rq 0x6D [0]).pw 0) 0 16 = 0 ∧ bits64 ((rq 0x6D [1]).pw 0) 16 48 = 0 ∧
      served U (rq 0x6D [1]) 0x0602 ((rq 0x6D [1]).at_ U.clk.ns + 1 * 1000000) = true) ∧
    (U.dev.isReleased 7 23 = false ∧ (rq 23 [0, 0]).payload.length = 2 ∧
      served U (rq 23 [0, 0]) 0x0109 (U.dev.firingAhead (24 + 23) ((rq 23 [0, 0]).at_ U.clk.ns)) = true) := by decide

theorem test_wit_DelayedWorkCommands_capture :
    (let q : Request := { rq 0x5F with asap := false, launch := 1010000 }
     let s := mk .run 1000000 [(CAP_Rr_CFG_ACT_MODE 7, 1)]
     s.dev.capBusy 7 = false ∧ (s.dev.capX 7).armWork = none ∧ s.dev.get (CAP_Rr_CFG_ACT_MODE 7) ≠ 0 ∧ s.clk.ns + 10000 ≤ q.at_ s.clk.ns ∧
       q.at_ s.clk.ns < 2 ^ 64 ∧ s.dev.flag (GATE_GTnnn_CTL_ARMED (capGate 7)) = false ∧
       served s q 0x0501 (s.dev.capGrid 7 (q.at_ s.clk.ns)) = true) ∧
    (let s := on U fun d => d.setCapX 0 { armWork := some 5 }
     (s.dev.capX 0).armWork.isSome = true ∧ (s.dev.capX 0).stop = none ∧
       served s (rq 0x58) 0x0502 (s.dev.capGrid 0 ((rq 0x58).at_ s.clk.ns) + 1000 * s.dev.get (CAP_Rr_CFG_ACT_RLAG 0)) = true) ∧
    (let q := rq 0x67 [0x0001000000000000]
     let s := mk .run 1000000 [(CAN_CHc_CFG_ACT_MODE 7, 1)]
     bits64 (q.pw 0) 0 32 = 0 ∧ bits64 (q.pw 0) 32 32 = 0x10000 ∧ q.payload.length = 1 + (w2Bytes 0 0x10000 + 7) / 8 ∧
       s.dev.canMode 7 = canNormal ∧ canBad 0 0x10000 = false ∧ (s.dev.canX 7).tx.length < 32 ∧
       served s q 0x0811 (q.at_ s.clk.ns + 100000) = true) := by decide

/-! Witnesses: commits. -/

/-- A commit of servo lane 23 and of stepper lane 7 in time for a reload 8 ns ahead. -/
def nearReload : State :=
  on (mk .run 1000000 [(GATE_GTnnn_NEXT_LO_NEXT 71, 1000007), (GATE_GTnnn_NEXT_LO_NEXT 79, 1000007), (STR_s_CFG_SRC 7, 24),
    (STR_s_CFG_SRC 0, 31), (STR_s_M_M 0, 0)]) fun d =>
    (d.setPwmX 23 { d.pwmX 23 with commitAt := some 999999 }).setStpX 7 { d.stpX 7 with commitAt := some 999999 }

theorem test_wit_CommitsWaitForTheirInstant_latched :
    (let g := nearReload.dev.gateNext (48 + 23)
     (nearReload.dev.pwmX 23).commitAt = some 999999 ∧ 999999 + 8 ≤ g ∧ g < nearReload.clk.ns + 8) ∧
    (let g := nearReload.dev.gateNext (72 + 7)
     (nearReload.dev.stpX 7).commitAt = some 999999 ∧ 999999 + 8 ≤ g ∧ g < nearReload.clk.ns + 8) ∧
    ((U.dev.pwmX 0).commitAt = none ∧ (U.dev.stpX 0).commitAt = none) ∧
    (U.dev.get (STR_s_CFG_SRC 7) < 24 ∧ 24 ≤ nearReload.dev.get (STR_s_CFG_SRC 7) ∧ nearReload.dev.strZero 7 = false ∧
      24 ≤ nearReload.dev.get (STR_s_CFG_SRC 0) ∧ nearReload.dev.strZero 0 = true) := by decide

theorem test_wit_CommitsInForceAtOnce_sar :
    (mk .run 9 [(SAR_Gg_GAIN_GAIN 0, 0)]).dev.sarGroupZero 0 = true ∧
    (let s := mk .run 9 [(SAR_Gg_CFG_DCPER 3, 249)]
     s.dev.sarGroupZero 3 = false ∧ s.dev.sarGroupConflict 3 = true) ∧
    (U.dev.sarGroupZero 3 = false ∧ U.dev.sarGroupConflict 3 = false) ∧
    (let s := mk .run 9 [(DSF_Cnn_CFG_EN 71, 0)]
     s.dev.dsfZero 23 = false ∧ s.dev.dsfConflict 23 (s.dev.lane 23).state = false ∧
       s.dev.reg (DSF_Cnn_CFG_EN (3 * 23 + 2)).addr ≠ s.dev.reg (DSF_Cnn_CFG_ACT_EN (3 * 23 + 2)).addr) := by decide

theorem test_wit_CommitsInForceAtOnce_cap :
    (let s := mk .run 9 [(CAP_Rr_SPER_SPER 7, 0)]
     s.dev.capBusy 7 = false ∧ s.dev.capZero 7 = true) ∧
    (let s := mk .run 9 [(CAP_Rr_CFG_NSEGLOG 0, 7)]
     s.dev.capBusy 0 = false ∧ s.dev.capZero 0 = false ∧ s.dev.capConflict 0 = true) ∧
    (U.dev.capBusy 7 = false ∧ U.dev.capZero 7 = false ∧ U.dev.capConflict 7 = false ∧ U.dev.capOverload 7 = false) := by decide +kernel

theorem test_wit_CommitsInForceAtOnce_can :
    (let s := mk .run 9 [(CAN_CHc_TXWw_W 0 3, 0x20)]
     (s.dev.canX 0).tx.length < 32 ∧ canBad (s.dev.reg (CAN_CHc_TXWw_W 0 2).addr) (s.dev.reg (CAN_CHc_TXWw_W 0 3).addr) = true) ∧
    (let s := mk .run 9 [(CAN_CHc_NBT_BRP 0, 0)]
     s.dev.canQuiet 0 = true ∧ s.dev.canZero 0 = true) ∧
    (let s := mk .run 9 [(CAN_CHc_CFG_MODE 0, canListen)]
     s.dev.canQuiet 0 = true ∧ s.dev.canZero 0 = false ∧ s.dev.canConflict 0 = true) ∧
    (let s := mk .run 9 [(CAN_CHc_CFG_MODE 7, canListen)]
     s.dev.canQuiet 7 = true ∧ s.dev.canZero 7 = false ∧ s.dev.canConflict 7 = false ∧ s.dev.get (CAN_CHc_CFG_MODE 7) ≠ s.dev.canMode 7) ∧
    U.dev.get (CAN_CHc_CFG_MODE 0) = U.dev.canMode 0 := by decide

theorem test_wit_CommitsInForceAtOnce_trj :
    (let s := mk .run 9 [(PWM_Lnn_CYC_ACT_PDIV 0, 0), (TRJ_AXaa_CFG_TDIV 0, 0)]
     s.dev.trajT 0 = 0 ∧ s.dev.axZero 0 = true) ∧
    (let s := mk .run 9 [(PWM_Lnn_CYC_ACT_PDIV 0, 0), (TRJ_AXaa_CFG_TDIV 0, 65)]
     s.dev.trajT 0 = 0 ∧ s.dev.axZero 0 = false ∧ s.dev.axConflict 0 (s.dev.axMode 0 = modeHold) = true) ∧
    (let s := mk .run 9 [(PWM_Lnn_CYC_ACT_PDIV 0, 0)]
     s.dev.trajT 0 = 0 ∧ s.dev.axZero 0 = false ∧ s.dev.axConflict 0 (s.dev.axMode 0 = modeHold) = false ∧ s.dev.axOverload 0 = false) ∧
    (let s := mk .run 9 [(TRJ_AXaa_TPER_ACT_TPER 32, 0), (TRJ_AXaa_STAT_MODE 32, modeHold), (HERDER_COSTc_COST 0x10, 100000)]
     s.dev.trajT 32 = 0 ∧ s.dev.axZero 32 = false ∧ s.dev.axConflict 32 (s.dev.axMode 32 = modeHold) = false ∧ s.dev.axOverload 32 = true) := by
  decide

theorem test_wit_GateCommitsAndCommitPackets_gate :
    let ok (s : State) (g : Nat) := gateTargetOk (s.dev.get (GATE_GTnnn_CFG_KIND g)) (s.dev.get (GATE_GTnnn_CFG_TARGET g))
    let cmp (s : State) (g : Nat) := s.dev.get64 (GATE_GTnnn_CMP_LO_CMP g) (GATE_GTnnn_CMP_HI_CMP g)
    ok (mk .run 1000 [(GATE_GTnnn_CFG_KIND 255, 7)]) 255 = false ∧
    (let s := mk .run 1000 [(GATE_GTnnn_CTL_ARMED 0, 1), (GATE_GTnnn_NEXT_LO_NEXT 0, 1063)]
     ok s 0 = true ∧ s.dev.flag (GATE_GTnnn_CTL_ARMED 0) = true ∧ s.dev.gateNext 0 < s.clk.ns + s.dev.margin) ∧
    (let s := mk .run 1000 [(GATE_GTnnn_CTL_ARMED 0, 1), (GATE_GTnnn_NEXT_LO_NEXT 0, 1064)]
     ok s 0 = true ∧ ¬ s.dev.gateNext 0 < s.clk.ns + s.dev.margin ∧ s.dev.flag (GATE_GTnnn_CFG_EN 0) = false) ∧
    (let s := mk .run 1000 [(GATE_GTnnn_CFG_EN 255, 1), (GATE_GTnnn_CMP_LO_CMP 255, 1063)]
     ok s 255 = true ∧ s.dev.flag (GATE_GTnnn_CFG_EN 255) = true ∧ s.dev.get (GATE_GTnnn_PER_PER 255) = 0 ∧
       cmp s 255 < s.clk.ns + s.dev.margin) ∧
    (let s := mk .run 1000 [(GATE_GTnnn_CFG_EN 255, 1), (GATE_GTnnn_CMP_LO_CMP 255, 1064)]
     ok s 255 = true ∧ s.dev.flag (GATE_GTnnn_CTL_ARMED 255) = false ∧ s.clk.ns + s.dev.margin ≤ cmp s 255) ∧
    (let s := mk .run 100000 [(GATE_GTnnn_CFG_EN 255, 1), (GATE_GTnnn_CMP_LO_CMP 255, 63), (GATE_GTnnn_PER_PER 255, 500)]
     ok s 255 = true ∧ s.dev.flag (GATE_GTnnn_CFG_EN 255) = true ∧ s.dev.get (GATE_GTnnn_PER_PER 255) ≠ 0) := by decide

theorem test_wit_GateCommitsAndCommitPackets_packet :
    let latch (s : State) (sk : Nat) := sk + reloadAfter (s.dev.lanePer 0) - 8
    (brandEpoch (mkBrand 0 0 0xD0 1 0 0) ≠ (U.dev.lane 0).epoch ∧ brandEpoch (mkBrand 0 0 0xD0 0 0 0) = (U.dev.lane 0).epoch) ∧
    (U.clk.ns ≤ latch U 987508 ∧ latched (U.dev.pwmX 0).commitAt (U.dev.gateNext (48 + 0)) U.clk.ns = false) ∧
    latched (nearReload.dev.pwmX 23).commitAt (nearReload.dev.gateNext (48 + 23)) nearReload.clk.ns = true ∧
    (let s := lane .enabled
     latch s 900000 < s.clk.ns ∧ s.dev.laneActive 0 = true ∧ (s.dev.lane 0).faulted = false) := by decide

/-! Witnesses: further clauses of the Shosto, gate, Herder, fabric and mailbox statements. -/

/-- END of an extension job, and of a vendor job whose deadline lies ahead; IOLD at an odd address. -/
theorem test_wit_ShSystemRows_end :
    (let r : RunJob := { ext with start := 500 }
     let s := sh r b0
     runs s r b0 = true ∧ r.isExt = true ∧ r.execNs s.clk.osc ≤ s.dev.jobBudget r.slot ∧ s.dev.chain.again.get (fun _ => 0) r.slot = 0) ∧
    (let r : RunJob := { vendor with start := 500 }
     let s := on (sh r b0) fun d => d.put (HERDER_JOBj_DLREL_DLREL 0) 5000
     runs s r b0 = true ∧ r.execNs s.clk.osc ≤ s.dev.jobBudget r.slot ∧ s.dev.badInbox 0 r = none ∧ s.clk.ns ≤ s.dev.jobDeadline r.slot) ∧
    (vendor.isExt = false ∧ (b0.xr 2).toNat % 4 ≠ 0) ∧
    ¬ (brandAddr (mkBrand 0 0x50 0xD0 0 0 0) = 0 ∧ 0x40 ≤ brandUnit (mkBrand 0 0x50 0xD0 0 0 0) ∧ brandUnit (mkBrand 0 0x50 0xD0 0 0 0) ≤ 0x4F) := by
  decide

/-- A program word of engine 0 with two bits wrong. -/
theorem test_wit_ShExceptionsTaken_program :
    let s := on (sh vendor b0) fun d => d.setEcc (progAddr 0 0) 3
    shEngine (.shNop 0) = some 0 ∧ s.dev.dst.serves = true ∧ (s.dev.engX 0).run = some vendor ∧ vendor.start ≤ s.clk.osc ∧
      (s.dev.engine 0).halted = false ∧ ((s.dev.engine 0).bank vendor.shadow).pc < 0x10000 ∧
      (s.dev.rdWord (progAddr 0 ((s.dev.engine 0).bank vendor.shadow).pc)).bad = true := by decide +kernel

/-- Kinds that act on another gate than the unit's own, kinds on targets without a unit, and gates held late. -/
theorem test_wit_GateFirings_targets :
    due (gate 255 2 23 0 1000) 255 2 = true ∧ due (gate 0 2 0x6C 0 1000) 0 2 = true ∧ due (gate 0 2 0xFE 0x10 1000) 0 2 = true ∧
    due (gate 0 1 0x6C 0 1000) 0 1 = true ∧ due (gate 0 1 32 0 1000) 0 1 = true ∧ due (gate 0 5 0x6C 0 1000) 0 5 = true ∧
    due (gate 219 5 0xFE 0 1000) 219 5 = true ∧ due (gate 217 5 0xFE 0x20 1000) 217 5 = true ∧
    (let s := on (gate 236 4 0x6D 3 1000) fun d => d.setGateX 236 { dataAt := some 1000 }
     due s 236 4 = true ∧ ((s.dev.gateFire s.clk 236).gateX 236).dataAt = some 1000 ∧ s.dev.gateNext 236 < 1000 + (s.dev.gateFire s.clk 236).margin) ∧
    ((gate 236 4 0x6D 3 1000).dev.fio.sets = [] ∧ (((gate 236 4 0x6D 3 1000).dev.gateFire { osc := 0, tor := 0 } 236).gateX 236).dataAt = none) := by
  decide +kernel
theorem test_wit_GateFirings_locks :
    ((U.dev.pwmX 0).lockUntil = 0 ∧ (U.dev.stpX 7).lockUntil = 0) ∧
    (let s := on U fun d => (d.setPwmX 23 { d.pwmX 23 with lockUntil := 1000000, held := [((PWM_Lnn_DT_DT 23).addr, 5)] }).setStpX 7
       { d.stpX 7 with lockUntil := 1000000, held := [((PWM_Ss_CFG_FCOAST 7).addr, 5)] }
     ((s.dev.pwmX 23).lockUntil ≠ 0 ∧ (s.dev.pwmX 23).lockUntil ≤ s.clk.ns ∧ ∀ p ∈ (s.dev.pwmX 23).held, isLoopMem p.1 = false) ∧
     ((s.dev.stpX 7).lockUntil ≠ 0 ∧ (s.dev.stpX 7).lockUntil ≤ s.clk.ns ∧ ∀ p ∈ (s.dev.stpX 7).held, isLoopMem p.1 = false)) ∧
    (U.clk.ns < ((on U fun d => d.setPwmX 0 { d.pwmX 0 with lockUntil := 1000001 }).dev.pwmX 0).lockUntil) ∧
    (let s := on (gate 247 6 0x5F 0 1000) fun d => (d.setGateX 247 { dataAt := some 0 }).setCapX 7 { armWork := some 1 }
     s.dev.get (CAP_Rr_STAT_FULL 7) < 2 ^ s.dev.get (CAP_Rr_CFG_ACT_NSEGLOG 7)) := by decide

/-- A job in WAIT of a lane past its last start; an overrun of a trajectory job on engine 28. -/
theorem test_wit_HerderRows_withdraw :
    (let s := mk .run 1000 (slot 3 0 jobWait 0 ++ [(HERDER_JOBj_CNT_LSO 3, 1), (HERDER_JOBj_DLREL_DLREL 3, 1008)])
     s.dev.jobLatest 3 = some 1000 ∧ s.dev.jobState 3 = jobWait ∧ 3 % 4 ≠ 0) ∧
    (let r : RunJob := { slot := 159, start := 0, used := 2000000, shadow := false }
     let s := on (mk .run 1000) fun d => d.setEngX 28 { run := some r }
     (s.dev.engX 28).run = some r ∧ s.dev.jobBudget r.slot < r.execNs s.clk.osc ∧ r.slot < 160) ∧
    ((U.dev.engX 0).run = none ∧ U.dev.jobState 5 = jobFree) ∧
    (let s := on (mk .run 1000) fun d => { d with her := { d.her with delay := [1023] } }
     1023 ∈ s.dev.her.delay ∧ s.dev.jobLaunch 1023 ≤ s.clk.ns / (s.dev.get HERDER_CTRL_TICK * 250) * (s.dev.get HERDER_CTRL_TICK * 250)) := by decide

/-- A pair of SAR values not yet at the port, a mark whose epoch is old and one whose epoch is the lane's. -/
theorem test_wit_FabricAndMailboxRows_early :
    (let p : Packet := pkt 0 23 0x14 0
     let s := on (fly p) fun d => d.setSarX 3 { d.sarX 3 with pairAt := 981 }
     s.dev.fab.flight[0]? = some p ∧ brandType p.brand = 0x14 ∧ s.clk.ns < (s.dev.sarX (brandUnit p.brand / 6)).pairAt + 20) ∧
    (let p := pkt 0 0x3F 0x41 1
     Packet_read p = some (p, 0) ∧ malformed p.brand = false ∧ (fly p).dev.isOutgoing p.brand = false ∧ ((fly p).dev.seqCheck 0 p).1 = true ∧
       (∀ cc < 64, (fly p).dev.capSelects cc p = false) ∧ brandEpoch p.brand ≠ ((fly p).dev.lane 0x3F).epoch) ∧
    (let p := pkt 0 0x3F 0x41 0
     brandEpoch p.brand = ((fly p).dev.lane 0x3F).epoch ∧ ∀ cc < 64, (fly p).dev.capSelects cc p = false) ∧
    (let p := { pkt 0 0 0x10 0 with errs := [(0, 3)] }
     ¬ brandType p.brand = 0x14 ∧ (fly p).dev.fab.flight[0]? = some p) := by decide +kernel

/-- A request of mailbox 0 without a payload, and a device in which it has waited its 100 µs. -/
def reqW (opc seq : Nat) : List W64 :=
  let ws : List W64 := [mkBrand 0 0x70 0xE0 0 seq 0, 0, 0, BitVec.ofNat 64 (opc + 2 ^ 22 + 0xFE * 2 ^ 24)]
  ws ++ [BitVec.ofNat 64 (crcWords ws)]
def waited (ws : List W64) (l : List (Field × Nat) := []) : State :=
  on (mk .run 100000 l) fun d => d.setMbox 0 { d.mbox 0 with reqs := [{ tArr := 0, frac := 0, src := 0, words := ws }] }

theorem test_wit_FabricAndMailboxRows_decided :
    ((waited (reqW 2 1)).dev.mboxFirst 0 0 = true ∧ 0 + 100000 ≤ (waited (reqW 2 1)).clk.ns ∧
      ((waited (reqW 2 1)).dev.get MBX_ROUTE_ROUTE).testBit 0 = false ∧ (waited (reqW 2 1)).dev.get (MBX_Mm_STAT_RCOUNT 0) < 16 ∧
      ((waited (reqW 2 1)).dev.mbox 0).wait = []) ∧
    reqCrcOk (reqW 2 1 |>.set 1 1) = false ∧
    (let ws := reqW 0x0F0F 1
     reqCrcOk ws = true ∧ (waited ws).dev.reqFormatBad 0 ws = false ∧ commandOf (reqOpc ws) = none ∧
       (waited ws).dev.flag (MBX_Mm_STAT_SEQV 0) = false) ∧
    (let ws := reqW 2 1
     let s := waited ws [(MBX_Mm_STAT_SEQV 0, 1)]
     let left := s.dev.setMbox 0 { s.dev.mbox 0 with reqs := [] }
     requestOf (.sysStatus (reqOf 0 ws)) = some (reqOpc ws, reqOf 0 ws) ∧ s.clk.ns = 0 + 100000 ∧ reqCrcOk ws = true ∧
       s.dev.reqFormatBad 0 ws = false ∧ (left.verdictOf s.clk 0 ws s.clk.ns).badFormat = false ∧
       brandEpoch (ws.headD 0) = s.dev.get MBX_STAT_EPOCH ∧ s.dev.flag (MBX_Mm_STAT_SEQV 0) = true ∧
       (reqSeq ws + 65536 - s.dev.get (MBX_Mm_SEQ_LAST 0)) % 65536 = 1) := by decide +kernel
theorem test_wit_FabricAndMailboxRows_answered :
    ∃ u, exec (.sysStatus (reqOf 0 (reqW 2 1))) (waited (reqW 2 1) [(MBX_Mm_STAT_SEQV 0, 1)]) = .next u := ⟨_, rfl⟩

/-! Witnesses: further clauses of the converter, feedback, Stride and bridge statements. -/

/-- The comparator of channel 0 at output 3125: 33 ones of 64 are past a threshold of 100, 32 are not. -/
theorem test_wit_ConverterRows_window :
    (let s := cmpS 100
     s.dev.cmpDue s.clk 0 = some 3125 ∧ s.dev.laneActive 0 = true ∧ (DSF_Cnn_CMP_ACT_CEN 0).of (s.dev.cmpWords 0 3125).1 ≠ 0 ∧
       (s.dev.dsfX 0).ignore = 0 ∧ s.dev.flag (DSF_Cnn_STAT_TRIP 0) = false ∧
       sInt 16 ((DSF_Cnn_THR_ACT_HI 0).of (s.dev.cmpWords 0 3125).2) ≤ cmpValue 2 8 33 ∧
       ¬ sInt 16 ((DSF_Cnn_THR_ACT_HI 0).of (s.dev.cmpWords 0 3125).2) ≤ cmpValue 2 8 32 ∧
       ¬ cmpValue 2 8 32 ≤ sInt 16 ((DSF_Cnn_THR_ACT_LO 0).of (s.dev.cmpWords 0 3125).2) ∧ ∀ u < 24, (s.dev.pwmX u).undo = none) ∧
    (let s := on (mk .run 1000000) fun d => { d with dsck := [(0, some 0)] }
     (s.dev.cmpDue s.clk 0).isSome = true ∧ s.dev.laneActive 0 = false) ∧
    U.dev.cmpDue U.clk 71 = none := by decide +kernel

/-- A list's second entry, due at 200 ns, held up by a gate that is late, and codes inside the range of both kinds. -/
theorem test_wit_ConverterRows_list :
    (let s := on (mk .run 1000 [(SAR_CTRL_EN, 15), (SAR_CVm_SEQLEN_ACT_LEN 3, 2)]) fun d => d.setSarX 3 { d.sarX 3 with seqs := [(0, 0, 800)] }
     (s.dev.sarX 3).held = [] ∧ (s.dev.sarX 3).seqs = (0, 0, 800) :: [] ∧ s.dev.sarOn 3 = true ∧ max (s.dev.sarX 3).freeAt 800 + 200 ≤ s.clk.ns ∧
       ¬ (∃ g ∈ s.dev.holdGates 3, s.dev.flag (GATE_GTnnn_CTL_ARMED g) = true ∧ s.dev.gateNext g < s.clk.ns) ∧ 0 + 1 < s.dev.seqLen 3 0) ∧
    (let s := on (mk .run 999 [(SAR_CTRL_EN, 15)]) fun d => d.setSarX 3 { d.sarX 3 with seqs := [(0, 0, 800)] }
     s.clk.ns < max (s.dev.sarX 3).freeAt 800 + 200) ∧
    (let k := U.dev.sarCode 13 { v := 1250000000, vref := 1 }
     0 < k ∧ k < 0xFFFF ∧ U.dev.flag SAR_CTRL_REFSEL = false) ∧
    (let s := mk .run 9 [(SAR_CTRL_REFSEL, 1)]
     let k := s.dev.sarCode 14 { v := -1000000000, vref := 2000000000 }
     s.dev.flag SAR_CTRL_REFSEL = true ∧ -0x8000 < sInt 16 k ∧ sInt 16 k < 0x7FFF) := by decide +kernel

/-- Both converters of group 1's link done, their codes in the result registers. -/
theorem test_wit_ConverterRows_link :
    let s := on (mk .run 1000 [(SAR_CTRL_EN, 3), (SAR_CVm_RESc_CODE 0 15, 100), (SAR_CVm_RESc_CODE 1 15, 101)]) fun d => d.setGroupX 1 { dcAt := some 0 }
    (s.dev.groupX 1).dcAt = some 0 ∧ s.dev.sarOn 0 = true ∧ s.dev.sarOn 1 = true ∧ (s.dev.sarX 0).held = [] ∧ (s.dev.sarX 1).held = [] := by decide

theorem test_wit_FeedbackRows_edges :
    (let s := on (port 23 5) fun d => d.setFbkX 23 { d.fbkX 23 with a := true, b := true }
     s.dev.fbMode 23 = 5 ∧ (s.dev.fbkX 23).a ≠ false ∧ (s.dev.fbkX 23).b ≠ false ∧ (s.dev.fbkX 23).a = true) ∧
    (let s := port 1 1 [(FBK_nn_CFG_ACT_IMODE 1, 2)]
     s.dev.fbMode 1 = 1 ∧ s.dev.get (FBK_nn_CFG_ACT_IMODE 1) ≠ 0 ∧ s.dev.get (FBK_nn_CFG_ACT_IMODE 1) ≠ 1 ∧ s.dev.flag (FBK_nn_CFG_ACT_ZQ 1) = false ∧
       s.dev.flag (FBK_nn_CFG_ACT_ICOR 1) = false ∧ (s.dev.fbkX 1).illAt ≠ some (s.dev.stamp s.clk 1) ∧
       (let cpr : Int := s.dev.cpr 1
        let r := ((s.dev.fbkX 1).count - s.dev.get (FBK_nn_IREF_ACT_IREF 1)) % cpr
        (if cpr < 2 * r then r - cpr else r).natAbs ≤ s.dev.get (FBK_nn_LIM_ACT_IWIN 1))) ∧
    (port 1 1).dev.get (FBK_nn_CFG_ACT_IMODE 1) = 0 ∧ (port 0 0).dev.flag (FBK_nn_CFG_ACT_ALEN 0) = false := by decide
theorem test_wit_FeedbackRows_frame :
    (let s := on (port 0 3) fun d => d.setFbkX 0 { d.fbkX 0 with gate := some 1000 }
     (s.dev.fbkX 0).gate = some 1000 ∧ 1000 + s.dev.dFb 0 ≤ s.clk.ns + 40 ∧ s.dev.frameCrcOk 0 5 = true ∧ (s.dev.fbkX 0).raw = none ∧
       (s.dev.fbkX 0).setPos = []) ∧
    (let t := mk .run 9 [(FBK_PRBp_CFG_EDGE 7, 1), (FBK_PRBp_MASK_MASK 7, 5)]
     (t.dev.get (FBK_PRBp_CFG_EDGE 7)).testBit 0 = true ∧ (t.dev.get (FBK_PRBp_CFG_EDGE 7)).testBit 1 = false) := by decide +kernel

/-- A unit extrapolated beyond the last edge; the forms of the outputs. -/
theorem test_wit_StrideAndCommandInputRows_forms :
    (let s := on (mk .run 1000000 [(STR_s_N_ACT_N 0, 1), (STR_s_M_ACT_M 0, 1), (FBK_nn_CFG_ACT_MODE 0, 1)]) fun d => d.setStrX 0 { run := true, seg := some (0, 2 ^ 32, 900000, 950000) }
     ((s.dev.strX 0).pend ++ (s.dev.strAhead 0).toList).length = 1 ∧ (∀ p ∈ s.dev.strAhead 0, p.t ≤ s.clk.ns + 24) ∧
       (s.dev.strX 0).lastAt = none) ∧
    (let s := on (mk .run 1000000 [(STR_s_CFG_ACT_FORM 0, 1)]) fun d => d.setStrX 0 { out := [(1000000, false, false)], stop := true, a := true }
     s.dev.get (STR_s_CFG_ACT_FORM 0) = 1 ∧ (s.dev.strX 0).stop = true ∧ (s.dev.strX 0).out = (1000000, false, false) :: []) ∧
    (let s := on (mk .run 1000000 [(STR_s_CFG_ACT_FORM 7, 1)]) fun d => d.setStrX 7 { out := [(1000000, true, false)] }
     (s.dev.strX 7).stop = false ∧ (s.dev.strX 7).out = (1000000, true, false) :: []) ∧
    (let s := on (mk .run 1000000 [(STR_s_CFG_ACT_FORM 0, 2)]) fun d => d.setStrX 0 { out := [(1000000, false, false), (1000001, true, false)] }
     s.dev.get (STR_s_CFG_ACT_FORM 0) ≠ 0 ∧ s.dev.get (STR_s_CFG_ACT_FORM 0) ≠ 1 ∧ s.clk.ns < 1000001) ∧
    (U.dev.get (FBK_CMDc_CFG_MODE U.dev.cmdNext) ≠ 1 ∧ U.dev.get (FBK_CMDc_CFG_MODE 0) < 2) := by decide +kernel

theorem test_wit_BridgeAndPinRows_bridges :
    (∀ u ∈ lanesOfGroup 0, ((lane .enabled).dev.pwmX u).undo = none) ∧ (lane .enabled).dev.laneActive 0 = true ∧
    (let b : Bridge := { st := .off, offEnd := 1000000, driven := none }
     b.st = .off ∧ b.offEnd ≤ U.clk.ns ∧ b.rev = false ∧ b.driven = none) ∧
    (let b : Bridge := { st := .off, offEnd := 1000001 }
     b.st = .off ∧ U.clk.ns < b.offEnd) ∧
    ¬ ((lane .disabled).dev.lane 0).state = .enabled := by decide

/-! Witnesses: further clauses of the trajectory, loop, time and chain statements. -/

/-- Slot 0 in HOLD, lane 0's gate fired one period ago. -/
def slotHold : State :=
  on (mk .run 1000000 [(PWM_Lnn_PER_ACT_PER 0, 10000), (PWM_Lnn_CYC_ACT_VDIV 0, 1), (PWM_Lnn_CYC_ACT_PDIV 0, 2), (TRJ_AXaa_CFG_ACT_TDIV 0, 1),
    (TRJ_AXaa_STAT_MODE 0, modeHold)]) fun d => d.setGateX 0 { last := 1000000 }
theorem test_wit_TrajectoryAndLoopRows_slot :
    let s := slotHold
    (s.dev.axDue s.clk 0).isSome = true ∧ s.dev.idleHerd 1000000 = false ∧ (s.dev.axX 0).live = false ∧ (s.dev.axX 0).pend = [] ∧
      (s.dev.axX 0).disc = false ∧ (s.dev.axX 0).halt = false ∧ (s.dev.axX 0).replan = false ∧ (s.dev.axX 0).hold31 = false ∧ s.dev.imgs = [] ∧
      s.dev.flag (TRJ_AXaa_CTL_CMT 0) = false ∧ s.dev.axMode 0 = modeHold ∧ s.dev.flag (TRJ_AXaa_CFG_ACT_PUB 0) = false ∧
      s.dev.jobState (slotSetpoint 0) = jobFree := by decide

/-- The job of block 15 on engine 30, in a mode. -/
def jobL (ns mode : Nat) : State :=
  on (mk .run ns [(HERDER_JOBj_DLREL_DLREL (slotLoop 15), 1000000), (LPB_bb_STAT_MODE 15, mode), (LPB_bb_LPER_ACT_LPER 15, 50000),
    (LPB_bb_OMAX_ACT_V 15, 500), (LPB_bb_MOUT_ACT_V 15, 700), (LPB_bb_OSLEW_ACT_V 15, 7)]) fun d =>
    (d.setEngX 30 { run := some { slot := slotLoop 15, start := 0, used := 0, shadow := false } }).setLoopX 15 { due := some 500 }
theorem test_wit_TrajectoryAndLoopRows_jobs :
    (let s := jobL 1000000 1
     s.dev.loopMode 15 = loopManual ∧ ¬ s.dev.jobDeadline (slotLoop 15) < s.clk.ns ∧ 0 ≤ s.dev.getI (LPB_bb_OSLEW_ACT_V 15)) ∧
    (let s := jobL 1000001 1
     s.dev.jobDeadline (slotLoop 15) < s.clk.ns ∧ (s.dev.loopX 15).due.isSome = true) ∧
    (jobL 1000000 0).dev.loopMode 15 = loopOff ∧
    (let s := on (mk .run 1000000 [(LPB_bb_STAT_MODE 15, 1)]) fun d => d.setLoopX 15 { due := some 1000000 }
     (s.dev.loopX 15).due = some 1000000 ∧ s.dev.loopMode 15 ≠ loopOff) ∧
    (loopS.dev.ecc = [] ∧ (loopS.dev.loopX 0).due = none ∧ loopS.dev.get (LPB_bb_PSRC_ACT_TYPE 0) ≠ 4) ∧
    (U.dev.loopX 15).due = none ∧ U.clk.ns < 1000001 := by decide

/-- A two-step Sync whose Follow_Up has another number, one-step Syncs of the device's own master and of another port. -/
def twoF : EthFrame := { bytes := List.replicate 12 0 ++ [0x88, 0xF7, 0, 0, 0, 0, 0, 0, 2] ++ List.replicate 48 0 ++ [0, 1], bad := false }
theorem test_wit_TimeServoRows_sync :
    (let s := linked [(CHAIN_STAT_CAP1, 1)]
     isPtp twoF = true ∧ ptpType twoF = 0 ∧ lengthOk twoF = true ∧ ptpTwoStep twoF = true ∧
       (isPtp (ptpF 8 false) && ptpType (ptpF 8 false) = 8 && ptpSeq (ptpF 8 false) = ptpSeq { twoF with bytes := twoF.bytes.set 44 9 }) = false ∧
       s.dev.flag (chLink 0) = true ∧ s.dev.chBusy s.clk 0 = false ∧ (s.dev.chPort 0).store = [] ∧ s.dev.chGuarded s.clk 0 = false ∧
       ¬ s.dev.get TIME_CTRL_MODE = 1) ∧
    (let s := linked [(CHAIN_STAT_CAP1, 1), (TIME_CTRL_MODE, 1), (TIME_CTRL_PORT, 1)]
     s.dev.get TIME_CTRL_MODE = 1 ∧ s.dev.get TIME_CTRL_PORT = 1 ∧ s.dev.ptpMine (ptpF 0 false) = true) := by decide +kernel
theorem test_wit_TimeServoRows_intervals :
    (intervalOver (U.dev.chPort 0).reqAt U.clk.ns (logSecs (U.dev.getI CHAIN_PTP_ACT_LPDLY)) = true) ∧
    (let s := on linked fun d => d.setChPort 0 { reqAt := some 1000000 }
     intervalOver (s.dev.chPort 0).reqAt s.clk.ns (logSecs (s.dev.getI CHAIN_PTP_ACT_LPDLY)) = false) ∧
    (let s := mk .run 1000000 [(TIME_CTRL_MODE, 2)]
     intervalOver s.dev.chain.annAt s.clk.ns (logSecs (s.dev.getI CHAIN_PTP_ACT_LANN)) = true) ∧
    (let s := on (mk .run 1000000 [(TIME_CTRL_MODE, 2)]) fun d => { d with chain := { d.chain with annAt := some 999999 } }
     intervalOver s.dev.chain.annAt s.clk.ns (logSecs (s.dev.getI CHAIN_PTP_ACT_LANN)) = false) ∧
    ((ptpF 3 true).bad = true ∧ isPtp (ptpF 3 true) = true ∧ linked.dev.jobState (197 + 1) = jobFree) := by decide +kernel

/-- A port that is free, a header whose number is not ahead, an enumeration on its first hop, a guarded port. -/
theorem test_wit_ChainRows_ports :
    (chained.dev.flag (chLink 1) = true ∧ chained.dev.chBusy chained.clk 1 = false ∧ (chained.dev.chPort 1).store = [] ∧
      chained.dev.chGuarded chained.clk 1 = false) ∧
    ((((chained.dev.bump (CHAIN_CHp_RXOK_V 1)).headerSeq setF).2.headerSeq setF).1 = false) ∧
    (let b := (ruoriBlocks enumF 0xF0).getD [] |>.headD { brand := 0, words := [] }
     bits64 (b.words.headD 0) 0 8 = 1 ∧ chained.dev.noLaneRunning = true) ∧
    (brandAddr (fword (ruoriF 0xFF 0xFE []) 0) = 0xFF ∧ brandUnit (fword (ruoriF 0xFF 0xFE []) 0) = 0xFE) ∧
    (let s := on chained fun d => d.setChPort 0 { store := [ethF 0 46], busy := 2000000 }
     s.clk.ns < (s.dev.chPort 0).busy) ∧
    (let s := on (mk .run 9) fun d => { d with chain := { d.chain with enum := some (1, 10) } }
     s.dev.chain.enum = some (1, 10) ∧ s.clk.ns < 10) := by decide +kernel

/-! Witnesses: further clauses of the CAN and pair statements. -/

theorem test_wit_CanRows_states :
    (let s := on (canS 0 stActive canNormal) fun d => { d with pforce := true }
     (s.dev.canX 0).cur = none ∧ s.dev.canState 0 ≠ stInteg ∧ (s.dev.canIdle s.clk 0).pforce = true ∧
       (canS 0 stActive canNormal).dev.pforce = false) ∧
    (let s := canS 0 stBusOff canNormal [(CAN_CHc_CFG_ACT_AUTOREC 0, 1)]
     s.dev.canState 0 = stBusOff ∧ s.dev.flag (CAN_CHc_CFG_ACT_AUTOREC 0) = true ∧ s.dev.imgs = [] ∧ s.dev.flag (CAN_CHc_CTL_CMT 0) = false) ∧
    (let s := canS 7 stInteg canListen
     s.dev.canState 7 = stInteg ∧ s.dev.canMode 7 = canListen ∧ s.dev.imgs = [] ∧ s.dev.flag (CAN_CHc_CTL_CMT 7) = false) ∧
    (256 ≤ (canS 1 stInteg canNormal [(CAN_CHc_ERRC_TEC 1, 256)]).dev.get (CAN_CHc_ERRC_TEC 1) ∧
      128 ≤ (canS 1 stInteg canNormal [(CAN_CHc_ERRC_REC 1, 128)]).dev.get (CAN_CHc_ERRC_REC 1)) ∧
    (let s := on (canS 7 stListen canListen) fun d => d
     s.dev.canState 7 = stListen ∧ (4 : Nat) < 5 ∧ ((canF true).fdf = true ∧ s.dev.flag (CAN_CHc_CFG_ACT_FDEN 7) = true)) := by decide +kernel

theorem test_wit_PairLinkRows_notices :
    (let s := pairS .mirror 2 2
     (77 : BitVec 16).toNat % 1024 ∈ [77, 165, 175] ∧ (175 : BitVec 16).toNat % 1024 ∈ [77, 165, 175] ∧ s.dev.role = roleStandby ∧
       s.dev.dst = .mirror ∧ s.dev.pstate = psMirrored) ∧
    (let s := on (pairS .run 1 2) fun d => { d with flt := { d.flt with silentUntil := 1000001 } }
     s.clk.ns < s.dev.flt.silentUntil) ∧
    (let r : MirrorRec := { brand := mkBrand 0 0 0xF6 0 0 0, words := [2 ^ 40] }
     brandType r.brand = 0x76 ∧ (pairS .mirror 2 2).clk.ns < r.timeNs) ∧
    (let s := pairS .run 1 4 [(PAIR_STAT_MISS, 2)]
     s.dev.pstate = psLost ∧ ¬ (s.dev.role = roleStandby) ∧ min 15 (s.dev.get PAIR_STAT_MISS + 1) = 3) ∧
    (let s := on (pairS .mirror 2 2 [(PAIR_STAT_MISS, 2)]) fun d =>
       { d with work := [{ id := 0xFFFF5, opc := 0x811, unit := 0x60, promise := 9, src := 0 }] }
     s.dev.work ≠ [] ∧ s.dev.pair.beat < (s.clk.ns - 1000) / 2000) := by decide
theorem test_wit_PairRequestAndForcingRows_limits :
    (let s := on (pairS .mirror 2 2 [(PAIR_CFG_RBPER, 500), (PAIR_CFG_RBLIM, 1), (SAFE_Gg_STAT_STATE 0, 3)]) fun d =>
       d.setLane 0 { d.lane 0 with state := .armed }
     s.dev.get PAIR_CFG_RBLIM ≤ min 15 (s.dev.get PAIR_STAT_RBRUN + 1) ∧ s.dev.flt.active = [] ∧
       ∃ p ∈ s.dev.shadowLines 1000000, (2 ^ 200 - 1).testBit p.1 ≠ p.2) ∧
    (let s := on (pairS .mirror 2 1) fun d => { d with pair := { d.pair with join := some (1000001, 7) } }
     s.dev.pair.join = some (1000001, 7) ∧ s.clk.ns < 1000001) ∧
    (let s := on (pairS .run 1 2) fun d => { d with pair := { d.pair with held := [(15, 65535)] } }
     (15, 65535) ∈ s.dev.pair.held) ∧ (on U fun d => { d with pforce := true }).dev.pforce = true := by decide

/-! Witnesses: clauses on waiting responses, held writes, program words, and the chain, CAN and pair rows. -/

/-- A response of a mailbox the link serves, one behind 16 filled entries, one with room. -/
theorem test_wit_ResponseOccupiesOneEntry_queues :
    ((mk .run 0 [(MBX_ROUTE_ROUTE, 0x8000)]).dev.get MBX_ROUTE_ROUTE).testBit 15 = true ∧
    (let s := mk .run 0 [(MBX_Mm_STAT_RCOUNT 0, 16)]
     (s.dev.get MBX_ROUTE_ROUTE).testBit 0 = false ∧ 16 ≤ s.dev.get (MBX_Mm_STAT_RCOUNT 0)) ∧
    (let s := mk .run 0 [(MBX_Mm_STAT_RCOUNT 0, 15), (MBX_Mm_STAT_RHEAD 0, 15)]
     s.dev.get (MBX_Mm_STAT_RCOUNT 0) < 16 ∧ s.dev.role ≠ roleActive) := by decide

/-- A READ while a write of lane 23's block is held, and one while none is. -/
theorem test_wit_HostPortAccesses_held :
    (let s := on U fun d => d.setPwmX 23 { d.pwmX 23 with lockUntil := 2000000, held := [((PWM_Lnn_DT_DT 23).addr, 5)] }
     ((s.dev.locksEnd s.clk).hpiStart).writesHeld = true) ∧
    ((U.dev.locksEnd U.clk).hpiStart.writesHeld = false ∧ anyUnmapped (0x40000050 : W32).toNat 1 = false) := by decide +kernel

/-- A register read block for chain address 5, from address 7. -/
theorem test_wit_HostPortAccesses_block :
    let s := mk .run 1000000 [(CHAIN_STAT_ADDR, 5)]
    let b : RuoriBlock := { brand := mkBrand 5 0xFE 0x6A 0 0 0, words := [0x0000002040000001] }
    brandType b.brand = 0x6A ∧ s.dev.blockMine (brandAddr b.brand) = true ∧ unitValid (brandUnit b.brand) = true ∧
      (s.dev.seqCheck ((7 : BitVec 8).toNat + 1) b).1 = true ∧ bits64 (b.word 1) 32 6 ≤ 32 ∧ bits64 (b.word 1) 0 32 % 4 ≠ 0 := by decide +kernel

/-- The program words of engine 0: none of a command, another command's, a word beyond correction, the PC past the end. -/
theorem test_wit_ShExceptionsTaken_words :
    let word (w : Nat) : State := on (sh vendor b0) fun d => { d with mem := (List.range 4).map fun n => (progAddr 0 0 + n, BitVec.ofNat 8 (w / 256 ^ n)) }
    (((word 0x90000000).dev.fetched 0 0 (.shNop 0)).isNone = true ∧ (word 0x90000000).dev.eccMask (progAddr 0 0) = 0) ∧
    ((shAt vendor b0 (.shRet 0)).dev.fetched 0 0 (.shNop 0) = some false) ∧
    ((on (sh vendor b0) fun d => d.setEcc (progAddr 0 0) 3).dev.badProg 0 0 (.shNop 0) = some 0) ∧
    (shLong (.shLdi 0 3 0 7) = true ∧ (on (sh vendor { pc := 4 }) fun d => d.setEcc (progAddr 0 8) 3).dev.badProg 0 4 (.shLdi 0 3 0 7) = some 8) := by
  decide +kernel

/-- BRK with and without a debug session. -/
theorem test_wit_ShSystemRows_debug :
    ((sh vendor b0).dev.engine 0).debug = false ∧
    (let s := on (sh vendor b0) fun d => d.setEngine 0 { d.engine 0 with debug := true }
     (s.dev.engine 0).debug = true ∧ (s.dev.engX 0).run = some vendor ∧ (s.dev.engine 0).halted = false) := by decide

/-- A unit that the last edge brought closer than 24 ns, one that lies beyond, and a source port that is off. -/
theorem test_wit_StrideAndCommandInputRows_close :
    (let s := on (mk .run 1000000 [(STR_s_N_ACT_N 0, 1), (STR_s_M_ACT_M 0, 1), (FBK_nn_CFG_ACT_MODE 0, 1)]) fun d =>
       d.setStrX 0 { run := true, seg := some (0, 2 ^ 32, 900000, 950000) }
     s.dev.portRuns (s.dev.get (STR_s_CFG_ACT_SRC 0)) = true ∧ (s.dev.strX 0).pend = [] ∧
       ((s.dev.strAhead 0).any fun p => p.extrap && decide (p.t + 2 ≤ s.clk.ns + 24)) = true ∧ (s.dev.strX 0).lastAt = none) ∧
    (let s := on (mk .run 1000000 [(FBK_nn_CFG_ACT_MODE 0, 1)]) fun d => d.setStrX 7 { pend := [{ u := 1, fwd := true, t := 1000024, extrap := false }] }
     s.dev.portRuns (s.dev.get (STR_s_CFG_ACT_SRC 7)) = true ∧ s.dev.strAhead 7 = none ∧ 1000024 ≤ s.clk.ns + 24) ∧
    U.dev.portRuns (U.dev.get (STR_s_CFG_ACT_SRC 7)) = false := by decide +kernel

/-- Erroneous Syncs: too short; one-step and two-step ones with an FCS error; a sound one with an erroneous Follow_Up. -/
theorem test_wit_TimeServoRows_bad :
    (let f : EthFrame := { ptpF 0 false with bytes := (ptpF 0 false).bytes.take 20 }
     isPtp f = true ∧ ptpType f = 0 ∧ ptpTwoStep f = false ∧ lengthOk f = false) ∧
    (isPtp (ptpF 0 true) = true ∧ ptpTwoStep (ptpF 0 true) = false ∧ lengthOk (ptpF 0 true) = true ∧ (ptpF 0 true).bad = true) ∧
    (ptpTwoStep { twoF with bad := true } = true ∧ lengthOk twoF = true) ∧ (ptpTwoStep twoF = true ∧ (ptpF 8 true).bad = true) ∧
    (let s := linked [(CHAIN_STAT_CAP1, 1)]
     s.dev.flag (chLink 1) = true ∧ s.dev.flag (chCap 1) = true ∧ s.dev.chBusy s.clk 0 = false ∧ s.dev.chGuarded s.clk 0 = false) := by decide +kernel

/-- Identity blocks at a controller: fresh with and without an enumeration in progress, and stale. -/
theorem test_wit_ChainRows_identity :
    let s := mk .run 1000000 [(CHAIN_STAT_CTRL, 1)]
    let b : RuoriBlock := { brand := mkBrand 2 0xFE 0x6D 0 0 0, words := List.replicate 8 0 }
    s.dev.flag CHAIN_STAT_CTRL = true ∧ brandKind b.brand = 0x6D ∧ b.words.length = 8 ∧ (s.dev.seqCheck 3 b).1 = true ∧ s.dev.chain.enum = none ∧
    bits64 (b.words.getD 1 0) 9 1 = 0 ∧ ((on s fun d => { d with chain := { d.chain with enum := some (7, 2000000) } }).dev.chain.enum.isSome = true) ∧
    (let s1 := on s fun d => (d.seqCheck 3 b).2
     (s1.dev.seqCheck 3 b).1 = false) := by decide +kernel

/-- An overload frame, and an error in LISTEN. -/
theorem test_wit_CanRows_overload :
    let k : CanErr := { kind := 6, tx := false, primary := false, exempt := false }
    k.kind.val = 6 ∧ k.tdcv = none ∧ canOnBus ((canS 7 stActive canNormal).dev.canState 7) = true ∧
      ({ k with kind := 4 } : CanErr).kind.val < 5 ∧ (canS 7 stListen canListen).dev.canState 7 = stListen := by decide

/-- Good and bad frames of the pair link, a record of configuration for a later instant, and one of a profile. -/
theorem test_wit_PairLinkRows_frames :
    (let h : W64 := 0x100
     let f : LinkFrame := { header := h, words := [7] }
     f.words.length = bits64 f.header 8 8 ∧ f.words.length ≤ 64 ∧ (BitVec.ofNat 64 (crcWords (h :: [7]))).toNat = crcWords (f.header :: f.words) ∧
       (0 : W64).toNat ≠ crcWords (f.header :: f.words)) ∧
    (let r : MirrorRec := { brand := mkBrand 0 0xFE 0xF6 0 0 0, words := [2000000, 0, 1, pr (PWM_Lnn_DT_DT 0) 5] }
     brandType r.brand = 0x76 ∧ (pairS .mirror 2 1).clk.ns < r.timeNs ∧ ((recPairs r).all fun x => isProfile x.1) = false ∧
       (pairS .mirror 2 1).dev.follows = true) := by decide +kernel

/-- Decisions of the active: an ACCEPT of lane.stop, its DONE, and an ACCEPT that stays the only response. -/
theorem test_wit_PairRequestAndForcingRows_decisions :
    let w3 (opc rt : Nat) : W64 := BitVec.ofNat 64 (opc + rt * 2 ^ 16 + 5 * 2 ^ 32)
    (bits64 (w3 0x0104 0) 16 2 = 0 ∧ onlyAccepted.contains (bits64 (w3 0x0104 0) 0 16) = false ∧ bits64 (w3 0x0104 0) 0 16 ≠ 0x0212) ∧
    bits64 (w3 0x0104 2) 16 2 ≠ 0 ∧ onlyAccepted.contains (bits64 (w3 0x0005 0) 0 16) = true ∧ (pairS .mirror 2 2).dev.follows = true := by decide

/-- A FIELD gate whose data came too late. -/
theorem test_wit_GateFirings_late :
    let s := on (gate 236 4 0x6D 3 1000) fun d => d.setGateX 239 { dataAt := some 1000 }
    let fire := s.dev.gateFire s.clk 236
    due s 236 4 = true ∧ s.dev.get (GATE_GTnnn_CFG_ACT_SUB 236) = 3 ∧ (fire.gateX 239).dataAt = some 1000 ∧ 1000 < 1000 + fire.margin := by decide +kernel

/-! Ill-formed terms: one for each check of WellFormed. -/

theorem test_wf_requests :
    (Instr.sysRun { rq 0xFE with payload := List.replicate 60 0 }).wf = false ∧ (Instr.sysRun { rq 0xFE with launch := 1 }).wf = false ∧
    (Instr.sysRun { rq 0xFE with asap := false, launch := 2 ^ 64 }).wf = false ∧ (Instr.sysRun { rq 0xFE with dl := 2 ^ 32 }).wf = false ∧
    (Instr.sysRun { rq 0xFE with payload := List.replicate 59 0 }).wf = true := by decide
theorem test_wf_frames :
    (Instr.canFrameReceived 0 { wakeFrame with id := 0x800 } 0).wf = false ∧ (Instr.canWakeFrame 0 { wakeFrame with brs := true }).wf = false ∧
    (Instr.canFrameReceived 0 { wakeFrame with fdf := true, rtr := true } 0).wf = false ∧ (Instr.canFrameReceived 0 { wakeFrame with dlc := 1 } 0).wf = false ∧
    (Instr.forward 0 { bytes := List.replicate 59 0, bad := false }).wf = false ∧ (Instr.forward 0 { bytes := List.replicate 1519 0, bad := true }).wf = false ∧
    (Instr.mirrorRecord { brand := 0, words := List.replicate 189 0 }).wf = false ∧ (Instr.snapshot [{ brand := 0, words := [], errs := [(1, 0)] }]).wf = false ∧
    (Instr.pairLinkFrame 0 { header := 0, words := List.replicate 65 0 }).wf = false ∧ (Instr.serialFrame 0 { bits := 2 ^ 64, answered := true, stuck := false }).wf = false ∧
    (Instr.bootFailure 7).wf = false ∧ (Instr.requestHold 0 [0]).wf = false ∧ (Instr.decision 0 []).wf = false ∧
    (Instr.readbackCompare (2 ^ 180)).wf = false ∧ (Instr.canWakeFrame 0 wakeFrame).wf = true := by decide
theorem test_wf_shosto :
    (Instr.shShli 0 1 2 64).wf = false ∧ (Instr.shExtl 0 0 1 0).wf = false ∧ (Instr.shLdal 0 0 3 0).wf = false ∧ (Instr.shLdL 0 (.base 0) 1 0).wf = false ∧
    (Instr.shLda 0 (.base 0) 2 0).wf = false ∧ (Instr.shBcc 0 12 0).wf = false ∧ (Instr.shLoop 0 1 0).wf = false ∧ (Instr.shMfs 0 0 8 0).wf = false ∧
    (Instr.shTimr 0 1 0 0).wf = false ∧ (Instr.shSend 0 0 0 0).wf = false ∧ (Instr.shSend 0 0 0 9).wf = false ∧ (Instr.shBcc 0 11 0).wf = true := by decide

/-! Words of Shosto, written bit by bit from R339 to R341. -/

theorem test_sh_words :
    decodeSh 0 0b0000_000000_00011_00001_00010_0000000 0 = some (.shAdd 0 3 1 2) ∧ decodeSh 0 0b0000_000000_00011_00001_00010_0000001 0 = none ∧
    decodeSh 0 0b0000_010000_00011_00001_00010_0000000 0 = some (.shDivu 0 3 1 2) ∧
    decodeSh 0 0b0001_0000_00011_00001_11111111111111 0 = some (.shAddi 0 3 1 0x3FFF) ∧
    decodeSh 0 0b0010_0001_1_00001_00010_10_00000000000 0 = some (.shMac 0 1 1 2 2) ∧
    decodeSh 0 0b0011_1_00110_00111_01_000000000000000 0 = some (.shTap 0 1 6 7 1) ∧
    decodeSh 0 0b0100_0001_0_00101_011111_000000000000 0 = some (.shExt 0 0 5 31) ∧
    decodeSh 0 0b0101_001_10_00100_00101_01_00000001000 0 = some (.shLdL 0 (.circ 1 8) 4 5) ∧
    decodeSh 0 0b0101_000_11_00100_00101_00110_00000000 0 = some (.shLdW 0 (.index 6) 4 5) ∧
    decodeSh 0 0b0110_0001_111111111111111111111111 0 = some (.shBcc 0 1 0xFFFFFF) ∧
    decodeSh 0 0b0110_1110_000000000000000000000010 0 = some (.shCall 0 2) ∧ decodeSh 0 0x6F000001 0 = none ∧
    decodeSh 0 0b0111_0010_000000000100_000000000000 0 = some (.shRep 0 4) ∧ decodeSh 0 0x71000000 0 = some (.shEnd 0) ∧
    decodeSh 0 0b1000_0000_00001_00111_0000_0000000000 0 = some (.shMfs 0 1 7 0) ∧
    decodeSh 0 0b1111_0000_00110_00000_00000000000000 0xE10C = some (.shLdi 0 6 0 0xE10C) ∧ decodeSh 0 0x90000000 0 = none := by decide

/-! Figures of the spec's worked examples. -/

/-- 19, after R544: the check byte of 0x8000000000000003, a flip of data bit 1, of bits 0 and 1, of C6. -/
theorem test_ecc_example :
    eccCheck 0x8000000000000003 = 0x5B ∧ ((eccRead 0x8000000000000003 2).syn = 0x0B ∧ (eccRead 0x8000000000000003 2).data = 0x8000000000000003) ∧
    ((eccRead 0x8000000000000003 3).syn = 0x0C ∧ (eccRead 0x8000000000000003 3).bad = true) ∧
    ((eccRead 0x8000000000000003 (2 ^ 70)).syn = 0x40 ∧ (eccRead 0x8000000000000003 (2 ^ 70)).data = 0x8000000000000003) := by decide +kernel

/-- 04, after R112: sinc3, OSR 16, A = 2,560, OFFS = 0x00100000, GAIN = 0x1999999A give 0x19800000. -/
theorem test_dsf_example : dsfValue 3 16 2560 0x00100000 0x1999999A = (0x19800000, false) := by decide +kernel

/-- 12, the request of the worked example: words 0 and 3 read as R371 lays them out. -/
theorem test_request_example :
    brandUnit 0x0072E00000110000 = 0x72 ∧ brandKind 0x0072E00000110000 = 0xE0 ∧ brandSeq 0x0072E00000110000 = 0x11 ∧
    reqSeq [0x0072E00000110000, 0x000000012A05F200, 0, 0x001E848028020200, 0x450000, 0, 0] = 0x11 ∧
    (0x450000 : Nat) = 4521984 := by decide

/-- The check value of CRC-32C (R368): the digits 1 to 9 in ASCII. -/
theorem test_crc32c : crc32c [0x31, 0x32, 0x33, 0x34, 0x35, 0x36, 0x37, 0x38, 0x39] = 0xE3069283 := by decide +kernel

/-! One step each: a one-shot MARK gate (R67), sys.run (R39), a rise of A with B low (R142), an ADD that wraps (R340). -/

theorem test_mark_disarms : (match exec (.gateMark 0) (gate 0 0 0 0 1000) with
    | .next t => !t.dev.flag (GATE_GTnnn_CTL_ARMED 0) && decide ((t.dev.gateX 0).fired = 1000)
    | _ => false) = true := by decide +kernel
theorem test_sys_run : (match exec (.sysRun (rq 0xFE)) (mk .ready 9) with
    | .next t => decide (t.dev.dst = .run)
    | _ => false) = true := by decide +kernel
theorem test_quadrature_counts : (match exec (.quadratureEdge 0 true false) (port 0 1) with
    | .next t => decide ((t.dev.fbkX 0).count = 1)
    | _ => false) = true := by decide +kernel
theorem test_sh_add_wraps : (match exec (.shAdd 0 3 1 2) (shAt vendor b0 (.shAdd 0 3 1 2)) with
    | .next t => decide (((t.dev.engine 0).bank false).xr 3 = 0) && ((t.dev.engine 0).bank false).c && ((t.dev.engine 0).bank false).z
    | _ => false) = true := by decide +kernel

end Sys2Proof.Tests
end

/-! PROOFS. Register operations: one-bit fields, frames of registers, and copies of a staged group into force (R13, R15). -/

namespace Sys2Proof.Machine

section Registers

variable {d d' e : Dev} {f g : Field} {a b k : Nat} {w : W32} {x : Bool} {p q : Nat → Prop} {ps qs : List (Nat × Nat)}

/-! One-bit fields. -/

/-- The field is one bit of a 32-bit word. -/
def Field.IsBit (f : Field) : Prop := f.width = 1 ∧ f.lo < 32

/-- Two fields share no bit. -/
def Field.Apart (f g : Field) : Prop := f.addr ≠ g.addr ∨ f.lo + f.width ≤ g.lo ∨ g.lo + g.width ≤ f.lo

theorem Field.isBit (h : k < 32) : Field.IsBit ⟨a, k, 1⟩ := ⟨rfl, h⟩

/-- Bits at different places of their words are apart. -/
theorem Field.apart_bits {m n : Nat} (h : m ≠ n) : Field.Apart ⟨a, m, 1⟩ ⟨b, n, 1⟩ := by
  rcases Nat.lt_or_gt_of_ne h with h | h
  · exact .inr (.inl h)
  · exact .inr (.inr h)

theorem Field.bitPair {m n : Nat} (h : m < 32 ∧ n < 32 ∧ n ≠ m) :
    Field.IsBit ⟨a, m, 1⟩ ∧ Field.IsBit ⟨b, n, 1⟩ ∧ Field.Apart ⟨b, n, 1⟩ ⟨a, m, 1⟩ :=
  ⟨isBit h.1, isBit h.2.1, apart_bits h.2.2⟩

theorem Dev.get_congr (h : d.reg f.addr = d'.reg f.addr) : d.get f = d'.get f := by rw [Dev.get, Dev.get, h]

theorem Dev.flag_congr (h : d.reg f.addr = d'.reg f.addr) : d.flag f = d'.flag f := by rw [Dev.flag, Dev.flag, Dev.get_congr h]

/-- A one-bit field reads the truth value it was set to. -/
theorem Dev.flag_setf_self (hf : f.IsBit) : (d.setf f x).flag f = x := by
  obtain ⟨hw, hlo⟩ := hf
  rw [Dev.flag, Dev.setf, Dev.get_put_self (by omega), hw]
  cases x <;> rfl

theorem Dev.flag_put_apart {v : Nat} (hf : f.lo + f.width ≤ 32) (h : f.Apart g) : (d.put f v).flag g = d.flag g := by
  have hget : (d.put f v).get g = d.get g := by
    rcases h with h | h | h
    · exact Dev.get_put_ne h
    · exact Dev.get_put_disjoint hf (.inr h)
    · exact Dev.get_put_disjoint hf (.inl h)
  rw [Dev.flag, hget, Dev.flag]

/-- Setting a one-bit field leaves every field that shares no bit with it. -/
theorem Dev.flag_setf_apart (hf : f.IsBit) (h : f.Apart g) : (d.setf f x).flag g = d.flag g :=
  Dev.flag_put_apart (by have := hf.1; have := hf.2; omega) h

theorem Dev.reg_setf_ne (h : f.addr ≠ a) : (d.setf f x).reg a = d.reg a := Dev.reg_put_ne h

/-! Frames of registers. -/

theorem OnlyRegs.refl : OnlyRegs p d d := ⟨fun _ _ => rfl, rfl⟩

theorem OnlyRegs.mono (hpq : ∀ a, p a → q a) (h : OnlyRegs p d e) : OnlyRegs q d e :=
  ⟨fun a ha => h.1 a fun hp => ha (hpq a hp), h.2⟩

theorem OnlyRegs.trans (h : OnlyRegs p d d') (h' : OnlyRegs p d' e) : OnlyRegs p d e := by
  obtain ⟨hk, hd⟩ := h
  obtain ⟨hk', he⟩ := h'
  exact ⟨fun a ha => (hk' a ha).trans (hk a ha), by rw [he, hd]⟩

theorem OnlyRegs.setReg (h : p a) : OnlyRegs p d (d.setReg a w) :=
  ⟨fun _ hb => Dev.reg_setReg_ne fun hab => hb (hab ▸ h), rfl⟩

theorem OnlyRegs.put {v : Nat} (h : p f.addr) : OnlyRegs p d (d.put f v) := OnlyRegs.setReg h

theorem OnlyRegs.setf (h : p f.addr) : OnlyRegs p d (d.setf f x) := OnlyRegs.put h

/-! Copies (R15). -/

theorem Dev.copyRegs_cons {r : Nat × Nat} : d.copyRegs (r :: ps) = (d.setReg r.2 (d.reg r.1)).copyRegs ps := rfl

theorem Dev.copyRegs_append : d.copyRegs (ps ++ qs) = (d.copyRegs ps).copyRegs qs := List.foldl_append

/-- A copy changes no register but its targets, and nothing beside registers. -/
theorem OnlyRegs.copyRegs (h : ∀ r ∈ ps, p r.2) : OnlyRegs p d (d.copyRegs ps) := by
  induction ps generalizing d with
  | nil => exact .refl
  | cons r ps ih =>
    have hr : OnlyRegs p d (d.setReg r.2 (d.reg r.1)) := .setReg (h r (by simp))
    exact hr.trans (ih fun s hs => h s (by simp [hs]))

theorem Dev.copyRegs_eq : d.copyRegs ps = { d with regs := (d.copyRegs ps).regs } :=
  (OnlyRegs.copyRegs (p := fun _ => True) fun _ _ => trivial).2

theorem Dev.copyRegs_regs_congr (h : d.regs = d'.regs) : (d.copyRegs ps).regs = (d'.copyRegs ps).regs := by
  induction ps generalizing d d' with
  | nil => exact h
  | cons r ps ih =>
    refine ih ?_
    show d.regs.set resetVal r.2 (d.regs.get resetVal r.1) = d'.regs.set resetVal r.2 (d'.regs.get resetVal r.1)
    rw [h]

theorem Dev.reg_copyRegs_ne (h : ∀ r ∈ ps, r.2 ≠ a) : (d.copyRegs ps).reg a = d.reg a :=
  (OnlyRegs.copyRegs (p := (· ≠ a)) h).1 a fun hn => hn rfl

/-- The copy of a pair whose source is no target and whose target has one source: the target reads what the source read. -/
theorem Dev.reg_copyRegs (hab : (a, b) ∈ ps) (hsrc : ∀ r ∈ ps, r.2 ≠ a) (hone : ∀ r ∈ ps, r.2 = b → r.1 = a) :
    (d.copyRegs ps).reg b = d.reg a := by
  induction ps generalizing d with
  | nil => simp at hab
  | cons r ps ih =>
    have hra : r.2 ≠ a := hsrc r (by simp)
    rw [Dev.copyRegs_cons]
    by_cases hmem : (a, b) ∈ ps
    · rw [ih hmem (fun s hs => hsrc s (by simp [hs])) (fun s hs => hone s (by simp [hs])), Dev.reg_setReg_ne hra]
    · have hr : r = (a, b) := ((List.mem_cons.mp hab).resolve_right hmem).symm
      have hrest : ∀ s ∈ ps, s.2 ≠ b := fun s hs hsb =>
        hmem (by rw [← hone s (by simp [hs]) hsb, ← hsb]; exact hs)
      rw [Dev.reg_copyRegs_ne hrest, hr, Dev.reg_setReg_self]

/-- A copy of registers to their in-force views, a fixed distance on, none of which is a source. -/
theorem Dev.reg_copyRegs_shift (hk : ∀ r ∈ ps, r.2 = r.1 + k) (hsrc : ∀ r ∈ ps, r.2 ≠ a) (ha : (a, a + k) ∈ ps) :
    (d.copyRegs ps).reg (a + k) = d.reg a :=
  Dev.reg_copyRegs ha hsrc fun r hr h => by have := hk r hr; omega

end Registers

/-! PROOFS. Rows that act while the device serves: their next state, a flag noted, a group rejected (R15, R39). -/

section Rows

variable {s : State} {i : Instr} {f g : Field} {d : Dev} {h : Clock → Dev → Dev}

theorem State.onServing_eq (hs : s.dev.dst.serves = true) : s.onServing h = { s with dev := h s.clk s.dev } := by
  rw [State.onServing, if_pos hs, State.onDev]

/-- The next state of a row that acts while the device serves. -/
theorem exec_serving (hs : s.dev.dst.serves = true) (hx : exec i s = .next (s.onServing h)) :
    exec i s = .next { s with dev := h s.clk s.dev } := by rw [hx, State.onServing_eq hs]

/-- A row that acts while the device serves does nothing in another state (R39). -/
theorem exec_silent (hs : s.dev.dst.serves = false) (hx : exec i s = .next (s.onServing h)) : exec i s = .next s := by
  rw [hx, State.onServing_off hs]

/-- The row sets flag f and changes no other register of d, the device with its note of the commit. -/
def Notes (s : State) (i : Instr) (f : Field) (d : Dev) : Prop :=
  ∃ t, exec i s = .next t ∧ t.dev.flag f = true ∧ t.clk = s.clk ∧ t.pending = s.pending ∧ OnlyRegs (· = f.addr) d t.dev

theorem Notes.of_exec (hf : f.IsBit) (hx : exec i s = .next { s with dev := d.setf f }) : Notes s i f d :=
  ⟨_, hx, Dev.flag_setf_self hf, rfl, rfl, .setf rfl⟩

/-- A row that sets flag f whenever the device serves. -/
theorem Notes.of_serving (hs : s.dev.dst.serves = true) (hf : f.IsBit) (hx : exec i s = .next (s.onServing fun _ d => d.setf f)) :
    Notes s i f s.dev := .of_exec hf (exec_serving hs hx)

/-- The row clears its commit flag, sets flag g, and changes nothing else. -/
def Rejects (s : State) (i : Instr) (f g : Field) : Prop :=
  ∃ t, exec i s = .next t ∧ t.dev.flag f = false ∧ t.dev.flag g = true ∧ t.clk = s.clk ∧ t.pending = s.pending ∧
    OnlyRegs (fun a => a = f.addr ∨ a = g.addr) s.dev t.dev

theorem Rejects.of_exec (hfg : f.IsBit ∧ g.IsBit ∧ g.Apart f)
    (hx : exec i s = .next { s with dev := (s.dev.setf f false).setf g }) : Rejects s i f g :=
  have ⟨hf, hg, hfg⟩ := hfg
  ⟨_, hx, (Dev.flag_setf_apart hg hfg).trans (Dev.flag_setf_self hf), Dev.flag_setf_self hg, rfl, rfl,
    (OnlyRegs.setf (.inl rfl)).trans (.setf (.inr rfl))⟩

end Rows

end Sys2Proof.Machine

/-! PROOFS. The first read of a multi-word value (R7, R57, R154, R160, R234, R290, R370). -/

namespace Sys2Proof.Machine

section FirstReads

variable {s : State} {i : Instr} {d : Dev} {a : Nat} {as : List Nat}

theorem Dev.latchRegs_cons {k : Nat} :
    d.latchRegs (k :: as) = Dev.latchRegs { d with latch := d.latch.set (fun _ => none) k (some (d.reg k)) } as := rfl

/-- Latching registers changes the latches alone. -/
theorem Dev.latchRegs_eq : d.latchRegs as = { d with latch := (d.latchRegs as).latch } := by
  induction as generalizing d with
  | nil => rfl
  | cons k as ih => rw [Dev.latchRegs_cons, ih]

/-- A register in the list is latched with the value it has now; every other latch stays. -/
theorem Dev.latchRegs_get :
    (d.latchRegs as).latch.get (fun _ => none) a = if a ∈ as then some (d.reg a) else d.latch.get (fun _ => none) a := by
  induction as generalizing d with
  | nil => rfl
  | cons k as ih =>
    have hreg : Dev.reg { d with latch := d.latch.set (fun _ => none) k (some (d.reg k)) } a = d.reg a := rfl
    rw [Dev.latchRegs_cons, ih, hreg, Tab.get_set]
    by_cases hk : k = a
    · simp [hk]
    · have hak : ¬ a = k := fun h => hk h.symm
      simp [hk, hak]

/-- A row that latches registers while the device serves holds for each its value of now, and changes no other latch and nothing else. -/
theorem latches_of_exec (hs : s.dev.dst.serves = true) (hx : exec i s = .next (s.onServing fun _ d => d.latchRegs as)) :
    ∃ t, exec i s = .next t ∧ t = { s with dev := { s.dev with latch := t.dev.latch } } ∧
      (∀ a ∈ as, t.dev.latch.get (fun _ => none) a = some (s.dev.reg a)) ∧
      ∀ a, a ∉ as → t.dev.latch.get (fun _ => none) a = s.dev.latch.get (fun _ => none) a := by
  refine ⟨_, exec_serving hs hx, ?_, fun a ha => ?_, fun a ha => ?_⟩
  · show State.mk _ _ _ = _
    rw [Dev.latchRegs_eq]
  · rw [Dev.latchRegs_get, if_pos ha]
  · rw [Dev.latchRegs_get, if_neg ha]

/-- A read of TIME_NOW_LO shows the time of record in the three registers (R57). -/
theorem timeNowLatch_shows (hs : s.dev.dst.serves = true) :
    ∃ t, exec .timeNowLatch s = .next t ∧ t.clk = s.clk ∧ t.dev.get TIME_NOW_LO_NS = s.clk.ns % 2 ^ 32 ∧
      t.dev.get TIME_NOW_HI_NS = s.clk.ns / 2 ^ 32 % 2 ^ 32 ∧ t.dev.get TIME_NOW_FRAC_FRAC = s.clk.tor / 2 ^ 32 % 2 ^ 16 ∧
      OnlyRegs (fun a => a = TIME_NOW_LO_NS.addr ∨ a = TIME_NOW_HI_NS.addr ∨ a = TIME_NOW_FRAC_FRAC.addr) s.dev t.dev := by
  refine ⟨_, exec_serving hs rfl, rfl, ?_, ?_, ?_, ?_⟩
  · rw [Dev.latchNow, Dev.get_put_ne (by decide), Dev.get_put_ne (by decide), Dev.get_put_self (by decide)]
    rfl
  · rw [Dev.latchNow, Dev.get_put_ne (by decide), Dev.get_put_self (by decide)]
    rfl
  · rw [Dev.latchNow, Dev.get_put_self (by decide), Clock.frac]
    exact Nat.mod_mod _ _
  · exact ((OnlyRegs.put (.inl rfl)).trans (.put (.inr (.inl rfl)))).trans (.put (.inr (.inr rfl)))

end FirstReads

end Sys2Proof.Machine

section
open Sys2Proof Sys2Proof.Machine

/-- Settles O26: a first read latches the listed registers and nothing else; TIME_NOW shows the time of record. -/
theorem firstReadsLatchTheRest : Obligations.FirstReadsLatchTheRest := by
  intro s hs latched
  exact ⟨timeNowLatch_shows hs, fun n => latches_of_exec hs rfl, fun p => latches_of_exec hs rfl, fun j => latches_of_exec hs rfl,
    fun m => latches_of_exec hs rfl, fun a => latches_of_exec hs rfl⟩

end

/-! PROOFS. Commits that wait for their unit's instant (R168, R198, R214, R215, R227, R266, R282, R426, R503). -/

namespace Sys2Proof.Machine

section WaitingCommits

variable {s : State} {at_ : Option Nat} {next now : Nat}

/-- The latch point of a commit has passed exactly where the commit was in time and the instant is less than 8 ns ahead (R215). -/
theorem latched_iff : latched at_ next now = true ↔ ∃ t, at_ = some t ∧ t + 8 ≤ next ∧ next < now + 8 := by
  cases at_ <;> simp [latched]

/-- PWM_COMMIT before the latch point is the commit of the coming reload (R214). -/
theorem pwmCommit_notes (hs : s.dev.dst.serves = true) (l : Fin 24)
    (hl : ¬ latched (s.dev.pwmX l).commitAt (s.dev.gateNext (48 + l)) s.clk.ns = true) :
    Notes s (.pwmCommit l) (PWM_Lnn_COMMIT_CMT l)
      (s.dev.setPwmX l { s.dev.pwmX l with commitAt := some s.clk.ns, commitSk := none, commitEpoch := none }) :=
  .of_exec (Field.isBit (by decide)) ((exec_serving hs rfl).trans (by rw [Dev.pwmCommit, if_neg hl]))

/-- PWM_COMMIT after the latch point is the commit of the reload after (R215). -/
theorem pwmCommit_notes_after (hs : s.dev.dst.serves = true) (l : Fin 24)
    (hl : latched (s.dev.pwmX l).commitAt (s.dev.gateNext (48 + l)) s.clk.ns = true) :
    Notes s (.pwmCommit l) (PWM_Lnn_COMMIT_CMT l) (s.dev.setPwmX l { s.dev.pwmX l with after := some (s.clk.ns, none, none) }) :=
  .of_exec (Field.isBit (by decide)) ((exec_serving hs rfl).trans (by rw [Dev.pwmCommit, if_pos hl]))

/-- STEPPER_COMMIT before the latch point is the commit of the coming carrier start (R227). -/
theorem stepperCommit_notes (hs : s.dev.dst.serves = true) (p : Fin 8)
    (hl : ¬ latched (s.dev.stpX p).commitAt (s.dev.gateNext (72 + p)) s.clk.ns = true) :
    Notes s (.stepperCommit p) (PWM_Ss_COMMIT_CMT p) (s.dev.setStpX p { s.dev.stpX p with commitAt := some s.clk.ns }) :=
  .of_exec (Field.isBit (by decide)) ((exec_serving hs rfl).trans (by rw [Dev.stpPending, if_neg hl]))

/-- STEPPER_COMMIT after the latch point is the commit of the carrier start after (R215, R227). -/
theorem stepperCommit_notes_after (hs : s.dev.dst.serves = true) (p : Fin 8)
    (hl : latched (s.dev.stpX p).commitAt (s.dev.gateNext (72 + p)) s.clk.ns = true) :
    Notes s (.stepperCommit p) (PWM_Ss_COMMIT_CMT p) (s.dev.setStpX p { s.dev.stpX p with after := some s.clk.ns }) :=
  .of_exec (Field.isBit (by decide)) ((exec_serving hs rfl).trans (by rw [Dev.stpPending, if_pos hl]))

/-- A staged group whose SRC names a port waits for that port's next LATCH gate (R168). -/
theorem strideCommit_notes (hs : s.dev.dst.serves = true) (p : Fin 8) (hp : s.dev.get (STR_s_CFG_SRC p) < 24) :
    Notes s (.strideCommit p) (STR_s_CTL_CMT p) s.dev :=
  .of_exec (Field.isBit (by decide)) ((exec_serving hs rfl).trans (by rw [if_pos hp]))

/-- A staged group with M = 0 whose SRC names no port sets ZERO (R172). -/
theorem strideCommit_zero (hs : s.dev.dst.serves = true) (p : Fin 8) (hp : 24 ≤ s.dev.get (STR_s_CFG_SRC p))
    (hz : s.dev.strZero p = true) : Notes s (.strideCommit p) (STR_s_CTL_ZERO p) s.dev :=
  .of_exec (Field.isBit (by decide)) ((exec_serving hs rfl).trans (by rw [if_neg (by omega), if_pos hz]))

/-- Any other staged group whose SRC names no port sets CONFLICT (R172). -/
theorem strideCommit_conflict (hs : s.dev.dst.serves = true) (p : Fin 8) (hp : 24 ≤ s.dev.get (STR_s_CFG_SRC p))
    (hz : s.dev.strZero p = false) : Notes s (.strideCommit p) (STR_s_CTL_CONFLICT p) s.dev :=
  .of_exec (Field.isBit (by decide)) ((exec_serving hs rfl).trans (by rw [if_neg (by omega), hz, if_neg Bool.false_ne_true]))

/-- CHAIN_COMMIT notes the first cycle instant after this one (R426). -/
theorem chainCommit_notes (hs : s.dev.dst.serves = true) :
    Notes s .chainCommit CHAIN_CTL_CMT
      { s.dev with chain := { s.dev.chain with cmtAt := some (s.dev.cycleAt (s.clk.ns + 1)) } } :=
  .of_exec (Field.isBit (by decide)) ((exec_serving hs rfl).trans rfl)

/-- The commit of a field channel waits for the next frame instant (R503). -/
theorem fioCommit_notes (hs : s.dev.dst.serves = true) (ch : Fin 32) (hc : ch.val < 24) :
    Notes s (.fioCommit ch) (FIO_CHcc_CTL_CMT ch) s.dev :=
  .of_exec (Field.isBit (by decide)) ((exec_serving hs rfl).trans (by rw [if_pos hc]))

/-- FIO24 to FIO31 have no frame instant (R503). -/
theorem fioCommit_safe (hs : s.dev.dst.serves = true) (ch : Fin 32) (hc : 24 ≤ ch.val) : exec (.fioCommit ch) s = .next s :=
  (exec_serving hs rfl).trans (by rw [if_neg (by omega)])

/-- A slot with trajectory instants commits at the next one (R266). -/
theorem trjCommit_notes (hs : s.dev.dst.serves = true) (a : Fin 64) (ha : s.dev.trajT a ≠ 0) :
    Notes s (.trjCommit a) (TRJ_AXaa_CTL_CMT a) s.dev :=
  .of_exec (Field.isBit (by decide)) ((exec_serving hs rfl).trans (by rw [if_neg ha]))

end WaitingCommits

end Sys2Proof.Machine

section
open Sys2Proof Sys2Proof.Machine

/-- Settles O28: each commit row notes its flag, by its own lemma; the latch point decides between the coming reload and the one after. -/
theorem commitsWaitForTheirInstant : Obligations.CommitsWaitForTheirInstant := by
  intro s hs noted inTime
  exact ⟨fun l => ⟨fun hl => pwmCommit_notes hs l (latched_iff.not.mpr hl), fun hl => pwmCommit_notes_after hs l (latched_iff.mpr hl)⟩,
    fun p => ⟨fun hl => stepperCommit_notes hs p (latched_iff.not.mpr hl), fun hl => stepperCommit_notes_after hs p (latched_iff.mpr hl)⟩,
    fun g => Notes.of_serving hs (Field.isBit (by decide)) rfl, fun n => Notes.of_serving hs (Field.isBit (by decide)) rfl,
    fun p => ⟨strideCommit_notes hs p, strideCommit_zero hs p, strideCommit_conflict hs p⟩,
    fun b => Notes.of_serving hs (Field.isBit (by decide)) rfl, chainCommit_notes hs,
    fioCommit_notes hs, fioCommit_safe hs, trjCommit_notes hs⟩

end

/-! PROOFS. A commit in force at once: the flag cleared, then the staged group copied (R15). -/

namespace Sys2Proof.Machine

section Copies

variable {d d' : Dev} {f : Field} {a k : Nat} {ps : List (Nat × Nat)}

theorem Dev.reg_congr (h : d.regs = d'.regs) : d.reg a = d'.reg a := by rw [Dev.reg, Dev.reg, h]

/-- Where a commit clears its flag and copies a group to its in-force views k on, each view reads what its staged register read. -/
theorem Dev.reg_commit (hf : f.addr ≠ a) (hk : ∀ r ∈ ps, r.2 = r.1 + k) (hsrc : ∀ r ∈ ps, r.2 ≠ a) (ha : (a, a + k) ∈ ps) :
    ((d.setf f false).copyRegs ps).reg (a + k) = d.reg a := by
  rw [Dev.reg_copyRegs_shift hk hsrc ha, Dev.reg_setf_ne hf]

/-- The flag stays clear under a copy that does not reach it. -/
theorem Dev.flag_commit (hf : f.IsBit) (hps : ∀ r ∈ ps, r.2 ≠ f.addr) : ((d.setf f false).copyRegs ps).flag f = false :=
  (Dev.flag_congr (Dev.reg_copyRegs_ne hps)).trans (Dev.flag_setf_self hf)

/-- Nothing beside registers differs. -/
theorem OnlyRegs.commit : OnlyRegs (fun _ => True) d ((d.setf f false).copyRegs ps) :=
  (OnlyRegs.setf trivial).trans (.copyRegs fun _ _ => trivial)

theorem OnlyRegs.state_eq {s : State} {p : Nat → Prop} (h : OnlyRegs p s.dev d) :
    ({ s with dev := d } : State) = { s with dev := { s.dev with regs := d.regs } } := by rw [← h.2]

end Copies

/-! PROOFS. The filters of a lane (R115, R116). -/

section FilterCommit

variable {s : State} {d : Dev} {c : Clock} {l k ch : Nat} {chs : List Nat}

/-- Staged registers of a channel and their in-force views (R115). -/
def dsfPairs (ch : Nat) : List (Nat × Nat) :=
  (List.range 5).map fun i => ((DSF_Cnn_CFG_EN ch).addr + 4 * i, (DSF_Cnn_CFG_EN ch).addr + 0x20 + 4 * i)

/-- What the commit notes of a channel: the restart of its bitstream, or the values its open windows still use (R115). -/
def Dev.dsfMark (d : Dev) (c : Clock) (ch : Nat) : DsfX :=
  let x := d.dsfX ch
  if d.dsfRestarts ch then { x with restart := c.ns, old := [], cmpOld := [] }
  else { x with
    old := (x.old.filter fun o => c.ns < o.1 + 2 * d.dsfLen ch) ++
      [(c.ns, d.reg (DSF_Cnn_OFFS_ACT_OFFS ch).addr, d.reg (DSF_Cnn_GAIN_ACT_GAIN ch).addr)]
    cmpOld := (x.cmpOld.filter fun o => c.ns < o.1 + 192 * d.dsfT ch) ++
      [(c.ns, d.reg (DSF_Cnn_CMP_ACT_CEN ch).addr, d.reg (DSF_Cnn_THR_ACT_HI ch).addr)] }

/-- One channel's part of an accepted commit (R115, R117). -/
def Dev.dsfTake (d : Dev) (c : Clock) (ch : Nat) : Dev :=
  let d1 := (d.setDsfX ch (d.dsfMark c ch)).copyRegs (dsfPairs ch)
  if d.differs (DSF_Cnn_CMP_CORD ch) (DSF_Cnn_CMP_ACT_CORD ch) || d.differs (DSF_Cnn_CMP_COSR ch) (DSF_Cnn_CMP_ACT_COSR ch)
  then d1.dsfIgnore ch else d1

/-- Channels taken one after the other. -/
def Dev.dsfTakes (d : Dev) (c : Clock) (chs : List Nat) : Dev := chs.foldl (fun d ch => d.dsfTake c ch) d

/-- A group that passes its checks is taken channel by channel. -/
theorem Dev.dsfCommit_eq (hz : d.dsfZero l = false) (hc : d.dsfConflict l (d.lane l).state = false) :
    d.dsfCommit c l = (d.setf (DSF_Lnn_CTL_CMT l) false).dsfTakes c ((List.range 3).map (3 * l + ·)) := by
  rw [Dev.dsfCommit, hz, hc]
  rfl

theorem mem_dsfPairs {r : Nat × Nat} :
    r ∈ dsfPairs ch ↔ ∃ i < 5, ((DSF_Cnn_CFG_EN ch).addr + 4 * i, (DSF_Cnn_CFG_EN ch).addr + 0x20 + 4 * i) = r := by
  simp [dsfPairs]

/-- Nothing but registers and the filters' own state differs. -/
def FilterFrame (d e : Dev) : Prop := e = { d with regs := e.regs, dsf := e.dsf }

theorem FilterFrame.trans {d d' e : Dev} (h : FilterFrame d d') (h' : FilterFrame d' e) : FilterFrame d e :=
  Eq.trans h' (by rw [h])

theorem FilterFrame.setDsfX {x : DsfX} : FilterFrame d (d.setDsfX k x) := rfl

theorem FilterFrame.setf {f : Field} {x : Bool} : FilterFrame d (d.setf f x) := rfl

theorem FilterFrame.copyRegs {ps : List (Nat × Nat)} : FilterFrame d (d.copyRegs ps) := by
  rw [FilterFrame, Dev.copyRegs_eq]

theorem Dev.dsfIgnore_regs : (d.dsfIgnore ch).regs = d.regs := rfl

theorem Dev.dsfTake_regs : (d.dsfTake c ch).regs = (d.copyRegs (dsfPairs ch)).regs := by
  have h : ((d.setDsfX ch (d.dsfMark c ch)).copyRegs (dsfPairs ch)).regs = (d.copyRegs (dsfPairs ch)).regs :=
    Dev.copyRegs_regs_congr Dev.setDsfX_regs
  unfold Dev.dsfTake
  split
  · rw [Dev.dsfIgnore_regs, h]
  · exact h

theorem Dev.dsfTake_frame : FilterFrame d (d.dsfTake c ch) := by
  unfold Dev.dsfTake
  split
  · exact (FilterFrame.setDsfX.trans .copyRegs).trans .setDsfX
  · exact FilterFrame.setDsfX.trans .copyRegs

theorem Dev.copyRegs_dsfX {ps : List (Nat × Nat)} : (d.copyRegs ps).dsfX k = d.dsfX k := by
  rw [Dev.copyRegs_eq]
  rfl

theorem Dev.dsfTake_dsfX_ne (h : ch ≠ k) : (d.dsfTake c ch).dsfX k = d.dsfX k := by
  have hcopy : ((d.setDsfX ch (d.dsfMark c ch)).copyRegs (dsfPairs ch)).dsfX k = d.dsfX k := by
    rw [Dev.copyRegs_dsfX, Dev.dsfX_setDsfX, if_neg h]
  unfold Dev.dsfTake
  split
  · rw [Dev.dsfIgnore, Dev.dsfX_setDsfX, if_neg h, hcopy]
  · exact hcopy

/-- A channel whose CFG changes restarts at the commit (R115). -/
theorem Dev.dsfTake_restart (h : d.dsfRestarts ch = true) : ((d.dsfTake c ch).dsfX ch).restart = c.ns := by
  have hcopy : (((d.setDsfX ch (d.dsfMark c ch)).copyRegs (dsfPairs ch)).dsfX ch).restart = c.ns := by
    rw [Dev.copyRegs_dsfX, Dev.dsfX_setDsfX_self, Dev.dsfMark, if_pos h]
  unfold Dev.dsfTake
  split
  · rw [Dev.dsfIgnore, Dev.dsfX_setDsfX_self]
    exact hcopy
  · exact hcopy

/-- Taking one channel leaves CFG of every other, staged and in force. -/
theorem Dev.dsfTake_restarts_ne (h : ch ≠ k) : (d.dsfTake c ch).dsfRestarts k = d.dsfRestarts k := by
  have hreg : ∀ a, (a = (DSF_Cnn_CFG_EN k).addr ∨ a = (DSF_Cnn_CFG_ACT_EN k).addr) → (d.dsfTake c ch).reg a = d.reg a := by
    intro a ha
    rw [Dev.reg_congr Dev.dsfTake_regs]
    refine Dev.reg_copyRegs_ne fun r hr => ?_
    obtain ⟨i, hi, rfl⟩ := mem_dsfPairs.mp hr
    simp only [DSF_Cnn_CFG_EN, DSF_Cnn_CFG_ACT_EN] at ha ⊢
    omega
  rw [Dev.dsfRestarts, hreg _ (.inl rfl), hreg _ (.inr rfl), Dev.dsfRestarts]

theorem Dev.dsfTakes_cons : d.dsfTakes c (ch :: chs) = (d.dsfTake c ch).dsfTakes c chs := rfl

theorem Dev.dsfTakes_regs : (d.dsfTakes c chs).regs = (d.copyRegs (chs.flatMap dsfPairs)).regs := by
  induction chs generalizing d with
  | nil => rfl
  | cons ch chs ih =>
    rw [Dev.dsfTakes_cons, ih, List.flatMap_cons, Dev.copyRegs_append]
    exact Dev.copyRegs_regs_congr Dev.dsfTake_regs

theorem Dev.dsfTakes_frame : FilterFrame d (d.dsfTakes c chs) := by
  induction chs generalizing d with
  | nil => rfl
  | cons ch chs ih => exact Dev.dsfTake_frame.trans ih

theorem Dev.dsfTakes_dsfX_ne (h : k ∉ chs) : (d.dsfTakes c chs).dsfX k = d.dsfX k := by
  induction chs generalizing d with
  | nil => rfl
  | cons ch chs ih =>
    obtain ⟨hch, hchs⟩ := (List.mem_cons.not.trans not_or).mp h
    rw [Dev.dsfTakes_cons, ih hchs, Dev.dsfTake_dsfX_ne fun he => hch he.symm]

theorem Dev.dsfTakes_restart (hk : k ∈ chs) (hn : chs.Nodup) (h : d.dsfRestarts k = true) :
    ((d.dsfTakes c chs).dsfX k).restart = c.ns := by
  induction chs generalizing d with
  | nil => simp at hk
  | cons ch chs ih =>
    obtain ⟨hch, hchs⟩ := List.nodup_cons.mp hn
    rw [Dev.dsfTakes_cons]
    by_cases he : ch = k
    · subst he
      rw [Dev.dsfTakes_dsfX_ne hch, Dev.dsfTake_restart h]
    · have hmem : k ∈ chs := (List.mem_cons.mp hk).resolve_left fun hx => he hx.symm
      exact ih hmem hchs ((Dev.dsfTake_restarts_ne he).trans h)

/-- An accepted DSF_COMMIT: the flag cleared, every in-force register of the three channels at its staged value, and a restart where CFG
changed (R115). -/
theorem dsfCommit_accepts (hs : s.dev.dst.serves = true) (l : Fin 24) (hz : s.dev.dsfZero l = false)
    (hc : s.dev.dsfConflict l (s.dev.lane l).state = false) :
    ∃ t, exec (.dsfCommit l) s = .next t ∧ t.dev.flag (DSF_Lnn_CTL_CMT l) = false ∧
      t = { s with dev := { s.dev with regs := t.dev.regs, dsf := t.dev.dsf } } ∧
      (∀ i < 3, ∀ k < 5, t.dev.reg ((DSF_Cnn_CFG_EN (3 * l + i)).addr + 0x20 + 4 * k) =
        s.dev.reg ((DSF_Cnn_CFG_EN (3 * l + i)).addr + 4 * k)) ∧
      ∀ i < 3, s.dev.reg (DSF_Cnn_CFG_EN (3 * l + i)).addr ≠ s.dev.reg (DSF_Cnn_CFG_ACT_EN (3 * l + i)).addr →
        (t.dev.dsfX (3 * l + i)).restart = s.clk.ns := by
  have hl := l.isLt
  have hmem : ∀ r ∈ ((List.range 3).map (3 * l.val + ·)).flatMap dsfPairs, ∃ j < 3, ∃ i < 5,
      ((DSF_Cnn_CFG_EN (3 * l + j)).addr + 4 * i, (DSF_Cnn_CFG_EN (3 * l + j)).addr + 0x20 + 4 * i) = r := by
    intro r hr
    obtain ⟨ch, hch, hr⟩ := List.mem_flatMap.mp hr
    obtain ⟨j, hj, rfl⟩ := List.mem_map.mp hch
    exact ⟨j, List.mem_range.mp hj, mem_dsfPairs.mp hr⟩
  refine ⟨_, exec_serving hs rfl, ?_, ?_, fun i hi k hk => ?_, fun i hi hne => ?_⟩
  all_goals simp only [Dev.dsfCommit_eq hz hc]
  · rw [Dev.flag_congr (Dev.reg_congr Dev.dsfTakes_regs)]
    refine Dev.flag_commit (Field.isBit (by decide)) fun r hr => ?_
    obtain ⟨j, hj, i, hi, rfl⟩ := hmem r hr
    simp only [DSF_Cnn_CFG_EN, DSF_Lnn_CTL_CMT]
    omega
  · have hframe : FilterFrame s.dev ((s.dev.setf (DSF_Lnn_CTL_CMT l) false).dsfTakes s.clk ((List.range 3).map (3 * l.val + ·))) :=
      FilterFrame.setf.trans Dev.dsfTakes_frame
    rw [hframe]
  · rw [Dev.reg_congr Dev.dsfTakes_regs, show ∀ b, b + 0x20 + 4 * k = b + 4 * k + 0x20 by omega]
    refine Dev.reg_commit ?_ (fun r hr => ?_) (fun r hr => ?_) ?_
    · simp only [DSF_Cnn_CFG_EN, DSF_Lnn_CTL_CMT]
      omega
    · obtain ⟨j, hj, i', hi', rfl⟩ := hmem r hr
      simp only
      omega
    · obtain ⟨j, hj, i', hi', rfl⟩ := hmem r hr
      simp only [DSF_Cnn_CFG_EN]
      omega
    · refine List.mem_flatMap.mpr ⟨3 * l + i, List.mem_map.mpr ⟨i, List.mem_range.mpr hi, rfl⟩, mem_dsfPairs.mpr ⟨k, hk, ?_⟩⟩
      rw [Prod.mk.injEq]
      omega
  · refine Dev.dsfTakes_restart (List.mem_map.mpr ⟨i, List.mem_range.mpr hi, rfl⟩) ?_ ?_
    · exact List.nodup_range.map fun x y hxy => by simpa using hxy
    · rw [Dev.dsfRestarts, Dev.reg_setf_ne, Dev.reg_setf_ne]
      · simpa using hne
      all_goals
        simp only [DSF_Cnn_CFG_EN, DSF_Cnn_CFG_ACT_EN, DSF_Lnn_CTL_CMT]
        omega

end FilterCommit

end Sys2Proof.Machine

/-! PROOFS. The lists of a converter, the group of a recorder, the group of a slot (R130, R132, R266, R539). -/

namespace Sys2Proof.Machine

section GroupCommits

variable {s : State} {d : Dev} {r : Nat}

/-- Staged lists of converter m and their in-force views (R130). -/
def seqPairs (m : Nat) : List (Nat × Nat) :=
  ((SAR_CVm_SEQLEN_LEN m).addr, (SAR_CVm_SEQLEN_LEN m).addr + 0x80) ::
    (List.range 4).map fun j => ((SAR_CVm_SEQLEN_LEN m).addr + 8 + 4 * j, (SAR_CVm_SEQLEN_LEN m).addr + 0x88 + 4 * j)

theorem mem_seqPairs {m : Nat} {q : Nat × Nat} : q ∈ seqPairs m ↔
    q = ((SAR_CVm_SEQLEN_LEN m).addr, (SAR_CVm_SEQLEN_LEN m).addr + 0x80) ∨
      ∃ j < 4, ((SAR_CVm_SEQLEN_LEN m).addr + 8 + 4 * j, (SAR_CVm_SEQLEN_LEN m).addr + 0x88 + 4 * j) = q := by
  simp [seqPairs]

/-- Every staged list register lies off CTL, below the views, and its view 0x80 on. -/
theorem seqPairs_bounds {m : Nat} {q : Nat × Nat} (hq : q ∈ seqPairs m) :
    q.2 = q.1 + 0x80 ∧ 0x40060108 + 0x100 * m ≤ q.1 ∧ q.1 < 0x40060120 + 0x100 * m ∧ q.1 ≠ 0x4006010C + 0x100 * m := by
  rcases mem_seqPairs.mp hq with rfl | ⟨j, hj, rfl⟩
  · refine ⟨rfl, ?_⟩
    simp only [SAR_CVm_SEQLEN_LEN]
    omega
  · simp only [SAR_CVm_SEQLEN_LEN]
    omega

theorem seqCommit_reg {m a : Nat} (ha : (a, a + 0x80) ∈ seqPairs m) :
    ((d.setf (SAR_CVm_CTL_CMT m) false).copyRegs (seqPairs m)).reg (a + 0x80) = d.reg a := by
  obtain ⟨-, hlo, hhi, hctl⟩ := seqPairs_bounds ha
  refine Dev.reg_commit (fun h => hctl h.symm) (fun q hq => (seqPairs_bounds hq).1) (fun q hq => ?_) ha
  obtain ⟨hk, hqlo, -, -⟩ := seqPairs_bounds hq
  simp only at hhi
  omega

/-- Lists that pass their check are copied (R130). -/
theorem Dev.seqCommit_eq {m : Nat} (hb : seqBad d m = false) :
    d.seqCommit m = (d.setf (SAR_CVm_CTL_CMT m) false).copyRegs (seqPairs m) := by
  rw [Dev.seqCommit, hb]
  rfl

/-- An accepted SAR_SEQUENCE_COMMIT puts the staged lists in force (R130). -/
theorem sarSequenceCommit_accepts (hs : s.dev.dst.serves = true) (m : Fin 4) (hb : seqBad s.dev m = false) :
    ∃ t, exec (.sarSequenceCommit m) s = .next t ∧ t.dev.flag (SAR_CVm_CTL_CMT m) = false ∧
      t = { s with dev := { s.dev with regs := t.dev.regs } } ∧
      t.dev.reg ((SAR_CVm_SEQLEN_LEN m).addr + 0x80) = s.dev.reg (SAR_CVm_SEQLEN_LEN m).addr ∧
      ∀ j < 4, t.dev.reg ((SAR_CVm_SEQLEN_LEN m).addr + 0x88 + 4 * j) = s.dev.reg ((SAR_CVm_SEQLEN_LEN m).addr + 8 + 4 * j) := by
  refine ⟨_, exec_serving hs rfl, ?_, ?_, ?_, fun j hj => ?_⟩
  all_goals simp only [Dev.seqCommit_eq hb]
  · refine Dev.flag_commit (Field.isBit (by decide)) fun q hq => ?_
    obtain ⟨hk, hlo, -, -⟩ := seqPairs_bounds hq
    simp only [SAR_CVm_CTL_CMT]
    omega
  · exact OnlyRegs.commit.state_eq
  · exact seqCommit_reg (mem_seqPairs.mpr (.inl rfl))
  · rw [show ∀ b, b + 0x88 + 4 * j = b + 8 + 4 * j + 0x80 by omega]
    exact seqCommit_reg (mem_seqPairs.mpr (.inr ⟨j, hj, by rw [Prod.mk.injEq]; omega⟩))

/-- Staged registers of recorder r's group (R538): its own, those of its channels, those of its trigger units. -/
def Dev.capGroup (d : Dev) (r : Nat) : List Nat :=
  (List.range 6).map (fun i => 0x400B0000 + 0x40 * r + 4 * i) ++
    (d.capStagedChans r).flatMap (fun cc => [0x400B0400 + 0x10 * cc, 0x400B0404 + 0x10 * cc]) ++
    (d.capStagedUnits r).flatMap fun u => [0x400B0800 + 0x10 * u, 0x400B0804 + 0x10 * u, 0x400B0808 + 0x10 * u]

/-- The group with the in-force views of R538. -/
def Dev.capPairs (d : Dev) (r : Nat) : List (Nat × Nat) := (d.capGroup r).map fun a => (a, a + 0x1000)

/-- Staged capture registers stand in the 0x1000 bytes below their views. -/
theorem capPairs_bounds {q : Nat × Nat} (hr : r < 8) (hq : q ∈ d.capPairs r) :
    q.2 = q.1 + 0x1000 ∧ 0x400B0000 ≤ q.1 ∧ q.1 < 0x400B1000 := by
  obtain ⟨a, ha, rfl⟩ := List.mem_map.mp hq
  refine ⟨rfl, ?_⟩
  rcases List.mem_append.mp ha with h | h
  · rcases List.mem_append.mp h with h | h
    · obtain ⟨i, hi, rfl⟩ := List.mem_map.mp h
      have := List.mem_range.mp hi
      simp only
      omega
    · obtain ⟨cc, hcc, h⟩ := List.mem_flatMap.mp h
      have hlt : cc < 64 := List.mem_range.mp (List.mem_filter.mp hcc).1
      simp only [List.mem_cons, List.not_mem_nil, or_false] at h
      simp only
      omega
  · obtain ⟨u, hu, h⟩ := List.mem_flatMap.mp h
    have hlt : u < 8 := List.mem_range.mp (List.mem_filter.mp hu).1
    simp only [List.mem_cons, List.not_mem_nil, or_false] at h
    simp only
    omega

/-- The group in force, and STAT of its segments where the region changed. -/
theorem Dev.capCopy_cases : d.capCopy r = d.copyRegs (d.capPairs r) ∨
    d.capCopy r = (((d.copyRegs (d.capPairs r)).put (CAP_Rr_STAT_FULL r) 0).put (CAP_Rr_STAT_WSEG r) 0).put (CAP_Rr_STAT_RSEG r) 0 :=
  ite_eq_or_eq ..

theorem Dev.capCopy_frame : OnlyRegs (· = (CAP_Rr_STAT_FULL r).addr) (d.copyRegs (d.capPairs r)) (d.capCopy r) := by
  rcases Dev.capCopy_cases (d := d) (r := r) with h | h
  · rw [h]
    exact .refl
  · rw [h]
    exact ((OnlyRegs.put (by rfl)).trans (.put (by rfl))).trans (.put (by rfl))

/-- A group that passes its checks is copied (R539). -/
theorem Dev.capCommit_eq (hb : d.capBusy r = false) (hz : d.capZero r = false) (hc : d.capConflict r = false)
    (ho : d.capOverload r = false) : d.capCommit r = (d.setf (CAP_Rr_CTL_CMT r) false).capCopy r := by
  rw [Dev.capCommit, hb, hz, hc, ho]
  rfl

/-- An accepted CAP_COMMIT puts the recorder's own group in force (R539). -/
theorem capCommit_accepts (hs : s.dev.dst.serves = true) (r : Fin 8) (hb : s.dev.capBusy r = false) (hz : s.dev.capZero r = false)
    (hc : s.dev.capConflict r = false) (ho : s.dev.capOverload r = false) :
    ∃ t, exec (.capCommit r) s = .next t ∧ t.dev.flag (CAP_Rr_CTL_CMT r) = false ∧
      t = { s with dev := { s.dev with regs := t.dev.regs } } ∧
      ∀ i < 6, t.dev.reg (0x400B1000 + 0x40 * r + 4 * i) = s.dev.reg (0x400B0000 + 0x40 * r + 4 * i) := by
  have hr := r.isLt
  obtain ⟨hkeep, -⟩ := Dev.capCopy_frame (d := s.dev.setf (CAP_Rr_CTL_CMT r) false) (r := r)
  have hregs : OnlyRegs (fun _ => True) s.dev ((s.dev.setf (CAP_Rr_CTL_CMT r) false).capCopy r) :=
    OnlyRegs.commit.trans (.mono (fun _ _ => trivial) Dev.capCopy_frame)
  refine ⟨_, exec_serving hs rfl, ?_, ?_, fun i hi => ?_⟩
  all_goals simp only [Dev.capCommit_eq hb hz hc ho]
  · rw [Dev.flag_congr (hkeep _ (by simp only [CAP_Rr_CTL_CMT, CAP_Rr_STAT_FULL]; omega))]
    refine Dev.flag_commit (Field.isBit (by decide)) fun q hq => ?_
    obtain ⟨hk, hlo, -⟩ := capPairs_bounds hr hq
    simp only [CAP_Rr_CTL_CMT]
    omega
  · exact hregs.state_eq
  · rw [show 0x400B1000 + 0x40 * r.val + 4 * i = 0x400B0000 + 0x40 * r + 4 * i + 0x1000 by omega,
      hkeep _ (by simp only [CAP_Rr_STAT_FULL]; omega)]
    refine Dev.reg_commit ?_ (fun q hq => (capPairs_bounds hr hq).1) (fun q hq => ?_) ?_
    · simp only [CAP_Rr_CTL_CMT]
      omega
    · obtain ⟨hk, hlo, -⟩ := capPairs_bounds hr hq
      omega
    · refine List.mem_map.mpr ⟨_, List.mem_append_left _ (List.mem_append_left _ ?_), rfl⟩
      exact List.mem_map.mpr ⟨i, List.mem_range.mpr hi, rfl⟩

/-- Staged registers of slot a and their in-force views (R266). -/
def axPairs (a : Nat) : List (Nat × Nat) := (List.range 16).map fun i => (trjBase a + 4 * i, trjBase a + 0x80 + 4 * i)

theorem mem_axPairs {a : Nat} {q : Nat × Nat} :
    q ∈ axPairs a ↔ ∃ i < 16, (trjBase a + 4 * i, trjBase a + 0x80 + 4 * i) = q := by
  simp [axPairs]

theorem Dev.enrol_reg {j a : Nat} : (d.enrol j).reg a = d.reg a := rfl

/-- Counting a job changes the list of admitted jobs alone. -/
theorem Dev.enrol_frame {e : Dev} {j : Nat} (h : e = { d with regs := e.regs }) :
    e.enrol j = { d with regs := (e.enrol j).regs, her := { d.her with admitted := (e.enrol j).her.admitted } } := by
  obtain ⟨rs, rfl⟩ : ∃ rs, e = { d with regs := rs } := ⟨_, h⟩
  rfl

/-- A slot group that passes its checks is copied, and its job counts (R266, R308). -/
theorem Dev.axApply_eq {a : Nat} (hz : d.axZero a = false) (hc : d.axConflict a (d.axMode a = modeHold) = false)
    (ho : d.axOverload a = false) :
    d.axApply a = ((d.setf (TRJ_AXaa_CTL_CMT a) false).copyRegs (axPairs a)).enrol (slotSetpoint a) := by
  rw [Dev.axApply, hz, hc, ho]
  rfl

/-- An accepted TRJ_COMMIT of a slot without trajectory instants puts its group in force and counts its job (R266, R308). -/
theorem trjCommit_accepts (hs : s.dev.dst.serves = true) (a : Fin 64) (ht : s.dev.trajT a = 0) (hz : s.dev.axZero a = false)
    (hc : s.dev.axConflict a (s.dev.axMode a = modeHold) = false) (ho : s.dev.axOverload a = false) :
    ∃ t, exec (.trjCommit a) s = .next t ∧ t.dev.flag (TRJ_AXaa_CTL_CMT a) = false ∧
      t = { s with dev := { s.dev with regs := t.dev.regs, her := { s.dev.her with admitted := t.dev.her.admitted } } } ∧
      ∀ i < 16, t.dev.reg (trjBase a + 0x80 + 4 * i) = s.dev.reg (trjBase a + 4 * i) := by
  refine ⟨_, exec_serving hs rfl, ?_, ?_, fun i hi => ?_⟩
  all_goals simp only [if_pos ht, Dev.axApply_eq hz hc ho]
  · rw [Dev.flag_congr Dev.enrol_reg]
    refine Dev.flag_commit (Field.isBit (by decide)) fun q hq => ?_
    obtain ⟨j, hj, rfl⟩ := mem_axPairs.mp hq
    simp only [TRJ_AXaa_CTL_CMT, trjBase]
    omega
  · exact congrArg (fun d => { s with dev := d }) (Dev.enrol_frame OnlyRegs.commit.2)
  · rw [Dev.enrol_reg, show trjBase a + 0x80 + 4 * i = trjBase a + 4 * i + 0x80 by omega]
    refine Dev.reg_commit ?_ (fun q hq => ?_) (fun q hq => ?_) (mem_axPairs.mpr ⟨i, hi, by rw [Prod.mk.injEq]; omega⟩)
    · simp only [TRJ_AXaa_CTL_CMT, trjBase]
      omega
    · obtain ⟨j, hj, rfl⟩ := mem_axPairs.mp hq
      simp only
      omega
    · obtain ⟨j, hj, rfl⟩ := mem_axPairs.mp hq
      simp only
      omega

end GroupCommits

/-! PROOFS. The group of a CAN channel and the state it enters (R441, R446, R448). -/

section CanCommit

variable {s : State} {d e : Dev} {c : Clock} {ch st old a u v : Nat} {f : Field}

theorem Dev.raise_regs : (d.raise u).regs = d.regs := by
  unfold Dev.raise
  split <;> rfl

/-- A change of a unit's state field shows in that register alone. -/
theorem Dev.putState_regs (h : d.get f ≠ v) : (d.putState u f v).regs = (d.put f v).regs := by
  rw [Dev.putState, if_neg h, Dev.raise_regs]

theorem Dev.canNotice_regs : (d.canNotice c ch).regs = d.regs := rfl

/-- The registers of a channel that enters a state other than error passive and bus-off: STATE, and REC cleared out of bus-off. -/
theorem Dev.canTo_regs (hst : d.canState ch ≠ st) (hp : st ≠ stPassive) (hb : st ≠ stBusOff) :
    (d.canTo c ch st).regs =
      ((if d.canState ch = stBusOff then d.setf (CAN_CHc_CTL_REC ch) false else d).put (CAN_CHc_STAT_STATE ch) st).regs := by
  rw [Dev.canTo, if_neg hst, if_neg hp, if_neg hb, Dev.canNotice_regs]
  split
  · refine Dev.putState_regs (fun h => hst (Eq.trans ?_ h))
    exact (Dev.get_put_ne (by simp only [CAN_CHc_CTL_REC, CAN_CHc_STAT_STATE]; omega)).symm
  · exact Dev.putState_regs hst

/-- The channel is then in that state. -/
theorem Dev.canState_canTo (hlt : st < 8) (hp : st ≠ stPassive) (hb : st ≠ stBusOff) : (d.canTo c ch st).canState ch = st := by
  by_cases hst : d.canState ch = st
  · rw [Dev.canTo, if_pos hst, hst]
  · rw [Dev.canState, Dev.get_congr (Dev.reg_congr (Dev.canTo_regs hst hp hb)),
      Dev.get_put_self (f := CAN_CHc_STAT_STATE ch) (Nat.le_of_lt (by decide : 3 < 32))]
    exact Nat.mod_eq_of_lt hlt

/-- Registers other than STAT and CTL keep their values. -/
theorem Dev.reg_canTo (hp : st ≠ stPassive) (hb : st ≠ stBusOff) (hs : (CAN_CHc_STAT_STATE ch).addr ≠ a)
    (hc : (CAN_CHc_CTL_REC ch).addr ≠ a) : (d.canTo c ch st).reg a = d.reg a := by
  by_cases hst : d.canState ch = st
  · rw [Dev.canTo, if_pos hst]
  · rw [Dev.reg_congr (Dev.canTo_regs hst hp hb), Dev.reg_put_ne hs]
    split
    · exact Dev.reg_setf_ne hc
    · rfl

/-- CMT keeps its value: REC is another bit of CTL. -/
theorem Dev.flag_canTo (hp : st ≠ stPassive) (hb : st ≠ stBusOff) :
    (d.canTo c ch st).flag (CAN_CHc_CTL_CMT ch) = d.flag (CAN_CHc_CTL_CMT ch) := by
  by_cases hst : d.canState ch = st
  · rw [Dev.canTo, if_pos hst]
  · have hne : (CAN_CHc_STAT_STATE ch).addr ≠ (CAN_CHc_CTL_CMT ch).addr := by
      simp only [CAN_CHc_STAT_STATE, CAN_CHc_CTL_CMT]
      omega
    rw [Dev.flag_congr (Dev.reg_congr (Dev.canTo_regs hst hp hb)), Dev.flag_congr (Dev.reg_put_ne hne)]
    split
    · exact Dev.flag_setf_apart (Field.isBit (by decide)) (Field.apart_bits (by decide))
    · rfl

/-- The state a mode of R441 begins in. -/
def canModeState (mode : Nat) : Nat := if mode = canOff then stOff else if mode = canSleep then stSleep else stInteg

theorem canModeState_cases (mode : Nat) :
    canModeState mode < 8 ∧ canModeState mode ≠ stPassive ∧ canModeState mode ≠ stBusOff := by
  unfold canModeState
  split
  · decide
  · split <;> decide

/-- A channel whose mode in force changes enters the mode's state, with ERRC at most touched before (R441). -/
theorem Dev.canEnter_eq (h : d.canMode ch ≠ old) :
    ∃ e, d.canEnter c ch old = e.canTo c ch (canModeState (d.canMode ch)) ∧ OnlyRegs (· = (CAN_CHc_ERRC_TEC ch).addr) d e := by
  unfold Dev.canEnter canModeState
  simp only [if_neg h]
  split
  · exact ⟨d, rfl, .refl⟩
  · split
    · exact ⟨d, rfl, .refl⟩
    · split
      · exact ⟨_, rfl, (OnlyRegs.put (by rfl)).trans (.put (by rfl))⟩
      · exact ⟨d, rfl, .refl⟩

/-- Staged registers of a channel's group and their in-force views (R441). -/
def canPairs (ch : Nat) : List (Nat × Nat) := canGroupOffs.map fun o => (canBase ch + o, canBase ch + 0x80 + o)

theorem mem_canPairs {q : Nat × Nat} : q ∈ canPairs ch ↔ ∃ i < 3, q = (canBase ch + 4 * i, canBase ch + 4 * i + 0x80) := by
  have h : canGroupOffs = (List.range 3).map (4 * ·) := by decide
  simp only [canPairs, h, List.map_map, List.mem_map, List.mem_range, Function.comp]
  refine exists_congr fun i => and_congr_right fun _ => ?_
  rw [show canBase ch + 0x80 + 4 * i = canBase ch + 4 * i + 0x80 by omega]
  exact eq_comm

/-- The device with the group in force, before it enters its mode. -/
def Dev.canInForce (d : Dev) (ch : Nat) : Dev := (d.setf (CAN_CHc_CTL_CMT ch) false).copyRegs (canPairs ch)

theorem Dev.canInForce_reg {i : Nat} (hi : i < 3) : (d.canInForce ch).reg (canBase ch + 4 * i + 0x80) = d.reg (canBase ch + 4 * i) := by
  refine Dev.reg_commit ?_ (fun q hq => ?_) (fun q hq => ?_) (mem_canPairs.mpr ⟨i, hi, rfl⟩)
  · simp only [CAN_CHc_CTL_CMT, canBase]
    omega
  · obtain ⟨j, hj, rfl⟩ := mem_canPairs.mp hq
    rfl
  · obtain ⟨j, hj, rfl⟩ := mem_canPairs.mp hq
    simp only
    omega

theorem Dev.canInForce_flag : (d.canInForce ch).flag (CAN_CHc_CTL_CMT ch) = false := by
  refine Dev.flag_commit (Field.isBit (by decide)) fun q hq => ?_
  obtain ⟨j, hj, rfl⟩ := mem_canPairs.mp hq
  simp only [CAN_CHc_CTL_CMT, canBase]
  omega

/-- The mode in force is then the staged one. -/
theorem Dev.canInForce_mode : (d.canInForce ch).canMode ch = d.get (CAN_CHc_CFG_MODE ch) := by
  have h := Dev.canInForce_reg (d := d) (ch := ch) (i := 0) (by decide)
  have hact : (CAN_CHc_CFG_ACT_MODE ch).addr = canBase ch + 4 * 0 + 0x80 := by
    simp only [CAN_CHc_CFG_ACT_MODE, canBase]
    omega
  have hstg : (CAN_CHc_CFG_MODE ch).addr = canBase ch + 4 * 0 := rfl
  rw [Dev.canMode, Dev.get, Dev.get, hact, h, hstg]
  rfl

/-- A group that passes its checks in a quiet mode is copied, and the channel takes its mode (R441). -/
theorem Dev.canCommit_eq (hq : d.canQuiet ch = true) (hz : d.canZero ch = false) (hc : d.canConflict ch = false) :
    d.canCommit c ch = (d.canInForce ch).canEnter c ch (d.canMode ch) := by
  rw [Dev.canCommit, if_pos hq, Dev.canApply, hz, hc]
  rfl

/-- An accepted CAN_COMMIT in a quiet mode puts the group in force, and a changed mode enters its state (R441). -/
theorem canCommit_accepts (hs : s.dev.dst.serves = true) (ch : Fin 8) (hq : s.dev.canQuiet ch = true) (hz : s.dev.canZero ch = false)
    (hc : s.dev.canConflict ch = false) :
    ∃ t, exec (.canCommit ch) s = .next t ∧ t.clk = s.clk ∧ t.dev.flag (CAN_CHc_CTL_CMT ch) = false ∧
      (∀ i < 3, t.dev.reg (0x400D0080 + 0x1000 * ch + 4 * i) = s.dev.reg (0x400D0000 + 0x1000 * ch + 4 * i)) ∧
      (s.dev.get (CAN_CHc_CFG_MODE ch) = s.dev.canMode ch → t = { s with dev := { s.dev with regs := t.dev.regs } }) ∧
      (s.dev.get (CAN_CHc_CFG_MODE ch) ≠ s.dev.canMode ch →
        t.dev.canState ch = canModeState (s.dev.get (CAN_CHc_CFG_MODE ch))) := by
  have hreg : ∀ i < 3, (s.dev.canInForce ch).reg (0x400D0080 + 0x1000 * ch + 4 * i) = s.dev.reg (0x400D0000 + 0x1000 * ch + 4 * i) := by
    intro i hi
    rw [show 0x400D0080 + 0x1000 * ch.val + 4 * i = canBase ch + 4 * i + 0x80 by simp only [canBase]; omega, Dev.canInForce_reg hi]
    rfl
  refine ⟨_, exec_serving hs rfl, rfl, ?_⟩
  simp only [Dev.canCommit_eq hq hz hc]
  by_cases hm : s.dev.get (CAN_CHc_CFG_MODE ch) = s.dev.canMode ch
  · have hstay : (s.dev.canInForce ch).canEnter s.clk ch (s.dev.canMode ch) = s.dev.canInForce ch := by
      rw [Dev.canEnter]
      exact if_pos (Dev.canInForce_mode.trans hm)
    rw [hstay]
    refine ⟨Dev.canInForce_flag, hreg, fun _ => ?_, fun h => absurd hm h⟩
    exact OnlyRegs.commit.state_eq
  · obtain ⟨e, he, hkeep, -⟩ := Dev.canEnter_eq (c := s.clk) (fun h => hm (Dev.canInForce_mode.symm.trans h))
    obtain ⟨hlt, hp, hb⟩ := canModeState_cases ((s.dev.canInForce ch).canMode ch)
    rw [he]
    refine ⟨?_, fun i hi => ?_, fun h => absurd h hm, fun _ => ?_⟩
    · rw [Dev.flag_canTo hp hb, Dev.flag_congr (hkeep _ ?_), Dev.canInForce_flag]
      simp only [CAN_CHc_CTL_CMT, CAN_CHc_ERRC_TEC]
      omega
    · rw [Dev.reg_canTo hp hb, hkeep, hreg i hi]
      all_goals
        simp only [CAN_CHc_STAT_STATE, CAN_CHc_CTL_REC, CAN_CHc_ERRC_TEC]
        omega
    · rw [Dev.canState_canTo hlt hp hb, Dev.canInForce_mode]

end CanCommit

end Sys2Proof.Machine

/-! PROOFS. Groups rejected with their flag (R15, R116, R130, R132, R266, R441, R539), and entries of a transmit queue (R437). -/

namespace Sys2Proof.Machine

section Rejections

variable {s : State}

theorem dsfCommit_zero (hs : s.dev.dst.serves = true) (l : Fin 24) (hz : s.dev.dsfZero l = true) :
    Rejects s (.dsfCommit l) (DSF_Lnn_CTL_CMT l) (DSF_Lnn_CTL_ZERO l) :=
  .of_exec (Field.bitPair (by decide))
    ((exec_serving hs rfl).trans (by rw [Dev.dsfCommit, if_pos hz]))

theorem dsfCommit_conflict (hs : s.dev.dst.serves = true) (l : Fin 24) (hz : s.dev.dsfZero l = false)
    (hc : s.dev.dsfConflict l (s.dev.lane l).state = true) :
    Rejects s (.dsfCommit l) (DSF_Lnn_CTL_CMT l) (DSF_Lnn_CTL_CONFLICT l) :=
  .of_exec (Field.bitPair (by decide))
    ((exec_serving hs rfl).trans (by rw [Dev.dsfCommit, if_neg (by simp [hz]), if_pos hc]))

theorem sarSequenceCommit_conflict (hs : s.dev.dst.serves = true) (m : Fin 4) (hb : seqBad s.dev m = true) :
    Rejects s (.sarSequenceCommit m) (SAR_CVm_CTL_CMT m) (SAR_CVm_STAT_CONFLICT m) :=
  .of_exec (Field.bitPair (by decide))
    ((exec_serving hs rfl).trans (by rw [Dev.seqCommit, if_pos hb]))

/-- SAR_GROUP_COMMIT sets the flag of its first failed check, else CMT (R132). -/
theorem sarGroupCommit_notes (hs : s.dev.dst.serves = true) (g : Fin 4) :
    (s.dev.sarGroupZero g = true → Notes s (.sarGroupCommit g) (SAR_Gg_CTL_ZERO g) s.dev) ∧
      (s.dev.sarGroupZero g = false → s.dev.sarGroupConflict g = true → Notes s (.sarGroupCommit g) (SAR_Gg_CTL_CONFLICT g) s.dev) ∧
      (s.dev.sarGroupZero g = false → s.dev.sarGroupConflict g = false → Notes s (.sarGroupCommit g) (SAR_Gg_CTL_CMT g) s.dev) := by
  refine ⟨fun hz => ?_, fun hz hc => ?_, fun hz hc => ?_⟩
  · exact .of_exec (Field.isBit (by decide)) ((exec_serving hs rfl).trans (by rw [Dev.sarGroupCommit, if_pos hz]))
  · exact .of_exec (Field.isBit (by decide))
      ((exec_serving hs rfl).trans (by rw [Dev.sarGroupCommit, if_neg (by simp [hz]), if_pos hc]))
  · exact .of_exec (Field.isBit (by decide))
      ((exec_serving hs rfl).trans (by rw [Dev.sarGroupCommit, if_neg (by simp [hz]), if_neg (by simp [hc])]))

/-- A recorder that records rejects its commit (R539; log entry 24). -/
theorem capCommit_busy (hs : s.dev.dst.serves = true) (r : Fin 8) (hb : s.dev.capBusy r = true) :
    Rejects s (.capCommit r) (CAP_Rr_CTL_CMT r) (CAP_Rr_CTL_CONFLICT r) :=
  .of_exec (Field.bitPair (by decide))
    ((exec_serving hs rfl).trans (by rw [Dev.capCommit, if_pos hb]))

theorem capCommit_zero (hs : s.dev.dst.serves = true) (r : Fin 8) (hb : s.dev.capBusy r = false) (hz : s.dev.capZero r = true) :
    Rejects s (.capCommit r) (CAP_Rr_CTL_CMT r) (CAP_Rr_CTL_ZERO r) :=
  .of_exec (Field.bitPair (by decide))
    ((exec_serving hs rfl).trans (by rw [Dev.capCommit, if_neg (by simp [hb]), if_pos hz]))

/-- A load beyond R538 shows as CONFLICT as well (log entry 24). -/
theorem capCommit_conflict (hs : s.dev.dst.serves = true) (r : Fin 8) (hb : s.dev.capBusy r = false) (hz : s.dev.capZero r = false)
    (hc : s.dev.capConflict r = true ∨ s.dev.capOverload r = true) :
    Rejects s (.capCommit r) (CAP_Rr_CTL_CMT r) (CAP_Rr_CTL_CONFLICT r) :=
  .of_exec (Field.bitPair (by decide))
    ((exec_serving hs rfl).trans (by
      rw [Dev.capCommit, if_neg (by simp [hb]), if_neg (by simp [hz]), if_pos (Bool.or_eq_true_iff.mpr hc)]))

/-- CAN_COMMIT in NORMAL or LISTEN waits for the bus (R441). -/
theorem canCommit_notes (hs : s.dev.dst.serves = true) (ch : Fin 8) (hq : s.dev.canQuiet ch = false) :
    Notes s (.canCommit ch) (CAN_CHc_CTL_CMT ch) s.dev :=
  .of_exec (Field.isBit (by decide)) ((exec_serving hs rfl).trans (by rw [Dev.canCommit, if_neg (by simp [hq])]))

theorem canCommit_zero (hs : s.dev.dst.serves = true) (ch : Fin 8) (hq : s.dev.canQuiet ch = true) (hz : s.dev.canZero ch = true) :
    Rejects s (.canCommit ch) (CAN_CHc_CTL_CMT ch) (CAN_CHc_CTL_ZERO ch) :=
  .of_exec (Field.bitPair (by decide))
    ((exec_serving hs rfl).trans (by rw [Dev.canCommit, if_pos hq, Dev.canApply, if_pos hz]))

theorem canCommit_conflict (hs : s.dev.dst.serves = true) (ch : Fin 8) (hq : s.dev.canQuiet ch = true) (hz : s.dev.canZero ch = false)
    (hc : s.dev.canConflict ch = true) : Rejects s (.canCommit ch) (CAN_CHc_CTL_CMT ch) (CAN_CHc_CTL_CONFLICT ch) :=
  .of_exec (Field.bitPair (by decide))
    ((exec_serving hs rfl).trans (by rw [Dev.canCommit, if_pos hq, Dev.canApply, if_neg (by simp [hz]), if_pos hc]))

theorem trjCommit_zero (hs : s.dev.dst.serves = true) (a : Fin 64) (ht : s.dev.trajT a = 0) (hz : s.dev.axZero a = true) :
    Rejects s (.trjCommit a) (TRJ_AXaa_CTL_CMT a) (TRJ_AXaa_CTL_ZERO a) :=
  .of_exec (Field.bitPair (by decide))
    ((exec_serving hs rfl).trans (by rw [if_pos ht, Dev.axApply, if_pos hz]))

theorem trjCommit_conflict (hs : s.dev.dst.serves = true) (a : Fin 64) (ht : s.dev.trajT a = 0) (hz : s.dev.axZero a = false)
    (hc : s.dev.axConflict a (s.dev.axMode a = modeHold) = true) :
    Rejects s (.trjCommit a) (TRJ_AXaa_CTL_CMT a) (TRJ_AXaa_CTL_CONFLICT a) :=
  .of_exec (Field.bitPair (by decide))
    ((exec_serving hs rfl).trans (by rw [if_pos ht, Dev.axApply, if_neg (by simp [hz]), if_pos hc]))

theorem trjCommit_overload (hs : s.dev.dst.serves = true) (a : Fin 64) (ht : s.dev.trajT a = 0) (hz : s.dev.axZero a = false)
    (hc : s.dev.axConflict a (s.dev.axMode a = modeHold) = false) (ho : s.dev.axOverload a = true) :
    Rejects s (.trjCommit a) (TRJ_AXaa_CTL_CMT a) (TRJ_AXaa_CTL_OVERLOAD a) :=
  .of_exec (Field.bitPair (by decide))
    ((exec_serving hs rfl).trans (by rw [if_pos ht, Dev.axApply, if_neg (by simp [hz]), if_neg (by simp [hc]), if_pos ho]))

/-- PUSH onto a full queue sets FULL alone (R437; log entry 26). -/
theorem push_full (hs : s.dev.dst.serves = true) (ch : Fin 8) (hf : 32 ≤ (s.dev.canX ch).tx.length) :
    Notes s (.push ch) (CAN_CHc_TXCTL_FULL ch) s.dev :=
  .of_exec (Field.isBit (by decide)) ((exec_serving hs rfl).trans (by rw [Dev.canPush, if_pos hf]))

/-- PUSH of an entry R437 does not allow sets BAD alone. -/
theorem push_bad (hs : s.dev.dst.serves = true) (ch : Fin 8) (hf : (s.dev.canX ch).tx.length < 32)
    (hb : canBad (s.dev.reg (CAN_CHc_TXWw_W ch 2).addr) (s.dev.reg (CAN_CHc_TXWw_W ch 3).addr) = true) :
    Notes s (.push ch) (CAN_CHc_TXCTL_BAD ch) s.dev :=
  .of_exec (Field.isBit (by decide)) ((exec_serving hs rfl).trans (by rw [Dev.canPush, if_neg (by omega), if_pos hb]))

/-- An entry joins the queue, and COUNT shows the queue's length (R437). -/
theorem Dev.canQueue_shows {d : Dev} {ch : Nat} {e : CanTx} (hf : (d.canX ch).tx.length < 32) :
    ((d.canQueue ch e).canX ch).tx = (d.canX ch).tx ++ [e] ∧
      (d.canQueue ch e).get (CAN_CHc_TXCTL_COUNT ch) = (d.canX ch).tx.length + 1 ∧
      d.canQueue ch e = { d with regs := (d.canQueue ch e).regs, can := (d.canQueue ch e).can } := by
  have htx : (d.setCanX ch { d.canX ch with tx := (d.canX ch).tx ++ [e] }).canX ch = { d.canX ch with tx := (d.canX ch).tx ++ [e] } :=
    Dev.canX_setCanX_self
  refine ⟨congrArg CanX.tx htx, ?_, rfl⟩
  rw [Dev.canQueue, Dev.canTxShow, htx, Dev.get_put_self (f := CAN_CHc_TXCTL_COUNT ch) (by decide : 8 + 6 ≤ 32),
    List.length_append, List.length_singleton]
  exact Nat.mod_eq_of_lt (by show _ < 2 ^ 6; omega)

/-- Any other PUSH queues the staged words with their launch time (R437). -/
theorem push_queues (hs : s.dev.dst.serves = true) (ch : Fin 8) (hf : (s.dev.canX ch).tx.length < 32)
    (hb : canBad (s.dev.reg (CAN_CHc_TXWw_W ch 2).addr) (s.dev.reg (CAN_CHc_TXWw_W ch 3).addr) = false) :
    ∃ t e, exec (.push ch) s = .next t ∧ (t.dev.canX ch).tx = (s.dev.canX ch).tx ++ [e] ∧
      e.launch = (s.dev.reg (CAN_CHc_TXWw_W ch 0).addr).toNat + (s.dev.reg (CAN_CHc_TXWw_W ch 1).addr).toNat * 2 ^ 32 ∧
      e.w2 = s.dev.reg (CAN_CHc_TXWw_W ch 2).addr ∧ e.w3 = s.dev.reg (CAN_CHc_TXWw_W ch 3).addr ∧
      t.dev.get (CAN_CHc_TXCTL_COUNT ch) = (s.dev.canX ch).tx.length + 1 ∧
      t = { s with dev := { s.dev with regs := t.dev.regs, can := t.dev.can } } := by
  obtain ⟨e, he, hlaunch, hw2, hw3⟩ : ∃ e : CanTx, s.dev.canPush ch = s.dev.canQueue ch e ∧
      e.launch = (s.dev.reg (CAN_CHc_TXWw_W ch 0).addr).toNat + (s.dev.reg (CAN_CHc_TXWw_W ch 1).addr).toNat * 2 ^ 32 ∧
      e.w2 = s.dev.reg (CAN_CHc_TXWw_W ch 2).addr ∧ e.w3 = s.dev.reg (CAN_CHc_TXWw_W ch 3).addr :=
    ⟨_, by rw [Dev.canPush, if_neg (by omega), if_neg (by simp [hb])], rfl, rfl, rfl⟩
  obtain ⟨htx, hcount, hframe⟩ := Dev.canQueue_shows (e := e) hf
  exact ⟨{ s with dev := s.dev.canQueue ch e }, e, (exec_serving hs rfl).trans (by rw [he]), htx, hlaunch, hw2, hw3, hcount,
    congrArg (fun d => { s with dev := d }) hframe⟩

end Rejections

end Sys2Proof.Machine

section
open Sys2Proof Sys2Proof.Machine

/-- Settles O29: group by group, the lemma of each check that fails and of the group that passes. -/
theorem commitsInForceAtOnce : Obligations.CommitsInForceAtOnce := by
  intro s hs rejected sets
  exact ⟨fun l => ⟨dsfCommit_zero hs l, dsfCommit_conflict hs l, dsfCommit_accepts hs l⟩,
    fun m => ⟨sarSequenceCommit_conflict hs m, sarSequenceCommit_accepts hs m⟩,
    sarGroupCommit_notes hs,
    fun r => ⟨capCommit_busy hs r, capCommit_zero hs r, capCommit_conflict hs r, capCommit_accepts hs r⟩,
    push_full hs, push_bad hs, push_queues hs,
    fun ch => ⟨canCommit_notes hs ch, canCommit_zero hs ch, canCommit_conflict hs ch, canCommit_accepts hs ch⟩,
    fun a ht => ⟨trjCommit_zero hs a ht, trjCommit_conflict hs a ht, trjCommit_overload hs a ht, trjCommit_accepts hs a ht⟩⟩

end

/-! PROOFS. The host port: the status byte, transactions, register writes and register reads over the chain (R13, R50, R359, R361 to R363,
R411). -/

namespace Sys2Proof.Machine

section HostPort

variable {s : State} {d : Dev} {c : Clock} {addr v : W32} {a n k : Nat}

/-! The status byte (R363). -/

/-- Bits 0 to 5 of the status byte are the sticky bits. -/
theorem Dev.statusByte_sticky (hk : k < 6) : d.statusByte.testBit k = d.hpi.testBit k := by
  have hmod : d.statusByte % 2 ^ 6 = d.hpi % 2 ^ 6 := by
    rw [Dev.statusByte]
    split <;> omega
  have hbit : (d.statusByte % 2 ^ 6).testBit k = (d.hpi % 2 ^ 6).testBit k := by rw [hmod]
  simpa only [Nat.testBit_mod_two_pow, hk, decide_true, Bool.true_and] using hbit

/-- Bit 6 of the status byte shows HPI_IRQ_N low. -/
theorem Dev.statusByte_irq : d.statusByte.testBit 6 = d.irqLow := by
  have hdiv : d.statusByte / 2 ^ 6 % 2 = if d.irqLow then 1 else 0 := by
    rw [Dev.statusByte]
    split <;> omega
  rw [Nat.testBit_eq_decide_div_mod_eq, hdiv]
  cases d.irqLow <;> rfl

/-- Bit 0 of the status byte, WAIT, is that of the sticky bits. -/
theorem Dev.statusByte_wait : d.statusByte % 2 = d.hpi % 2 := by
  rw [Dev.statusByte]
  split <;> omega

/-! Fault reports leave the port alone (R549 to R553). -/

theorem Dev.emit_hpi {u t : Nat} {time : Option (Nat × Nat)} {offs : Nat} {ws : List W64} {inj : Bool} :
    (d.emit u t time offs ws inj).hpi = d.hpi := rfl

theorem Dev.linkPut_hpi {ft : Nat} {ws : List W64} : (d.linkPut ft ws).hpi = d.hpi := rfl

theorem Dev.bump_hpi {f : Field} : (d.bump f n).hpi = d.hpi := Dev.put_hpi

theorem Dev.pairNotice_hpi {ft u t : Nat} {w : W64} : (d.pairNotice c ft u t w).hpi = d.hpi := by
  unfold Dev.pairNotice
  split
  · rfl
  · rw [Dev.linkPut_hpi]

theorem Dev.record_hpi {code u info : Nat} {inj : Bool} : (d.record c code u info inj).hpi = d.hpi := by
  unfold Dev.record
  rw [Dev.pairNotice_hpi, Dev.emit_hpi]
  split
  · rw [Dev.put_hpi]
  · rw [Dev.bump_hpi]

theorem Dev.reportLim_hpi {code u info key : Nat} {inj : Bool} : (d.reportLim c code u info key inj).hpi = d.hpi := by
  have hopen : (Dev.reportLim.open_ d c code u info inj (code * 2 ^ 16 + key)).hpi = d.hpi := by
    rw [Dev.reportLim.open_, Dev.record_hpi]
  unfold Dev.reportLim
  simp only
  split
  · split
    · rw [Dev.bump_hpi]
    · exact hopen
  · exact hopen

/-! Transactions (R359, R361). -/

/-- WRITE's code is not one of the two others of R359. -/
theorem writeCode_data : ¬ ((0x38 : BitVec 8) = 0xEB ∨ (0x38 : BitVec 8) = 0x05) := by decide

/-- A READ of a misaligned address is ignored with ALIGN. -/
theorem read_misaligned (hs : s.dev.dst.serves = true) (ha : addr.toNat % 4 ≠ 0) :
    exec (.read addr n) s = .next { s with dev := (s.dev.locksEnd s.clk).hpiStart.setHpi 2 } :=
  (exec_serving hs rfl).trans (by simp only [if_pos ha])

/-- A WRITE to a misaligned address is ignored with ALIGN. -/
theorem write_misaligned (hs : s.dev.dst.serves = true) (ws : List W32) (cut : Bool) (ha : addr.toNat % 4 ≠ 0) :
    exec (.write 0x38 addr ws cut) s = .next { s with dev := s.dev.hpiStart.setHpi 2 } :=
  (exec_serving hs rfl).trans (by
    rw [if_neg writeCode_data, if_neg (not_not.mpr rfl), if_pos ha])

theorem registerWrite_misaligned (hs : s.dev.dst.serves = true) (ha : addr.toNat % 4 ≠ 0) :
    exec (.registerWrite addr v) s = .next { s with dev := s.dev.setHpi 2 } :=
  (exec_serving hs rfl).trans (by rw [if_pos ha])

theorem registerWrite_aligned (hs : s.dev.dst.serves = true) (ha : addr.toNat % 4 = 0) :
    exec (.registerWrite addr v) s = .next { s with dev := s.dev.hostWrite s.clk addr.toNat v } :=
  (exec_serving hs rfl).trans (by rw [if_neg (by omega)])

/-- A write outside the map sets bit 5 alone (R362). -/
theorem registerWrite_unmapped (hs : s.dev.dst.serves = true) (ha : addr.toNat % 4 = 0) (hm : isMapped addr.toNat = false) :
    exec (.registerWrite addr v) s = .next { s with dev := s.dev.setHpi 5 } :=
  (registerWrite_aligned hs ha).trans (by rw [Dev.hostWrite, hm]; rfl)

/-- A write of a register in a block the host does not own sets bit 1 alone (R50). -/
theorem registerWrite_unowned (hs : s.dev.dst.serves = true) (ha : addr.toNat % 4 = 0) (hm : isMapped addr.toNat = true)
    (hb : isReqBuf addr.toNat = false) (ho : s.dev.hostOwns addr.toNat = false) :
    exec (.registerWrite addr v) s = .next { s with dev := s.dev.setHpi 1 } :=
  (registerWrite_aligned hs ha).trans (by rw [Dev.hostWrite, hm, hb, ho]; rfl)

/-- An instruction code outside R359 is a protocol error: PROT, and report 130. -/
theorem write_protocol (hs : s.dev.dst.serves = true) (code : BitVec 8) (ws : List W32) (cut : Bool) (h38 : code ≠ 0x38)
    (hEB : code ≠ 0xEB) (h05 : code ≠ 0x05) :
    ∃ t, exec (.write code addr ws cut) s = .next t ∧ t.dev.hpi.testBit 4 = true ∧ t.clk = s.clk ∧
      t.dev = (s.dev.hpiStart.setHpi 4).reportLim s.clk 130 0xFE := by
  have hx : exec (.write code addr ws cut) s = .next { s with dev := s.dev.hpiStart.hpiProt s.clk } :=
    (exec_serving hs rfl).trans (by rw [if_neg (not_or.mpr ⟨hEB, h05⟩), if_pos h38])
  refine ⟨_, hx, ?_, rfl, rfl⟩
  show ((s.dev.hpiStart.setHpi 4).reportLim s.clk 130 0xFE).hpi.testBit 4 = true
  rw [Dev.reportLim_hpi]
  show (s.dev.hpi ||| 2 ^ 4).testBit 4 = true
  rw [Nat.testBit_or, Nat.testBit_two_pow_self, Bool.or_true]

/-- A one-word WRITE is the register write of its word. -/
theorem write_one_word (hs : s.dev.dst.serves = true) (ha : addr.toNat % 4 = 0) :
    exec (.write 0x38 addr [v] false) s = exec (.registerWrite addr v) { s with dev := s.dev.hpiStart } := by
  have hlt : (addr.toNat + 4 * 0) % 2 ^ 32 = addr.toNat := by
    have := addr.isLt
    omega
  have hw : exec (.write 0x38 addr [v] false) s = .next { s with dev := s.dev.hpiStart.hostWrite s.clk addr.toNat v } :=
    (exec_serving hs rfl).trans (by
      rw [if_neg writeCode_data, if_neg (not_not.mpr rfl), if_neg (by omega)]
      simp only [Bool.false_eq_true, if_false, List.zipIdx_cons, List.zipIdx_nil, List.foldl_cons, List.foldl_nil, hlt])
  have hs' : ({ s with dev := s.dev.hpiStart } : State).dev.dst.serves = true := hs
  rw [hw, registerWrite_aligned hs' ha]

/-! Registers written by their access codes (R13, R14). -/

/-- Bit i of a word after a store under masks: RW and RWS bits take the value, W1C bits written 1 clear, others stay. -/
theorem storeMasked_getLsbD (old v : W32) (m w1 : Nat) {i : Nat} (hi : i < 32) :
    (((old &&& ~~~BitVec.ofNat 32 m) ||| (v &&& BitVec.ofNat 32 m)) &&& ~~~(BitVec.ofNat 32 w1 &&& v)).getLsbD i =
      ((if m.testBit i then v.getLsbD i else old.getLsbD i) && !(w1.testBit i && v.getLsbD i)) := by
  simp only [BitVec.getLsbD_and, BitVec.getLsbD_or, BitVec.getLsbD_not, BitVec.getLsbD_ofNat, hi, decide_true, Bool.true_and]
  cases m.testBit i <;> simp

theorem blockOf_capture (hlo : 0x400B0200 ≤ a) (hhi : a < 0x400C0000) : blockOf a = 11 := by
  rw [blockOf]
  omega

/-- A capture register past the recorders is stored by its access codes and starts nothing (R13, R539). -/
theorem regWrite_capture (hlo : 0x400B0200 ≤ a) (hhi : a < 0x400C0000) : d.regWrite c a v = d.regStore a v := by
  have ho : ¬ (a % 0x10000 < 0x200 ∧ a % 0x10000 % 0x40 = 0x18) := by omega
  rw [Dev.regWrite]
  simp only [blockOf_capture hlo hhi, if_neg ho]

theorem hostWrite_capture (hlo : 0x400B0200 ≤ a) (hhi : a < 0x400C0000) : d.hostWrite c a v = d.regStore a v := by
  have hm : isMapped a = true := by
    simp only [isMapped, isBlock, Bool.or_eq_true, Bool.and_eq_true, decide_eq_true_eq]
    omega
  have hb : isReqBuf a = false := by
    simp only [isReqBuf, Bool.and_eq_false_iff, decide_eq_false_iff_not]
    omega
  have ho : d.hostOwns a = true := by
    rw [Dev.hostOwns]
    simp only [blockOf_capture hlo hhi, true_or, if_true]
  simp only [Dev.hostWrite, hm, hb, ho, Bool.not_true, Bool.false_eq_true, if_false, if_true, regWrite_capture hlo hhi]

/-- A store outside the LOOP block writes one register and no check bits. -/
theorem regStore_eq (hl : isLoopMem a = false) : d.regStore a v = d.setReg a
    (((d.reg a &&& ~~~BitVec.ofNat 32 (regMasks a).1) ||| (v &&& BitVec.ofNat 32 (regMasks a).1)) &&&
      ~~~(BitVec.ofNat 32 (regMasks a).2 &&& v)) := by
  simp only [Dev.regStore, hl, Bool.false_eq_true, if_false]

/-- A write of a capture register past the recorders: its masked bits change, and nothing else (R13). -/
theorem registerWrite_capture (hs : s.dev.dst.serves = true) (ha : addr.toNat % 4 = 0) (hlo : 0x400B0200 ≤ addr.toNat)
    (hhi : addr.toNat < 0x400C0000) :
    ∃ t, exec (.registerWrite addr v) s = .next t ∧ t.clk = s.clk ∧ OnlyRegs (· = addr.toNat) s.dev t.dev ∧
      ∀ i < 32, (t.dev.reg addr.toNat).getLsbD i =
        ((if (regMasks addr.toNat).1.testBit i then v.getLsbD i else (s.dev.reg addr.toNat).getLsbD i) &&
          !((regMasks addr.toNat).2.testBit i && v.getLsbD i)) := by
  have hl : isLoopMem addr.toNat = false := by
    simp only [isLoopMem, Bool.and_eq_false_iff, decide_eq_false_iff_not]
    omega
  refine ⟨_, registerWrite_aligned hs ha, rfl, ?_, fun i hi => ?_⟩
  all_goals simp only [hostWrite_capture hlo hhi, regStore_eq hl]
  · exact .setReg rfl
  · rw [Dev.reg_setReg_self]
    exact storeMasked_getLsbD _ _ _ _ hi

/-! Reads (R361, R363). -/

theorem Dev.hostReads_length : (d.hostReads c a n).1.length = n := by
  induction n generalizing d a with
  | zero => rfl
  | succ n ih => rw [Dev.hostReads, List.length_cons, ih]

/-- The first word lies in the map where all do. -/
theorem anyUnmapped_first (h : anyUnmapped a n = false) : anyUnmapped a (min n 1) = false := by
  simp only [anyUnmapped, List.any_eq_false, List.mem_range] at h ⊢
  exact fun i hi => h i (by omega)

/-- The data of a READ inside the map. -/
theorem Dev.hpiData_mapped (h : anyUnmapped a n = false) : d.hpiData c a n =
    { (d.hostReads c a n).2 with hpio :=
      { bytes := (d.hostReads c a n).2.hpio.bytes ++ [d.statusByte], words := (d.hostReads c a n).1 } } := by
  simp only [Dev.hpiData, h, anyUnmapped_first h, Bool.false_eq_true, if_false]

theorem read_aligned (hs : s.dev.dst.serves = true) (ha : addr.toNat % 4 = 0) :
    let d0 := (s.dev.locksEnd s.clk).hpiStart
    exec (.read addr n) s = .next { s with dev := (if d0.writesHeld then
      { d0 with hpio := { bytes := [d0.statusByte + 1], wait := some (addr.toNat, n) } } else d0.hpiData s.clk addr.toNat n) } :=
  (exec_serving hs rfl).trans (by simp only [if_neg (by omega : ¬ addr.toNat % 4 ≠ 0)])

/-! Register reads over the chain (R411). -/

/-- Word 1 of the reply to a misaligned block: address and count as asked, bit 38 clear, bit 39 set, and the block's SEQ. -/
theorem misalignedReply_fields {a n q : Nat} (ha : a < 2 ^ 32) (hn : n < 2 ^ 6) (hq : q < 2 ^ 16) :
    let w1 : W64 := BitVec.ofNat 64 (a + n * 2 ^ 32 + 0 + 2 ^ 39 + q * 2 ^ 48)
    bits64 w1 39 1 = 1 ∧ bits64 w1 38 1 = 0 ∧ bits64 w1 0 32 = a ∧ bits64 w1 48 16 = q := by
  simp only [bits64, BitVec.toNat_ofNat]
  omega

theorem bits64_lt (x : W64) (lo w : Nat) : bits64 x lo w < 2 ^ w := Nat.mod_lt _ (Nat.two_pow_pos w)

theorem brandSeq_lt (b : W64) : brandSeq b < 2 ^ 16 := bits64_lt b 16 16

/-- A block past its checks, for up to 32 words at a misaligned address, is answered with zero words and bit 39. -/
theorem registerRead_misaligned (hs : s.dev.dst.serves = true) (b : RuoriBlock) (src : BitVec 8) (ht : brandType b.brand = 0x6A)
    (hm : s.dev.blockMine (brandAddr b.brand) = true) (hu : unitValid (brandUnit b.brand) = true)
    (hok : (s.dev.seqCheck (src.toNat + 1) b).1 = true) (hn : bits64 (b.word 1) 32 6 ≤ 32) (ha : bits64 (b.word 1) 0 32 % 4 ≠ 0) :
    ∃ w1, bits64 w1 39 1 = 1 ∧ bits64 w1 38 1 = 0 ∧ bits64 w1 0 32 = bits64 (b.word 1) 0 32 ∧ bits64 w1 48 16 = brandSeq b.brand ∧
      exec (.registerRead b src) s = .next { s with dev := (((s.dev.seqCheck (src.toNat + 1) b).2.pktOneShot s.clk).emitTo src.toNat
        0xFE 0x6B none 0 (w1 :: List.replicate ((bits64 (b.word 1) 32 6 + 1) / 2) 0)) } := by
  obtain ⟨hodd, hclear, haddr, hseq⟩ := misalignedReply_fields (bits64_lt (b.word 1) 0 32) (bits64_lt (b.word 1) 32 6)
    (brandSeq_lt b.brand)
  obtain ⟨ok, d1, hcheck⟩ : ∃ ok d1, s.dev.seqCheck (src.toNat + 1) b = (ok, d1) := ⟨_, _, rfl⟩
  obtain rfl : ok = true := by simpa only [hcheck] using hok
  refine ⟨_, hodd, hclear, haddr, hseq, (exec_serving hs rfl).trans ?_⟩
  have hpass : ¬ (brandType b.brand ≠ 0x6A ∨ (!s.dev.blockMine (brandAddr b.brand)) = true ∨ (!unitValid (brandUnit b.brand)) = true) := by
    simp only [ht, hm, hu, ne_eq, not_true_eq_false, Bool.not_true, Bool.false_eq_true, or_self, not_false_eq_true]
  have hshort : ¬ 32 < bits64 (b.word 1) 32 6 := by omega
  simp only [Dev.registerRead, hcheck, if_neg hpass, hshort, ha, or_self, ne_eq, not_false_eq_true, decide_true, if_true, Bool.not_true,
    Bool.false_and, Bool.false_eq_true, if_false]

end HostPort

end Sys2Proof.Machine

section
open Sys2Proof Sys2Proof.Machine

/-- Settles O25: the port's accesses case by case, each by its own lemma; a READ by whether a write of an earlier transaction is held. -/
theorem hostPortAccesses : Obligations.HostPortAccesses := by
  intro s
  refine ⟨fun hs => ⟨(exec_serving hs rfl).trans rfl, fun k hk => Dev.statusByte_sticky hk, Dev.statusByte_irq,
    fun addr v n ws cut ha => ⟨read_misaligned hs ha, write_misaligned hs ws cut ha, registerWrite_misaligned hs ha⟩,
    fun addr v => registerWrite_unmapped hs, fun addr v => registerWrite_unowned hs,
    fun code addr ws cut => write_protocol hs code ws cut, fun addr v => write_one_word hs,
    fun addr v => registerWrite_capture hs, fun addr n ha => ?read, registerRead_misaligned hs⟩,
    fun hs code addr v n ws cut b src => ⟨exec_silent hs rfl, exec_silent hs rfl, exec_silent hs rfl, exec_silent hs rfl,
      exec_silent hs rfl⟩⟩
  case read =>
    refine ⟨fun hw hm => ⟨?_, Dev.hostReads_length, Dev.statusByte_wait⟩, fun hw => ?_⟩
    · rw [read_aligned hs ha]
      simp only [hw, Bool.false_eq_true, if_false, Dev.hpiData_mapped hm]
    · rw [read_aligned hs ha]
      simp only [hw, if_true]

end

/-! PROOFS. Resets, wake events and shutdowns: what a loss of the core's state leaves (R40, R494, R566, R569, R575, R577). -/

namespace Sys2Proof.Machine

section Registers

variable {d : Dev} {p : Nat → Prop}

/-- A fold of changes confined to the registers in p is confined to them. -/
theorem OnlyRegs.foldl {l : List Nat} {f : Dev → Nat → Dev} (h : ∀ d, ∀ x ∈ l, OnlyRegs p d (f d x)) :
    OnlyRegs p d (l.foldl f d) := by
  induction l generalizing d with
  | nil => exact .refl
  | cons x l ih => exact (h d x (by simp)).trans (ih fun d y hy => h d y (by simp [hy]))

end Registers

section PowerRows

variable {s s1 t : State} {d e : Dev} {st : DevState} {kw ks : Bool} {a bits cause n : Nat} {w ex : Nat → Prop}

/-- The address of a STOPIN bit. -/
def isStopin (a : Nat) : Prop := ∃ g < 4, a = (SAFE_Gg_STAT_STOPIN g).addr

/-- A filter by key keeps what a kept key reads, and every other key reads the default. -/
theorem Tab.get_filter_key {α : Type} {dflt : Nat → α} {t : Tab α} {f : Nat → Bool} :
    Tab.get dflt (t.filter fun p => f p.1) a = if f a then Tab.get dflt t a else dflt a := by
  induction t with
  | nil => simp [Tab.get]
  | cons p t ih =>
    obtain ⟨k, v⟩ := p
    by_cases hk : k = a
    · subst hk
      by_cases hf : f k
      · simp [hf, Tab.get]
      · rw [List.filter_cons_of_neg (by simpa using hf), ih]
        simp [hf]
    · by_cases hf : f k
      · rw [List.filter_cons_of_pos (by simpa using hf)]
        simp [Tab.get, hk, ih]
      · rw [List.filter_cons_of_neg (by simpa using hf), ih]
        simp [Tab.get, hk]

/-- What stands before the STOPIN bits are cleared. -/
def Dev.lostKept (d : Dev) (st : DevState) (kw ks : Bool) : Dev :=
  { dst := st, regs := keptRegs kw ks d.regs, free := d.free, fio := d.fioLost (decide (st = .boot)),
    safe := if ks then { d.safe with watch := false, cfg := none, events := 0 } else {}, safeStore := d.safeStore,
    pow := { d.pow with sleepAt := none, softAt := none, early := 0 } }

theorem Dev.lost_frame : OnlyRegs isStopin (d.lostKept st kw ks) (d.lost st kw ks) :=
  OnlyRegs.foldl fun _ g hg => .setf ⟨g, List.mem_range.mp hg, rfl⟩

theorem Dev.reg_lost (ha : ¬ isStopin a) :
    (d.lost st kw ks).reg a = if (kw && isWakeReg a) || (ks && isSafeReg a) then d.reg a else resetVal a :=
  (Dev.lost_frame.1 a ha).trans (Tab.get_filter_key (f := fun k => (kw && isWakeReg k) || (ks && isSafeReg k)))

theorem Dev.flag_lost_stopin {g : Nat} (hg : g < 4) : (d.lost st kw ks).flag (SAFE_Gg_STAT_STOPIN g) = false := by
  have hne : ∀ {i j : Nat}, i ≠ j → (SAFE_Gg_STAT_STOPIN i).Apart (SAFE_Gg_STAT_STOPIN j) := fun h =>
    .inl (by simp only [SAFE_Gg_STAT_STOPIN]; omega)
  have hbit : ∀ i, (SAFE_Gg_STAT_STOPIN i).IsBit := fun _ => Field.isBit (by decide)
  show (((((d.lostKept st kw ks).setf (SAFE_Gg_STAT_STOPIN 0) false).setf (SAFE_Gg_STAT_STOPIN 1) false).setf
    (SAFE_Gg_STAT_STOPIN 2) false).setf (SAFE_Gg_STAT_STOPIN 3) false).flag _ = false
  match g, hg with
  | 3, _ => exact Dev.flag_setf_self (hbit 3)
  | 2, _ => rw [Dev.flag_setf_apart (hbit 3) (hne (by decide)), Dev.flag_setf_self (hbit 2)]
  | 1, _ => rw [Dev.flag_setf_apart (hbit 3) (hne (by decide)), Dev.flag_setf_apart (hbit 2) (hne (by decide)), Dev.flag_setf_self (hbit 1)]
  | 0, _ => rw [Dev.flag_setf_apart (hbit 3) (hne (by decide)), Dev.flag_setf_apart (hbit 2) (hne (by decide)),
      Dev.flag_setf_apart (hbit 1) (hne (by decide)), Dev.flag_setf_self (hbit 0)]

/-- Device e is d after the loss of the core's state, but for registers in w and the supplies. -/
def Dev.LostTo (d : Dev) (st : DevState) (kw ks : Bool) (w : Nat → Prop) (e : Dev) : Prop :=
  KeepsRegs w (d.lost st kw ks) e ∧ e = { d.lostKept st kw ks with regs := e.regs, pow := e.pow }

theorem Dev.LostTo.refl : d.LostTo st kw ks (fun _ => False) (d.lost st kw ks) := by
  refine ⟨fun _ _ => rfl, ?_⟩
  rw [Dev.lost_frame.2]

/-- A state whose device has lost the core's state, under registers written beside the STOPIN bits. -/
theorem CoreLost.of_lostTo (hr : d.regs = s.dev.regs) (hl : d.LostTo st kw ks w t.dev) (hc : t.clk = {}) (hq : t.pending = s.pending)
    (hw : ∀ a, w a → ex a ∧ ¬ isStopin a) (hst : ∀ a, isStopin a → ex a) : CoreLost s t st kw ks ex := by
  obtain ⟨hk, hd⟩ := hl
  refine ⟨by rw [hd]; rfl, hc, hq, fun a ha => ?_, fun g hg => ?_, fun a => by rw [hd]; rfl, by rw [hd]; exact ⟨rfl, rfl, rfl⟩,
    fun u => by rw [hd]; rfl⟩
  · rw [hk a fun h => ha (hw a h).1, Dev.reg_lost fun h => ha (hst a h), Dev.reg_congr hr]
  · rw [Dev.flag_congr (hk _ fun h => (hw _ h).2 ⟨g, hg, rfl⟩), Dev.flag_lost_stopin hg]

/-- What SYS_RST holds after an entry into BOOT. -/
theorem BootEntry.of_coreLost (h : CoreLost s t .boot kw ks ex) (hc : cause < 2 ^ 16) (hn : n < 2 ^ 16)
    (hcount : n = if cause % 2 = 1 then 0 else satU 16 (s.dev.get SYS_RST_COUNT + 1))
    (hr : t.dev.reg SYS_RST_POR.addr = BitVec.ofNat 32 (cause + n * 65536)) : BootEntry s t cause kw ks ex := by
  refine ⟨h, ?_, ?_⟩
  · rw [hr, BitVec.toNat_ofNat]
    omega
  · rw [← hcount]
    have : t.dev.reg SYS_RST_COUNT.addr = _ := hr
    rw [Dev.get, this, BitVec.toNat_ofNat]
    show (cause + n * 65536) % 2 ^ 32 / 2 ^ 16 % 2 ^ 16 = n
    omega

theorem Dev.LostTo.setReg {v : W32} (h : d.LostTo st kw ks w e) : d.LostTo st kw ks (fun b => w b ∨ b = a) (e.setReg a v) := by
  obtain ⟨hk, he⟩ := h
  refine ⟨fun b hb => ?_, by rw [he]; rfl⟩
  rw [Dev.reg_setReg_ne fun hab => hb (.inr hab.symm), hk b fun h => hb (.inl h)]

theorem Dev.LostTo.put {f : Field} {v : Nat} (h : d.LostTo st kw ks w e) :
    d.LostTo st kw ks (fun b => w b ∨ b = f.addr) (e.put f v) := h.setReg

theorem Dev.LostTo.withPow {p : Power} (h : d.LostTo st kw ks w e) : d.LostTo st kw ks w { e with pow := p } := by
  obtain ⟨hk, he⟩ := h
  exact ⟨hk, by rw [he]⟩

theorem not_isStopin_of_ne (h : a < 0x400F0010 ∨ 0x400F001C < a) : ¬ isStopin a := by
  rintro ⟨g, hg, rfl⟩
  simp only [SAFE_Gg_STAT_STOPIN] at h
  omega

theorem Dev.reg_withPow {p : Power} : Dev.reg { d with pow := p } a = d.reg a := rfl

/-- SYS_RST after an entry into BOOT: the cause, and the count of entries since power-on. -/
theorem State.toBoot_reg_rst : (s.toBoot cause kw ks).dev.reg SYS_RST_POR.addr =
    BitVec.ofNat 32 (cause + (if cause % 2 = 1 then 0 else satU 16 (s.dev.get SYS_RST_COUNT + 1)) * 65536) := by
  rw [State.toBoot, Dev.reg_withPow, Dev.reg_setReg_self]

theorem State.toBoot_lostTo : s.dev.LostTo .boot kw ks (fun b => False ∨ b = SYS_RST_POR.addr) (s.toBoot cause kw ks).dev := by
  rw [State.toBoot]
  exact Dev.LostTo.refl.setReg.withPow

/-- Every entry into BOOT, from a state with the registers and the queue of s (R57, R575). -/
theorem BootEntry.toBoot (hr : s1.dev.regs = s.dev.regs) (hq : s1.pending = s.pending) (hc : cause < 2 ^ 16) :
    BootEntry s (s1.toBoot cause kw ks) cause kw ks resetWrites := by
  have hlost : CoreLost s (s1.toBoot cause kw ks) .boot kw ks resetWrites :=
    .of_lostTo hr State.toBoot_lostTo rfl hq (fun a ha => by
      obtain rfl := ha.resolve_left id
      exact ⟨.inl rfl, not_isStopin_of_ne (by decide)⟩) fun a => .inr
  refine .of_coreLost (n := if cause % 2 = 1 then 0 else satU 16 (s.dev.get SYS_RST_COUNT + 1)) hlost hc ?_ rfl ?_
  · split
    · decide
    · simp only [satU]
      omega
  · rw [State.toBoot_reg_rst, Dev.get_congr (Dev.reg_congr hr)]

/-! Power-on, resets and cooling down (R566, R575, R576, R577, R590). -/

theorem powerCause_lt {b : Bool} : (causePor + if b then causeBor else 0) < 2 ^ 16 := by cases b <;> decide

theorem powerOn_boots (hd : s.dev.dst = .off) (hv : s.dev.pow.vin = false) (hr : s.dev.pow.resetLow = false) (hh : s.dev.pow.hot = false) :
    ∃ t, exec .powerOn s = .next t ∧ t.dev.pow.vin = true ∧ t.dev.pow.brown = false ∧
      BootEntry s t (causePor + if s.dev.pow.brown then causeBor else 0) false false resetWrites := by
  refine ⟨_, ?_, ?_, ?_, BootEntry.toBoot (s1 := { s with dev := { s.dev with pow := { s.dev.pow with vin := true } } }) rfl rfl powerCause_lt⟩
  · show execPowerOn s = _
    simp only [execPowerOn, hd, hv, hr, hh, Dev.powerCause, ne_eq, not_true_eq_false, Bool.false_eq_true, or_self, if_false]
  · rfl
  · rfl

theorem resetNRise_boots (hd : s.dev.dst ≠ .off) (hv : s.dev.pow.vin = true) (hr : s.dev.pow.resetLow = true)
    (hh : s.dev.pow.hot = false) :
    ∃ t, exec .resetNRise s = .next t ∧ t.dev.pow.resetLow = false ∧ BootEntry s t causePin false false resetWrites := by
  refine ⟨_, ?_, ?_, BootEntry.toBoot (s1 := { s with dev := { s.dev with pow := { s.dev.pow with resetLow := false } } }) rfl rfl (by decide)⟩
  · show execResetNRise s = _
    simp only [execResetNRise, hd, hv, hr, hh, Bool.not_true, Bool.false_eq_true, or_self, if_false]
  · rfl

theorem watchdogReset_boots (hs : s.dev.dst.serves = true) :
    ∃ t, exec .watchdogReset s = .next t ∧ BootEntry s t causeWdog true true resetWrites :=
  ⟨s.toBoot causeWdog true true, congrArg Host.Outcome.next (if_pos hs), .toBoot rfl rfl (by decide)⟩

theorem softReset_boots {at_ : Nat} (ha : s.dev.pow.softAt = some at_) (ht : at_ ≤ s.clk.ns) :
    ∃ t, exec .softReset s = .next t ∧ t.dev.pow.softAt = none ∧ BootEntry s t causeSoft true true resetWrites := by
  refine ⟨_, ?_, rfl, .toBoot rfl rfl (by decide)⟩
  show execSoftReset s = _
  simp only [execSoftReset, ha, if_pos ht]

theorem coolDown_boots {degC : Int} (hc : degC < 130) (hh : s.dev.pow.hot = true) (hv : s.dev.pow.vin = true)
    (hr : s.dev.pow.resetLow = false) :
    ∃ t, exec (.coolDown degC) s = .next t ∧ t.dev.pow.hot = false ∧
      BootEntry s t (causePor + if s.dev.pow.brown then causeBor else 0) false false resetWrites := by
  refine ⟨_, ?_, ?_, BootEntry.toBoot (s1 := { s with dev := { s.dev with pow := { s.dev.pow with hot := false } } }) rfl rfl powerCause_lt⟩
  · show execCoolDown degC s = _
    simp only [execCoolDown, not_le.mpr hc, hh, hv, hr, Dev.powerCause, Bool.not_true, Bool.false_eq_true, or_self, if_false]
  · rfl

/-! Wake events (R569, R571, R572, R575). -/

/-- The state that a wake event enters, with its SYS_WAKE bits (R571). -/
structure Woken (s : State) (bits : Nat) (t : State) : Prop where
  entry : BootEntry s t causeWake true false wakeWrites
  source : t.dev.reg SYS_WAKE_WAKEN.addr = BitVec.ofNat 32 bits
  can : t.dev.get CAN_WAKE_STAT_SRC = bits / 4 % 64
  frame : t.dev.get CAN_WAKE_STAT_FRAME = bits / 256 % 2

theorem State.wake_woken : Woken s bits (s.wake bits) := by
  have hl : s.dev.LostTo .boot true false _ (s.wake bits).dev := State.toBoot_lostTo.setReg.put.put
  have hcore : CoreLost s (s.wake bits) .boot true false wakeWrites := by
    refine .of_lostTo rfl hl rfl rfl (fun a ha => ?_) fun a ha => .inl (.inr ha)
    rcases ha with (((ha | rfl) | rfl) | rfl) | rfl
    · exact ha.elim
    · exact ⟨.inl (.inl rfl), not_isStopin_of_ne (by decide)⟩
    · exact ⟨.inr (.inl rfl), not_isStopin_of_ne (by decide)⟩
    · exact ⟨.inr (.inr rfl), not_isStopin_of_ne (by decide)⟩
    · exact ⟨.inr (.inr rfl), not_isStopin_of_ne (by decide)⟩
  refine ⟨.of_coreLost (n := satU 16 (s.dev.get SYS_RST_COUNT + 1)) hcore (by decide) ?_ rfl ?_, ?_, ?_, ?_⟩
  · simp only [satU]
    omega
  · rw [State.wake, Dev.reg_put_ne (by decide), Dev.reg_put_ne (by decide), Dev.reg_setReg_ne (by decide), State.toBoot_reg_rst,
      if_neg (by decide)]
  · rw [State.wake, Dev.reg_put_ne (by decide), Dev.reg_put_ne (by decide), Dev.reg_setReg_self]
  · rw [State.wake, Dev.get_put_disjoint (by decide) (by decide), Dev.get_put_self (by decide)]
    exact Nat.mod_mod _ _
  · rw [State.wake, Dev.get_put_self (by decide)]
    exact Nat.mod_mod _ _

theorem State.wakeEvent_woken (hd : s.dev.dst = .standby ∨ s.dev.dst = .doze) : Woken s bits (s.wakeEvent bits) := by
  rw [State.wakeEvent, if_pos hd]
  exact State.wake_woken

theorem wakeN_wakes {ns : Nat} (hd : s.dev.dst = .standby ∨ s.dev.dst = .doze) (hn : 10000 ≤ ns) (hv : s.dev.pow.vio.testBit 0 = true) :
    ∃ t, exec (.wakeN ns) s = .next t ∧ Woken s 1 t := by
  refine ⟨_, ?_, State.wakeEvent_woken hd⟩
  show execWakeN ns s = _
  simp only [execWakeN, not_lt.mpr hn, hv, Bool.not_true, Bool.false_eq_true, or_self, if_false]

theorem hpiCsNWake_wakes {ns : Nat} (hd : s.dev.dst = .standby ∨ s.dev.dst = .doze) (hn : 100 ≤ ns) (hv : s.dev.pow.vio.testBit 0 = true) :
    ∃ t, exec (.hpiCsNWake ns) s = .next t ∧ Woken s 2 t := by
  refine ⟨_, ?_, State.wakeEvent_woken hd⟩
  show execHpiCsNWake ns s = _
  simp only [execHpiCsNWake, not_lt.mpr hn, hv, Bool.not_true, Bool.false_eq_true, or_self, if_false]

theorem canEdgeWake_wakes {ns : Nat} (ch : Fin 6) (hd : s.dev.dst = .standby ∨ s.dev.dst = .doze) (hn : s.dev.wakeFilter ≤ ns)
    (hv : s.dev.pow.vio.testBit 5 = true)
    (hm : (s.dev.get (if s.dev.dst = .doze then CAN_WAKE_CFG_DMSK else CAN_WAKE_CFG_SMSK)).testBit ch.val = true) :
    ∃ t, exec (.canEdgeWake ch ns) s = .next t ∧ Woken s (2 ^ (2 + ch.val)) t := by
  refine ⟨_, ?_, State.wakeEvent_woken hd⟩
  show execCanEdgeWake ch ns s = _
  rcases hd with h | h
  · have hl : s.dev.lowPower = some .standby := by rw [Dev.lowPower, h]
    rw [h, if_neg (by decide)] at hm
    simp only [execCanEdgeWake, hl, hm, hn, hv, and_self, if_true]
  · have hl : s.dev.lowPower = some .doze := by rw [Dev.lowPower, h]
    rw [h, if_pos rfl] at hm
    simp only [execCanEdgeWake, hl, hm, hn, hv, and_self, if_true]

theorem canWakeFrame_wakes (ch : Fin 6) (f : CanFrame) (hd : s.dev.dst = .doze) (hm : s.dev.wakeMatch ch f = true)
    (hv : s.dev.pow.vio.testBit 5 = true) : ∃ t, exec (.canWakeFrame ch f) s = .next t ∧ Woken s (2 ^ (2 + ch.val) + 256) t := by
  refine ⟨_, ?_, State.wakeEvent_woken (.inr hd)⟩
  have hl : s.dev.lowPower = some .doze := by rw [Dev.lowPower, hd]
  exact congrArg Host.Outcome.next (if_pos ⟨hl, hm, hv⟩)

/-- At the entry instant of a shutdown a held wake event enters BOOT with EARLY (R572). -/
theorem standbyEntry_wakes {at_ : Nat} (hd : s.dev.dst = .ready) (ha : s.dev.pow.sleepAt = some (at_, st)) (ht : at_ ≤ s.clk.ns)
    (he : s.dev.pow.early ≠ 0) : ∃ t, exec .standbyEntry s = .next t ∧ Woken s (s.dev.pow.early ||| wakeEarly) t := by
  refine ⟨_, ?_, State.wake_woken⟩
  show execStandbyEntry s = _
  simp only [execStandbyEntry, ha, not_lt.mpr ht, hd, he, ne_eq, not_true_eq_false, not_false_eq_true, or_self, if_false, if_true]

/-! Shutdowns and RESET_N low (R40, R494, R566, R569, R570, R576, R590). -/

/-- The core's state lost, with nothing beside the STOPIN bits written. -/
theorem CoreLost.of_lost (hl : s.dev.LostTo st kw ks (fun _ => False) t.dev) (hc : t.clk = {}) (hq : t.pending = s.pending) :
    CoreLost s t st kw ks isStopin :=
  .of_lostTo rfl hl hc hq (fun _ h => h.elim) fun _ h => h

theorem brownOut_loses : ∃ t, exec .brownOut s = .next t ∧ t.dev.pow.vin = false ∧ t.dev.pow.brown = true ∧
    CoreLost s t .off false false isStopin :=
  ⟨_, rfl, rfl, rfl, .of_lost Dev.LostTo.refl.withPow rfl rfl⟩

theorem overTemperature_loses {degC : Int} (hc : 150 < degC) (hh : s.dev.pow.hot = false) :
    ∃ t, exec (.overTemperature degC) s = .next t ∧ t.dev.pow.hot = true ∧ CoreLost s t .off false false isStopin := by
  refine ⟨{ s.toOff with dev := { s.toOff.dev with pow := { s.toOff.dev.pow with hot := true } } }, ?_, rfl, .of_lost Dev.LostTo.refl.withPow rfl rfl⟩
  exact congrArg Host.Outcome.next (if_neg (by simp [hh, hc]))

theorem standbyEntry_loses {at_ : Nat} (hd : s.dev.dst = .ready) (ha : s.dev.pow.sleepAt = some (at_, st)) (ht : at_ ≤ s.clk.ns)
    (he : s.dev.pow.early = 0) :
    ∃ t, exec .standbyEntry s = .next t ∧ t.dev.pow.sleepAt = none ∧ CoreLost s t st true false isStopin := by
  refine ⟨{ s with clk := {}, dev := s.dev.lost st true false }, ?_, rfl, .of_lost Dev.LostTo.refl rfl rfl⟩
  show execStandbyEntry s = _
  simp only [execStandbyEntry, ha, not_lt.mpr ht, hd, he, ne_eq, not_true_eq_false, or_self, if_false]

theorem standbyEntry_elsewhere (hd : s.dev.dst ≠ .ready) : exec .standbyEntry s = .next s := by
  show execStandbyEntry s = _
  unfold execStandbyEntry
  cases s.dev.pow.sleepAt with
  | none => rfl
  | some p => exact congrArg Host.Outcome.next (if_pos (.inr hd))

theorem resetNLow_holds {ns : Nat} (hn : 1000 ≤ ns) (hd : s.dev.dst ≠ .off) :
    ∃ t, exec (.resetNLow ns) s = .next t ∧ t.dev.pow.resetLow = true ∧ t.dev.get SYS_RST_COUNT = s.dev.get SYS_RST_COUNT ∧
      CoreLost s t .boot false false resetWrites := by
  let d := (s.dev.lost .boot false false).put SYS_RST_COUNT (s.dev.get SYS_RST_COUNT)
  refine ⟨{ s with clk := {}, dev := { d with pow := { d.pow with resetLow := true } } }, ?_, rfl, ?_, ?_⟩
  · show execResetNLow ns s = _
    simp only [execResetNLow, not_lt.mpr hn, hd, if_false, d]
  · have hget : Dev.get { d with pow := { d.pow with resetLow := true } } SYS_RST_COUNT = d.get SYS_RST_COUNT :=
      Dev.get_congr Dev.reg_withPow
    rw [hget, Dev.get_put_self (by decide)]
    exact Nat.mod_mod _ _
  · refine .of_lostTo rfl (Dev.LostTo.refl.put.withPow) rfl rfl (fun a ha => ?_) fun a => .inr
    obtain rfl := ha.resolve_left id
    exact ⟨.inl rfl, not_isStopin_of_ne (by decide)⟩

end PowerRows

end Sys2Proof.Machine

section
open Sys2Proof Sys2Proof.Machine

/-- Settles O7: each source takes its row to State.toBoot, whose entry is BootEntry.toBoot. -/
theorem powerSourcesEnterBoot : Obligations.PowerSourcesEnterBoot := fun _ =>
  ⟨powerOn_boots, resetNRise_boots, watchdogReset_boots, fun _ => softReset_boots, fun _ => coolDown_boots⟩

/-- Settles O8: each accepted event takes its row to State.wake; too short a pulse fails the row's first guard. -/
theorem wakeEventsEnterBoot : Obligations.WakeEventsEnterBoot := by
  intro s woken
  have hw : ∀ {i bits}, (∃ t, exec i s = .next t ∧ Woken s bits t) → ∃ t, exec i s = .next t ∧ woken bits t :=
    fun ⟨t, hx, h⟩ => ⟨t, hx, h.entry, h.source, h.can, h.frame⟩
  exact ⟨fun hd => ⟨fun ns hn hv => hw (wakeN_wakes hd hn hv), fun ns hn hv => hw (hpiCsNWake_wakes hd hn hv),
      fun ch ns hn hv hm => hw (canEdgeWake_wakes ch hd hn hv hm)⟩,
    fun hd ch f hm hv => hw (canWakeFrame_wakes ch f hd hm hv),
    fun at_ st hd ha ht he => hw (standbyEntry_wakes hd ha ht he),
    fun ns hn => congrArg Host.Outcome.next (if_pos (.inl hn)), fun ns hn => congrArg Host.Outcome.next (if_pos (.inl hn))⟩

/-- Settles O9: each shutdown leaves what Dev.lost leaves; the other guards leave the state alone. -/
theorem shutdownsLoseTheCore : Obligations.ShutdownsLoseTheCore := fun _ =>
  ⟨brownOut_loses, fun _ => overTemperature_loses, fun _ _ hd ha _ ht he => standbyEntry_loses hd ha ht he, standbyEntry_elsewhere,
    fun _ => resetNLow_holds, fun _ hn => congrArg Host.Outcome.next (if_pos hn)⟩

end

/-! PROOFS. Rows of BOOT, and the pins of a VIO bank (R41, R221, R565, R583). -/

namespace Sys2Proof.Machine

section BootRows

variable {s : State} {d e : Dev} {c : Clock} {n b j u x : Nat} {up : Bool} {l : List Nat}

/-! One bit of a mask replaced. -/

/-- The number n with bit b taken out and put back as up. -/
def replaceBit (n b : Nat) (up : Bool) : Nat := n - (if n.testBit b then 2 ^ b else 0) + if up then 2 ^ b else 0

theorem replaceBit_succ_half : replaceBit n (b + 1) up / 2 = replaceBit (n / 2) b up := by
  simp only [replaceBit, Nat.testBit_succ, pow_succ]
  split <;> split <;> omega

theorem replaceBit_succ_parity : replaceBit n (b + 1) up % 2 = n % 2 := by
  simp only [replaceBit]
  split
  · next h =>
    have hge : 2 ^ (b + 1) ≤ n := Nat.ge_two_pow_of_testBit h
    rw [pow_succ] at hge ⊢
    split <;> omega
  · rw [pow_succ]
    split <;> omega

theorem replaceBit_zero : replaceBit n 0 up = 2 * (n / 2) + up.toNat := by
  simp only [replaceBit, Nat.testBit_zero, decide_eq_true_eq]
  cases up <;> split <;> simp only [Bool.toNat_false, Bool.toNat_true, Bool.false_eq_true, if_true, if_false] <;> omega

theorem testBit_replaceBit : (replaceBit n b up).testBit j = if j = b then up else n.testBit j := by
  induction b generalizing n j with
  | zero =>
    rw [replaceBit_zero]
    cases j with
    | zero => cases up <;> simp [Nat.testBit_zero] 
    | succ j => 
      have : (2 * (n / 2) + up.toNat) / 2 = n / 2 := by have := up.toNat_lt; omega
      rw [Nat.testBit_succ, this, if_neg (by omega), Nat.testBit_succ]
  | succ b ih =>
    cases j with
    | zero => rw [Nat.testBit_zero, replaceBit_succ_parity, if_neg (by omega), Nat.testBit_zero]
    | succ j => rw [Nat.testBit_succ, replaceBit_succ_half, ih, Nat.testBit_succ]; simp only [Nat.add_right_cancel_iff]

theorem Dev.setVio_vio : (d.setVio b up).pow.vio = replaceBit d.pow.vio b up := rfl

/-! Pins of the lanes (R221). -/

/-- The register that shows the pins of lane u. -/
def pinAddr (u : Nat) : Nat := if u < 24 then (PWM_Lnn_OUT_LEVEL u).addr else (PWM_Ss_OUT_LEVEL (u - 24)).addr

theorem isPinReg_pinAddr (hu : u < 32) : isPinReg (pinAddr u) := by
  unfold pinAddr
  split
  · next h => exact .inl ⟨u, h, rfl⟩
  · exact .inr ⟨u - 24, by omega, rfl⟩

theorem pinAddr_ne (h : x ≠ u) (hx : x < 32) (hu : u < 32) : pinAddr x ≠ pinAddr u := by
  unfold pinAddr
  split <;> split <;> simp only [PWM_Lnn_OUT_LEVEL, PWM_Ss_OUT_LEVEL] <;> omega

theorem Dev.showUnit_eq (d : Dev) (c : Clock) (u : Nat) : ∃ w, d.showUnit c u = d.setReg (pinAddr u) w := by
  unfold Dev.showUnit pinAddr
  split <;> exact ⟨_, rfl⟩

theorem Dev.showAll_frame : OnlyRegs isPinReg d (d.showAll c) :=
  OnlyRegs.foldl fun d u hu => by
    obtain ⟨w, hw⟩ := d.showUnit_eq c u
    exact hw ▸ .setReg (isPinReg_pinAddr (List.mem_range.mp hu))

theorem Dev.showUnit_pow : (d.showUnit c u).pow = d.pow := by
  obtain ⟨w, hw⟩ := d.showUnit_eq c u
  rw [hw, Dev.setReg_pow]

theorem Dev.pinsDriven_congr (h : d.reg (pinAddr u) = e.reg (pinAddr u)) : d.pinsDriven u = e.pinsDriven u := by
  unfold pinAddr at h
  unfold Dev.pinsDriven
  split
  · next hu => exact Dev.get_congr (by rwa [if_pos hu] at h)
  · next hu => exact Dev.get_congr (by rwa [if_neg hu] at h)

theorem Dev.pinsDriven_showUnit_ne (h : x ≠ u) (hx : x < 32) (hu : u < 32) : (d.showUnit c x).pinsDriven u = d.pinsDriven u := by
  obtain ⟨w, hw⟩ := d.showUnit_eq c x
  rw [hw]
  exact Dev.pinsDriven_congr (Dev.reg_setReg_ne (pinAddr_ne h hx hu))

/-- A lane whose bank is down drives no pin. -/
theorem Dev.pinsDriven_showUnit_self (hb : d.pow.vio.testBit (bankOf u) = false) : (d.showUnit c u).pinsDriven u = 0 := by
  unfold Dev.showUnit Dev.pinsDriven
  split
  · have hreg : (d.showLane u).reg (PWM_Lnn_OUT_DRV u).addr = BitVec.ofNat 32 (d.ostate u * 2 ^ 16) := by
      rw [Dev.showLane]
      refine Dev.reg_setReg_self.trans ?_
      simp only [hb, Bool.and_false, Bool.false_and, Bool.false_eq_true, if_false, Nat.zero_mul, Nat.add_zero]
      exact congrArg (BitVec.ofNat 32) (Nat.zero_add _)
    rw [Dev.get, hreg, BitVec.toNat_ofNat]
    show d.ostate u * 2 ^ 16 % 2 ^ 32 / 2 ^ 8 % 2 ^ 6 = 0
    omega
  · have hu : 24 + (u - 24) = u := by omega
    have hreg : (d.showStp c (u - 24)).reg (PWM_Ss_OUT_DRV (u - 24)).addr = BitVec.ofNat 32 (d.ostate u * 2 ^ 8) := by
      rw [Dev.showStp]
      refine Dev.reg_setReg_self.trans ?_
      simp only [hu, hb, Bool.and_false, Bool.not_false, Bool.false_eq_true, if_true, if_false, Nat.zero_add]
    rw [Dev.get, hreg, BitVec.toNat_ofNat]
    show d.ostate u * 2 ^ 8 % 2 ^ 32 / 2 ^ 4 % 2 ^ 4 = 0
    omega

/-- Once shown undriven, a lane whose bank is down stays so while other lanes are shown. -/
theorem Dev.pinsDriven_showUnits_zero (hl : ∀ x ∈ l, x < 32) (hu : u < 32) (hb : d.pow.vio.testBit (bankOf u) = false)
    (h : u ∈ l ∨ d.pinsDriven u = 0) : (l.foldl (fun d x => d.showUnit c x) d).pinsDriven u = 0 := by
  induction l generalizing d with
  | nil => exact h.resolve_left (by simp)
  | cons x l ih =>
    refine ih (fun y hy => hl y (by simp [hy])) (by rwa [Dev.showUnit_pow]) ?_
    by_cases hx : x = u
    · exact .inr (hx ▸ Dev.pinsDriven_showUnit_self (hx ▸ hb))
    · refine h.imp (fun h => (List.mem_cons.mp h).resolve_left (Ne.symm hx)) fun h => ?_
      rw [Dev.pinsDriven_showUnit_ne hx (hl x (by simp)) hu, h]

/-! The rows (R41, R565). -/

/-- A bank's supply bit set to up, and every lane's pins shown anew. -/
theorem vio_row {i : Instr} {bank : Fin 6} (hx : exec i s = .next { s with dev := (s.dev.setVio bank.val up).showAll s.clk }) :
    ∃ t, exec i s = .next t ∧ t.dev.pow.vio.testBit bank.val = up ∧ t.clk = s.clk ∧
      (∀ b, b ≠ bank.val → t.dev.pow.vio.testBit b = s.dev.pow.vio.testBit b) ∧
      t.dev = { s.dev with regs := t.dev.regs, pow := { s.dev.pow with vio := t.dev.pow.vio } } ∧ KeepsRegs isPinReg s.dev t.dev ∧
      ∀ u < 32, bankOf u = bank.val → up = false → t.dev.pinsDriven u = 0 := by
  have hzero : ∀ u < 32, bankOf u = bank.val → up = false → ((s.dev.setVio bank.val up).showAll s.clk).pinsDriven u = 0 := by
    intro u hu hbank hup
    refine Dev.pinsDriven_showUnits_zero (fun x => List.mem_range.mp) hu ?_ (.inl (List.mem_range.mpr hu))
    rw [hbank, Dev.setVio_vio, testBit_replaceBit, if_pos rfl, hup]
  obtain ⟨hk, hd⟩ : OnlyRegs isPinReg (s.dev.setVio bank.val up) ((s.dev.setVio bank.val up).showAll s.clk) := Dev.showAll_frame
  generalize (s.dev.setVio bank.val up).showAll s.clk = e at hx hzero hk hd
  have hvio : e.pow.vio = replaceBit s.dev.pow.vio bank.val up := by rw [hd]; rfl
  refine ⟨_, hx, ?_, rfl, fun b hb => ?_, ?_, fun a ha => hk a ha, hzero⟩
  · rw [hvio, testBit_replaceBit, if_pos rfl]
  · rw [hvio, testBit_replaceBit, if_neg hb]
  · calc e = { s.dev.setVio bank.val up with regs := e.regs } := hd
      _ = { s.dev with regs := e.regs, pow := { s.dev.pow with vio := e.pow.vio } } := by rw [hvio]; rfl

theorem bootFailure_shows {cause : BitVec 3} (hd : s.dev.dst = .boot) (hr : s.dev.pow.resetLow = false) (h0 : cause ≠ 0) (h7 : cause ≠ 7) :
    ∃ t, exec (.bootFailure cause) s = .next t ∧ t.dev.dst = .boot ∧ t.dev.get SYS_BOOT_CAUSE = cause.toNat ∧ t.clk = s.clk ∧
      t.pending = s.pending ∧ OnlyRegs (· = SYS_BOOT_CAUSE.addr) s.dev t.dev := by
  refine ⟨{ s with dev := s.dev.put SYS_BOOT_CAUSE cause.toNat }, ?_, hd, ?_, rfl, rfl, .put rfl⟩
  · exact congrArg Host.Outcome.next (if_pos ⟨hd, by simp [hr], h0, h7⟩)
  · rw [Dev.get_put_self (by decide)]
    exact Nat.mod_eq_of_lt cause.isLt

end BootRows

end Sys2Proof.Machine

section
open Sys2Proof Sys2Proof.Machine

/-- Settles O10: the causes of BOOT, BOOTST and REF_LOST by their rows' guards, the banks by Dev.showAll's frame. -/
theorem bootRows : Obligations.BootRows := fun s =>
  ⟨fun _ => bootFailure_shows, fun hd => congrArg Host.Outcome.next (if_neg hd), fun hs => exec_serving (h := fun c d => d.deviceFault c 34 0x6E 0 true) hs rfl,
    fun bank => by
      obtain ⟨t, hx, hup, hc, hb, hd, hk, -⟩ := vio_row (s := s) (i := .vioBankRise bank) (bank := bank) (up := true) rfl
      exact ⟨t, hx, hup, hc, hb, hd, hk⟩,
    fun bank => by
      obtain ⟨t, hx, hup, hc, hb, hd, hk, hz⟩ := vio_row (s := s) (i := .vioBankFall bank) (bank := bank) (up := false) rfl
      exact ⟨t, hx, hup, hc, hb, hd, hk, fun u hu hbank => hz u hu hbank rfl⟩⟩

end

/-! PROOFS. Every row: a next state, the queue as it was, and for a request row the verdict of its command (R39, R371, R374, R549). -/

namespace Sys2Proof.Machine

section Rows

variable {s : State} {i : Instr} {q : Request} {opc : Nat}

theorem State.onSafety_pending {f : Clock → Dev → Dev} : (s.onSafety f).pending = s.pending := by
  unfold State.onSafety
  split <;> rfl

theorem ite_pending {p : Prop} [Decidable p] {t u : State} (ht : t.pending = s.pending) (hu : u.pending = s.pending) :
    (if p then t else u).pending = s.pending := by
  split
  · exact ht
  · exact hu

/-- Every row answers a next state with the queue it was given: an event while the device serves, an event whatever the state, a request, a
Shosto instruction, an event of the safety unit, or a row of the supplies, which chooses between s and an entry by its guards. -/
theorem exec_completes : ∃ t, exec i s = .next t ∧ t.pending = s.pending := by
  cases i with
  | powerOn => exact ⟨_, rfl, ite_pending rfl (ite_pending rfl rfl)⟩
  | brownOut => exact ⟨_, rfl, rfl⟩
  | resetNLow ns => exact ⟨_, rfl, ite_pending rfl (ite_pending rfl rfl)⟩
  | resetNRise => exact ⟨_, rfl, ite_pending rfl (ite_pending rfl (ite_pending rfl rfl))⟩
  | watchdogReset => exact ⟨_, rfl, ite_pending rfl rfl⟩
  | softReset =>
    refine ⟨_, rfl, ?_⟩
    split
    · exact ite_pending rfl rfl
    · rfl
  | standbyEntry =>
    refine ⟨_, rfl, ?_⟩
    split
    · rfl
    · exact ite_pending rfl (ite_pending rfl rfl)
  | wakeN ns => exact ⟨_, rfl, ite_pending rfl State.wakeEvent_pending⟩
  | hpiCsNWake ns => exact ⟨_, rfl, ite_pending rfl State.wakeEvent_pending⟩
  | canEdgeWake ch ns => exact ⟨_, rfl, ite_pending State.wakeEvent_pending rfl⟩
  | canWakeFrame ch f => exact ⟨_, rfl, ite_pending State.wakeEvent_pending rfl⟩
  | overTemperature degC => exact ⟨_, rfl, ite_pending rfl rfl⟩
  | coolDown degC => exact ⟨_, rfl, ite_pending rfl (ite_pending rfl rfl)⟩
  | bootFailure cause => exact ⟨_, rfl, ite_pending rfl rfl⟩
  | bootst => exact ⟨_, rfl, ite_pending rfl rfl⟩
  | bootComplete b => exact ⟨_, rfl, ite_pending State.onDev_pending rfl⟩
  | vioBankRise bank => exact ⟨_, rfl, State.onDev_pending⟩
  | vioBankFall bank => exact ⟨_, rfl, State.onDev_pending⟩
  | _ =>
    exact ⟨_, rfl, by simp only [↓State.onServing_pending, ↓State.command_pending, ↓State.shosto_pending, ↓State.onDev_pending,
      ↓State.onSafety_pending]⟩

/-- A row of a request is its opcode's command. -/
theorem requestOf_command (h : requestOf i = some (opc, q)) :
    ∃ f, commandOf opc = some f ∧ ∀ s, exec i s = .next (s.command opc f q) := by
  cases i <;> cases h <;> exact ⟨_, rfl, fun _ => rfl⟩

end Rows

end Sys2Proof.Machine

section
open Sys2Proof Sys2Proof.Machine

/-- Settles O13: each row is State.command of its opcode's function, whose verdicts the laws of the frame give. -/
theorem requestsAnsweredByVerdict : Obligations.RequestsAnsweredByVerdict := by
  intro i opc q s h
  obtain ⟨f, hf, hx⟩ := requestOf_command h
  simp only [hx]
  exact ⟨f, hf, fun hs => congrArg _ (State.command_silent hs), fun hs hm _ _ _ hv hc => congrArg _ (State.command_refuse hv hs hm hc),
    fun _ _ hv hs => congrArg _ (State.command_done hv hs), fun _ _ hv hs => congrArg _ (State.command_accept hv hs),
    fun _ _ hv hs => congrArg _ (State.command_acceptOnly hv hs),
    fun _ _ hv hs hm ht => congrArg _ (State.command_tooLate hv hs hm ht)⟩

/-- Settles O3, by the shapes of the rows. -/
theorem everyCommandCompletes : Obligations.EveryCommandCompletes := fun _ _ => exec_completes

end

/-! PROOFS. Commands: a list of conditions none of which holds, and the answers of the rows that pass (R371, R374). -/

namespace Sys2Proof.Machine

section Commands

variable {s : State} {q : Request} {i : Instr} {opc p t : Nat} {d : Dev} {f : CmdFn} {conds : List (Bool × Nat)} {k : Unit → Verdict}

theorem firstRefusal_none (h : ∀ p ∈ conds, p.1 = false) : firstRefusal conds = none := by
  induction conds with
  | nil => rfl
  | cons x l ih =>
    rw [firstRefusal, h x (by simp), if_neg Bool.false_ne_true, ih fun p hp => h p (by simp [hp])]

/-- A command none of whose conditions holds goes on. -/
theorem refuseIf_pass (h : ∀ p ∈ conds, p.1 = false) : refuseIf conds k = k () := by
  rw [refuseIf, firstRefusal_none h]

/-- A command whose first condition fails and whose second holds is refused with the second's code. -/
theorem refuseIf_second {a b : Bool} {x y : Nat} (ha : a = false) (hb : b = true) : refuseIf ((a, x) :: (b, y) :: conds) k = .refuse y 31 0 := by
  rw [refuseIf, firstRefusal, ha, if_neg Bool.false_ne_true, firstRefusal, hb, if_pos rfl]

theorem exec_accepts (hx : exec i s = .next (s.command opc f q)) (h : f s.clk s.clk.ns q s.dev = .accept p d) (hs : Served s q opc p) :
    exec i s = .next (s.accepted opc q p d) := hx.trans (congrArg _ (State.command_accept h hs))

theorem exec_done {r : Rsp} (hx : exec i s = .next (s.command opc f q)) (h : f s.clk s.clk.ns q s.dev = .done r d)
    (hs : Served s q opc s.clk.ns) : exec i s = .next (s.done opc q d r) := hx.trans (congrArg _ (State.command_done h hs))

/-! loop.mode and loop.set (R274). -/

theorem loopCommand_accepts {bad : Request → Bool} {mk : Request → Nat → LoopCmd} {c : Clock} {tref b : Nat} (hb : b < 16)
    (hq : q.target.toNat = 0x40 + b) (hl : q.payload.length = 1) (hr : d.isReleased 10 b = false) (hbad : bad q = false)
    (ht : t = d.loopNext c.ns b (max (q.at_ tref) (tref + d.loopT b)))
    (hc : ((d.setLoopX b { d.loopX b with pend := (d.loopX b).pend ++ [mk q t] }).enrol (slotLoop b)).fitsCap 30 = true)
    (hin : tooLate q tref t = false) :
    loopCommand bad mk c tref q d =
      .accept t ((d.setLoopX b { d.loopX b with pend := (d.loopX b).pend ++ [mk q t] }).enrol (slotLoop b)) := by
  have hsub : q.target.toNat - 0x40 = b := by omega
  have hrange : ¬ (q.target.toNat < 0x40 ∨ 0x4F < q.target.toNat) := by omega
  rw [loopCommand, hsub, ← ht, refuseIf_pass (by simp [hrange, hl, hbad, hr])]
  simp only [hin, hc, Bool.not_true, Bool.false_eq_true, if_false]

end Commands

/-! sys.release (R49, R51, R387). -/

section Ownership

variable {s : State} {q : Request} {d : Dev} {n k : Nat} {l : List Nat}

theorem mem_insId : n ∈ insId k l ↔ n = k ∨ n ∈ l := by
  induction l with
  | nil => simp [insId]
  | cons j r ih =>
    unfold insId
    split
    · simp
    · split
      · next h => simp [h]
      · simp only [List.mem_cons, ih]
        tauto

theorem sysFormat_ok (ht : q.target = 0xFE) (hl : q.payload.length = n) : sysFormat q n = false := by
  simp [sysFormat, ht, hl]

theorem Dev.judged_of_no_change {u : Nat} (h : (d.lane u).chg = []) : d.judged u = (d.lane u).state := by
  rw [Dev.judged, h]
  rfl

/-- The block is released at the end, no other is taken back, and nothing but the lists of released blocks and copies differs. -/
theorem cmdSysRelease_done {c : Clock} {tref : Nat} (ht : q.target = 0xFE) (hl : q.payload.length = 1) (hz : bits64 (q.pw 0) 16 48 = 0)
    (hm : mayTake (bits64 (q.pw 0) 0 8) (bits64 (q.pw 0) 8 8) = true)
    (hu : ∀ u ∈ laneOfInst (bits64 (q.pw 0) 0 8) (bits64 (q.pw 0) 8 8), (d.lane u).state = .disabled ∧ (d.lane u).chg = []) :
    ∃ e, cmdSysRelease c tref q d = .done {} e ∧ e.released.contains (bits64 (q.pw 0) 0 8 * 256 + bits64 (q.pw 0) 8 8) = true ∧
      (∀ k, d.released.contains k = true → e.released.contains k = true) ∧ e = { d with released := e.released, copies := e.copies } := by
  have hfree : ((laneOfInst (bits64 (q.pw 0) 0 8) (bits64 (q.pw 0) 8 8)).any fun u =>
      !((d.lane u).state = .disabled && d.judged u = .disabled)) = false := by
    simp only [List.any_eq_false]
    intro u hmem
    obtain ⟨hst, hchg⟩ := hu u hmem
    simp [hst, Dev.judged_of_no_change hchg]
  rw [cmdSysRelease, refuseIf_pass (by simp only [List.forall_mem_cons, sysFormat_ok ht hl, hz, hm, hfree]; simp)]
  by_cases hr : d.released.contains (bits64 (q.pw 0) 0 8 * 256 + bits64 (q.pw 0) 8 8) = true
  · exact ⟨d, if_pos hr, hr, fun _ h => h, rfl⟩
  · refine ⟨_, if_neg hr, ?_, fun k hk => ?_, rfl⟩
    · exact List.contains_iff_mem.mpr (mem_insId.mpr (.inl rfl))
    · exact List.contains_iff_mem.mpr (mem_insId.mpr (.inr (List.contains_iff_mem.mp hk)))

theorem cmdSysReclaim_accepts {c : Clock} {tref : Nat} (ht : q.target = 0xFE) (hl : q.payload.length = 1)
    (hz : bits64 (q.pw 0) 16 48 = 0) (hm : mayTake (bits64 (q.pw 0) 0 8) (bits64 (q.pw 0) 8 8) = true) :
    cmdSysReclaim c tref q d = .accept (tref + 1000000) { d with imgs := d.imgs ++
      [{ group := reclaimKey, from_ := tref + 1000000, due := tref + 1000000,
         pairs := [(bits64 (q.pw 0) 0 8, bits64 (q.pw 0) 8 8)], work := some q.id }] } := by
  rw [cmdSysReclaim, refuseIf_pass (by simp [sysFormat_ok ht hl, hz, hm])]

/-- The format of reg.write: TARGET 0xFE, at least one pair, every address a multiple of 4. -/
theorem regWrite_format (ht : q.target = 0xFE) (hp : q.payload ≠ []) (ha : ∀ p ∈ q.image, p.1 % 4 = 0) :
    (decide (q.target ≠ 0xFE) || q.image.isEmpty || q.image.any fun p => decide (p.1 % 4 ≠ 0)) = false := by
  have himg : q.image.isEmpty = false := by simpa [Request.image] using hp
  simpa [ht, himg] using fun a b hab => ha (a, b) hab

theorem cmdRegWrite_done {c : Clock} {tref : Nat} (ht : q.target = 0xFE) (hp : q.payload ≠ []) (ha : ∀ p ∈ q.image, p.1 % 4 = 0)
    (ho : ∀ p ∈ q.image, isMapped p.1 = true → d.hostOwns p.1 = true) :
    cmdRegWrite c tref q d = .done {} (q.image.foldl (fun d p =>
      if isMapped p.1 then d.regWrite c p.1 (BitVec.ofNat 32 p.2) else d.setHpi 5) d) := by
  have howned : (q.image.any fun p => isMapped p.1 && !d.hostOwns p.1) = false := by
    simp only [List.any_eq_false]
    intro p hmem
    by_cases hmap : isMapped p.1 = true
    · simp [ho p hmem hmap]
    · simp [hmap]
  rw [cmdRegWrite, refuseIf_pass (by simp only [List.forall_mem_cons, regWrite_format ht hp ha, howned]; simp)]

theorem cmdRegWrite_refuses {c : Clock} {tref : Nat} (ht : q.target = 0xFE) (hp : q.payload ≠ []) (ha : ∀ p ∈ q.image, p.1 % 4 = 0)
    (ho : ∃ p ∈ q.image, isMapped p.1 = true ∧ d.hostOwns p.1 = false) : cmdRegWrite c tref q d = .refuse rcRegOwned 31 0 := by
  obtain ⟨p, hmem, hmap, hown⟩ := ho
  rw [cmdRegWrite, refuseIf_second (regWrite_format ht hp ha) (List.any_eq_true.mpr ⟨p, hmem, by simp [hmap, hown]⟩)]

end Ownership

end Sys2Proof.Machine

section
open Sys2Proof Sys2Proof.Machine

/-- Settles O19: both commands are loopCommand, whose format the bits of the payload word pass. -/
theorem loopModeAndSetWaitForTakeover : Obligations.LoopModeAndSetWaitForTakeover := by
  intro q s b hb hq hl hr t waits
  refine ⟨fun hm hz hc hs => ?_, fun hz hc hs => ?_⟩
  · exact exec_accepts rfl (loopCommand_accepts hb hq hl hr (by simp [hz]; omega) rfl hc hs.inTime) hs
  · exact exec_accepts rfl (loopCommand_accepts hb hq hl hr (by simp [hz]) rfl hc hs.inTime) hs

/-- Settles O21, each command by its own lemma. -/
theorem ownershipCommands : Obligations.OwnershipCommands := by
  intro q s ht
  refine ⟨fun hl hz hm hu hs => ?_, fun hl hz hm hs => ?_, fun hp ha => ⟨fun ho hs => ?_, fun ho hs hm => ?_⟩⟩
  · obtain ⟨d, hd, hrel, hkeep, hframe⟩ := cmdSysRelease_done (c := s.clk) (tref := s.clk.ns) ht hl hz hm hu
    exact ⟨d, exec_done rfl hd hs, hrel, hkeep, hframe⟩
  · exact ⟨_, exec_accepts rfl (cmdSysReclaim_accepts ht hl hz hm) hs, rfl⟩
  · exact exec_done rfl (cmdRegWrite_done ht hp ha ho) hs
  · exact congrArg Host.Outcome.next (State.command_refuse (cmdRegWrite_refuses ht hp ha ho) hs hm (by decide))

end

/-! PROOFS. Lane state commands (R44 to R48, R190, R254). -/

namespace Sys2Proof.Machine

section LaneCommands

variable {s : State} {q : Request} {d : Dev} {c : Clock} {tref u len : Nat}

theorem laneFormat_ok (hu : q.target.toNat < 32) (hl : q.payload.length = len) : laneFormat q len = false := by
  simp only [laneFormat, hl, ne_eq, not_true_eq_false, decide_false, Bool.or_false, decide_eq_false_iff_not]
  omega

theorem laneFormat_empty (hu : q.target.toNat < 32) (hl : q.payload = []) : laneFormat q 0 = false := laneFormat_ok hu (by rw [hl]; rfl)

/-- The device with one change of lane u noted for its next sample gate. -/
def Dev.withChange (d : Dev) (u at_ id : Nat) (st : LaneState) (dir : Int) : Dev :=
  d.setLane u { d.lane u with chg := (d.lane u).chg ++ [{ at_ := at_, target := st, work := some id, dir := dir }] }

theorem Dev.accChange_eq {at_ id : Nat} {st : LaneState} {dir : Int} :
    d.accChange u at_ id st dir = .accept (d.changeGate u at_) (d.withChange u at_ id st dir) := rfl

theorem cmdLaneArm_accepts (hu : q.target.toNat < 32) (hp : q.payload = []) (hd : d.dst = .ready ∨ d.dst = .run)
    (hl : d.laneLeads q.target.toNat = .disabled) (hx : (d.lane q.target.toNat).staysDisputed = false)
    (hf : (d.get PWM_FLT_STAT_LAT).testBit (groupOf q.target.toNat) = false) (hk : d.linkDark (groupOf q.target.toNat) = false)
    (hr : d.laneReleased q.target.toNat = false) :
    cmdLaneArm c tref q d = .accept (d.changeGate q.target.toNat (q.at_ tref)) (d.withChange q.target.toNat (q.at_ tref) q.id .armed 0) := by
  rw [cmdLaneArm, refuseIf_pass, Dev.accChange_eq]
  rcases hd with hd | hd <;> simp [laneFormat_empty hu hp, hd, hl, hx, hf, hk, hr]

theorem cmdLaneDisable_accepts (hu : q.target.toNat < 32) (hp : q.payload = []) (hl : d.laneLeads q.target.toNat = .armed) :
    cmdLaneDisable c tref q d =
      .accept (d.changeGate q.target.toNat (q.at_ tref)) (d.withChange q.target.toNat (q.at_ tref) q.id .disabled 0) := by
  rw [cmdLaneDisable, refuseIf_pass (by simp [laneFormat_empty hu hp, hl]), Dev.accChange_eq]

theorem cmdLaneClear_accepts (hu : q.target.toNat < 32) (hp : q.payload = [])
    (hl : d.laneLeads q.target.toNat = .fault ∨ (d.lane q.target.toNat).staysDisputed = true) :
    cmdLaneClear c tref q d =
      .accept (d.changeGate q.target.toNat (q.at_ tref)) (d.withChange q.target.toNat (q.at_ tref) q.id .disabled 0) := by
  rw [cmdLaneClear, refuseIf_pass, Dev.accChange_eq]
  rcases hl with hl | hl <;> simp [laneFormat_empty hu hp, hl]

/-- The way a payload word names (R190). -/
def enableDir (w : W64) : Int := if bits64 w 0 2 = 1 then 1 else if bits64 w 0 2 = 3 then -1 else 0

theorem cmdLaneEnable_accepts (hu : q.target.toNat < 32) (hl : q.payload.length = 1) (hz : bits64 (q.pw 0) 2 62 = 0)
    (hc : bits64 (q.pw 0) 0 2 ≠ 2) (hd : d.dst = .run) (ha : d.laneLeads q.target.toNat = .armed)
    (hx : (d.lane q.target.toNat).staysDisputed = false) (hs : d.sysStop = none)
    (hg : d.get (SAFE_Gg_STAT_STATE (groupOf q.target.toNat)) = 3)
    (hon : q.target.toNat < 24 → ∃ i < 3, d.flag (DSF_Cnn_CFG_ACT_EN (3 * q.target.toNat + i)) = true)
    (hcatch : q.target.toNat < 24 → faster (d.fbkX q.target.toNat).v (d.get (PWM_Lnn_CC_ZSPD_ACT_SPD q.target.toNat)) = true →
      opposite (d.fbkX q.target.toNat).v (enableDir (q.pw 0)) = false →
      faster (d.fbkX q.target.toNat).v (d.get (PWM_Lnn_CC_CATCH_ACT_SPD q.target.toNat)) = false)
    (hrev : q.target.toNat < 24 → faster (d.fbkX q.target.toNat).v (d.get (PWM_Lnn_CC_ZSPD_ACT_SPD q.target.toNat)) = true →
      opposite (d.fbkX q.target.toNat).v (enableDir (q.pw 0)) = true → d.get (PWM_Lnn_CC_CFG_ACT_REVPOL q.target.toNat) ≠ 0 ∨
        faster (d.fbkX q.target.toNat).v (d.get (PWM_Lnn_CC_REVLIM_ACT_SPD q.target.toNat)) = false) :
    cmdLaneEnable c tref q d = .accept (d.changeGate q.target.toNat (q.at_ tref))
      (d.withChange q.target.toNat (q.at_ tref) q.id .enabled (enableDir (q.pw 0))) := by
  have hcaught : (decide (q.target.toNat < 24) && !!faster (d.fbkX q.target.toNat).v (d.get (PWM_Lnn_CC_ZSPD_ACT_SPD q.target.toNat)) &&
      !opposite (d.fbkX q.target.toNat).v (enableDir (q.pw 0)) &&
      faster (d.fbkX q.target.toNat).v (d.get (PWM_Lnn_CC_CATCH_ACT_SPD q.target.toNat))) = false := by
    simpa [Bool.and_eq_false_iff, or_assoc, imp_iff_not_or] using hcatch
  have hreverse : (decide (q.target.toNat < 24) && !!faster (d.fbkX q.target.toNat).v (d.get (PWM_Lnn_CC_ZSPD_ACT_SPD q.target.toNat)) &&
      opposite (d.fbkX q.target.toNat).v (enableDir (q.pw 0)) && decide (d.get (PWM_Lnn_CC_CFG_ACT_REVPOL q.target.toNat) = 0) &&
      faster (d.fbkX q.target.toNat).v (d.get (PWM_Lnn_CC_REVLIM_ACT_SPD q.target.toNat))) = false := by
    simpa [Bool.and_eq_false_iff, or_assoc, imp_iff_not_or] using hrev
  have hfiltered : (decide (q.target.toNat < 24) &&
      (List.range 3).all fun i => !d.flag (DSF_Cnn_CFG_ACT_EN (3 * q.target.toNat + i))) = false := by
    simpa [Bool.and_eq_false_iff, imp_iff_not_or] using hon
  rw [cmdLaneEnable]
  refine (refuseIf_pass ?_).trans Dev.accChange_eq
  simp only [List.forall_mem_cons, laneFormat_ok hu hl, hz, hc, hd, ha, hx, hs, hg]
  refine ⟨by simp, ?_, by simp, hreverse, hfiltered, by simp⟩
  simpa [enableDir] using hcaught

theorem Tab.filter_ins {α : Type} {t : Tab α} {k : Nat} {v : α} : (Tab.ins k v t).filter (fun p => p.1 ≠ k) = t.filter fun p => p.1 ≠ k := by
  induction t with
  | nil => simp [Tab.ins]
  | cons p t ih =>
    unfold Tab.ins
    split
    · simp
    · simp only [List.filter_cons, ih]

/-- The later of two writes to a key stands. -/
theorem Tab.set_set {α : Type} [DecidableEq α] {dflt : Nat → α} {t : Tab α} {k : Nat} {v w : α} :
    Tab.set dflt (Tab.set dflt t k v) k w = Tab.set dflt t k w := by
  have hf : (Tab.set dflt t k v).filter (fun p => p.1 ≠ k) = t.filter fun p => p.1 ≠ k := by
    unfold Tab.set
    split
    · simp
    · rw [Tab.filter_ins]
      simp
  rw [Tab.set, hf, ← Tab.set]

theorem Dev.setLane_setLane {x y : LaneX} : (d.setLane u x).setLane u y = d.setLane u y := by
  simp only [Dev.setLane, Tab.set_set]

/-- The change to STOPPING that lane.stop notes. -/
def stopChange (at_ : Nat) : LaneChg := { at_ := at_, target := .stopping, work := none }

theorem cmdLaneStop_accepts (hu : q.target.toNat < 32) (hp : q.payload = []) (hl : d.laneLeads q.target.toNat = .enabled) :
    cmdLaneStop c tref q d = .accept (d.planStop c q.target.toNat (q.at_ tref) tref (some q.id)).1
      (d.planStop c q.target.toNat (q.at_ tref) tref (some q.id)).2 := by
  rw [cmdLaneStop, refuseIf_pass (by simp [laneFormat_empty hu hp, hl])]

/-- Without trajectory instants the changes to STOPPING and ARMED, at the next gates (log entry 19). -/
theorem Dev.planStop_still {at_ : Nat} {work : Option Nat} (ht : d.trajT u = 0) : d.planStop c u at_ tref work =
    ((d.setLane u { d.lane u with chg := (d.lane u).chg ++ [stopChange at_] }).changeGate u at_,
      d.setLane u { d.lane u with chg := (d.lane u).chg ++ [stopChange at_, { at_ := at_, target := .armed, work := work }] }) := by
  rw [Dev.planStop, if_pos ht]
  exact Prod.ext rfl Dev.setLane_setLane

/-- With trajectory instants the change to STOPPING and a stop of the slot (R254). -/
theorem Dev.planStop_moving {at_ : Nat} {work : Option Nat} (ht : d.trajT u ≠ 0) : d.planStop c u at_ tref work =
    (d.stopGateAt c u (d.axTakeover u at_ tref),
      (d.setLane u { d.lane u with chg := (d.lane u).chg ++ [stopChange at_], armedAt := d.stopGateAt c u (d.axTakeover u at_ tref) }).setAxX u
        { d.axX u with pend := (d.axX u).pend ++ [{ op := .stop true, ta := d.axTakeover u at_ tref, work := work }] }) := by
  rw [Dev.planStop, if_neg ht]
  rfl

end LaneCommands

end Sys2Proof.Machine

section
open Sys2Proof Sys2Proof.Machine

/-- Settles O17: each command passes its conditions and notes its change; lane.stop by whether the slot has trajectory instants. -/
theorem laneStateCommands : Obligations.LaneStateCommands := by
  intro q s hu u d x at_ t accepts noted
  refine ⟨fun hp hd hl hx hf hk hr hs => ?_, fun hp hl hs => ?_, fun hp hl hs => ?_, fun hl hz hc hd ha hx hstop hg hservo hs => ?_,
    fun hp hl => ⟨fun ht hs => ?_, fun ht hs => ?_⟩⟩
  · exact exec_accepts rfl (cmdLaneArm_accepts hu hp hd hl hx hf hk hr) hs
  · exact exec_accepts rfl (cmdLaneDisable_accepts hu hp hl) hs
  · exact exec_accepts rfl (cmdLaneClear_accepts hu hp hl) hs
  · exact exec_accepts rfl (cmdLaneEnable_accepts hu hl hz hc hd ha hx hstop hg (fun h => (hservo h).1) (fun h => (hservo h).2.1)
      fun h => (hservo h).2.2) hs
  · exact exec_accepts rfl ((cmdLaneStop_accepts hu hp hl).trans (by rw [Dev.planStop_still ht]; rfl)) hs
  · exact exec_accepts rfl ((cmdLaneStop_accepts hu hp hl).trans (by rw [Dev.planStop_moving ht]; rfl)) hs

end

/-! PROOFS. Trajectory commands that wait for their takeover instant (R235 to R238, R242, R308, R309). -/

namespace Sys2Proof.Machine

section TrajectoryCommands

variable {s : State} {q : Request} {d w : Dev} {c : Clock} {tref a t p e plan id : Nat} {rule : AxRule} {op : AxOp}

/-- The rule's conditions on the slot's state, of which one bars the command (R43, R232, R236, R237, R256, R257). -/
def axBarred (rule : AxRule) (d w : Dev) (a t : Nat) : Bool :=
  (rule.closed && d.axClosed a t) || (rule.move && d.axRegen a) ||
    (rule.free && ((w.axX a).mst.isSome || (decide (w.axMode a = modeStop) && (w.axX a).fromMst))) ||
    (rule.retarget && w.axMode a ≠ modePosition)

/-- The end of the profile that the operation starts at t on the slot of w. -/
def axProfileEnd (w : Dev) (c : Clock) (a t : Nat) (op : AxOp) : Nat :=
  ((w.axTake c a t { op := op, ta := t, work := none }).axX a).tc.getD t

/-- The promise of the operation: its takeover instant, or the end of its profile (R237, R238, R242, R243). -/
def axEnds (w : Dev) (c : Clock) (a t : Nat) (op : AxOp) : Nat :=
  match op with
  | .master _ => t
  | .stop false => t
  | .limits .. => if w.axMoving a then axProfileEnd w c a t op else t
  | _ => axProfileEnd w c a t op

/-- The device with the command behind those accepted before it, and the slot's job admitted. -/
def Dev.axQueued (d : Dev) (a t id : Nat) (op : AxOp) : Dev :=
  (d.setAxX a { d.axX a with pend := (d.axX a).pend ++ [{ op := op, ta := t, work := some id }] }).enrol (slotSetpoint a)

/-- The one-shot demand of a command: the cost of its planning beyond the slot's own job, and its window (R309). -/
def axTerm (d w : Dev) (a plan : Nat) : Nat := d.cost plan - d.cost (d.modeClass a (w.axMode a) (w.axX a).mst)
def axWindow (d w : Dev) (a : Nat) : Nat := w.trajT a - 1000 - 250 * d.get HERDER_CTRL_TICK

/-- The one-shot demand fits the engine under the command's own admission (R309). -/
def Dev.axOneShot (d w : Dev) (a t id plan : Nat) (op : AxOp) : Bool :=
  (d.axQueued a t id op).fitsOneShot (slotEngine a) ((d.axQueued a t id op).engDens (d.get HERDER_CTRL_TICK) (slotEngine a))
    (axTerm d w a plan) (axWindow d w a) (t - 1000)

/-- The device that an accepted command leaves. -/
def Dev.axWaiting (d w : Dev) (c : Clock) (a t id plan : Nat) (op : AxOp) : Dev :=
  ((d.axQueued a t id op).addDemand c (slotEngine a) (axTerm d w a plan) (axWindow d w a) (t - 1000) id).camUse (slotEngine a)

section Verdict

variable {len : Nat → Bool} {mk : Request → AxOp} {bad : Request → Dev → List (Bool × Nat)}

/-- The conditions of a trajectory command in the order of R371, none of which holds. -/
theorem axConds_pass {l : List (Bool × Nat)} {f g : Bool × Nat → Bool} {x y : Bool} {m n : Nat} (hb : ∀ p ∈ l, p.1 = false) (hx : x = false)
    (hy : y = false) : ∀ p ∈ l.filter f ++ [(x, m), (y, n)] ++ l.filter g, p.1 = false := by
  intro p hp
  simp only [List.mem_append, List.mem_filter, List.mem_cons, List.not_mem_nil, or_false] at hp
  rcases hp with (⟨h, -⟩ | rfl | rfl) | ⟨h, -⟩
  exacts [hb p h, hx, hy, hb p h]

variable (ha : q.target.toNat < 64) (hl : len q.payload.length = true) (hr : d.isReleased 9 q.target.toNat = false)
  (ht : t = d.axTakeover q.target.toNat (q.at_ tref) tref) (hw : w = d.axTo c q.target.toNat t) (hb : ∀ p ∈ bad q w, p.1 = false)
  (hs : axBarred rule d w q.target.toNat t = false)

include ha hl hr ht hw hb hs

theorem axCommand_accepts (hz : d.trajT q.target.toNat ≠ 0) (hf : (d.axQueued q.target.toNat t q.id (mk q)).fitsCap (slotEngine q.target.toNat) = true)
    (ho : d.axOneShot w q.target.toNat t q.id plan (mk q) = true) (hin : tooLate q tref (axEnds w c q.target.toNat t (mk q)) = false) :
    axCommand len rule plan mk bad c tref q d =
      .accept (axEnds w c q.target.toNat t (mk q)) (d.axWaiting w c q.target.toNat t q.id plan (mk q)) := by
  have hpass : ¬ (64 ≤ q.target.toNat ∨ (!len q.payload.length) = true) := by simp [hl, ha]
  rw [axCommand, if_neg hpass, ← ht, ← hw]
  refine (refuseIf_pass (axConds_pass hb hr hs)).trans ((if_neg hz).trans ?_)
  show (if tooLate q tref (axEnds w c q.target.toNat t (mk q)) = true then _
    else if (!(d.axQueued q.target.toNat t q.id (mk q)).fitsCap (slotEngine q.target.toNat)) = true then _
    else if (!d.axOneShot w q.target.toNat t q.id plan (mk q)) = true then _ else _) = _
  rw [hin, hf, ho]
  rfl

/-- On a slot without trajectory instants the command acts at once (log entry 19). -/
theorem axCommand_done (hz : d.trajT q.target.toNat = 0) :
    axCommand len rule plan mk bad c tref q d = .done {} (w.axTake c q.target.toNat t { op := mk q, ta := t, work := none }) := by
  have hpass : ¬ (64 ≤ q.target.toNat ∨ (!len q.payload.length) = true) := by simp [hl, ha]
  rw [axCommand, if_neg hpass, ← ht, ← hw]
  exact (refuseIf_pass (axConds_pass hb hr hs)).trans (if_pos hz)

end Verdict

/-! What a waiting command leaves alone. -/

/-- Whether a table's USE flag of an engine is set anew changes those flags alone (R247). -/
theorem Dev.camUse_frame : OnlyRegs (fun r => ∃ e k, r = (TRJ_CAMDIR_md_USE e k).addr) d (d.camUse e) :=
  OnlyRegs.foldl fun _ _ _ => .setf ⟨_, _, rfl⟩

/-- The command queued with its demand, before the USE flags. -/
def Dev.axDemanded (d w : Dev) (c : Clock) (a t id plan : Nat) (op : AxOp) : Dev :=
  (d.axQueued a t id op).addDemand c (slotEngine a) (axTerm d w a plan) (axWindow d w a) (t - 1000) id

theorem Dev.axDemanded_eq : d.axDemanded w c a t id plan op =
    { d with ax := (d.axQueued a t id op).ax, her := (d.axDemanded w c a t id plan op).her } := by
  simp only [Dev.axDemanded, Dev.addDemand, Dev.axQueued, Dev.enrol, Dev.setAxX]

theorem Dev.axWaiting_onlyRegs : OnlyRegs (fun r => ∃ e k, r = (TRJ_CAMDIR_md_USE e k).addr) (d.axDemanded w c a t id plan op)
    (d.axWaiting w c a t id plan op) := Dev.camUse_frame

theorem Dev.axWaiting_ax : (d.axWaiting w c a t id plan op).ax = (d.axQueued a t id op).ax := by
  rw [Dev.axWaiting_onlyRegs.2, Dev.axDemanded_eq]

theorem Dev.axWaiting_eq : d.axWaiting w c a t id plan op = { d with
    ax := (d.axWaiting w c a t id plan op).ax, her := (d.axWaiting w c a t id plan op).her, regs := (d.axWaiting w c a t id plan op).regs } := by
  have hher : (d.axWaiting w c a t id plan op).her = (d.axDemanded w c a t id plan op).her := by rw [Dev.axWaiting_onlyRegs.2]
  rw [hher, Dev.axWaiting_ax]
  refine Dev.axWaiting_onlyRegs.2.trans ?_
  rw [Dev.axDemanded_eq]

theorem Dev.axWaiting_keepsRegs : KeepsRegs (fun r => ∃ e k, r = (TRJ_CAMDIR_md_USE e k).addr) d (d.axWaiting w c a t id plan op) :=
  fun r hr => (Dev.axWaiting_onlyRegs.1 r hr).trans (by rw [Dev.axDemanded_eq]; rfl)

theorem Dev.axWaiting_pend :
    ((d.axWaiting w c a t id plan op).axX a).pend = (d.axX a).pend ++ [{ op := op, ta := t, work := some id }] := by
  rw [Dev.axX, Dev.axWaiting_ax]
  exact congrArg AxX.pend Dev.axX_setAxX_self

theorem Dev.axWaiting_other {b : Nat} (hb : b ≠ a) : (d.axWaiting w c a t id plan op).axX b = d.axX b := by
  rw [Dev.axX, Dev.axWaiting_ax]
  exact Dev.axX_setAxX.trans (if_neg (Ne.symm hb))


/-! The conditions of each kind of command. -/

theorem axBarred_open (h : d.axClosed a t = false) : axBarred {} d w a t = false := by
  simp [axBarred, h]

theorem axBarred_movable (h : d.axClosed a t = false) (hr : d.axRegen a = false) : axBarred { move := true } d w a t = false := by
  simp [axBarred, h, hr]

theorem axBarred_free (h : d.axClosed a t = false) (hr : d.axRegen a = false) (hm : (w.axX a).mst = none)
    (hf : w.axMode a = modeStop → (w.axX a).fromMst = false) : axBarred { move := true, free := true } d w a t = false := by
  simpa [axBarred, h, hr, hm, imp_iff_not_or] using hf

theorem axBarred_retarget (h : d.axClosed a t = false) (hr : d.axRegen a = false) (hm : (w.axX a).mst = none)
    (hp : w.axMode a = modePosition) : axBarred { move := true, free := true, retarget := true } d w a t = false := by
  simp [axBarred, h, hr, hm, hp, modePosition, modeStop]

/-- A slot that may move has trajectory instants (R232). -/
theorem Dev.trajT_of_open (h : d.axClosed a t = false) : d.trajT a ≠ 0 := by
  intro hz
  simp [Dev.axClosed, hz] at h

/-- A master word in order meets the checks of R244 to R249. -/
theorem masterBad_pass {cam : Bool} (hf : masterFormatOk cam q = true) (hm : (masterOf cam q).m ≠ 0)
    (hn : (masterOf cam q).n.natAbs ≤ 2 ^ 31 * (masterOf cam q).m) (hr : (masterOf cam q).toMatch = true → (masterOf cam q).rel = true)
    (hp : (masterOf cam q).typ = 2 → (masterOf cam q).slot < 24)
    (ht : cam = true → w.get (TRJ_CAMDIR_md_LEN (camIdx q.target.toNat (masterOf cam q).table / 16)
      (camIdx q.target.toNat (masterOf cam q).table % 16)) ≠ 0) : ∀ p ∈ masterBad cam q w, p.1 = false := by
  have hzero : ((masterOf cam q).m = 0 || (cam && w.get (TRJ_CAMDIR_md_LEN (camIdx q.target.toNat (masterOf cam q).table / 16)
      (camIdx q.target.toNat (masterOf cam q).table % 16)) = 0)) = false := by
    simpa [hm] using ht
  have hconflict : (decide (2 ^ 31 * (masterOf cam q).m < (masterOf cam q).n.natAbs) ||
      ((masterOf cam q).toMatch && !(masterOf cam q).rel) || ((masterOf cam q).typ = 2 && decide (24 ≤ (masterOf cam q).slot))) = false := by
    simpa using ⟨⟨hn, hr⟩, hp⟩
  simp only [masterBad, List.forall_mem_cons, hf, hzero, hconflict]
  simp

end TrajectoryCommands

end Sys2Proof.Machine

section
open Sys2Proof Sys2Proof.Machine

/-- Settles O18: every command is axCommand; its conditions pass, and the device it leaves waits for the takeover instant. -/
theorem trajectoryCommandsWaitForTakeover : Obligations.TrajectoryCommandsWaitForTakeover := by
  intro q s ha hr a d e tick t w x open_ movable free ends waits move follow
  have hwait : ∀ {i opc len rule plan mk bad op p}, exec i s = .next (s.command opc (axCommand len rule plan mk bad) q) →
      len q.payload.length = true → (∀ p ∈ bad q w, p.1 = false) → axBarred rule d w a t = false → d.trajT a ≠ 0 → mk q = op →
      axEnds w s.clk a t op = p → waits i opc plan op p := by
    rintro i opc len rule plan mk bad _ _ hx hl hb hbar hz rfl rfl hfit hone hs
    exact ⟨_, exec_accepts hx (axCommand_accepts ha hl hr rfl rfl hb hbar hz hfit hone hs.inTime) hs, Dev.axWaiting_pend,
      fun b hb => Dev.axWaiting_other hb, Dev.axWaiting_eq, Dev.axWaiting_keepsRegs⟩
  have hfree : ∀ {i opc len mk bad op}, exec i s = .next (s.command opc (axCommand len { move := true, free := true } 0x15 mk bad) q) →
      len q.payload.length = true → (∀ p ∈ bad q w, p.1 = false) → mk q = op → axEnds w s.clk a t op = ends op → move i opc op :=
    fun hx hl hb hop hp ⟨⟨ho, hg⟩, hm, hf⟩ => hwait hx hl hb (axBarred_free ho hg hm hf) (Dev.trajT_of_open ho) hop hp
  have hfollow : ∀ {i opc cam}, exec i s = .next (s.command opc
      (axCommand (fun n => n = 4 ∨ n = 6) {} 0x16 (fun q => .master (masterOf cam q)) (masterBad cam)) q) → follow i opc cam :=
    fun hx ho hf hl hm hn hrel hp ht =>
      hwait hx (by simpa using hl) (masterBad_pass hf hm hn hrel hp ht) (axBarred_open ho) (Dev.trajT_of_open ho) rfl rfl
  refine ⟨fun hl => hfree rfl (by simp [hl]) (by simp) rfl rfl, fun hl => hfree rfl (by simp [hl]) (by simp) rfl rfl, fun hl hpos => ?retarget,
    fun hl hv => hfree rfl (by simp [hl]) (by simpa using hv) rfl rfl, fun hl hm => ?stop, ?limits, hfollow rfl, hfollow rfl⟩
  case retarget =>
    rintro ⟨⟨ho, hg⟩, hm, -⟩
    exact hwait rfl (by simp [hl]) (by simp) (axBarred_retarget ho hg hm hpos) (Dev.trajT_of_open ho) rfl rfl
  case stop =>
    exact hwait rfl (by simp [hl]) (by simp) (axBarred_movable hm.1 hm.2) (Dev.trajT_of_open hm.1) rfl rfl
  case limits =>
    intro op hl hne hmsb
    have hany : q.payload.any (· = 0) = false := by simpa using fun v hv h0 => hne v hv h0
    have hbad : ∀ p ∈ [(q.payload.any (· = 0), rcCfgZero), ((q.pw 0).msb, rcCfgConflict)], p.1 = false := by
      simp only [List.forall_mem_cons, hany, hmsb]
      simp
    have hbar : axBarred { closed := false } d w a t = false := by simp [axBarred]
    refine ⟨fun hz => ?_, fun hz hs => ?_⟩
    · exact hwait rfl (by simp [hl]) hbad hbar hz rfl rfl
    · exact exec_done rfl (axCommand_done ha (by simp [hl]) hr rfl rfl hbad hbar hz) hs

end

/-! PROOFS. Configuration images that wait for their commit instant (R51, R383, R384, R388): each command by its own checks. -/

namespace Sys2Proof.Machine

section Images

variable {q : Request} {d : Dev} {c : Clock} {tref n g u b ch t : Nat}

/-- The device on which an image of a group waits, behind those accepted before it. -/
def Dev.queueImg (d : Dev) (group from_ due id : Nat) (ps : List (Nat × Nat)) : Dev :=
  { d with imgs := d.imgs ++ [{ group := group, from_ := from_, due := due, pairs := ps, work := some id }] }

theorem imageLead_bounds : tref + 50000 ≤ imageLead q tref ∧ q.at_ tref ≤ imageLead q tref :=
  ⟨Nat.le_max_right _ _, Nat.le_max_left _ _⟩

theorem noImage_of_payload (h : q.payload ≠ []) : q.noImage = false := by
  rw [Request.noImage]
  exact (List.isEmpty_eq_false_iff).mpr h

/-- A bound that applies to an unbound lane or to one whose PDIV is 0 holds of no lane that is both. -/
theorem boundLane_false {o : Option Nat} (h : o = none ∨ n = 0) : (o.isSome && decide (n ≠ 0)) = false := by
  rcases h with rfl | rfl
  · rfl
  · simp

section

variable (hp : q.payload ≠ [])

include hp

theorem cmdLaneCfg_servo_accepts (hn : q.target.toNat = n) (hlt : n < 24) (ht : t = d.firingAhead (48 + n) (imageLead q tref)) {d1 : Dev}
    (h1 : d1 = (d.atCommit t q.image).setLane n { d.lane n with state := d.stateAt n t }) (hr : d.isReleased 4 n = false)
    (hok : imageOk (fun a => laneGroupOffs.any fun p => a = laneBase n + p.1) q.image = true) (hcyc : d1.laneCycleClash n = false)
    (hz : d1.laneZero n = false) (hrange : d1.laneRange n = false) (hst : d1.laneStateClash n = false)
    (hb : d.cmdinOf n = none ∨ d1.get (PWM_Lnn_CYC_PDIV n) = 0) (hadm : (d.imagesBy t).laneCfgAdmit d1 n = none)
    (hfit : (d.queueImg (laneBase n) (imageLead q tref) t q.id q.image).fitsCap (slotEngine n) = true)
    (hmir : (d.queueImg (laneBase n) (imageLead q tref) t q.id q.image).mirrorOver = false) (hin : tooLate q tref t = false) :
    cmdLaneCfg c tref q d = .accept t (d.queueImg (laneBase n) (imageLead q tref) t q.id q.image) := by
  subst hn
  have hfmt : ¬ (32 ≤ q.target.toNat ∨ q.noImage = true) := by simp [noImage_of_payload hp]; omega
  rw [cmdLaneCfg, if_neg (by simpa using hfmt), if_pos hlt, cmdLaneCfgServo, ← ht, ← h1]
  refine (refuseIf_pass (by simp only [List.forall_mem_cons, hr, hok, hcyc, hz, hrange, hst, boundLane_false hb]; simp)).trans ?_
  simp only [hin, hadm, Bool.false_eq_true, if_false]
  show (if (!(d.queueImg _ _ t q.id q.image).fitsCap _) = true then _ else if (d.queueImg _ _ t q.id q.image).mirrorOver = true then _ else _) = _
  rw [hfit, hmir]
  rfl

theorem cmdLaneCfg_stepper_accepts (hlo : 24 ≤ q.target.toNat) (hhi : q.target.toNat < 32)
    (ht : t = d.firingAhead (48 + q.target.toNat) (imageLead q tref)) {d1 : Dev}
    (h1 : d1 = (d.atCommit t q.image).setLane q.target.toNat { d.lane q.target.toNat with state := d.stateAt q.target.toNat t })
    (hr : d.isReleased 4 q.target.toNat = false)
    (hok : imageOk (fun a => stpOffs.any fun p => a = stpBase (q.target.toNat - 24) + p.1) q.image = true)
    (hz : d1.stpZero (q.target.toNat - 24) = false) (hcf : d1.stpConflict (q.target.toNat - 24) = false) :
    cmdLaneCfg c tref q d = .accept t (d.queueImg (stpBase (q.target.toNat - 24)) (imageLead q tref) t q.id q.image) := by
  have hfmt : ¬ (32 ≤ q.target.toNat ∨ q.noImage = true) := by simp [noImage_of_payload hp]; omega
  have hgate : 72 + (q.target.toNat - 24) = 48 + q.target.toNat := by omega
  rw [cmdLaneCfg, if_neg (by simpa using hfmt), if_neg (by omega), cmdLaneCfgStepper, hgate, ← ht, ← h1]
  exact refuseIf_pass (by simp only [List.forall_mem_cons, hr, hok, hz, hcf]; simp)

theorem cmdDcgCfg_accepts (hg : g < 4) (hn : q.target.toNat = 0x68 + g) (ht : t = d.firingAhead (84 + g) (imageLead q tref))
    (hr : d.anyReleased 4 = false)
    (hok : imageOk (fun a => (groupBase g ≤ a && a < groupBase g + 0x18) || a = groupBase g + 0x80 || a = groupBase g + 0x84) q.image = true)
    (hz : (d.atCommit t q.image).dcgZero g = false) (hcf : (d.atCommit t q.image).dcgConflict g = false) :
    cmdDcgCfg c tref q d = .accept t (d.queueImg (groupBase g) (imageLead q tref) t q.id q.image) := by
  have hsub : q.target.toNat - 0x68 = g := by omega
  have hrange : ¬ (q.target.toNat < 0x68 ∨ 0x6B < q.target.toNat) := by omega
  rw [cmdDcgCfg, hsub, ← ht]
  exact refuseIf_pass (by simp only [List.forall_mem_cons, noImage_of_payload hp, hrange, hr, hok, hz, hcf]; simp)

theorem cmdFbkCfg_accepts (hlt : q.target.toNat < 24) (ht : t = d.firingAhead (24 + q.target.toNat) (imageLead q tref))
    (hr : d.isReleased 7 q.target.toNat = false)
    (hok : imageOk (fun a => fbkBase q.target.toNat ≤ a && a < fbkBase q.target.toNat + 0x2C) q.image = true)
    (hz : (d.atCommit t q.image).fbkZero q.target.toNat = false)
    (hcf : (d.atCommit t q.image).fbkConflict q.target.toNat (d.stateAt q.target.toNat t) = false) :
    cmdFbkCfg c tref q d = .accept t (d.queueImg (fbkBase q.target.toNat) (imageLead q tref) t q.id q.image) := by
  have hrange : ¬ 24 ≤ q.target.toNat := by omega
  rw [cmdFbkCfg, ← ht]
  exact refuseIf_pass (by simp only [List.forall_mem_cons, noImage_of_payload hp, hrange, hr, hok, hz, hcf]; simp)

theorem cmdStrCfg_accepts (hb : b < 8) (hn : q.target.toNat = 0x50 + b)
    (ht : t = d.firingAhead (24 + (d.atCommit (imageLead q tref) q.image).get (STR_s_CFG_SRC b)) (imageLead q tref))
    (hr : d.isReleased 8 b = false) (hok : imageOk (fun a => strBase b ≤ a && a < strBase b + 0x1C) q.image = true)
    (hz : (d.atCommit t q.image).strZero b = false) (hcf : (d.atCommit t q.image).strConflict b = false) :
    cmdStrCfg c tref q d = .accept t (d.queueImg (strBase b) (imageLead q tref) t q.id q.image) := by
  have hsub : q.target.toNat - 0x50 = b := by omega
  have hrange : ¬ (q.target.toNat < 0x50 ∨ 0x57 < q.target.toNat) := by omega
  rw [cmdStrCfg, hsub, ← ht]
  exact refuseIf_pass (by simp only [List.forall_mem_cons, noImage_of_payload hp, hrange, hr, hok, hz, hcf]; simp)

theorem cmdAxisCfg_accepts (hn : q.target.toNat = n) (hlt : n < 64) (ht : t = d.axGridAhead n (imageLead q tref))
    (hr : d.isReleased 9 n = false) (hok : imageOk (fun r => trjBase n ≤ r && r < trjBase n + 0x40) q.image = true)
    (hz : (d.atCommit t q.image).axZero n = false)
    (hcf : (d.atCommit t q.image).axConflict n (decide ((d.axTo c n t).axMode n = modeHold)) = false)
    (hfit : ((d.enrol (slotSetpoint n)).queueImg (trjBase n) (imageLead q tref) t q.id q.image).fitsCap (slotEngine n) = true)
    (hmir : ((d.enrol (slotSetpoint n)).queueImg (trjBase n) (imageLead q tref) t q.id q.image).mirrorOver = false)
    (hin : tooLate q tref t = false) :
    cmdAxisCfg c tref q d = .accept t ((d.enrol (slotSetpoint n)).queueImg (trjBase n) (imageLead q tref) t q.id q.image) := by
  subst hn ht
  have hfmt : ¬ (64 ≤ q.target.toNat ∨ q.noImage = true) := by simp [noImage_of_payload hp]; omega
  rw [cmdAxisCfg, if_neg (by simpa using hfmt)]
  refine (refuseIf_pass (by simp only [List.forall_mem_cons, hr, hok, hz, hcf]; simp)).trans ?_
  rw [hin, if_neg Bool.false_ne_true]
  show (if (!((d.enrol _).queueImg _ _ _ q.id q.image).fitsCap _) = true then _
    else if ((d.enrol _).queueImg _ _ _ q.id q.image).mirrorOver = true then _ else _) = _
  rw [hfit, hmir]
  rfl

theorem cmdLoopCfg_accepts (hb : b < 16) (hn : q.target.toNat = 0x40 + b) (ht : t = d.loopNext c.ns b (imageLead q tref))
    (hr : d.isReleased 10 b = false) (hok : imageOk (fun a => lpbBase b ≤ a && a < lpbBase b + 0x100) q.image = true)
    (hz : (d.atCommit t q.image).loopZero b = false) (hcf : (d.atCommit t q.image).loopConflict b (d.loopJudged b t) = false)
    (hfit : ((d.enrol (slotLoop b)).queueImg (lpbBase b) (imageLead q tref) t q.id q.image).fitsCap 30 = true)
    (hmir : ((d.enrol (slotLoop b)).queueImg (lpbBase b) (imageLead q tref) t q.id q.image).mirrorOver = false)
    (hin : tooLate q tref t = false) :
    cmdLoopCfg c tref q d = .accept t ((d.enrol (slotLoop b)).queueImg (lpbBase b) (imageLead q tref) t q.id q.image) := by
  have hsub : q.target.toNat - 0x40 = b := by omega
  have hrange : ¬ (q.target.toNat < 0x40 ∨ 0x4F < q.target.toNat) := by omega
  rw [cmdLoopCfg, hsub, ← ht]
  refine (refuseIf_pass (by simp only [List.forall_mem_cons, noImage_of_payload hp, hrange, hr, hok, hz, hcf]; simp)).trans ?_
  rw [hin, if_neg Bool.false_ne_true]
  show (if (!((d.enrol _).queueImg _ _ t q.id q.image).fitsCap _) = true then _
    else if ((d.enrol _).queueImg _ _ t q.id q.image).mirrorOver = true then _ else _) = _
  rw [hfit, hmir]
  rfl

theorem cmdIoCfg_accepts {ps : List (Nat × Nat)} {d1 : Dev} (hn : q.target.toNat = 0x6D)
    (ht : t = (imageLead q tref + 4999) / 5000 * 5000) (hps : ps = q.image.filter fioKept)
    (h1 : d1 = (d.atCommit t ps).fioCandidate true (d.atCommit t ps).fioOwn)
    (hr : ∀ p ∈ ps, ∀ cc, fioChOf p.1 = some cc → d.isReleased 0x10 cc = false) (hok : imageOk isFioCfg q.image = true)
    (hz : d1.fioZero = false) (hcf : d1.fioConflict (d.imagesBy t) = false) :
    cmdIoCfg c tref q d = .accept t (d.queueImg fioBase (imageLead q tref) t q.id ps) := by
  have htarget : q.target = 0x6D := BitVec.eq_of_toNat_eq hn
  have howned : (ps.any fun p => match fioChOf p.1 with
      | some cc => d.isReleased 0x10 cc
      | none => false) = false := by
    simp only [List.any_eq_false]
    intro p hmem
    cases hcc : fioChOf p.1 with
    | none => simp
    | some cc => simp [hr p hmem cc hcc]
  rw [cmdIoCfg, ← hps, ← ht, ← h1]
  refine refuseIf_pass ?_
  simp only [List.forall_mem_cons]
  refine ⟨by simp [htarget, noImage_of_payload hp], howned, ?_⟩
  simp [hok, hz, hcf]

theorem cmdChainCfg_accepts (hn : q.target.toNat = 0xFE) (ht : t = d.cycleAt (imageLead q tref)) (hr : d.anyReleased 0x0C = false)
    (hok : imageOk (fun a => chainBase ≤ a && a < chainBase + 0x1000) q.image = true) (hz : (d.atCommit t q.image).chainZero = false)
    (hcf : (d.atCommit t q.image).chainConflict ((List.range 32).any fun u => (d.stateAt u t).running) = false)
    (hmis : ({ (d.atCommit t q.image).chainInForce with imgs := [] } : Dev).chainMisfit = none) (hin : tooLate q tref t = false) :
    cmdChainCfg c tref q d = .accept t (d.queueImg chainBase t t q.id q.image) := by
  have htarget : q.target = 0xFE := BitVec.eq_of_toNat_eq hn
  rw [cmdChainCfg, ← ht]
  refine (refuseIf_pass (by simp only [List.forall_mem_cons, noImage_of_payload hp, htarget, hr, hok, hz, hcf]; simp)).trans ?_
  simp only [hin, hmis, Bool.false_eq_true, if_false]
  rfl

theorem cmdCanCfg_accepts {d0 : Dev} (hch : ch < 8) (hn : q.target.toNat = 0x60 + ch)
    (h0 : d0 = (d.imgs.filter fun p => p.group = canBase ch).foldl (fun e p => (e.writePairs p.pairs).copyRegs
      (canGroupOffs.map fun o => (canBase ch + o, canBase ch + 0x80 + o))) d)
    (ht : t = if d0.canQuiet ch then imageLead q tref
      else imageLead q tref + (max (d0.canTw ch 64 true false) (d0.canTw ch 64 true true) + 1) / 2)
    (hok : imageOk (isCanCfg ch) q.image = true) (hz : (d0.writePairs q.image).canZero ch = false)
    (hcf : (d0.writePairs q.image).canConflict ch = false) :
    cmdCanCfg c tref q d = .accept t (d.queueImg (canBase ch) (imageLead q tref) t q.id q.image) := by
  have hsub : q.target.toNat - 0x60 = ch := by omega
  have hlo : ¬ q.target.toNat < 0x60 := by omega
  have hhi : ¬ 0x68 ≤ q.target.toNat := by omega
  subst ht
  rw [cmdCanCfg, hsub, ← h0]
  exact refuseIf_pass (by simp only [List.forall_mem_cons, noImage_of_payload hp, hlo, hhi, hok, hz, hcf]; simp)

/-! conv.cfg: the part that commits at once, and one part for each DC group named. -/

omit hp in
/-- Images queued one after another stand in their order behind those that wait. -/
theorem Dev.foldl_queueImg {base due : Nat → Nat} {ps : Nat → List (Nat × Nat)} {from_ id : Nat} (l : List Nat) (d : Dev) :
    l.foldl (fun e g => e.queueImg (base g) from_ (due g) id (ps g)) d = { d with imgs := d.imgs ++ l.map fun g =>
      { group := base g, from_ := from_, due := due g, pairs := ps g, work := some id } } := by
  induction l generalizing d with
  | nil => simp
  | cons g l ih =>
    rw [List.foldl_cons, ih]
    simp [Dev.queueImg]

/-- The image word by word on the device of instant t (R384). -/
def Dev.convStored (d : Dev) (c : Clock) (q : Request) (t : Nat) : Dev := q.image.foldl (fun e p => e.convStore c p) (d.imagesBy t)

/-- The commit instant of the part of a DC group. -/
def Dev.convGate (d : Dev) (q : Request) (tref g : Nat) : Nat := d.firingAhead (84 + g) (imageLead q tref)

/-- The blocks that conv.cfg writes are not released. -/
def Dev.convUnreleased (d : Dev) (ps : List (Nat × Nat)) : Prop :=
  ∀ p ∈ ps, (p.1 / 0x10000 = 0x4005 → d.anyReleased 5 = false) ∧ (p.1 / 0x10000 = 0x4006 → d.anyReleased 6 = false) ∧
    (p.1 / 0x10000 = 0x4007 → d.anyReleased 7 = false)

/-- What an image names passes the checks of its block: lanes and lists at the lead instant, DC groups at their gates. -/
def Dev.convChecked (d : Dev) (c : Clock) (q : Request) (tref : Nat) (p : Nat × Nat) : Prop :=
  let d1 := d.convStored c q (imageLead q tref)
  (∀ l, dsfLaneOf p.1 = some l → d1.dsfZero l = false ∧ d1.dsfConflict l (d.stateAt l (imageLead q tref)) = false) ∧
    (∀ g, sarGroupOf p.1 = some g → d1.sarGroupZero g = false ∧ (d.convStored c q (d.convGate q tref g)).sarGroupConflict g = false) ∧
    ∀ m, seqSarOf p.1 = some m → seqBad d1 m = false

omit hp in
/-- A check that holds of nothing the image's addresses name. -/
theorem any_named_false {ps : List (Nat × Nat)} {name : Nat → Option Nat} {bad : Nat → Bool}
    (h : ∀ p ∈ ps, ∀ k, name p.1 = some k → bad k = false) : ((ps.filterMap fun p => name p.1).dedup.any bad) = false := by
  simp only [List.any_eq_false, List.mem_dedup, List.mem_filterMap]
  rintro k ⟨p, hmem, hk⟩
  simp [h p hmem k hk]

theorem cmdConvCfg_accepts {groups : List Nat} {now : List (Nat × Nat)} (hn : q.target.toNat = 0xFE)
    (hg : groups = (q.image.filterMap fun p => sarGroupOf p.1).dedup) (hnow : now = q.image.filter fun p => (sarGroupOf p.1).isNone)
    (hok : imageOk isConvReg q.image = true) (hr : d.convUnreleased q.image) (hcheck : ∀ p ∈ q.image, d.convChecked c q tref p) :
    cmdConvCfg c tref q d = .accept (groups.foldl (fun m g => max m (d.convGate q tref g)) (imageLead q tref))
      (groups.foldl (fun e g => e.queueImg (sarGroupBase g) (imageLead q tref) (d.convGate q tref g) q.id
          (q.image.filter fun p => sarGroupOf p.1 = some g))
        (if now.isEmpty then d else d.queueImg convNow (imageLead q tref) (imageLead q tref) q.id now)) := by
  have htarget : q.target = 0xFE := BitVec.eq_of_toNat_eq hn
  have howned : ((q.image.any fun p => p.1 / 0x10000 = 0x4005 && d.anyReleased 5) ||
      (q.image.any fun p => p.1 / 0x10000 = 0x4006 && d.anyReleased 6) ||
      (q.image.any fun p => p.1 / 0x10000 = 0x4007 && d.anyReleased 7)) = false := by
    simp only [Bool.or_eq_false_iff, List.any_eq_false, Bool.and_eq_true, decide_eq_true_eq, not_and, Bool.not_eq_true]
    exact ⟨⟨fun p h => (hr p h).1, fun p h => (hr p h).2.1⟩, fun p h => (hr p h).2.2⟩
  have hlz := any_named_false fun p h l hl => ((hcheck p h).1 l hl).1
  have hlc := any_named_false fun p h l hl => ((hcheck p h).1 l hl).2
  have hgz := any_named_false fun p h g hg => ((hcheck p h).2.1 g hg).1
  have hgc := any_named_false fun p h g hg => ((hcheck p h).2.1 g hg).2
  have hsq := any_named_false fun p h m hm => (hcheck p h).2.2 m hm
  subst hg hnow
  simp only [Dev.convStored, Dev.convGate] at hlz hlc hgz hgc hsq
  rw [cmdConvCfg, Dev.foldl_queueImg]
  refine (refuseIf_pass ?_).trans ?_
  · simp only [List.forall_mem_cons]
    refine ⟨by simp [htarget, noImage_of_payload hp], howned, ?_⟩
    simp [hok, hlz, hlc, hgz, hgc, hsq]
  · by_cases hnone : (q.image.filter fun p => (sarGroupOf p.1).isNone).isEmpty = true
    · simp only [if_pos hnone, List.append_nil, Dev.convGate]
    · simp only [if_neg hnone, Dev.queueImg, Dev.convGate]

end

end Images

end Sys2Proof.Machine

section
open Sys2Proof Sys2Proof.Machine

/-- Settles O16: every command passes its own checks and queues its image (log entry 26 for the instant of can.cfg). -/
theorem imageCommandsQueueTheirImage : Obligations.ImageCommandsQueueTheirImage := by
  intro q s hp n d img lead at_ queue waits range
  refine ⟨imageLead_bounds, ?servo, ?stepper, ?dcg, ?fbk, ?str, ?axis, ?loop, ?io, ?chain, ?can, ?conv⟩
  case servo =>
    intro t d1 d2 hlt hr hok hcyc hz hrange hst hb hadm hfit hmir hs
    exact exec_accepts rfl (cmdLaneCfg_servo_accepts hp rfl hlt rfl rfl hr hok hcyc hz hrange hst hb hadm hfit hmir hs.inTime) hs
  case stepper =>
    intro t d1 hlo hhi hr hok hz hcf hs
    exact exec_accepts rfl (cmdLaneCfg_stepper_accepts hp hlo hhi rfl rfl hr hok hz hcf) hs
  case dcg =>
    intro g hg hn t hr hok hz hcf hs
    exact exec_accepts rfl (cmdDcgCfg_accepts hp hg hn rfl hr hok hz hcf) hs
  case fbk =>
    intro t hlt hr hok hz hcf hs
    exact exec_accepts rfl (cmdFbkCfg_accepts hp hlt rfl hr hok hz hcf) hs
  case str =>
    intro p hlt hn t hr hok hz hcf hs
    exact exec_accepts rfl (cmdStrCfg_accepts hp hlt hn rfl hr hok hz hcf) hs
  case axis =>
    intro t d2 hlt hr hok hz hcf hfit hmir hs
    exact exec_accepts rfl (cmdAxisCfg_accepts hp rfl hlt rfl hr hok hz hcf hfit hmir hs.inTime) hs
  case loop =>
    intro b hlt hn t d2 hr hok hz hcf hfit hmir hs
    exact exec_accepts rfl (cmdLoopCfg_accepts hp hlt hn rfl hr hok hz hcf hfit hmir hs.inTime) hs
  case io =>
    intro t ps d1 hn hr hok hz hcf hs
    exact exec_accepts rfl (cmdIoCfg_accepts hp hn rfl rfl rfl hr hok hz hcf) hs
  case chain =>
    intro t hn hr hok hz hcf hmis hs
    exact exec_accepts rfl (cmdChainCfg_accepts hp hn rfl hr hok hz hcf hmis hs.inTime) hs
  case can =>
    intro ch hlt hn d0 d1 t hok hz hcf hs
    exact exec_accepts rfl (cmdCanCfg_accepts hp hlt hn rfl rfl hok hz hcf) hs
  case conv =>
    intro stored gate groups now d1 hn hok hr hcheck hs
    exact exec_accepts rfl (cmdConvCfg_accepts hp hn rfl rfl hok hr hcheck) hs

end

/-! PROOFS. The code under which a late commit packet puts its lane in FAULT (R100, R217, R221). -/

namespace Sys2Proof.Machine

section LateCommitPacket

/-- In READY at 32768 ns, lane 0 is ARMED and not yet counted as faulted, but a change into FAULT by FL070 waits for it. -/
def faultWaiting : State :=
  { clk := { osc := 0, tor := 2 ^ 63 }
    dev := { dst := .ready, lanes := [(0, { state := .armed, chg := [{ at_ := 0, target := .fault, work := none, code := 70 }] })] } }

/-- The changes of lane 0 once a commit packet of the period at 0 has come, past the latch point at 12492 ns. -/
def lateChanges : List LaneChg := ((faultWaiting.dev.commitPacket faultWaiting.clk 0 0 0).lane 0).chg

/-- FL070 governs over the FL110 of the late commit (R221). -/
theorem lateChanges_eq : lateChanges = [{ at_ := 32768, target := .fault, work := none, code := 70 }] := by decide +kernel

end LateCommitPacket

end Sys2Proof.Machine

section
open Sys2Proof Sys2Proof.Machine

/-- Refutes O30: the statement lets every lane of a late commit packet enter FAULT with FL110, but a lane for which a change into FAULT by
FL070 already waits keeps that code, which governs (R221). No step of the model leaves such a change on a lane that does not count as
faulted; the statement is about every state. -/
theorem not_gateCommitsAndCommitPackets : ¬ Obligations.GateCommitsAndCommitPackets := by
  intro h
  have hlate := ((h faultWaiting rfl).2 0 0 0).2.2
  obtain ⟨t, ht, -, -, -, -, -, -, -, hchg⟩ := hlate rfl (by decide) rfl rfl
  obtain rfl : _ = t := Host.Outcome.next.inj ht
  have hcode : lateChanges = _ := hchg
  rw [lateChanges_eq] at hcode
  exact absurd hcode (by decide)

end

/-! PROOFS. An instruction of Shosto on the job that its engine runs: what the engine does with its outcome (R325, R339, R345). -/

namespace Sys2Proof.Machine

section Instructions

variable {s : State} {e : Fin 30} {r : RunJob} {b b1 b2 : Bank} {i : Instr} {op : ShEnv → ShOut} {d d1 : Dev} {a : Nat}

/-! Words without inverted bits (R543, R544). -/

theorem Dev.rdWord_clean (h : d.eccMask a = 0) : d.rdWord a = ⟨d.rdN (a / 8 * 8) 8, 0, false⟩ := by
  rw [Dev.rdWord, h, eccRead, if_pos rfl]

theorem Dev.eccMask_aligned : d.eccMask (a / 8 * 8) = d.eccMask a := by
  rw [Dev.eccMask, Dev.eccMask, Nat.mul_div_cancel _ (by decide)]

theorem Dev.noteCorrected_clean {c : Clock} {x u : Nat} (h : d.eccMask a = 0) : d.noteCorrected c x u (d.rdWord a) = d := by
  rw [Dev.noteCorrected, Dev.rdWord_clean h, if_pos (Or.inl rfl)]

/-- The words of an instruction that stands error-free report nothing. -/
theorem ShFetches.badProg (h : ShOn s e r b) (hf : ShFetches s e r i) : s.dev.badProg e b.pc i = none := by
  obtain ⟨hlong, -⟩ := hf
  rw [h.bank] at hlong
  rw [Dev.badProg, Dev.rdWord_clean h.clean, if_neg Bool.false_ne_true]
  by_cases hl : shLong i = true
  · rw [Dev.rdWord_clean (hlong hl), Bool.and_false, if_neg Bool.false_ne_true]
  · rw [Bool.eq_false_iff.mpr hl, Bool.false_and, if_neg Bool.false_ne_true]

theorem ShFetches.noteProg (h : ShOn s e r b) (hf : ShFetches s e r i) : s.dev.noteProg s.clk e b.pc r.slot i = s.dev := by
  obtain ⟨hlong, -⟩ := hf
  rw [h.bank] at hlong
  rw [Dev.noteProg]
  simp only [Dev.noteCorrected_clean (Dev.eccMask_aligned.trans h.clean)]
  split
  · next hl => exact Dev.noteCorrected_clean (Dev.eccMask_aligned.trans (hlong hl.1))
  · rfl

/-! The outcome of an operation. -/

/-- The bank with the PC on the next instruction word. -/
def Bank.next (b : Bank) : Bank := { b with pc := b.pc + 4 }

/-- What an instruction of job r in bank b sees. -/
def State.shEnv (s : State) (e : Fin 30) (r : RunJob) (b : Bank) : ShEnv :=
  { e := e, slot := r.slot, ext := r.isExt, shadow := r.shadow, c := s.clk, d := s.dev, b := b }

/-- What the engine does with the outcome of an instruction of job r in bank b: the exception, the job's end, or the PC moved on. -/
def Dev.shSettle (d : Dev) (c : Clock) (e : Fin 30) (r : RunJob) (b : Bank) : ShOut → Dev
  | .exc cause addr => d.shExc c e r b.pc cause addr (d.progWord e b.pc)
  | .ok _ _ .stop => d.shEnd c e r b.pc
  | .ok d1 b1 pc => match b1.advance r.isExt pc with
    | some b2 => d1.setEngine e ((d1.engine e).setBank r.shadow b2)
    | none => d.shExc c e r b.pc excRange 0 (d.progWord e b.pc)

/-- An instruction that stands at the PC of a running job, under no repeat, is settled by its outcome; field values that R339 and R340
reject take ILLEGAL. -/
theorem ShRuns.shRun_eq (h : ShRuns s e r b) (hf : ShFetches s e r i) : s.dev.shRun s.clk e i op =
    if shLegal i then s.dev.shSettle s.clk e r b (op (s.shEnv e r b))
    else s.dev.shExc s.clk e r b.pc excIllegal 0 (s.dev.progWord e b.pc) := by
  have hfetch : s.dev.fetched e b.pc i = some true := h.bank ▸ hf.2
  have hgo : ¬ (s.clk.osc < r.start ∨ (s.dev.engine e).halted = true) := by
    simp [h.going, Nat.not_lt.mpr h.started]
  have hrep : b.rep = none := h.plain.1
  have henv : (⟨e, r.slot, decide (r.slot < 96) && decide (r.slot % 4 = 3), r.shadow, s.clk, s.dev, b⟩ : ShEnv) = s.shEnv e r b := rfl
  unfold Dev.shRun
  simp only [h.job, h.bank, if_neg hgo, if_neg (Nat.not_le.mpr h.inside), hf.badProg h.toShOn, hf.noteProg h.toShOn, hfetch, hrep, henv,
    Option.isSome_none, Bool.false_and, Bool.or_false]
  cases shLegal i with
  | false => simp only [Bool.not_false, if_true, Bool.false_eq_true, if_false]
  | true =>
    simp only [Bool.not_true, Bool.false_eq_true, if_false, if_true]
    unfold Dev.shSettle
    rcases op (s.shEnv e r b) with ⟨d1, b1, pc⟩ | ⟨cause, addr⟩
    · cases pc <;> rfl
    · rfl

theorem Dev.setEngine_setEngine {g g' : Engine} {k : Nat} : (d.setEngine k g).setEngine k g' = d.setEngine k g' := by
  rw [Dev.setEngine, Dev.setEngine, Dev.setEngine, Tab.set_set]

/-- The bank of an engine that is itself changed. -/
theorem State.withBank_setEngine {g : Engine} : ({ s with dev := s.dev.setEngine e g } : State).withBank e r b =
    { s with dev := s.dev.setEngine e (g.setBank r.shadow b) } := by
  rw [State.withBank, Dev.engine_setEngine_self, Dev.setEngine_setEngine]

/-! Rows. -/

variable (h : ShRuns s e r b) (hx : exec i s = .next (s.shosto e i op))

include h hx

theorem ShRuns.exec_settles (hf : ShFetches s e r i) (hl : shLegal i = true) :
    exec i s = .next { s with dev := s.dev.shSettle s.clk e r b (op (s.shEnv e r b)) } :=
  (exec_serving h.serves hx).trans (by rw [h.shRun_eq hf, if_pos hl])

/-- An operation that goes on to the next word moves the PC by 4 under no repeat and no loop. -/
theorem ShRuns.exec_seq (hf : ShFetches s e r i) (hl : shLegal i = true) (ho : op (s.shEnv e r b) = .ok d1 b1 .seq)
    (hplain : b1.rep = none ∧ b1.loop = none) :
    exec i s = .next ({ s with dev := d1 }.withBank e r b1.next) := by
  have hadv : b1.advance r.isExt .seq = some b1.next := by simp only [Bank.advance, hplain, Bank.next]
  rw [h.exec_settles hx hf hl, ho, Dev.shSettle, hadv]
  · rfl
  · simp

theorem ShRuns.traps_of_exc {cause addr : Nat} (hl : shLegal i = true) (ho : op (s.shEnv e r b) = .exc cause addr) : ShTraps s e r i cause addr := by
  intro hf
  rw [h.exec_settles hx hf hl, ho, h.bank, Dev.shSettle]

theorem ShRuns.traps_of_illegal (hl : shLegal i = false) : ShTraps s e r i 1 0 := by
  intro hf
  exact (exec_serving h.serves hx).trans (by rw [h.shRun_eq hf, if_neg (by simp [hl]), h.bank]; rfl)

theorem ShRuns.exec_stop (hf : ShFetches s e r i) (hl : shLegal i = true) (ho : op (s.shEnv e r b) = .ok d1 b1 .stop) :
    exec i s = .next { s with dev := s.dev.shEnd s.clk e r b.pc } := by
  rw [h.exec_settles hx hf hl, ho, Dev.shSettle]

end Instructions

end Sys2Proof.Machine

/-! PROOFS. The system instructions of Shosto: NOP, BRK, MFS, MTS, TIMR, IOLD, IOST and SEND (R326, R340, R348). -/

namespace Sys2Proof.Machine

section Banks

variable {b : Bank} {d k : BitVec 5} {v w : W32} {n : Nat}

/-! Registers of a bank (R325). -/

theorem Bank.xw_eq : b.xw d v = { b with x := (b.xw d v).x } := by
  unfold Bank.xw
  split <;> rfl

theorem Bank.xr_xw_self : (b.xw d v).xr d = if d = 0 then 0 else v := by
  by_cases hd : d = 0
  · rw [Bank.xr, if_pos hd, if_pos hd]
  · rw [Bank.xr, if_neg hd, if_neg hd, Bank.xw, if_neg hd]
    exact Tab.get_set_self

theorem Bank.xr_xw_ne (h : k ≠ d) : (b.xw d v).xr k = b.xr k := by
  by_cases hd : d = 0
  · rw [Bank.xw, if_pos hd]
  · have hne : d.toNat ≠ k.toNat := fun heq => h (BitVec.eq_of_toNat_eq heq.symm)
    by_cases hk : k = 0
    · rw [Bank.xr, Bank.xr, if_pos hk, if_pos hk]
    · rw [Bank.xr, Bank.xr, if_neg hk, if_neg hk, Bank.xw, if_neg hd]
      exact Tab.get_set_ne hne

theorem Bank.xw_pc : (b.xw d v).pc = b.pc := by rw [Bank.xw_eq]

theorem Bank.xw_plain (h : b.rep = none ∧ b.loop = none) : (b.xw d v).rep = none ∧ (b.xw d v).loop = none := by
  rw [Bank.xw_eq]
  exact h

/-- A result in one register, and the PC on the next word. -/
theorem Bank.keeps_xw : b.Keeps (b.xw d v).next [d] 4 := by
  refine ⟨fun k hk => Bank.xr_xw_ne (v := v) (by simpa using hk), ?_⟩
  rw [Bank.next, Bank.xw_eq]

theorem Bank.sameFlags_xw : b.SameFlags (b.xw d v).next := by
  rw [Bank.xw_eq]
  exact ⟨rfl, rfl, rfl, rfl⟩

theorem Bank.sat_xw : (b.xw d v).next.sat = b.sat := by rw [Bank.xw_eq, Bank.next]

theorem Bank.holds_xw : (b.xw d v).next.Holds d v := Bank.xr_xw_self

/-- A result in a register pair. -/
theorem Bank.xw2_eq : b.xw2 d n = { b with x := (b.xw2 d n).x } := by
  unfold Bank.xw2
  rw [Bank.xw_eq (b := b.xw d _), Bank.xw_eq (b := b)]

theorem Bank.xw2_plain (h : b.rep = none ∧ b.loop = none) : (b.xw2 d n).rep = none ∧ (b.xw2 d n).loop = none := by
  rw [Bank.xw2_eq]
  exact h

theorem Bank.keeps_xw2 : b.Keeps (b.xw2 d n).next [d, d + 1] 4 := by
  refine ⟨fun k hk => ?_, by rw [Bank.next, Bank.xw2_eq]⟩
  obtain ⟨hd, hd1⟩ : k ≠ d ∧ k ≠ d + 1 := by simpa using hk
  exact (Bank.xr_xw_ne hd1).trans (Bank.xr_xw_ne hd)

theorem Bank.sameFlags_xw2 : b.SameFlags (b.xw2 d n).next := by
  rw [Bank.xw2_eq]
  exact ⟨rfl, rfl, rfl, rfl⟩

theorem Bank.sat_xw2 : (b.xw2 d n).next.sat = b.sat := by rw [Bank.xw2_eq, Bank.next]

theorem Bank.holds_xw2_high : (b.xw2 d n).next.Holds (d + 1) (BitVec.ofNat 32 (n / 2 ^ 32)) := Bank.xr_xw_self

theorem Bank.holds_xw2_low : (b.xw2 d n).next.Holds d (BitVec.ofNat 32 n) := by
  have hne : d ≠ d + 1 := by bv_omega
  exact (Bank.xr_xw_ne hne).trans Bank.xr_xw_self

/-! Special registers (R326). -/

theorem testBit_of_div_mod {N k : Nat} {x : Bool} (h : N / 2 ^ k % 2 = x.toNat) : N.testBit k = x := by
  rw [Nat.testBit_eq_decide_div_mod_eq, h]
  cases x <;> rfl

/-- ST's bits under no loop. -/
theorem Bank.st_getLsbD {sh : Bool} (hl : b.loop = none) {k : Nat} (hk : k < 32) : (b.st sh).getLsbD k =
    ([b.z, b.n, b.c, b.v, b.sat, b.av0, b.av1, sh][k]?).getD false := by
  have hbit (x : Bool) (j : Nat) : (if x then 2 ^ j else 0) = x.toNat * 2 ^ j := by cases x <;> simp
  simp only [Bank.st, hl, Option.isSome_none, hbit, BitVec.getLsbD_ofNat, hk, decide_true, Bool.true_and]
  have hz := b.z.toNat_le
  have hn := b.n.toNat_le
  have hc := b.c.toNat_le
  have hv := b.v.toNat_le
  have hs := b.sat.toNat_le
  have h0 := b.av0.toNat_le
  have h1 := b.av1.toNat_le
  have hsh := sh.toNat_le
  rcases Nat.lt_or_ge k 8 with hlow | hhigh
  · interval_cases k
    exacts [testBit_of_div_mod (x := b.z) (by omega), testBit_of_div_mod (x := b.n) (by omega), testBit_of_div_mod (x := b.c) (by omega),
      testBit_of_div_mod (x := b.v) (by omega), testBit_of_div_mod (x := b.sat) (by omega), testBit_of_div_mod (x := b.av0) (by omega),
      testBit_of_div_mod (x := b.av1) (by omega), testBit_of_div_mod (x := sh) (by omega)]
  · have hnone : [b.z, b.n, b.c, b.v, b.sat, b.av0, b.av1, sh][k]? = none := List.getElem?_eq_none hhigh
    rw [hnone]
    refine Nat.testBit_lt_two_pow (Nat.lt_of_lt_of_le ?_ (Nat.pow_le_pow_right (n := 2) (by decide) hhigh))
    simp only [Bool.toNat_false]
    omega

/-- MTS leaves the repeat and the loop alone. -/
theorem Bank.setSpecial_plain {m : Nat} (h : b.rep = none ∧ b.loop = none) :
    (b.setSpecial m w).rep = none ∧ (b.setSpecial m w).loop = none := by
  rcases m with _ | _ | _ | _ | _ | m <;> exact h

end Banks

section Send

variable {v : ShEnv} {a n : Nat} {xd : BitVec 5}

/-! The words that SEND reads (R348). -/

/-- A read of an aligned word without inverted bits that the job may read. -/
theorem shRead_clean (ha : a % 8 = 0) (hr : canRead v.ext a = true) (hc : v.d.dataClean v.e a) :
    shRead v a 8 = .ok (v.d.dataVal v.e a 8, v.d) := by
  have haddr : dataAddr v.e a / 8 * 8 = dataAddr v.e a := by
    unfold dataAddr
    omega
  have hnote : v.d.noteCorrected v.c (dataAddr v.e a) (v.d.jobUnit v.slot) (v.d.rdWord (dataAddr v.e a)) = v.d :=
    Dev.noteCorrected_clean hc
  rw [shRead, if_neg (by omega), hr]
  simp only [Bool.not_true, Bool.false_eq_true, if_false, haddr, hnote]
  rw [Dev.rdWord_clean hc, haddr]
  rfl

/-- Word k of the area that begins at a. -/
def Dev.dataWord (d : Dev) (e a k : Nat) : W64 := BitVec.ofNat 64 (d.dataVal e ((a + 8 * k) % 65536) 8)

/-- Every word of the area can be read. -/
def ShEnv.sendable (v : ShEnv) (a n : Nat) : Prop :=
  a % 8 = 0 ∧ ∀ k < n, canRead v.ext ((a + 8 * k) % 65536) = true ∧ v.d.dataClean v.e ((a + 8 * k) % 65536)

theorem shReadWords_clean (h : v.sendable a n) :
    shReadWords n v a = .ok ((List.range n).map (v.d.dataWord v.e a), v.d) := by
  induction n generalizing a with
  | zero => rfl
  | succ n ih =>
    obtain ⟨ha, hw⟩ := h
    have hnext : v.sendable (a + 8) n := ⟨by omega, fun k hk => by
      have hk1 := hw (k + 1) (by omega)
      rwa [show a + 8 * (k + 1) = a + 8 + 8 * k by omega] at hk1⟩
    obtain ⟨hr, hc⟩ := hw 0 (by omega)
    have hread := shRead_clean (by omega) hr hc
    rw [Nat.mul_zero, Nat.add_zero] at hread
    rw [shReadWords, hread]
    have hstep : v.d.dataWord v.e (a + 8) = v.d.dataWord v.e a ∘ Nat.succ := by
      funext k
      rw [Function.comp_apply, Dev.dataWord, Dev.dataWord, show a + 8 * Nat.succ k = a + 8 + 8 * k by omega]
    simp only [ih hnext, List.range_succ_eq_map, List.map_cons, List.map_map, hstep]
    rfl

/-- The packet of a SEND of n words from a with the brand given. -/
def Dev.sendPacket (d : Dev) (e a n : Nat) (brand : W64) : Packet :=
  { brand := brand, words := (List.range (n - 1)).map fun k => d.dataWord e a (k + 1) }

/-- The words of the area, the first apart. -/
theorem shReadWords_cons (hn : 1 ≤ n) (h : v.sendable a n) :
    shReadWords n v a = .ok (v.d.dataWord v.e a 0 :: (v.d.sendPacket v.e a n 0).words, v.d) := by
  obtain ⟨m, rfl⟩ : ∃ m, n = m + 1 := ⟨n - 1, by omega⟩
  rw [shReadWords_clean h, List.range_succ_eq_map, List.map_cons, List.map_map]
  rfl

/-- Vendor code hands the fabric its words as they stand. -/
theorem shSendOp_vendor (hn : 1 ≤ n) (h : v.sendable ((v.b.xr xd).toNat % 65536) n) (hext : v.ext = false) :
    shSendOp v xd n = .ok { v.d with fab := { v.d.fab with flight := v.d.fab.flight ++
      [v.d.sendPacket v.e ((v.b.xr xd).toNat % 65536) n (v.d.dataWord v.e ((v.b.xr xd).toNat % 65536) 0)] } } v.b .seq := by
  rw [shSendOp, shReadWords_cons hn h]
  simp only [hext, Bool.not_false, if_true]
  rfl

/-- What an extension job may send (R348). -/
def extSends (brand : W64) (n : Nat) : Prop :=
  brandAddr brand = 0 ∧ brandKind brand = 0xD0 ∧ 0x40 ≤ brandUnit brand ∧ brandUnit brand ≤ 0x4F ∧ n = 4

theorem shSendOp_refused (hn : 1 ≤ n) (h : v.sendable ((v.b.xr xd).toNat % 65536) n) (hext : v.ext = true)
    (hbad : ¬ extSends (v.d.dataWord v.e ((v.b.xr xd).toNat % 65536) 0) n) :
    shSendOp v xd n = .exc 5 ((v.b.xr xd).toNat % 65536) := by
  have hor (w : W64) (hw : ¬ extSends w n) :
      brandAddr w ≠ 0 ∨ brandKind w ≠ 0xD0 ∨ brandUnit w < 0x40 ∨ 0x4F < brandUnit w ∨ n ≠ 4 := by
    unfold extSends at hw
    omega
  rw [shSendOp, shReadWords_cons hn h]
  simp only [hext, Bool.not_true, Bool.false_eq_true, if_false, if_pos (hor _ hbad)]
  rfl

theorem shSendOp_ext (hn : 1 ≤ n) (h : v.sendable ((v.b.xr xd).toNat % 65536) n) (hext : v.ext = true)
    (hok : extSends (v.d.dataWord v.e ((v.b.xr xd).toNat % 65536) 0) n) : ∃ seq prod,
    shSendOp v xd n = .ok { v.d with fab := { v.d.fab with prodSeq := prod, flight := v.d.fab.flight ++
      [v.d.sendPacket v.e ((v.b.xr xd).toNat % 65536) n (mkBrand 0 (brandUnit (v.d.dataWord v.e ((v.b.xr xd).toNat % 65536) 0)) 0xD0
        (v.d.lane v.e).epoch seq (brandOffs (v.d.dataWord v.e ((v.b.xr xd).toNat % 65536) 0)))] } } v.b .seq := by
  have hnone (w : W64) (hw : extSends w n) :
      ¬ (brandAddr w ≠ 0 ∨ brandKind w ≠ 0xD0 ∨ brandUnit w < 0x40 ∨ 0x4F < brandUnit w ∨ n ≠ 4) := by
    unfold extSends at hw
    omega
  rw [shSendOp, shReadWords_cons hn h]
  simp only [hext, Bool.not_true, Bool.false_eq_true, if_false, if_neg (hnone _ hok)]
  exact ⟨_, _, rfl⟩

end Send

end Sys2Proof.Machine

/-! PROOFS. The end of a job on its engine (R293, R294, R300, R313): what traces, reports, packets and decrements leave of the engine's jobs,
of the job's slot and of the chain. -/

namespace Sys2Proof.Machine

/-- These stay: the jobs on engine e and its DONE count, the CFG register of slot j, and the state of the chain. -/
structure JobKeeps (e : Fin 30) (j : Fin 96) (d d' : Dev) : Prop where
  done : d'.reg (HERDER_ENGe_DONE_DONE e).addr = d.reg (HERDER_ENGe_DONE_DONE e).addr
  cfg : d'.reg (HERDER_JOBj_CFG_STATE j).addr = d.reg (HERDER_JOBj_CFG_STATE j).addr
  run : (d'.engX e).run.map (·.slot) = (d.engX e).run.map (·.slot)
  preempted : (d'.engX e).preempted.map (·.slot) = (d.engX e).preempted.map (·.slot)
  chain : d'.chain = d.chain

section Keeps

variable {e : Fin 30} {j : Fin 96} {k n i t : Nat} {d d' d'' : Dev} {c : Clock} {f : Field}

theorem JobKeeps.refl : JobKeeps e j d d := ⟨rfl, rfl, rfl, rfl, rfl⟩

theorem JobKeeps.trans (h : JobKeeps e j d d') (h' : JobKeeps e j d' d'') : JobKeeps e j d d'' :=
  ⟨h'.done.trans h.done, h'.cfg.trans h.cfg, h'.run.trans h.run, h'.preempted.trans h.preempted, h'.chain.trans h.chain⟩

/-- What writes no register, no engine's jobs and nothing of the chain. -/
theorem JobKeeps.of_fields (hr : d'.regs = d.regs) (hx : d'.engx = d.engx) (hc : d'.chain = d.chain) : JobKeeps e j d d' := by
  refine ⟨?_, ?_, ?_, ?_, hc⟩ <;> simp only [Dev.reg, Dev.engX, hr, hx]

/-- A record of an engine that keeps the slots of its jobs. -/
theorem JobKeeps.setEngX {x : EngX} (hr : x.run.map (·.slot) = (d.engX k).run.map (·.slot))
    (hp : x.preempted.map (·.slot) = (d.engX k).preempted.map (·.slot)) : JobKeeps e j d (d.setEngX k x) := by
  refine ⟨rfl, rfl, ?_, ?_, rfl⟩ <;> rw [Dev.engX_setEngX] <;> split
  · next h => rw [hr, h]
  · rfl
  · next h => rw [hp, h]
  · rfl

/-- The address is neither of the engine's DONE nor of the slot's CFG. -/
def apartFromJob (e : Fin 30) (j : Fin 96) (a : Nat) : Prop := a ≠ (HERDER_ENGe_DONE_DONE e).addr ∧ a ≠ (HERDER_JOBj_CFG_STATE j).addr

theorem apartFromJob_of_outside {a : Nat} (h : a < 0x40010100 ∨ 0x40018000 ≤ a) : apartFromJob e j a := by
  simp only [apartFromJob, HERDER_ENGe_DONE_DONE, HERDER_JOBj_CFG_STATE]
  omega

theorem apartFromJob_engStat (h : k < 32) : apartFromJob e j (HERDER_ENGe_STAT_DEPTH k).addr := by
  simp only [apartFromJob, HERDER_ENGe_DONE_DONE, HERDER_JOBj_CFG_STATE, HERDER_ENGe_STAT_DEPTH]
  omega

theorem apartFromJob_cnt : apartFromJob e j (HERDER_JOBj_CNT_CNT k).addr := by
  simp only [apartFromJob, HERDER_ENGe_DONE_DONE, HERDER_JOBj_CFG_STATE, HERDER_JOBj_CNT_CNT]
  omega

theorem apartFromJob_cfg (h : k ≠ j) : apartFromJob e j (HERDER_JOBj_CFG_STATE k).addr := by
  simp only [apartFromJob, HERDER_ENGe_DONE_DONE, HERDER_JOBj_CFG_STATE]
  omega

theorem JobKeeps.put (h : apartFromJob e j f.addr) : JobKeeps e j d (d.put f n) :=
  ⟨Dev.reg_put_ne h.1, Dev.reg_put_ne h.2, rfl, rfl, rfl⟩

theorem JobKeeps.setf {x : Bool} (h : apartFromJob e j f.addr) : JobKeeps e j d (d.setf f x) := .put h

theorem JobKeeps.bump (h : apartFromJob e j f.addr) : JobKeeps e j d (d.bump f n) := .put h

/-! Traces, packets and reports (R319 to R322, R550). -/

theorem JobKeeps.setByte {a : Nat} {x : Byte} : JobKeeps e j d (d.setByte a x) := .of_fields rfl rfl rfl

theorem JobKeeps.wrN {a v : Nat} : JobKeeps e j d (d.wrN a n v) := by
  induction n generalizing d a v with
  | zero => exact .refl
  | succ n ih => exact JobKeeps.setByte.trans ih

theorem JobKeeps.touchEcc {a : Nat} : JobKeeps e j d (d.touchEcc a) := by
  unfold Dev.touchEcc
  split <;> exact .of_fields rfl rfl rfl

theorem JobKeeps.wr64 {a : Nat} {w : W64} : JobKeeps e j d (d.wr64 a w) := JobKeeps.wrN.trans .touchEcc

theorem JobKeeps.wrWords {a : Nat} {ws : List W64} : JobKeeps e j d (d.wrWords a ws) := by
  induction ws generalizing d a with
  | nil => exact .refl
  | cons w ws ih => exact JobKeeps.wr64.trans ih

/-- What a trace entry can write: the engine's greatest depth, the ring, its registers, and the entries left (R319 to R321). -/
theorem Dev.trace_rec {P : Dev → Prop} {kind slot eng prio depth value cls mbx : Nat} {late : Bool} (h : P d)
    (hdepth : ∀ x k n, P x → P (x.setEngX k { x.engX k with dmax := n })) (hword : ∀ x a w, P x → P (x.wr64 a w))
    (hput : ∀ x n, ∀ f : Field, f.addr < 0x40010100 → P x → P (x.put f n)) (hher : ∀ x y, P x → P { x with her := y }) :
    P (d.trace c kind slot eng prio depth value cls mbx late) := by
  have hx : P (if eng < 31 ∧ (d.engX eng).dmax < depth then d.setEngX eng { d.engX eng with dmax := depth } else d) := by
    split
    · exact hdepth _ _ _ h
    · exact h
  unfold Dev.trace
  simp only
  revert hx
  generalize (if eng < 31 ∧ (d.engX eng).dmax < depth then d.setEngX eng { d.engX eng with dmax := depth } else d) = x
  intro hx
  have hentry {a b v : Nat} {w u : W64} : P (((x.wr64 a w).wr64 b u).put HERDER_TR_WR_WR v) :=
    hput _ _ _ (by decide) (hword _ _ _ (hword _ _ _ hx))
  split
  · exact hx
  · split
    · split
      · exact hput _ _ HERDER_TR_CTL_FROZEN (by decide) (hher _ _ hentry)
      · exact hher _ _ hentry
    · split
      · exact hentry
      · split
        · exact hput _ _ HERDER_TR_CTL_FROZEN (by decide) hentry
        · exact hher _ _ hentry

theorem JobKeeps.trace {kind slot eng prio depth value cls mbx : Nat} {late : Bool} :
    JobKeeps e j d (d.trace c kind slot eng prio depth value cls mbx late) :=
  Dev.trace_rec (P := JobKeeps e j d) .refl (fun _ _ _ h => h.trans (.setEngX rfl rfl)) (fun _ _ _ h => h.trans .wr64)
    (fun _ _ _ hf h => h.trans (.put (apartFromJob_of_outside (.inl hf)))) fun _ _ h => h.trans (.of_fields rfl rfl rfl)

theorem JobKeeps.traceJob {kind slot value : Nat} {late : Bool} : JobKeeps e j d (d.traceJob c kind slot value late) := .trace

theorem JobKeeps.emit {u type offs : Nat} {time : Option (Nat × Nat)} {ws : List W64} {inj : Bool} :
    JobKeeps e j d (d.emit u type time offs ws inj) := .of_fields rfl rfl rfl

theorem JobKeeps.pairNotice {ft u type : Nat} {w : W64} : JobKeeps e j d (d.pairNotice c ft u type w) := by
  unfold Dev.pairNotice
  split <;> exact .of_fields rfl rfl rfl

theorem JobKeeps.record {code u info : Nat} {inj : Bool} : JobKeeps e j d (d.record c code u info inj) := by
  have hhigh {a : Nat} (ha : 0x40018000 ≤ a) : apartFromJob e j a := apartFromJob_of_outside (.inr ha)
  unfold Dev.record
  refine JobKeeps.trans ?_ (JobKeeps.emit.trans .pairNotice)
  split
  · refine JobKeeps.trans ?_ (.put (f := FLT_STAT_UNREAD) (hhigh (by decide)))
    exact .of_fields rfl rfl rfl
  · exact .bump (hhigh (by decide))

theorem JobKeeps.reportLim {code u info key : Nat} {inj : Bool} : JobKeeps e j d (d.reportLim c code u info key inj) := by
  have hopen : JobKeeps e j d (Dev.reportLim.open_ d c code u info inj (code * 2 ^ 16 + key)) := by
    rw [Dev.reportLim.open_]
    refine JobKeeps.trans ?_ .record
    exact .of_fields rfl rfl rfl
  unfold Dev.reportLim
  simp only
  split
  · split
    · exact .bump (apartFromJob_of_outside (.inr (by decide)))
    · exact hopen
  · exact hopen

/-! The lists of the Herder (R293, R295, R297). -/

theorem JobKeeps.engStat (h : k < 32) : JobKeeps e j d (d.engStat k) := by
  have hstat := apartFromJob_engStat (e := e) (j := j) h
  unfold Dev.engStat
  exact (JobKeeps.put (f := HERDER_ENGe_STAT_DEPTH k) hstat).trans
    ((JobKeeps.setf (f := HERDER_ENGe_STAT_RUN k) hstat).trans (.setf (f := HERDER_ENGe_STAT_SHADOW k) hstat))

theorem Dev.jobEng_lt : d.jobEng k < 32 := Nat.mod_lt _ (by decide : 0 < 2 ^ 5)

theorem JobKeeps.jobToReady (h : k ≠ j) : JobKeeps e j d (d.jobToReady k t) := by
  unfold Dev.jobToReady
  refine JobKeeps.trans ?_ (.engStat Dev.jobEng_lt)
  refine JobKeeps.trans (.put (f := HERDER_JOBj_CFG_STATE k) (n := jobReady) (apartFromJob_cfg h)) ?_
  exact .of_fields rfl rfl rfl

theorem JobKeeps.jobReleased (h : k ≠ j) : JobKeeps e j d (d.jobReleased k t) := by
  unfold Dev.jobReleased
  split
  · exact .jobToReady h
  · exact (JobKeeps.put (apartFromJob_cfg h)).trans (.of_fields rfl rfl rfl)

/-- A slot that is FREE ignores decrements, its own among them (R293). -/
theorem JobKeeps.jobDec (hj : d.jobState j = jobFree) : JobKeeps e j d (d.jobDec k i t) := by
  unfold Dev.jobDec
  simp only
  split
  · exact .bump (apartFromJob_of_outside (.inl (by decide)))
  · next h =>
    have hk : k ≠ j := by
      rintro rfl
      exact h (.inl (by rw [hj]; decide))
    have hcnt := JobKeeps.put (d := d) (n := d.get (HERDER_JOBj_CNT_CNT k) - 1) (apartFromJob_cnt (e := e) (j := j) (k := k))
    split
    · exact hcnt.trans (.jobReleased hk)
    · exact hcnt

theorem JobKeeps.jobState (h : JobKeeps e j d d') : d'.jobState j = d.jobState j := Dev.get_congr h.cfg

theorem JobKeeps.jobDecs {l : List Nat} (hj : d.jobState j = jobFree) : JobKeeps e j d (l.foldl (fun d k => d.jobDec k i t) d) := by
  induction l generalizing d with
  | nil => exact .refl
  | cons k l ih =>
    have hdec : JobKeeps e j d (d.jobDec k i t) := .jobDec hj
    exact hdec.trans (ih (hdec.jobState.trans hj))

/-! The inbox of the engine (R330). -/

theorem JobKeeps.snapAgain : JobKeeps e j d (d.snapAgain c k) := by
  unfold Dev.snapAgain
  simp only
  split
  · next r hr =>
    split
    · exact .refl
    · refine JobKeeps.trans (.setEngX (k := k) (x := { d.engX k with run := some { r with inbox := d.inboxSnap k r.slot } }) ?_ rfl) ?_
      · rw [hr]
        rfl
      · exact .of_fields rfl rfl rfl
  · exact .refl

theorem JobKeeps.inboxWrite {pos b : Nat} {p : Packet} : JobKeeps e j d (d.inboxWrite c k pos b p) := by
  unfold Dev.inboxWrite
  simp only
  have hstore {a : Nat} {ws : List W64} {g : Engine} : JobKeeps e j d (((d.wrWords a ws).setEngine k g).snapAgain c k) :=
    JobKeeps.wrWords.trans (JobKeeps.trans (d' := (d.wrWords a ws).setEngine k g) (.of_fields rfl rfl rfl) .snapAgain)
  split
  · exact hstore
  · split
    · exact hstore.trans (.bump (apartFromJob_of_outside (.inl (by decide))))
    · exact hstore.trans (.of_fields rfl rfl rfl)

theorem JobKeeps.inboxPut {pos : Nat} {p : Packet} : JobKeeps e j d (d.inboxPut c k pos p) := by
  unfold Dev.inboxPut
  simp only
  split
  · exact .inboxWrite
  · split
    · exact .inboxWrite
    · exact .of_fields rfl rfl rfl

theorem JobKeeps.inboxFlush : JobKeeps e j d (d.inboxFlush c k) := by
  have hall (ws : List (Nat × Packet)) {x : Dev} : JobKeeps e j x (ws.foldl (fun d w => d.inboxPut c k w.1 w.2) x) := by
    induction ws generalizing x with
    | nil => exact .refl
    | cons w ws ih => exact JobKeeps.inboxPut.trans ih
  refine JobKeeps.trans (d' := d.setEngine k { d.engine k with waiting := [] }) ?_ (hall _)
  exact .of_fields rfl rfl rfl

/-! The job leaves its engine (R300, R314). -/

theorem Dev.engX_put : (d.put f n).engX k = d.engX k := rfl

theorem jobCfg_ne_done : (HERDER_JOBj_CFG_STATE k).addr ≠ (HERDER_ENGe_DONE_DONE e).addr := by
  simp only [HERDER_JOBj_CFG_STATE, HERDER_ENGe_DONE_DONE]
  omega

/-- The preempted job takes the engine, and DONE and the chain stay. -/
theorem Dev.leaveEngine_keeps : ((d.leaveEngine c e n).engX e).run.map (·.slot) = (d.engX e).preempted.map (·.slot) ∧
    (d.leaveEngine c e n).reg (HERDER_ENGe_DONE_DONE e).addr = d.reg (HERDER_ENGe_DONE_DONE e).addr ∧
    (d.leaveEngine c e n).chain = d.chain := by
  have hflush {x : Dev} : JobKeeps e 0 x ((if (x.engine e).waiting.isEmpty then x else x.inboxFlush c e).engStat e) := by
    refine JobKeeps.trans ?_ (.engStat (by omega))
    split
    · exact .refl
    · exact .inboxFlush
  unfold Dev.leaveEngine
  simp only
  cases hp : (d.engX e).preempted with
  | none =>
    refine ⟨hflush.run.trans ?_, hflush.done.trans rfl, hflush.chain.trans rfl⟩
    rw [Dev.engX_setEngX_self]
    rfl
  | some r =>
    refine ⟨hflush.run.trans ?_, hflush.done.trans (Dev.reg_put_ne jobCfg_ne_done), hflush.chain.trans rfl⟩
    rw [Dev.engX_put, Dev.engX_setEngX_self]
    rfl

/-- The slot is FREE; the engine's jobs, its DONE and the chain stay. -/
theorem Dev.jobToFree_keeps : (d.jobToFree j).jobState j = jobFree ∧
    ((d.jobToFree j).engX e).run.map (·.slot) = (d.engX e).run.map (·.slot) ∧
    (d.jobToFree j).reg (HERDER_ENGe_DONE_DONE e).addr = d.reg (HERDER_ENGe_DONE_DONE e).addr ∧ (d.jobToFree j).chain = d.chain := by
  have hkeep : JobKeeps e j (d.put (HERDER_JOBj_CFG_STATE j) jobFree) (d.jobToFree j) := by
    unfold Dev.jobToFree
    simp only
    rw [if_neg (by omega)]
    refine JobKeeps.trans ?_ (.engStat Dev.jobEng_lt)
    exact .of_fields rfl rfl rfl
  refine ⟨hkeep.jobState.trans ?_, hkeep.run, hkeep.done.trans (Dev.reg_put_ne jobCfg_ne_done), hkeep.chain⟩
  exact Dev.get_put_self (by decide : 0 + 3 ≤ 32)

/-- A completion counted in DONE, with its packet. -/
def Dev.countDone (d : Dev) (e u : Nat) (ws : List W64) : Dev :=
  (d.put (HERDER_ENGe_DONE_DONE e) (d.get (HERDER_ENGe_DONE_DONE e) + 1)).emit u 0x00 none 0xFFFF ws

theorem Dev.countDone_keeps {u : Nat} {ws : List W64} :
    (d.countDone e u ws).get (HERDER_ENGe_DONE_DONE e) = (d.get (HERDER_ENGe_DONE_DONE e) + 1) % 2 ^ (HERDER_ENGe_DONE_DONE e).width ∧
    ((d.countDone e u ws).engX e).preempted.map (·.slot) = (d.engX e).preempted.map (·.slot) ∧ (d.countDone e u ws).chain = d.chain := by
  have hemit : JobKeeps e 0 (d.put (HERDER_ENGe_DONE_DONE e) (d.get (HERDER_ENGe_DONE_DONE e) + 1)) (d.countDone e u ws) := .emit
  exact ⟨(Dev.get_congr (f := HERDER_ENGe_DONE_DONE e) hemit.done).trans (Dev.get_put_self (by decide : 0 + 32 ≤ 32)),
    hemit.preempted.trans (by rw [Dev.engX_put]), hemit.chain.trans Dev.put_chain⟩

/-- Normal completion of a slow job, apart from its reports: counted, off its engine and its slot, its successors decremented. -/
theorem Dev.jobComplete_slow {r : RunJob} (hr : (d.engX e).run = some r) (hslow : r.slot % 4 ≠ 0) : ∃ (x : Dev) (u m : Nat) (ws : List W64),
    JobKeeps e j d x ∧ d.jobComplete c e = (d.jobSuccs r.slot).foldl (fun y k => y.jobDec k (d.jobX r.slot).inst c.ns)
      (((x.countDone e u ws).leaveEngine c e m).jobToFree r.slot) := by
  unfold Dev.jobComplete
  simp only [hr]
  rw [if_neg (fun h => hslow h.2)]
  refine ⟨_, _, _, _, ?_, rfl⟩
  have hmargin {y : Dev} {code u info key : Nat} : JobKeeps e j y ((y.setf (HERDER_ENGe_STAT_MARGIN_LOW e)).reportLim c code u info key) :=
    (JobKeeps.setf (f := HERDER_ENGe_STAT_MARGIN_LOW e) (apartFromJob_engStat (k := e) (by omega))).trans .reportLim
  split
  · exact JobKeeps.traceJob.trans hmargin
  · exact .traceJob

/-- Its slot is FREE, the preempted job takes the engine, and the engine counts it in DONE. -/
theorem Dev.jobComplete_keeps {r : RunJob} (hr : (d.engX e).run = some r) (hj : r.slot = j) (hslow : r.slot % 4 ≠ 0) :
    (d.jobComplete c e).jobState j = jobFree ∧
    ((d.jobComplete c e).engX e).run.map (·.slot) = (d.engX e).preempted.map (·.slot) ∧
    (d.jobComplete c e).get (HERDER_ENGe_DONE_DONE e) = (d.get (HERDER_ENGe_DONE_DONE e) + 1) % 2 ^ (HERDER_ENGe_DONE_DONE e).width ∧
    (d.jobComplete c e).chain = d.chain := by
  obtain ⟨x, u, m, ws, hx, heq⟩ := Dev.jobComplete_slow (c := c) (j := j) hr hslow
  obtain ⟨hcount, hpre, hchain₁⟩ := Dev.countDone_keeps (d := x) (e := e) (u := u) (ws := ws)
  obtain ⟨hrun₂, hdone₂, hchain₂⟩ := Dev.leaveEngine_keeps (d := x.countDone e u ws) (c := c) (e := e) (n := m)
  obtain ⟨hfree, hrun₃, hdone₃, hchain₃⟩ := Dev.jobToFree_keeps (d := (x.countDone e u ws).leaveEngine c e m) (e := e) (j := j)
  have hdecs := JobKeeps.jobDecs (e := e) (i := (d.jobX j).inst) (t := c.ns) (l := d.jobSuccs j) hfree
  have hx_done : x.get (HERDER_ENGe_DONE_DONE e) = d.get (HERDER_ENGe_DONE_DONE e) := Dev.get_congr (f := HERDER_ENGe_DONE_DONE e) hx.done
  rw [heq, hj]
  refine ⟨hdecs.jobState.trans hfree, hdecs.run.trans (hrun₃.trans (hrun₂.trans (hpre.trans hx.preempted))), ?_,
    hdecs.chain.trans (hchain₃.trans (hchain₂.trans (hchain₁.trans hx.chain)))⟩
  rw [← hx_done, ← hcount]
  exact Dev.get_congr (f := HERDER_ENGe_DONE_DONE e) (hdecs.done.trans (hdone₃.trans hdone₂))

end Keeps

end Sys2Proof.Machine

/-! PROOFS. END, and the system instructions (R326, R340, R345, R348). -/

namespace Sys2Proof.Machine

section Ends

variable {d : Dev} {c : Clock} {e : Nat} {r : RunJob} {pc : Nat}

theorem Dev.shEnd_over (h : d.jobBudget r.slot < r.execNs c.osc) : d.shEnd c e r pc = d.overrun c e := if_pos h

/-- END within the budget of a job with an error-free inbox; a slow job past its deadline sets SLOW_MISS. -/
theorem Dev.shEnd_within (hb : r.execNs c.osc ≤ d.jobBudget r.slot) (hi : d.badInbox e r = none) : d.shEnd c e r pc =
    if decide (r.slot < 96) && decide (r.slot % 4 ≠ 0) && decide (d.jobDeadline r.slot < c.ns)
    then (((d.jobWork c r).jobComplete c e).pktAgain c r.slot).setf (PWM_Lnn_CYC_STAT_SLOW_MISS (r.slot / 4))
    else ((d.jobWork c r).jobComplete c e).pktAgain c r.slot := by
  rw [Dev.shEnd, if_neg (Nat.not_lt.mpr hb), hi]

theorem Dev.shEnd_inTime (hb : r.execNs c.osc ≤ d.jobBudget r.slot) (hi : d.badInbox e r = none) (hd : c.ns ≤ d.jobDeadline r.slot) :
    d.shEnd c e r pc = ((d.jobWork c r).jobComplete c e).pktAgain c r.slot := by
  rw [Dev.shEnd_within hb hi, if_neg (by simp [hd])]

theorem RunJob.isExt_iff : r.isExt = true ↔ r.slot < 96 ∧ r.slot % 4 = 3 := by simp [RunJob.isExt]

/-- The work of an extension job is its packets alone. -/
theorem Dev.jobWork_ext (h : r.isExt = true) : d.jobWork c r = d := by
  obtain ⟨hlt, hmod⟩ := RunJob.isExt_iff.mp h
  simp [Dev.jobWork, hlt, hmod]

theorem Dev.badInbox_ext (h : r.isExt = true) : d.badInbox e r = none :=
  if_pos (.inr (by have := (RunJob.isExt_iff.mp h).2; omega))

theorem Dev.pktAgain_none (h : d.chain.again.get (fun _ => 0) r.slot = 0) : d.pktAgain c r.slot = d := if_pos h

/-- END of an extension job within its budget frees its slot, gives the engine back and counts in DONE. -/
theorem Dev.shEnd_ext {k : Fin 30} (hr : (d.engX k).run = some r) (hext : r.isExt = true) (hb : r.execNs c.osc ≤ d.jobBudget r.slot)
    (ha : d.chain.again.get (fun _ => 0) r.slot = 0) : (d.shEnd c k r pc).jobState r.slot = jobFree ∧
    ((d.shEnd c k r pc).engX k).run.map (·.slot) = (d.engX k).preempted.map (·.slot) ∧
    (d.shEnd c k r pc).get (HERDER_ENGe_DONE_DONE k) = (d.get (HERDER_ENGe_DONE_DONE k) + 1) % 2 ^ (HERDER_ENGe_DONE_DONE k).width := by
  obtain ⟨hlt, hmod⟩ := RunJob.isExt_iff.mp hext
  obtain ⟨hfree, hrun, hdone, hchain⟩ := Dev.jobComplete_keeps (c := c) (j := ⟨r.slot, hlt⟩) hr rfl (by omega)
  have hkeep : JobKeeps k ⟨r.slot, hlt⟩ (d.jobComplete c k) (d.shEnd c k r pc) := by
    rw [Dev.shEnd_within hb (Dev.badInbox_ext hext), Dev.jobWork_ext hext, Dev.pktAgain_none (by rw [hchain, ha])]
    split
    · refine .setf (apartFromJob_of_outside (.inr ?_))
      simp only [PWM_Lnn_CYC_STAT_SLOW_MISS]
      omega
    · exact .refl
  exact ⟨hkeep.jobState.trans hfree, hkeep.run.trans hrun, (Dev.get_congr (f := HERDER_ENGe_DONE_DONE k) hkeep.done).trans hdone⟩

end Ends

end Sys2Proof.Machine

section
open Sys2Proof Sys2Proof.Machine

/-- Settles O39: an instruction that stands at the PC is settled by its operation's outcome; END by the completion of the job (log entries 42,
43 and 99). -/
theorem shSystemRows : Obligations.ShSystemRows := by
  intro s e r b h d x n next a word sends at_ sent
  have hrep := h.plain.1
  have hloop := h.plain.2
  refine ⟨?nop, ?brk, ?brkDebug, ?mfs, ?mts, ?special, ?timr, ?timrOdd, ?ioExt, ?ioMisaligned, ?io, ?sendLen, ?send, ?endOver, ?endWork, ?endExt⟩
  case nop => exact fun hf => h.exec_seq rfl hf rfl rfl h.plain
  case brk =>
    intro hf hd
    exact h.exec_seq rfl hf rfl (congrArg (fun d' => ShOut.ok d' b .seq) (if_neg (by simp [State.shEnv, hd]))) h.plain
  case brkDebug =>
    intro hf hd
    exact (h.exec_seq rfl hf rfl (congrArg (fun d' => ShOut.ok d' b .seq) (if_pos hd)) h.plain).trans
      (congrArg Host.Outcome.next State.withBank_setEngine)
  case mfs =>
    intro hx hf
    refine ⟨_, h.exec_seq rfl hf (by simpa [shLegal] using hx) rfl (Bank.xw_plain h.plain), Bank.keeps_xw, Bank.sameFlags_xw, Bank.sat_xw, ?_⟩
    have hval (w : W32) (hw : shSpecial (s.shEnv e r b) x.toNat = w) : (b.xw d (shSpecial (s.shEnv e r b) x.toNat)).next.Holds d w :=
      hw ▸ Bank.holds_xw
    have hst (hx0 : x = 0) : shSpecial (s.shEnv e r b) x.toNat = b.st r.shadow := by rw [hx0]; rfl
    refine ⟨fun hx0 hd k hk => ?_, fun hk => hval _ (by rw [hk]; rfl), fun hk => hval _ (by rw [hk]; rfl), fun hk => hval _ (by rw [hk]; rfl),
      fun hk => hval _ (by rw [hk]; rfl), fun hk => hval _ ?_, fun hk => hval _ (by rw [hk]; rfl), fun hk => hval _ (by rw [hk]; rfl)⟩
    · exact (congrArg (BitVec.getLsbD · k) ((hval _ (hst hx0)).trans (if_neg hd))).trans (Bank.st_getLsbD hloop hk)
    · simp only [hk, shSpecial, State.shEnv, hloop]
      rfl
  case mts =>
    intro hx hf
    refine (h.exec_seq rfl hf (by simpa [shLegal] using hx) rfl (Bank.setSpecial_plain h.plain)).trans ?_
    refine congrArg (fun b' => Host.Outcome.next (s.withBank e r b')) ?_
    generalize x.toNat = m
    rcases m with _ | _ | _ | _ | _ | m <;> rfl
  case special =>
    intro hx
    have hl : ¬ x.toNat < 8 := by omega
    exact ⟨h.traps_of_illegal rfl (by simpa [shLegal] using hx), h.traps_of_illegal rfl (by simpa [shLegal] using hx)⟩
  case timr =>
    intro hd hf
    exact ⟨_, h.exec_seq rfl hf (by simpa [shLegal] using hd) rfl (Bank.xw2_plain h.plain), Bank.keeps_xw2, Bank.sameFlags_xw2, Bank.sat_xw2,
      Bank.holds_xw2_low, Bank.holds_xw2_high⟩
  case timrOdd => exact fun hd => h.traps_of_illegal rfl (by simp [shLegal, hd])
  case ioExt =>
    exact fun hext => ⟨h.traps_of_exc rfl rfl (if_pos hext), h.traps_of_exc rfl rfl (if_pos hext)⟩
  case ioMisaligned =>
    intro hext ha
    have hv : ¬ (s.shEnv e r b).ext = true := by simp [State.shEnv, hext]
    exact ⟨h.traps_of_exc rfl rfl ((if_neg hv).trans (if_pos ha)), h.traps_of_exc rfl rfl ((if_neg hv).trans (if_pos ha))⟩
  case io =>
    intro hext ha rd
    have hv : ¬ (s.shEnv e r b).ext = true := by simp [State.shEnv, hext]
    refine ⟨fun hf => ?_, fun hf => ?_⟩
    · rw [← Bank.xw_pc (b := b) (d := d) (v := rd.1)]
      exact h.exec_seq rfl hf rfl ((if_neg hv).trans (if_neg (not_not.mpr ha))) (Bank.xw_plain h.plain)
    · exact h.exec_seq rfl hf rfl ((if_neg hv).trans (if_neg (not_not.mpr ha))) h.plain
  case sendLen =>
    intro hn
    exact h.traps_of_illegal rfl (by simp [shLegal]; omega)
  case send =>
    intro hn hn8 ⟨ha, hw⟩
    have hl : shLegal (.shSend e d x n) = true := by simp [shLegal, hn, hn8]
    have hs : (s.shEnv e r b).sendable a n.toNat := ⟨ha, hw⟩
    refine ⟨fun hext hf => ?_, fun hext => ⟨fun hbad => ?_, fun hok => ?_⟩⟩
    · exact ⟨_, h.exec_seq rfl hf hl (shSendOp_vendor hn hs hext) h.plain, rfl, rfl, rfl⟩
    · exact h.traps_of_exc rfl hl (shSendOp_refused hn hs hext hbad)
    · obtain ⟨seq, prod, hop⟩ := shSendOp_ext hn hs hext hok
      exact ⟨seq, fun hf => ⟨_, h.exec_seq rfl hf hl hop h.plain, rfl, rfl, trivial⟩⟩
  case endOver =>
    intro hf hlt
    rw [h.exec_stop rfl hf rfl rfl, Dev.shEnd_over hlt]
    exact (exec_serving (i := .jobOverrun ⟨e, by omega⟩) (h := fun c d => d.overrun c e) h.serves rfl).symm
  case endWork =>
    intro hf hle hin hdl
    rw [h.exec_stop rfl hf rfl rfl, Dev.shEnd_inTime hle hin hdl]
  case endExt =>
    intro hf hle hext hagain
    obtain ⟨hfree, hrun, hdone⟩ := Dev.shEnd_ext (pc := b.pc) h.job hext hle hagain
    exact ⟨_, h.exec_stop rfl hf rfl rfl, rfl, hfree, hrun, hdone⟩

end

/-! PROOFS. Delivery of a packet by the fabric (R26 to R34, R129, R329, R404). -/

namespace Sys2Proof.Machine

section Delivery

variable {s : State} {d : Dev} {c : Clock} {p q : Packet} {n u : Nat}

/-! The packet and its consumers. -/

theorem Dev.deliver_clean (h : Packet_read p = some (q, 0)) : d.deliver c p = d.deliverRead c q := by
  rw [Dev.deliver, h]
  rfl

theorem Dev.deliverRead_malformed (h : malformed q.brand = true) :
    d.deliverRead c q = { d with fab := { d.fab with malformed := d.fab.malformed + 1 } } := if_pos h

theorem Dev.deliverRead_outgoing (h : malformed q.brand = false) (ho : d.isOutgoing q.brand = true) :
    d.deliverRead c q = (d.capture c q).toChain c q := by
  rw [Dev.deliverRead, if_neg (by simp [h]), if_pos ho]

theorem Dev.deliverRead_here (h : malformed q.brand = false) (ho : d.isOutgoing q.brand = false) : d.deliverRead c q = d.accept c q := by
  rw [Dev.deliverRead, if_neg (by simp [h]), if_neg (by simp [ho])]

/-- The sequence check moves the fabric's counts alone. -/
theorem Dev.seqCheck_eq {src : Nat} : (d.seqCheck src q).2 = { d with fab := (d.seqCheck src q).2.fab } := by
  unfold Dev.seqCheck
  simp only
  split <;> rfl

theorem Dev.seqCheck_flight {src : Nat} : (d.seqCheck src q).2.fab.flight = d.fab.flight := by
  unfold Dev.seqCheck
  simp only
  split <;> rfl

theorem Dev.seqCheck_stale {src : Nat} (h : (d.seqCheck src q).1 = false) : (d.seqCheck src q).2 = d.countStale := by
  unfold Dev.seqCheck at h ⊢
  simp only at h ⊢
  split at h
  · next hold => rw [if_pos hold, Dev.countStale]
  · cases h

theorem Dev.accept_stale (h : (d.seqCheck 0 q).1 = false) : d.accept c q = d.countStale := by
  rw [Dev.accept, ← Dev.seqCheck_stale h]
  simp [h]

/-- A packet that passes the sequence check: counted by its unit where it is of another epoch, else consumed. -/
theorem Dev.accept_fresh (h : (d.seqCheck 0 q).1 = true) : d.accept c q =
    if brandUnit q.brand < 0x40 ∧ brandEpoch q.brand ≠ ((((d.seqCheck 0 q).2.capture c q).safetySees q).lane (brandUnit q.brand)).epoch
    then (((d.seqCheck 0 q).2.capture c q).safetySees q).bump (TRJ_AXaa_EPSTALE_CNT (brandUnit q.brand))
    else (((d.seqCheck 0 q).2.capture c q).safetySees q).consume c q := by
  rw [Dev.accept]
  simp only [h, Bool.not_true, Bool.false_eq_true, if_false]

/-- A packet that no capture channel selects. -/
theorem Dev.capture_none (h : ∀ cc < 64, d.capSelects cc q = false) : d.capture c q = d := by
  have hnone : (List.range 64).filter (fun cc => d.capSelects cc q) = [] := by
    rw [List.filter_eq_nil_iff]
    intro cc hcc
    simp [h cc (List.mem_range.mp hcc)]
  rw [Dev.capture, hnone]
  rfl

/-- The safety unit has no use for a type 0x41 packet. -/
theorem Dev.safetySees_sample (h : brandType q.brand = 0x41) : d.safetySees q = d := by
  simp only [Dev.safetySees, h]

/-- A sample that no slot follows goes to no inbox (R250). -/
theorem Dev.masterIn_none {key : Nat} (h : ∀ a < 64, ∀ m, (d.axX a).mst = some m → m.key ≠ key) : d.masterIn c key q = d := by
  refine List.foldl_fixed' (fun i => if_neg ?_) _
  simp only [Bool.not_eq_true, List.any_eq_false]
  intro a ha
  cases hm : (d.axX a).mst with
  | none => simp
  | some m => simp [h a (List.mem_range.mp ha) m hm]

theorem Dev.consume_sample (h : brandType q.brand = 0x41) (hu : brandUnit q.brand < 64)
    (hm : ∀ a < 64, ∀ m, (d.axX a).mst = some m → m.key ≠ 128 + brandUnit q.brand) :
    d.consume c q = d.pushSample c.ns (128 + brandUnit q.brand) (sampleOf (d.packetNs c.ns q) q) := by
  simp only [Dev.consume, h, hu, if_true]
  exact Dev.masterIn_none hm

theorem Dev.packetNs_fab {f : Fabric} {now : Nat} : ({ d with fab := f } : Dev).packetNs now q = d.packetNs now q := by
  have hget (g : Nat) : ({ d with fab := f } : Dev).get (GATE_GTnnn_CFG_ACT_TARGET g) = d.get (GATE_GTnnn_CFG_ACT_TARGET g) := Dev.get_congr rfl
  simp only [Dev.packetNs, Dev.refInstant, Dev.gateX, Dev.axX, hget]

/-- Whether a channel selects a packet does not depend on the fabric. -/
theorem Dev.capSelects_fab {f : Fabric} {cc : Nat} : ({ d with fab := f } : Dev).capSelects cc q = d.capSelects cc q := by
  have hget (g : Field) : ({ d with fab := f } : Dev).get g = d.get g := Dev.get_congr rfl
  rw [Dev.capSelects, Dev.capSelects, Dev.flag, Dev.flag, hget, hget, hget]

section Samples

variable (hok : (d.seqCheck 0 q).1 = true) (hcap : ∀ cc < 64, d.capSelects cc q = false) (ht : brandType q.brand = 0x41)

include hok hcap ht

/-- A type 0x41 packet past the sequence check, recorded by no channel: counted where it is of another epoch, else consumed. -/
theorem Dev.accept_sample_eq (hu : brandUnit q.brand < 0x40) : d.accept c q =
    if brandEpoch q.brand ≠ (d.lane (brandUnit q.brand)).epoch then (d.seqCheck 0 q).2.bump (TRJ_AXaa_EPSTALE_CNT (brandUnit q.brand))
    else (d.seqCheck 0 q).2.consume c q := by
  have hcap' : ∀ cc < 64, (d.seqCheck 0 q).2.capSelects cc q = false := fun cc hcc => by
    rw [Dev.seqCheck_eq, Dev.capSelects_fab, hcap cc hcc]
  have hlane : ((d.seqCheck 0 q).2.lane (brandUnit q.brand)).epoch = (d.lane (brandUnit q.brand)).epoch := by rw [Dev.seqCheck_eq, Dev.lane, Dev.lane]
  rw [Dev.accept_fresh hok, Dev.capture_none hcap', Dev.safetySees_sample ht, hlane]
  simp only [hu, true_and]

theorem Dev.accept_sample (hu : brandUnit q.brand < 0x40) (hm : ∀ a < 64, ∀ m, (d.axX a).mst = some m → m.key ≠ 128 + brandUnit q.brand)
    (he : brandEpoch q.brand = (d.lane (brandUnit q.brand)).epoch) :
    d.accept c q = (d.seqCheck 0 q).2.pushSample c.ns (128 + brandUnit q.brand) (sampleOf (d.packetNs c.ns q) q) := by
  rw [Dev.accept_sample_eq hok hcap ht hu, if_neg (not_not.mpr he), Dev.consume_sample ht hu, Dev.seqCheck_eq, Dev.packetNs_fab]
  rw [Dev.seqCheck_eq]
  exact hm

end Samples

/-! A packet with an uncorrectable word (R34, R545). -/

theorem Dev.emit_flight {unit type offs : Nat} {time : Option (Nat × Nat)} {ws : List W64} {inj : Bool} :
    ∃ x, (d.emit unit type time offs ws inj).fab.flight = d.fab.flight ++ [x] := ⟨_, rfl⟩

theorem Dev.reg_emit {unit type offs a : Nat} {time : Option (Nat × Nat)} {ws : List W64} {inj : Bool} :
    (d.emit unit type time offs ws inj).reg a = d.reg a := rfl

theorem Dev.pairNotice_fab {ft unit type : Nat} {w : W64} : (d.pairNotice c ft unit type w).fab = d.fab := by
  unfold Dev.pairNotice
  split <;> rfl

theorem Dev.reg_pairNotice {ft unit type a : Nat} {w : W64} : (d.pairNotice c ft unit type w).reg a = d.reg a := by
  unfold Dev.pairNotice
  split <;> rfl

/-- A fault report adds one packet to those on their way. -/
theorem Dev.record_flight {code unit info : Nat} {inj : Bool} : ∃ x, (d.record c code unit info inj).fab.flight = d.fab.flight ++ [x] := by
  have hlog : (if d.flt.log.length < 128 then
      ({ d with flt := { d.flt with log := insRec { t := c.ns, fcode := fcodeOf code, unit := unit, inj := inj, info := info } d.flt.log } }).put
        FLT_STAT_UNREAD (d.flt.log.length + 1)
      else d.bump FLT_STAT_LOST).fab = d.fab := by
    split
    · rw [Dev.put_fab]
    · rw [Dev.bump, Dev.put_fab]
  unfold Dev.record
  simp only [Dev.pairNotice_fab]
  obtain ⟨x, hx⟩ := Dev.emit_flight
  exact ⟨x, hx.trans (by rw [hlog])⟩

/-- Of the registers it writes the log's status alone. -/
theorem Dev.record_keepsRegs {code unit info : Nat} {inj : Bool} : KeepsRegs (· = FLT_STAT_UNREAD.addr) d (d.record c code unit info inj) := by
  intro a ha
  unfold Dev.record
  simp only [Dev.reg_pairNotice, Dev.reg_emit]
  split
  · exact (Dev.reg_put_ne (f := FLT_STAT_UNREAD) fun h => ha h.symm).trans rfl
  · exact Dev.reg_put_ne (f := FLT_STAT_LOST) fun h => ha h.symm

theorem Dev.noteUncorr_fab {a syn : Nat} : (d.noteUncorr a syn).fab = d.fab := by
  rw [Dev.noteUncorr, Dev.put_fab, Dev.put_fab, Dev.bump, Dev.put_fab]

theorem Dev.deliver_bad (h : Packet_read p = none) : d.deliver c p =
    (d.noteUncorr 0xFFFFFFFF (Dev.deliver.packetSyn p)).record c 201 (brandUnit p.brand) 0xFFFFFFFF p.inj := by
  rw [Dev.deliver, h]

theorem Dev.deliver_bad_addr (h : Packet_read p = none) : (d.deliver c p).get FLT_ECC_ADDR_V = 0xFFFFFFFF := by
  rw [Dev.deliver_bad h, Dev.get_congr (Dev.record_keepsRegs _ (by decide)), Dev.noteUncorr, Dev.get_put_ne (by decide)]
  exact Dev.get_put_self (f := FLT_ECC_ADDR_V) (by decide)

theorem Dev.deliver_bad_flight (h : Packet_read p = none) : ∃ x, (d.deliver c p).fab.flight = d.fab.flight ++ [x] := by
  obtain ⟨x, hx⟩ := Dev.record_flight (d := d.noteUncorr 0xFFFFFFFF (Dev.deliver.packetSyn p)) (c := c) (code := 201)
    (unit := brandUnit p.brand) (info := 0xFFFFFFFF) (inj := p.inj)
  exact ⟨x, by rw [Dev.deliver_bad h, hx, Dev.noteUncorr_fab]⟩

/-! The row. -/

theorem State.packetDelivery_none (hs : s.dev.dst.serves = true) (h : s.dev.fab.flight[n]? = none) : exec (.packetDelivery n) s = .next s := by
  change Host.Outcome.next (s.onServing _) = _
  rw [State.onServing_eq hs]
  simp only [h]

/-- A packet that has had its time leaves the fabric and is delivered (R129, R329). -/
theorem State.packetDelivery_some (hs : s.dev.dst.serves = true) (h : s.dev.fab.flight[n]? = some p) : exec (.packetDelivery n) s =
    .next { s with dev := if !s.dev.arrives s.clk p then s.dev
      else ({ s.dev with fab := { s.dev.fab with flight := s.dev.fab.flight.eraseIdx n } }).deliver s.clk p } := by
  change Host.Outcome.next (s.onServing _) = _
  rw [State.onServing_eq hs]
  simp only [h]

end Delivery

end Sys2Proof.Machine

/-! PROOFS. The decision of a mailbox's oldest request (R306, R370 to R376). -/

namespace Sys2Proof.Machine

/-- The requests of mailbox m, its last SEQ, and the mailbox registers but SEQ stay. -/
structure MboxKeeps (m : Nat) (d d' : Dev) : Prop where
  reqs : (d'.mbox m).reqs = (d.mbox m).reqs
  wait : (d'.mbox m).wait = (d.mbox m).wait
  last : d'.get (MBX_Mm_SEQ_LAST m) = d.get (MBX_Mm_SEQ_LAST m)
  regs : ∀ a, 0x40128000 ≤ a → a ≠ (MBX_Mm_SEQ_LAST m).addr → d'.reg a = d.reg a

/-- The same but for one response more: in a queue that the host reads and that has room, RCOUNT rises by one. -/
structure MboxAnswers (m : Nat) (d d' : Dev) : Prop where
  reqs : (d'.mbox m).reqs = (d.mbox m).reqs
  wait : (d'.mbox m).wait = (d.mbox m).wait
  last : d'.get (MBX_Mm_SEQ_LAST m) = d.get (MBX_Mm_SEQ_LAST m)
  seqv : d'.flag (MBX_Mm_STAT_SEQV m) = d.flag (MBX_Mm_STAT_SEQV m)
  regs : ∀ a, 0x40128000 ≤ a → a ≠ (MBX_Mm_SEQ_LAST m).addr → a ≠ (MBX_Mm_STAT_RCOUNT m).addr → d'.reg a = d.reg a
  count : (d.get MBX_ROUTE_ROUTE).testBit m = false → d.get (MBX_Mm_STAT_RCOUNT m) < 16 →
    d'.get (MBX_Mm_STAT_RCOUNT m) = d.get (MBX_Mm_STAT_RCOUNT m) + 1

section Answers

variable {m n : Nat} {d d' d'' : Dev} {c : Clock} {f : Field}

theorem MboxKeeps.refl : MboxKeeps m d d := ⟨rfl, rfl, rfl, fun _ _ _ => rfl⟩

theorem MboxKeeps.trans (h : MboxKeeps m d d') (h' : MboxKeeps m d' d'') : MboxKeeps m d d'' :=
  ⟨h'.reqs.trans h.reqs, h'.wait.trans h.wait, h'.last.trans h.last, fun a ha hs => (h'.regs a ha hs).trans (h.regs a ha hs)⟩

/-- What writes no register and none of a mailbox's requests. -/
theorem MboxKeeps.of_regs (hr : d'.regs = d.regs) (hq : (d'.mbox m).reqs = (d.mbox m).reqs) (hw : (d'.mbox m).wait = (d.mbox m).wait) :
    MboxKeeps m d d' := by
  have hreg (a : Nat) : d'.reg a = d.reg a := by rw [Dev.reg, hr, Dev.reg]
  exact ⟨hq, hw, Dev.get_congr (f := MBX_Mm_SEQ_LAST m) (hreg _), fun a _ _ => hreg a⟩

theorem MboxKeeps.of_fields (hr : d'.regs = d.regs) (hm : d'.mbx = d.mbx) : MboxKeeps m d d' :=
  .of_regs hr (by rw [Dev.mbox, hm, Dev.mbox]) (by rw [Dev.mbox, hm, Dev.mbox])

theorem MboxKeeps.setMbox {x : Mbox} (hq : x.reqs = (d.mbox m).reqs) (hw : x.wait = (d.mbox m).wait) : MboxKeeps m d (d.setMbox m x) :=
  .of_regs rfl (by rw [Dev.mbox_setMbox_self, hq]) (by rw [Dev.mbox_setMbox_self, hw])

theorem MboxKeeps.put_low (h : f.addr < 0x40128000) : MboxKeeps m d (d.put f n) := by
  have hne (a : Nat) (ha : 0x40128000 ≤ a) : f.addr ≠ a := by omega
  refine ⟨rfl, rfl, Dev.get_put_ne (hne _ ?_), fun a ha _ => Dev.reg_put_ne (hne a ha)⟩
  simp only [MBX_Mm_SEQ_LAST]
  omega

theorem MboxKeeps.setByte {a : Nat} {x : Byte} : MboxKeeps m d (d.setByte a x) := .of_fields rfl rfl

theorem MboxKeeps.wrN {a v : Nat} : MboxKeeps m d (d.wrN a n v) := by
  induction n generalizing d a v with
  | zero => exact .refl
  | succ n ih => exact MboxKeeps.setByte.trans ih

theorem MboxKeeps.touchEcc {a : Nat} : MboxKeeps m d (d.touchEcc a) := by
  unfold Dev.touchEcc
  split <;> exact .of_fields rfl rfl

theorem MboxKeeps.wr64 {a : Nat} {w : W64} : MboxKeeps m d (d.wr64 a w) := MboxKeeps.wrN.trans .touchEcc

theorem MboxKeeps.trace {kind slot eng prio depth value cls mbx : Nat} {late : Bool} :
    MboxKeeps m d (d.trace c kind slot eng prio depth value cls mbx late) :=
  Dev.trace_rec (P := MboxKeeps m d) .refl (fun _ _ _ h => h.trans (.of_fields rfl rfl)) (fun _ _ _ h => h.trans .wr64)
    (fun _ _ _ hf h => h.trans (.put_low (by omega))) fun _ _ h => h.trans (.of_fields rfl rfl)

theorem MboxKeeps.wrWords {a : Nat} {ws : List W64} : MboxKeeps m d (d.wrWords a ws) := by
  induction ws generalizing d a with
  | nil => exact .refl
  | cons w ws ih => exact MboxKeeps.wr64.trans ih

theorem MboxKeeps.tell {ft : Nat} {ws : List W64} : MboxKeeps m d (d.tell ft ws) := by
  unfold Dev.tell
  split
  · exact .of_fields rfl rfl
  · exact .refl

theorem Dev.mbox_put : (d.put f n).mbox m = d.mbox m := rfl

/-- FLOOR stands beside LAST in SEQ (R379). -/
theorem MboxKeeps.putFloor : MboxKeeps m d (d.put (MBX_Mm_SEQ_FLOOR m) n) where
  reqs := congrArg Mbox.reqs (Dev.mbox_put (f := MBX_Mm_SEQ_FLOOR m))
  wait := congrArg Mbox.wait (Dev.mbox_put (f := MBX_Mm_SEQ_FLOOR m))
  last := Dev.get_put_disjoint (f := MBX_Mm_SEQ_FLOOR m) (g := MBX_Mm_SEQ_LAST m) (Nat.le_refl 32) (.inl (Nat.le_refl 16))
  regs _ _ hs := Dev.reg_put_ne (f := MBX_Mm_SEQ_FLOOR m) hs.symm

theorem MboxKeeps.setTaken {tk : List (Nat × Bool)} : MboxKeeps m d (d.setTaken m tk) := by
  have hset : MboxKeeps m d (d.setMbox m { d.mbox m with taken := tk }) := .setMbox rfl rfl
  unfold Dev.setTaken
  simp only
  split
  · exact hset.trans .putFloor
  · exact hset

/-! Composition. -/

theorem mboxStat_high : 0x40128000 ≤ (MBX_Mm_STAT_RCOUNT m).addr ∧ (MBX_Mm_STAT_RCOUNT m).addr ≠ (MBX_Mm_SEQ_LAST m).addr := by
  simp only [MBX_Mm_STAT_RCOUNT, MBX_Mm_SEQ_LAST]
  omega

theorem mboxRoute_high : 0x40128000 ≤ MBX_ROUTE_ROUTE.addr ∧ MBX_ROUTE_ROUTE.addr ≠ (MBX_Mm_SEQ_LAST m).addr := by
  simp only [MBX_ROUTE_ROUTE, MBX_Mm_SEQ_LAST]
  omega

theorem MboxKeeps.stat (h : MboxKeeps m d d') : d'.reg (MBX_Mm_STAT_RCOUNT m).addr = d.reg (MBX_Mm_STAT_RCOUNT m).addr :=
  h.regs _ mboxStat_high.1 mboxStat_high.2

theorem MboxKeeps.rcount (h : MboxKeeps m d d') : d'.get (MBX_Mm_STAT_RCOUNT m) = d.get (MBX_Mm_STAT_RCOUNT m) :=
  Dev.get_congr (f := MBX_Mm_STAT_RCOUNT m) h.stat

theorem MboxKeeps.seqv (h : MboxKeeps m d d') : d'.flag (MBX_Mm_STAT_SEQV m) = d.flag (MBX_Mm_STAT_SEQV m) :=
  Dev.flag_congr (f := MBX_Mm_STAT_SEQV m) h.stat

theorem MboxKeeps.route (h : MboxKeeps m d d') : d'.get MBX_ROUTE_ROUTE = d.get MBX_ROUTE_ROUTE :=
  Dev.get_congr (f := MBX_ROUTE_ROUTE) (h.regs _ (mboxRoute_high (m := m)).1 mboxRoute_high.2)

theorem MboxKeeps.answers (h : MboxKeeps m d d') (h' : MboxAnswers m d' d'') : MboxAnswers m d d'' where
  reqs := h'.reqs.trans h.reqs
  wait := h'.wait.trans h.wait
  last := h'.last.trans h.last
  seqv := h'.seqv.trans h.seqv
  regs a ha hs hc := (h'.regs a ha hs hc).trans (h.regs a ha hs)
  count hr hc := (h'.count (by rw [h.route, hr]) (by rw [h.rcount]; exact hc)).trans (by rw [h.rcount])

theorem MboxAnswers.keeps (h : MboxAnswers m d d') (h' : MboxKeeps m d' d'') : MboxAnswers m d d'' where
  reqs := h'.reqs.trans h.reqs
  wait := h'.wait.trans h.wait
  last := h'.last.trans h.last
  seqv := h'.seqv.trans h.seqv
  regs a ha hs hc := (h'.regs a ha hs).trans (h.regs a ha hs hc)
  count hr hc := h'.rcount.trans (h.count hr hc)

/-! Responses (R374 to R376). -/

/-- A response whose entry the queue does not count now: it goes over the chain, or waits for an entry. -/
theorem MboxKeeps.answers_apart (h : MboxKeeps m d d') (hn : (d.get MBX_ROUTE_ROUTE).testBit m = true ∨ 16 ≤ d.get (MBX_Mm_STAT_RCOUNT m)) :
    MboxAnswers m d d' where
  reqs := h.reqs
  wait := h.wait
  last := h.last
  seqv := h.seqv
  regs a ha hs _ := h.regs a ha hs
  count hr hc := by
    rcases hn with hn | hn
    · rw [hr] at hn
      cases hn
    · omega

/-- RCOUNT is five bits, and SEQV stands in the same register. -/
theorem MboxAnswers.putCount (hn : d.get (MBX_Mm_STAT_RCOUNT m) = n) (h : n < 16) :
    MboxAnswers m d (d.put (MBX_Mm_STAT_RCOUNT m) (n + 1)) where
  reqs := congrArg Mbox.reqs (Dev.mbox_put (f := MBX_Mm_STAT_RCOUNT m))
  wait := congrArg Mbox.wait (Dev.mbox_put (f := MBX_Mm_STAT_RCOUNT m))
  last := Dev.get_put_ne (f := MBX_Mm_STAT_RCOUNT m) (g := MBX_Mm_SEQ_LAST m) mboxStat_high.2
  seqv := Dev.flag_put_apart (f := MBX_Mm_STAT_RCOUNT m) (g := MBX_Mm_STAT_SEQV m) (by decide : 8 + 5 ≤ 32)
    (.inr (.inr (by decide : 2 + 1 ≤ 8)))
  regs _ _ _ hc := Dev.reg_put_ne (f := MBX_Mm_STAT_RCOUNT m) hc.symm
  count _ _ := by
    rw [Dev.get_put_self (f := MBX_Mm_STAT_RCOUNT m) (by decide : 8 + 5 ≤ 32), hn]
    exact Nat.mod_eq_of_lt (Nat.lt_of_le_of_lt h (by decide : 16 < 2 ^ 5))

theorem MboxAnswers.putEntry {ws : List W64} : MboxAnswers m d (d.putEntry m ws) := by
  unfold Dev.putEntry
  split
  · next hr => exact MboxKeeps.answers_apart (.of_fields rfl rfl) (.inl hr)
  · simp only
    split
    · next hc => exact MboxKeeps.answers_apart (.setMbox rfl rfl) (.inr hc)
    · next hc =>
      have hw {a : Nat} : MboxKeeps m d (d.wrWords a ws) := .wrWords
      exact hw.answers (.putCount hw.rcount (by omega))

theorem MboxAnswers.placeRsp {src : Byte} {opc seq rtype t : Nat} {r : Rsp} : MboxAnswers m d (d.placeRsp m src opc seq rtype t r).2 := by
  unfold Dev.placeRsp
  exact (MboxAnswers.putEntry.keeps .tell).keeps (.setMbox rfl rfl)

theorem MboxAnswers.refuseOut {r : MbxReq} {tref code : Nat} : MboxAnswers m d (d.refuseOut c m r tref code) :=
  MboxAnswers.placeRsp.keeps .trace

/-- A refusal is the request's latest response and closes it. -/
theorem MboxAnswers.respond_refuse {src : Byte} {opc seq t : Nat} {r : Rsp} : MboxAnswers m d (d.respond m src opc seq 1 t r) := by
  have hplace : MboxAnswers m d (d.placeRsp m src opc seq 1 t r).2 := .placeRsp
  unfold Dev.respond
  simp only
  rw [if_neg (by decide : ¬ 1 = 0), if_neg (by decide : ¬ 1 = 2)]
  split
  · refine (hplace.keeps ?_).keeps .setTaken
    exact .setMbox rfl rfl
  · exact hplace.keeps .setTaken

theorem MboxAnswers.conclude_badOpcode {tref fr opc : Nat} {q : Request} {src : Byte} :
    MboxAnswers q.mbx.val d (d.conclude c tref fr q src opc (.refuse rcBadOpcode 31 0)) := by
  have hmirror : d.inMirror opc (.refuse rcBadOpcode 31 0) = .refuse rcBadOpcode 31 0 := by
    unfold Dev.inMirror
    split
    · rfl
    · exact if_pos (by decide)
  unfold Dev.conclude
  simp only [hmirror]
  rw [if_pos (by decide)]
  exact MboxAnswers.respond_refuse.keeps .trace

end Answers

/-! A request that is taken (R372, R379). -/

section Taken

variable {m seq tref : Nat} {gap : Bool} {d : Dev} {c : Clock}

theorem Dev.takeReq_gap : d.takeReq m seq tref true = (d.takeReq m seq tref false).bump (MBX_Mm_CNT_GAP m) := rfl

theorem Dev.mbox_put64 {lo hi : Field} {v : Nat} : (d.put64 lo hi v).mbox m = d.mbox m := rfl

theorem Dev.mbox_takeReq : (d.takeReq m seq tref gap).mbox m =
    { d.mbox m with taken := (d.mbox m).taken.dropWhile (·.2) ++ [(seq, false)], lastRsp := [] } := by
  have hfalse : (d.takeReq m seq tref false).mbox m =
      { d.mbox m with taken := (d.mbox m).taken.dropWhile (·.2) ++ [(seq, false)], lastRsp := [] } := by
    unfold Dev.takeReq
    simp only [Bool.false_eq_true, if_false]
    rw [Dev.mbox_put64, Dev.setf, Dev.mbox_put, Dev.mbox_put, Dev.mbox_setMbox_self]
  cases gap with
  | false => exact hfalse
  | true => rw [Dev.takeReq_gap, Dev.bump, Dev.mbox_put, hfalse]

theorem Dev.dst_takeReq : (d.takeReq m seq tref false).dst = d.dst := by
  unfold Dev.takeReq
  simp only [Bool.false_eq_true, if_false]
  rw [Dev.put64, Dev.put_dst, Dev.put_dst, Dev.setf, Dev.put_dst, Dev.put_dst, Dev.setMbox_dst]

/-- The registers that a request taken without a gap writes: SEQ, STAT and TREF. -/
def takenReg (m a : Nat) : Prop :=
  a = (MBX_Mm_SEQ_LAST m).addr ∨ a = (MBX_Mm_STAT_SEQV m).addr ∨ a = (MBX_Mm_TREF_LO_TREF m).addr ∨ a = (MBX_Mm_TREF_HI_TREF m).addr

theorem Dev.reg_takeReq : KeepsRegs (takenReg m) d (d.takeReq m seq tref false) := by
  intro a ha
  simp only [takenReg, not_or] at ha
  obtain ⟨hseq, hstat, hlo, hhi⟩ := ha
  unfold Dev.takeReq
  simp only [Bool.false_eq_true, if_false]
  rw [Dev.put64, Dev.reg_put_ne (f := MBX_Mm_TREF_HI_TREF m) (Ne.symm hhi), Dev.reg_put_ne (f := MBX_Mm_TREF_LO_TREF m) (Ne.symm hlo),
    Dev.reg_setf_ne (f := MBX_Mm_STAT_SEQV m) (Ne.symm hstat), Dev.reg_put_ne (f := MBX_Mm_SEQ_LAST m) (Ne.symm hseq), Dev.setMbox_reg]

/-- A gap is counted in CNT alone. -/
theorem Dev.reg_takeReq_gap {a : Nat} (h : (MBX_Mm_CNT_GAP m).addr ≠ a) :
    (d.takeReq m seq tref gap).reg a = (d.takeReq m seq tref false).reg a := by
  cases gap with
  | false => rfl
  | true => exact Dev.reg_put_ne (f := MBX_Mm_CNT_GAP m) h

theorem Dev.reg_put64_ne {lo hi : Field} {v a : Nat} (hl : lo.addr ≠ a) (hh : hi.addr ≠ a) : (d.put64 lo hi v).reg a = d.reg a := by
  rw [Dev.put64, Dev.reg_put_ne hh, Dev.reg_put_ne hl]

theorem Dev.get64_congr {d' : Dev} {lo hi : Field} (hl : d.reg lo.addr = d'.reg lo.addr) (hh : d.reg hi.addr = d'.reg hi.addr) :
    d.get64 lo hi = d'.get64 lo hi := by
  rw [Dev.get64, Dev.get64, Dev.get_congr hl, Dev.get_congr hh]

/-- A pair of whole registers holds 64 bits. -/
theorem Dev.get64_put64 {lo hi : Field} {v : Nat} (hl : lo.lo = 0 ∧ lo.width = 32) (hh : hi.lo = 0 ∧ hi.width = 32) (ha : hi.addr ≠ lo.addr) :
    (d.put64 lo hi v).get64 lo hi = v % 2 ^ 64 := by
  rw [Dev.get64, Dev.put64, Dev.get_put_ne ha, Dev.get_put_self (by omega), Dev.get_put_self (by omega), hl.2, hh.2]
  omega

theorem Dev.flag_takeReq_seqv : (d.takeReq m seq tref gap).flag (MBX_Mm_STAT_SEQV m) = true := by
  rw [Dev.flag_congr (f := MBX_Mm_STAT_SEQV m) (Dev.reg_takeReq_gap (by simp only [MBX_Mm_CNT_GAP, MBX_Mm_STAT_SEQV]; omega))]
  unfold Dev.takeReq
  simp only [Bool.false_eq_true, if_false]
  rw [Dev.flag_congr (f := MBX_Mm_STAT_SEQV m) (Dev.reg_put64_ne (lo := MBX_Mm_TREF_LO_TREF m) (hi := MBX_Mm_TREF_HI_TREF m) ?_ ?_),
    Dev.flag_setf_self (f := MBX_Mm_STAT_SEQV m) (Field.isBit (by decide))]
  · simp only [MBX_Mm_TREF_LO_TREF, MBX_Mm_STAT_SEQV]
    omega
  · simp only [MBX_Mm_TREF_HI_TREF, MBX_Mm_STAT_SEQV]
    omega

theorem Dev.get64_takeReq_tref :
    (d.takeReq m seq tref gap).get64 (MBX_Mm_TREF_LO_TREF m) (MBX_Mm_TREF_HI_TREF m) = tref % 2 ^ 64 := by
  rw [Dev.get64_congr (lo := MBX_Mm_TREF_LO_TREF m) (hi := MBX_Mm_TREF_HI_TREF m) (d' := d.takeReq m seq tref false)
    (Dev.reg_takeReq_gap (by simp only [MBX_Mm_CNT_GAP, MBX_Mm_TREF_LO_TREF]; omega))
    (Dev.reg_takeReq_gap (by simp only [MBX_Mm_CNT_GAP, MBX_Mm_TREF_HI_TREF]; omega))]
  unfold Dev.takeReq
  simp only [Bool.false_eq_true, if_false]
  refine Dev.get64_put64 (lo := MBX_Mm_TREF_LO_TREF m) (hi := MBX_Mm_TREF_HI_TREF m) ⟨rfl, rfl⟩ ⟨rfl, rfl⟩ ?_
  simp only [MBX_Mm_TREF_LO_TREF, MBX_Mm_TREF_HI_TREF]
  omega

theorem Dev.get_takeReq_last (h : seq < 2 ^ 16) : (d.takeReq m seq tref gap).get (MBX_Mm_SEQ_LAST m) = seq := by
  rw [Dev.get_congr (f := MBX_Mm_SEQ_LAST m) (Dev.reg_takeReq_gap (by simp only [MBX_Mm_CNT_GAP, MBX_Mm_SEQ_LAST]; omega))]
  unfold Dev.takeReq
  simp only [Bool.false_eq_true, if_false]
  rw [Dev.get_congr (f := MBX_Mm_SEQ_LAST m) (Dev.reg_put64_ne (lo := MBX_Mm_TREF_LO_TREF m) (hi := MBX_Mm_TREF_HI_TREF m) ?_ ?_),
    Dev.get_congr (f := MBX_Mm_SEQ_LAST m) (Dev.reg_setf_ne (f := MBX_Mm_STAT_SEQV m) ?_),
    Dev.get_put_self (f := MBX_Mm_SEQ_LAST m) (by decide : 0 + 16 ≤ 32)]
  · exact Nat.mod_eq_of_lt h
  · simp only [MBX_Mm_STAT_SEQV, MBX_Mm_SEQ_LAST]
    omega
  · simp only [MBX_Mm_TREF_LO_TREF, MBX_Mm_SEQ_LAST]
    omega
  · simp only [MBX_Mm_TREF_HI_TREF, MBX_Mm_SEQ_LAST]
    omega

/-- SEQV shares STAT with RCOUNT and leaves it. -/
theorem Dev.get_takeReq_rcount : (d.takeReq m seq tref gap).get (MBX_Mm_STAT_RCOUNT m) = d.get (MBX_Mm_STAT_RCOUNT m) := by
  rw [Dev.get_congr (f := MBX_Mm_STAT_RCOUNT m) (Dev.reg_takeReq_gap (by simp only [MBX_Mm_CNT_GAP, MBX_Mm_STAT_RCOUNT]; omega))]
  unfold Dev.takeReq
  simp only [Bool.false_eq_true, if_false]
  rw [Dev.get_congr (f := MBX_Mm_STAT_RCOUNT m) (Dev.reg_put64_ne (lo := MBX_Mm_TREF_LO_TREF m) (hi := MBX_Mm_TREF_HI_TREF m) ?_ ?_),
    Dev.setf, Dev.get_put_disjoint (f := MBX_Mm_STAT_SEQV m) (g := MBX_Mm_STAT_RCOUNT m) (by decide : 2 + 1 ≤ 32)
      (.inr (by decide : 2 + 1 ≤ 8)), Dev.get_put_ne (f := MBX_Mm_SEQ_LAST m) (g := MBX_Mm_STAT_RCOUNT m) mboxStat_high.2.symm]
  · exact Dev.get_congr (f := MBX_Mm_STAT_RCOUNT m) Dev.setMbox_reg
  · simp only [MBX_Mm_TREF_LO_TREF, MBX_Mm_STAT_RCOUNT]
    omega
  · simp only [MBX_Mm_TREF_HI_TREF, MBX_Mm_STAT_RCOUNT]
    omega

/-- A register below the mailboxes' own stays. -/
theorem Dev.reg_takeReq_low {a : Nat} (h : a < 0x40128100) : (d.takeReq m seq tref gap).reg a = d.reg a := by
  rw [Dev.reg_takeReq_gap]
  · refine Dev.reg_takeReq a ?_
    simp only [takenReg, MBX_Mm_SEQ_LAST, MBX_Mm_STAT_SEQV, MBX_Mm_TREF_LO_TREF, MBX_Mm_TREF_HI_TREF]
    omega
  · simp only [MBX_Mm_CNT_GAP]
    omega

end Taken

/-! The next request that waits for entries (R376). -/

section Next

variable {m : Nat} {d : Dev} {c : Clock}

theorem Dev.mboxTry_empty (h : (d.mbox m).wait = []) : d.mboxTry c m = d := by
  rw [Dev.mboxTry, h]
  rfl

theorem Dev.mboxTake_regs {k : Nat} : (d.mboxTake c m k).regs = d.regs := by
  induction k generalizing d with
  | zero => rfl
  | succ k ih =>
    unfold Dev.mboxTake
    simp only
    split
    · rfl
    · split
      · rfl
      · rw [ih, Dev.setMbox_regs]

theorem Dev.mboxTry_regs : (d.mboxTry c m).regs = d.regs := by
  unfold Dev.mboxTry
  split
  · rfl
  · exact Dev.mboxTake_regs

end Next

/-! The cases of a decision (R368 to R372). -/

section Decision

variable {m : Fin 16} {d : Dev} {c : Clock} {r : MbxReq} {ws : List W64}

theorem Dev.decideReq_badCrc (h : reqCrcOk r.words = false) :
    d.decideReq c m r = (d.bump (MBX_Mm_CNT_CRC m)).refuseOut c m r (r.tArr + 100000) rcBadCrc := by
  rw [Dev.decideReq, if_pos (by rw [h]; rfl)]

/-- A request goes on in its mailbox's stream: the first one, or one that is ahead of the last (R372). -/
def Dev.inStream (d : Dev) (m : Nat) (ws : List W64) : Prop :=
  d.flag (MBX_Mm_STAT_SEQV m) = false ∨
    ((reqSeq ws + 65536 - d.get (MBX_Mm_SEQ_LAST m)) % 65536 ≠ 0 ∧ (reqSeq ws + 65536 - d.get (MBX_Mm_SEQ_LAST m)) % 65536 < 32768)

theorem Dev.inStream_not (h : d.inStream m ws) :
    ¬ ((!!d.flag (MBX_Mm_STAT_SEQV m) && (decide ((reqSeq ws + 65536 - d.get (MBX_Mm_SEQ_LAST m)) % 65536 = 0) ||
      decide (32768 ≤ (reqSeq ws + 65536 - d.get (MBX_Mm_SEQ_LAST m)) % 65536))) = true) := by
  rcases h with h | ⟨h0, h1⟩
  · simp [h]
  · simp [h0, Nat.not_le.mpr h1]

theorem Dev.decideReq_unknown (h : reqCrcOk r.words = true) (hf : d.reqFormatBad m r.words = false) (hn : commandOf (reqOpc r.words) = none)
    (ho : d.inStream m r.words) :
    ∃ gap, d.decideReq c m r = (d.takeReq m (reqSeq r.words) (r.tArr + 100000) gap).conclude c (r.tArr + 100000) r.frac (reqOf m r.words) r.src
      (reqOpc r.words) (.refuse rcBadOpcode 31 0) := by
  have hv (x : Dev) : x.verdictOf c m r.words (r.tArr + 100000) = .refuse rcBadOpcode 31 0 := by rw [Dev.verdictOf, hn]
  rw [Dev.decideReq, if_neg (by rw [h]; decide), if_neg (by rw [hf]; decide)]
  simp only [hv, hn, Option.isSome_none, Bool.and_false, Bool.false_eq_true, if_false]
  rw [if_neg (by decide), if_neg (Dev.inStream_not ho)]
  exact ⟨_, rfl⟩

/-- In the mailbox's epoch the verdict is the command's (R371). -/
theorem Dev.verdictOf_current {f : CmdFn} {t : Nat} (hf : commandOf (reqOpc ws) = some f) (he : brandEpoch (ws.headD 0) = d.get MBX_STAT_EPOCH) :
    d.verdictOf c m ws t = f c t (reqOf m ws) d := by
  rw [Dev.verdictOf, hf]
  simp only [he, ne_eq, not_true, if_false]
  split
  · next h => exact h.symm
  · next h => exact h.symm
  · rfl

/-- The next request in order, in the mailbox's epoch and a good format. -/
theorem Dev.decideReq_next (h : reqCrcOk r.words = true) (hf : d.reqFormatBad m r.words = false)
    (hv : (d.verdictOf c m r.words (r.tArr + 100000)).badFormat = false)
    (he : brandEpoch (r.words.headD 0) = d.get MBX_STAT_EPOCH) (ha : (reqSeq r.words + 65536 - d.get (MBX_Mm_SEQ_LAST m)) % 65536 = 1) :
    d.decideReq c m r = (d.takeReq m (reqSeq r.words) (r.tArr + 100000) false).conclude c (r.tArr + 100000) r.frac (reqOf m r.words) r.src
      (reqOpc r.words) ((d.takeReq m (reqSeq r.words) (r.tArr + 100000) false).verdictOf c m r.words (r.tArr + 100000)) := by
  rw [Dev.decideReq, if_neg (by rw [h]; decide), if_neg (by rw [hf]; decide)]
  simp only [hv, Bool.false_eq_true, if_false, he, ne_eq, not_true, decide_false, Bool.false_and]
  rw [if_neg (Dev.inStream_not (.inr (by omega)))]
  simp only [ha, Nat.lt_irrefl, decide_false, Bool.and_false]

end Decision

/-! The decision of the oldest request (R306, R370, R376). -/

section Oldest

variable {m : Fin 16} {s : State} {r : MbxReq} {rest : List MbxReq}

/-- A decided request leaves the standby's acknowledges (R461). -/
def Dev.unheld (d : Dev) (m seq : Nat) : Dev := { d with pair := { d.pair with held := d.pair.held.filter fun h => h ≠ (m, seq) } }

/-- The device without the oldest request of mailbox m. -/
def Dev.without (d : Dev) (m : Nat) (rest : List MbxReq) : Dev := d.setMbox m { d.mbox m with reqs := rest }

theorem State.mailboxDecision_eq (hs : s.dev.dst.serves = true) :
    exec (.mailboxDecision m) s = .next { s with dev := s.dev.mboxDecide s.clk m } := by
  change Host.Outcome.next (s.onServing _) = _
  rw [State.onServing_eq hs]

theorem State.mailboxDecision_none (hs : s.dev.dst.serves = true) (h : (s.dev.mbox m).reqs = []) : exec (.mailboxDecision m) s = .next s := by
  rw [State.mailboxDecision_eq hs, Dev.mboxDecide, h]

theorem State.mailboxDecision_waits (hs : s.dev.dst.serves = true) (h : (s.dev.mbox m).reqs = r :: rest)
    (hw : s.clk.tor < r.refTor ∨ s.dev.mboxFirst m r.refTor = false) : exec (.mailboxDecision m) s = .next s := by
  rw [State.mailboxDecision_eq hs, Dev.mboxDecide, h]
  simp only
  rw [if_pos]
  exact hw.imp_right fun hw => by rw [hw]; rfl

theorem State.mailboxDecision_decides (hs : s.dev.dst.serves = true) (h : (s.dev.mbox m).reqs = r :: rest) (ht : r.refTor ≤ s.clk.tor)
    (hf : s.dev.mboxFirst m r.refTor = true) : exec (.mailboxDecision m) s =
    .next { s with dev := (((s.dev.without m rest).decideReq s.clk m r).unheld m (reqSeq r.words)).mboxTry s.clk m } := by
  rw [State.mailboxDecision_eq hs, Dev.mboxDecide, h]
  simp only
  rw [if_neg]
  · rfl
  · rw [hf]
    simp [ht]

/-- What a decided request leaves in a queue that the host reads and that has room, with no request waiting for entries: one response
more, and the other requests. -/
def OneMore (m : Fin 16) (rest : List MbxReq) (d d' : Dev) : Prop :=
  (d.get MBX_ROUTE_ROUTE).testBit m = false → d.get (MBX_Mm_STAT_RCOUNT m) < 16 → (d.mbox m).wait = [] →
    d'.get (MBX_Mm_STAT_RCOUNT m) = d.get (MBX_Mm_STAT_RCOUNT m) + 1 ∧ (d'.mbox m).reqs = rest

theorem OneMore.of_answers {d x y : Dev} {c : Clock} {seq : Nat} (hq : (x.mbox m).reqs = rest) (hx : (x.mbox m).wait = (d.mbox m).wait)
    (hroute : x.get MBX_ROUTE_ROUTE = d.get MBX_ROUTE_ROUTE) (hcount : x.get (MBX_Mm_STAT_RCOUNT m) = d.get (MBX_Mm_STAT_RCOUNT m))
    (h : MboxAnswers m x y) : OneMore m rest d ((y.unheld m seq).mboxTry c m) := by
  intro hr hc hw
  have hwait : ((y.unheld m seq).mbox m).wait = [] := (h.wait.trans hx).trans hw
  rw [Dev.mboxTry_empty hwait]
  exact ⟨(h.count (by rw [hroute, hr]) (by rw [hcount]; exact hc)).trans (by rw [hcount]), h.reqs.trans hq⟩

/-- Letting the next request in writes no register. -/
theorem Dev.reg_mboxTry_unheld {d : Dev} {c : Clock} {seq a : Nat} : ((d.unheld m seq).mboxTry c m).reg a = d.reg a := by
  rw [Dev.reg, Dev.mboxTry_regs, Dev.reg]
  rfl

theorem Dev.get_bump_self {d : Dev} {f : Field} {n : Nat} (h : f.lo + f.width ≤ 32) : (d.bump f n).get f = satU f.width (d.get f + n) := by
  have hpos : 0 < 2 ^ f.width := Nat.two_pow_pos _
  rw [Dev.bump, Dev.get_put_self h]
  exact Nat.mod_eq_of_lt (by rw [satU]; omega)

theorem Dev.mbox_without {d : Dev} : (d.without m rest).mbox m = { d.mbox m with reqs := rest } := Dev.mbox_setMbox_self

theorem Dev.mbox_bump {d : Dev} {f : Field} {n k : Nat} : (d.bump f n).mbox k = d.mbox k := rfl

theorem Dev.reg_bump_ne {d : Dev} {f : Field} {n a : Nat} (h : f.addr ≠ a) : (d.bump f n).reg a = d.reg a := Dev.reg_put_ne h

/-- A request with a wrong CRC is counted and refused (R368, R374). -/
theorem State.mailboxDecision_badCrc (hs : s.dev.dst.serves = true) (h : (s.dev.mbox m).reqs = r :: rest) (ht : r.refTor ≤ s.clk.tor)
    (hf : s.dev.mboxFirst m r.refTor = true) (hcrc : reqCrcOk r.words = false) :
    ∃ t, exec (.mailboxDecision m) s = .next t ∧ t.clk = s.clk ∧ OneMore m rest s.dev t.dev ∧
      t.dev.get (MBX_Mm_CNT_CRC m) = satU (MBX_Mm_CNT_CRC m).width (s.dev.get (MBX_Mm_CNT_CRC m) + 1) := by
  have hreg {a : Nat} (ha : (MBX_Mm_CNT_CRC m).addr ≠ a) : ((s.dev.without m rest).bump (MBX_Mm_CNT_CRC m)).reg a = s.dev.reg a := by
    rw [Dev.reg_bump_ne (f := MBX_Mm_CNT_CRC m) ha, Dev.without, Dev.setMbox_reg]
  have hmbox : ((s.dev.without m rest).bump (MBX_Mm_CNT_CRC m)).mbox m = { s.dev.mbox m with reqs := rest } := by
    rw [Dev.mbox_bump (f := MBX_Mm_CNT_CRC m), Dev.mbox_without]
  have hans : MboxAnswers m ((s.dev.without m rest).bump (MBX_Mm_CNT_CRC m)) ((s.dev.without m rest).decideReq s.clk m r) := by
    rw [Dev.decideReq_badCrc hcrc]
    exact .refuseOut
  refine ⟨_, State.mailboxDecision_decides hs h ht hf, rfl, .of_answers ?_ ?_ ?_ ?_ hans, ?_⟩
  · rw [hmbox]
  · rw [hmbox]
  · refine Dev.get_congr (f := MBX_ROUTE_ROUTE) (hreg ?_)
    simp only [MBX_Mm_CNT_CRC, MBX_ROUTE_ROUTE]
    omega
  · refine Dev.get_congr (f := MBX_Mm_STAT_RCOUNT m) (hreg ?_)
    simp only [MBX_Mm_CNT_CRC, MBX_Mm_STAT_RCOUNT]
    omega
  · calc (((s.dev.without m rest).decideReq s.clk m r).unheld m (reqSeq r.words) |>.mboxTry s.clk m).get (MBX_Mm_CNT_CRC m)
        = ((s.dev.without m rest).bump (MBX_Mm_CNT_CRC m)).get (MBX_Mm_CNT_CRC m) := ?_
      _ = satU (MBX_Mm_CNT_CRC m).width (s.dev.get (MBX_Mm_CNT_CRC m) + 1) := ?_
    · refine Dev.get_congr (f := MBX_Mm_CNT_CRC m) (Dev.reg_mboxTry_unheld.trans (hans.regs _ ?_ ?_ ?_))
      all_goals simp only [MBX_Mm_CNT_CRC, MBX_Mm_STAT_RCOUNT, MBX_Mm_SEQ_LAST]; omega
    · rw [Dev.get_bump_self (f := MBX_Mm_CNT_CRC m) (by decide : 16 + 8 ≤ 32),
        Dev.get_congr (f := MBX_Mm_CNT_CRC m) (d := s.dev.without m rest) (d' := s.dev) Dev.setMbox_reg]

/-- A request of an opcode outside the table is refused and moves SEQ and TREF (R371, R372). -/
theorem State.mailboxDecision_unknown (hs : s.dev.dst.serves = true) (h : (s.dev.mbox m).reqs = r :: rest) (ht : r.refTor ≤ s.clk.tor)
    (hf : s.dev.mboxFirst m r.refTor = true) (hcrc : reqCrcOk r.words = true) (hb : s.dev.reqFormatBad m r.words = false)
    (hn : commandOf (reqOpc r.words) = none) (ho : s.dev.inStream m r.words) :
    ∃ t, exec (.mailboxDecision m) s = .next t ∧ t.clk = s.clk ∧ OneMore m rest s.dev t.dev ∧ t.dev.get (MBX_Mm_SEQ_LAST m) = reqSeq r.words ∧
      t.dev.flag (MBX_Mm_STAT_SEQV m) = true ∧ t.dev.get64 (MBX_Mm_TREF_LO_TREF m) (MBX_Mm_TREF_HI_TREF m) = (r.tArr + 100000) % 2 ^ 64 := by
  obtain ⟨gap, hd⟩ := Dev.decideReq_unknown (d := s.dev.without m rest) (c := s.clk) hcrc hb hn ho
  have hans : MboxAnswers m ((s.dev.without m rest).takeReq m (reqSeq r.words) (r.tArr + 100000) gap)
      ((s.dev.without m rest).decideReq s.clk m r) := by
    rw [hd]
    exact .conclude_badOpcode (q := reqOf m r.words)
  have hmbox := Dev.mbox_takeReq (d := s.dev.without m rest) (m := m) (seq := reqSeq r.words) (tref := r.tArr + 100000) (gap := gap)
  rw [Dev.mbox_without] at hmbox
  have hreg {a : Nat} (ha : 0x40128000 ≤ a) (hs : a ≠ (MBX_Mm_SEQ_LAST m).addr) (hc : a ≠ (MBX_Mm_STAT_RCOUNT m).addr) :
      ((((s.dev.without m rest).decideReq s.clk m r).unheld m (reqSeq r.words)).mboxTry s.clk m).reg a =
        ((s.dev.without m rest).takeReq m (reqSeq r.words) (r.tArr + 100000) gap).reg a :=
    Dev.reg_mboxTry_unheld.trans (hans.regs a ha hs hc)
  refine ⟨_, State.mailboxDecision_decides hs h ht hf, rfl, .of_answers ?_ ?_ ?_ ?_ hans, ?_, ?_, ?_⟩
  · rw [hmbox]
  · rw [hmbox]
  · exact Dev.get_congr (f := MBX_ROUTE_ROUTE) (Dev.reg_takeReq_low (by decide))
  · exact Dev.get_takeReq_rcount
  · rw [Dev.get_congr (f := MBX_Mm_SEQ_LAST m) Dev.reg_mboxTry_unheld, hans.last]
    exact Dev.get_takeReq_last (brandSeq_lt _)
  · rw [Dev.flag_congr (f := MBX_Mm_STAT_SEQV m) Dev.reg_mboxTry_unheld, hans.seqv, Dev.flag_takeReq_seqv]
  · refine (Dev.get64_congr (lo := MBX_Mm_TREF_LO_TREF m) (hi := MBX_Mm_TREF_HI_TREF m) (hreg ?_ ?_ ?_) (hreg ?_ ?_ ?_)).trans
      Dev.get64_takeReq_tref
    all_goals simp only [MBX_Mm_TREF_LO_TREF, MBX_Mm_TREF_HI_TREF, MBX_Mm_STAT_RCOUNT, MBX_Mm_SEQ_LAST]; omega

/-- The next request in order, of the mailbox's epoch and in a good format, is taken and decided as its command's row decides it (R370
to R372). -/
theorem State.mailboxDecision_next {i : Instr} (hs : s.dev.dst.serves = true) (h : (s.dev.mbox m).reqs = r :: rest) (ht : r.refTor ≤ s.clk.tor)
    (hf : s.dev.mboxFirst m r.refTor = true) (hi : requestOf i = some (reqOpc r.words, reqOf m r.words)) (hsrc : r.src = 0)
    (hns : s.clk.ns = r.tArr + 100000) (hfr : s.clk.frac = r.frac) (hcrc : reqCrcOk r.words = true)
    (hb : s.dev.reqFormatBad m r.words = false) (hv : ((s.dev.without m rest).verdictOf s.clk m r.words s.clk.ns).badFormat = false)
    (he : brandEpoch (r.words.headD 0) = s.dev.get MBX_STAT_EPOCH)
    (ha : (reqSeq r.words + 65536 - s.dev.get (MBX_Mm_SEQ_LAST m)) % 65536 = 1) :
    ∃ u, exec i { s with dev := (s.dev.without m rest).takeReq m (reqSeq r.words) s.clk.ns false } = .next u ∧
      exec (.mailboxDecision m) s = .next { u with dev := (u.dev.unheld m (reqSeq r.words)).mboxTry s.clk m } := by
  obtain ⟨f, hc, hx⟩ := requestOf_command hi
  have hserves : ((s.dev.without m rest).takeReq m (reqSeq r.words) s.clk.ns false).dst.serves = true :=
    (congrArg DevState.serves Dev.dst_takeReq).trans hs
  have hepoch : brandEpoch (r.words.headD 0) = ((s.dev.without m rest).takeReq m (reqSeq r.words) s.clk.ns false).get MBX_STAT_EPOCH :=
    he.trans (Dev.get_congr (f := MBX_STAT_EPOCH) ((Dev.reg_takeReq_low (a := MBX_STAT_EPOCH.addr) (by decide)).trans Dev.setMbox_reg)).symm
  refine ⟨_, hx _, ?_⟩
  rw [State.mailboxDecision_decides hs h ht hf,
    Dev.decideReq_next (d := s.dev.without m rest) hcrc hb (by rw [← hns]; exact hv) he ha, ← hns, ← hfr, hsrc,
    Dev.verdictOf_current hc hepoch, State.command, if_pos hserves]

end Oldest

end Sys2Proof.Machine

/-! PROOFS. What the fabric hands over, and the rows of the fabric and the mailbox (R129, R329, R404). -/

namespace Sys2Proof.Machine

section Delivered

variable {s : State} {p q : Packet} {n : Nat}

/-- The device without packet n of those on their way. -/
def Dev.landed (d : Dev) (n : Nat) : Dev := { d with fab := { d.fab with flight := d.fab.flight.eraseIdx n } }

/-- A pair packet before 20 ns after its pair's second code (R129). -/
def Dev.early (d : Dev) (c : Clock) (p : Packet) : Prop := brandType p.brand = 0x14 ∧ c.ns < (d.sarX (brandUnit p.brand / 6)).pairAt + 20

theorem State.packetDelivery_early (hs : s.dev.dst.serves = true) (hp : s.dev.fab.flight[n]? = some p) (he : s.dev.early s.clk p) :
    exec (.packetDelivery n) s = .next s := by
  obtain ⟨ht, hn⟩ := he
  rw [State.packetDelivery_some hs hp, if_pos]
  simp [Dev.arrives, ht, hn]

theorem State.packetDelivery_due (hs : s.dev.dst.serves = true) (hp : s.dev.fab.flight[n]? = some p) (he : ¬ s.dev.early s.clk p) :
    exec (.packetDelivery n) s = .next { s with dev := (s.dev.landed n).deliver s.clk p } := by
  rw [State.packetDelivery_some hs hp, if_neg]
  · rfl
  · simp only [Dev.early, not_and, Nat.not_lt] at he
    simp only [Dev.arrives, ne_eq, Bool.not_eq_true', Bool.or_eq_false_iff, decide_eq_false_iff_not, not_not, Nat.not_le, not_and, Nat.not_lt]
    exact he

theorem State.packetDelivery_read (hs : s.dev.dst.serves = true) (hp : s.dev.fab.flight[n]? = some p) (he : ¬ s.dev.early s.clk p)
    (hq : Packet_read p = some (q, 0)) : exec (.packetDelivery n) s = .next { s with dev := (s.dev.landed n).deliverRead s.clk q } := by
  rw [State.packetDelivery_due hs hp he, Dev.deliver_clean hq]

theorem State.packetDelivery_bad (hs : s.dev.dst.serves = true) (hp : s.dev.fab.flight[n]? = some p) (he : ¬ s.dev.early s.clk p)
    (hq : Packet_read p = none) : ∃ t, exec (.packetDelivery n) s = .next t ∧
      t.dev.fab.flight.take (s.dev.fab.flight.length - 1) = s.dev.fab.flight.eraseIdx n ∧ t.dev.get FLT_ECC_ADDR_V = 0xFFFFFFFF := by
  refine ⟨_, State.packetDelivery_due hs hp he, ?_, Dev.deliver_bad_addr hq⟩
  obtain ⟨x, hx⟩ := Dev.deliver_bad_flight (d := s.dev.landed n) (c := s.clk) hq
  have hlen : (s.dev.fab.flight.eraseIdx n).length = s.dev.fab.flight.length - 1 :=
    List.length_eraseIdx_of_lt (List.getElem?_eq_some_iff.mp hp).1
  rw [hx, ← hlen]
  exact List.take_left' rfl

/-- A counter of a device that differs in its fabric alone. -/
theorem Dev.bump_fab {d : Dev} {x : Fabric} {f : Field} {k : Nat} : ({ d with fab := x } : Dev).bump f k =
    { d with regs := (({ d with fab := x } : Dev).bump f k).regs, fab := x } := rfl

theorem Dev.get_bump_fab {d : Dev} {x : Fabric} {f : Field} (h : f.lo + f.width ≤ 32) :
    (({ d with fab := x } : Dev).bump f).get f = satU f.width (d.get f + 1) := by
  rw [Dev.get_bump_self h]
  rfl

variable (hs : s.dev.dst.serves = true) (hp : s.dev.fab.flight[n]? = some p) (he : ¬ s.dev.early s.clk p) (hq : Packet_read p = some (q, 0))

include hs hp he hq

theorem State.packetDelivery_malformed (hm : malformed q.brand = true) : exec (.packetDelivery n) s =
    .next { s with dev := { s.dev.landed n with fab := { (s.dev.landed n).fab with malformed := (s.dev.landed n).fab.malformed + 1 } } } := by
  rw [State.packetDelivery_read hs hp he hq, Dev.deliverRead_malformed hm]

variable (hm : malformed q.brand = false)

include hm

theorem State.packetDelivery_outgoing (ho : (s.dev.landed n).isOutgoing q.brand = true) : exec (.packetDelivery n) s =
    .next { s with dev := ((s.dev.landed n).capture s.clk q).toChain s.clk q } := by
  rw [State.packetDelivery_read hs hp he hq, Dev.deliverRead_outgoing hm ho]

variable (ho : (s.dev.landed n).isOutgoing q.brand = false)

include ho

theorem State.packetDelivery_accept : exec (.packetDelivery n) s = .next { s with dev := (s.dev.landed n).accept s.clk q } := by
  rw [State.packetDelivery_read hs hp he hq, Dev.deliverRead_here hm ho]

theorem State.packetDelivery_stale (hold : ((s.dev.landed n).seqCheck 0 q).1 = false) : exec (.packetDelivery n) s =
    .next { s with dev := { s.dev.landed n with fab := { (s.dev.landed n).fab with stale := (s.dev.landed n).fab.stale + 1 } } } := by
  rw [State.packetDelivery_accept hs hp he hq hm ho, Dev.accept_stale hold, Dev.countStale]

variable (hok : ((s.dev.landed n).seqCheck 0 q).1 = true)

include hok

theorem State.packetDelivery_consumed
    (hu : 0x40 ≤ brandUnit q.brand ∨ brandEpoch q.brand =
      (((((s.dev.landed n).seqCheck 0 q).2.capture s.clk q).safetySees q).lane (brandUnit q.brand)).epoch) :
    exec (.packetDelivery n) s =
      .next { s with dev := ((((s.dev.landed n).seqCheck 0 q).2.capture s.clk q).safetySees q).consume s.clk q } := by
  rw [State.packetDelivery_accept hs hp he hq hm ho, Dev.accept_fresh hok, if_neg]
  rintro ⟨hlt, hne⟩
  rcases hu with hu | hu
  · exact absurd hlt (Nat.not_lt.mpr hu)
  · exact hne hu

variable (hcap : ∀ cc < 64, (s.dev.landed n).capSelects cc q = false) (ht : brandType q.brand = 0x41) (hu : brandUnit q.brand < 0x40)

include hcap ht hu

theorem State.packetDelivery_otherEpoch (hne : brandEpoch q.brand ≠ (s.dev.lane (brandUnit q.brand)).epoch) :
    ∃ t, exec (.packetDelivery n) s = .next t ∧
      t.dev.get (TRJ_AXaa_EPSTALE_CNT (brandUnit q.brand)) =
        satU (TRJ_AXaa_EPSTALE_CNT (brandUnit q.brand)).width (s.dev.get (TRJ_AXaa_EPSTALE_CNT (brandUnit q.brand)) + 1) ∧
      t = { s with dev := { s.dev with regs := t.dev.regs, fab := t.dev.fab } } := by
  have hdev : (s.dev.landed n).accept s.clk q = ({ s.dev with fab := ((s.dev.landed n).seqCheck 0 q).2.fab } : Dev).bump
      (TRJ_AXaa_EPSTALE_CNT (brandUnit q.brand)) := by
    rw [Dev.accept_sample_eq hok hcap ht hu, Dev.seqCheck_eq]
    exact if_pos hne
  rw [State.packetDelivery_accept hs hp he hq hm ho, hdev]
  refine ⟨_, rfl, Dev.get_bump_fab (f := TRJ_AXaa_EPSTALE_CNT (brandUnit q.brand)) (Nat.le_refl 32), ?_⟩
  exact congrArg (fun d => { s with dev := d }) (Dev.bump_fab (f := TRJ_AXaa_EPSTALE_CNT (brandUnit q.brand)))

theorem State.packetDelivery_sample (hmst : ∀ a < 64, ∀ m, (s.dev.axX a).mst = some m → m.key ≠ 128 + brandUnit q.brand)
    (heq : brandEpoch q.brand = (s.dev.lane (brandUnit q.brand)).epoch) :
    ∃ t, exec (.packetDelivery n) s = .next t ∧
      t.dev.sample (128 + brandUnit q.brand) = sampleOf (s.dev.packetNs s.clk.ns q) q ::
        ((s.dev.sample (128 + brandUnit q.brand)).filter (fun x => s.clk.ns < x.t) ++
          ((s.dev.sample (128 + brandUnit q.brand)).filter (fun x => x.t ≤ s.clk.ns)).take 3) ∧
      t.dev.fab.flight = s.dev.fab.flight.eraseIdx n ∧
      t = { s with dev := { s.dev with fab := t.dev.fab, samples := t.dev.samples } } := by
  have hdev : (s.dev.landed n).accept s.clk q = ({ s.dev with fab := ((s.dev.landed n).seqCheck 0 q).2.fab } : Dev).pushSample s.clk.ns
      (128 + brandUnit q.brand) (sampleOf (s.dev.packetNs s.clk.ns q) q) := by
    rw [Dev.accept_sample hok hcap ht hu hmst heq, Dev.landed, Dev.packetNs_fab, Dev.seqCheck_eq]
  rw [State.packetDelivery_accept hs hp he hq hm ho, hdev]
  exact ⟨_, rfl, Dev.sample_setSample_self, Dev.seqCheck_flight, rfl⟩

end Delivered

end Sys2Proof.Machine

section

open Sys2Proof Sys2Proof.Machine

/-- Settles O46: the fabric's packet by the cases of its delivery (the sequence check before the epoch, log entries 69 and 74), the mailbox's
oldest request by the cases of its decision. -/
theorem fabricAndMailboxRows : Obligations.FabricAndMailboxRows := by
  intro s hs
  refine ⟨fun n hn => State.packetDelivery_none hs (List.getElem?_eq_none hn), fun n p hp => ?_, fun m => ?_⟩
  · refine ⟨State.packetDelivery_early hs hp, fun he q hq => ⟨State.packetDelivery_malformed hs hp he hq,
      State.packetDelivery_outgoing hs hp he hq, State.packetDelivery_stale hs hp he hq, ?_, ?_⟩,
      fun he hq => State.packetDelivery_bad hs hp he hq⟩
    · exact fun hm ho hok hcap ht hu hmst => ⟨State.packetDelivery_otherEpoch hs hp he hq hm ho hok hcap ht hu,
        State.packetDelivery_sample hs hp he hq hm ho hok hcap ht hu hmst⟩
    · exact fun hm ho hok hu => State.packetDelivery_consumed hs hp he hq hm ho hok hu
  · refine ⟨State.mailboxDecision_none hs, fun r rest hr => ⟨State.mailboxDecision_waits hs hr, fun ht hf => ⟨?_, ?_, ?_⟩⟩⟩
    · exact fun hcrc => State.mailboxDecision_badCrc hs hr ht hf hcrc
    · exact fun hcrc hb hn ho => State.mailboxDecision_unknown hs hr ht hf hcrc hb hn ho
    · exact fun i hi hsrc hns hfr hcrc hb hv he _ ha => State.mailboxDecision_next hs hr ht hf hi hsrc hns hfr hcrc hb hv he ha

end

/-! PROOFS. The clock: which rows restart the time of record, the tick of an idle step, and the state after reset (R56, R57, R575). -/

namespace Sys2Proof.Machine

section ClockRows

variable {s t u : State} {i : Instr} {bits : Nat}

/-- The clock of t is that of s, or stands at 0 again. -/
def ClockKeptOrLost (s t : State) : Prop := t.clk = s.clk ∨ t.clk = {}

theorem ClockKeptOrLost.kept (h : t.clk = s.clk) : ClockKeptOrLost s t := .inl h

theorem ClockKeptOrLost.lost (h : t.clk = {}) : ClockKeptOrLost s t := .inr h

theorem ClockKeptOrLost.ite {p : Prop} [Decidable p] (ht : ClockKeptOrLost s t) (hu : ClockKeptOrLost s u) :
    ClockKeptOrLost s (if p then t else u) := by
  split
  · exact ht
  · exact hu

theorem State.wakeEvent_clock : ClockKeptOrLost s (s.wakeEvent bits) := by
  unfold State.wakeEvent
  refine .ite (.lost rfl) ?_
  split <;> exact .kept rfl

@[simp] theorem State.onSafety_clk {f : Clock → Dev → Dev} : (s.onSafety f).clk = s.clk := by
  unfold State.onSafety
  split <;> rfl

/-- The rows of resets, supplies, temperature and wake events (R566, R569, R575, R576, R590). -/
def restartsTime : Instr → Prop
  | .powerOn | .brownOut | .resetNLow _ | .resetNRise | .watchdogReset | .softReset | .standbyEntry | .wakeN _ | .hpiCsNWake _
  | .canEdgeWake _ _ | .canWakeFrame _ _ | .overTemperature _ | .coolDown _ => True
  | _ => False

/-- A row of the supplies enters a state at time 0 or leaves the clock; every other row is an event, a request or an instruction, which has no
hold on the clock. -/
theorem exec_clock : ∃ t, exec i s = .next t ∧ (t.clk = s.clk ∨ ClockKeptOrLost s t ∧ restartsTime i) := by
  cases i with
  | powerOn => exact ⟨_, rfl, .inr ⟨.ite (.kept rfl) (.ite (.kept rfl) (.lost rfl)), trivial⟩⟩
  | brownOut => exact ⟨_, rfl, .inr ⟨.lost rfl, trivial⟩⟩
  | resetNLow ns => exact ⟨_, rfl, .inr ⟨.ite (.kept rfl) (.ite (.kept rfl) (.lost rfl)), trivial⟩⟩
  | resetNRise => exact ⟨_, rfl, .inr ⟨.ite (.kept rfl) (.ite (.kept rfl) (.ite (.lost rfl) (.lost rfl))), trivial⟩⟩
  | watchdogReset => exact ⟨_, rfl, .inr ⟨.ite (.lost rfl) (.kept rfl), trivial⟩⟩
  | softReset =>
    refine ⟨_, rfl, .inr ⟨?_, trivial⟩⟩
    split
    · exact .ite (.lost rfl) (.kept rfl)
    · exact .kept rfl
  | standbyEntry =>
    refine ⟨_, rfl, .inr ⟨?_, trivial⟩⟩
    split
    · exact .kept rfl
    · exact .ite (.kept rfl) (.ite (.lost rfl) (.lost rfl))
  | wakeN ns => exact ⟨_, rfl, .inr ⟨.ite (.kept rfl) State.wakeEvent_clock, trivial⟩⟩
  | hpiCsNWake ns => exact ⟨_, rfl, .inr ⟨.ite (.kept rfl) State.wakeEvent_clock, trivial⟩⟩
  | canEdgeWake ch ns => exact ⟨_, rfl, .inr ⟨.ite State.wakeEvent_clock (.kept rfl), trivial⟩⟩
  | canWakeFrame ch f => exact ⟨_, rfl, .inr ⟨.ite State.wakeEvent_clock (.kept rfl), trivial⟩⟩
  | overTemperature degC => exact ⟨_, rfl, .inr ⟨.ite (.kept rfl) (.lost rfl), trivial⟩⟩
  | coolDown degC => exact ⟨_, rfl, .inr ⟨.ite (.kept rfl) (.ite (.kept rfl) (.lost rfl)), trivial⟩⟩
  | bootFailure cause =>
    refine ⟨_, rfl, .inl ?_⟩
    split <;> rfl
  | bootst =>
    refine ⟨_, rfl, .inl ?_⟩
    split <;> rfl
  | bootComplete b =>
    refine ⟨_, rfl, .inl ?_⟩
    split
    · exact State.onDev_clk
    · rfl
  | vioBankRise bank => exact ⟨_, rfl, .inl State.onDev_clk⟩
  | vioBankFall bank => exact ⟨_, rfl, .inl State.onDev_clk⟩
  | _ =>
    exact ⟨_, rfl, .inl (by simp only [↓State.onServing_clk, ↓State.command_clk, ↓State.shosto_clk, ↓State.onDev_clk,
      ↓State.onSafety_clk])⟩

theorem exec_clock_or (h : exec i s = .next t) : t.clk = s.clk ∨ (t.clk = {} ∧ restartsTime i) := by
  obtain ⟨u, hu, hc⟩ := exec_clock (i := i) (s := s)
  obtain rfl : u = t := Host.Outcome.next.inj (hu.symm.trans h)
  rcases hc with hc | ⟨hc | hc, hi⟩
  · exact .inl hc
  · exact .inl hc
  · exact .inr ⟨hc, hi⟩

/-- A row keeps "time of record 0 until the first tick". -/
theorem exec_keeps_start (h : exec i s = .next t) (hs : s.clk.osc = 0 → s.clk.tor = 0) : t.clk.osc = 0 → t.clk.tor = 0 := by
  rcases exec_clock_or h with hc | ⟨hc, -⟩
  · rw [hc]
    exact hs
  · rw [hc]
    exact fun _ => rfl

/-! The idle step. -/

theorem State.tick_osc : s.tick.clk.osc = s.clk.osc + 1 := by
  unfold State.tick
  dsimp only
  split <;> rfl

theorem State.tick_pending : s.tick.pending = s.pending := by
  unfold State.tick
  dsimp only
  split <;> rfl

theorem State.idle_rests (h : s.dev.timeRuns = false) : s.idle = s := by
  rw [State.idle, h]
  rfl

theorem State.idle_osc (h : s.dev.timeRuns = true) : s.idle.clk.osc = s.clk.osc + 1 := by
  rw [State.idle, if_pos h, State.onServing_clk, State.tick_osc, State.onServing_clk]

theorem State.idle_pending : s.idle.pending = s.pending := by
  unfold State.idle
  split
  · rw [State.onServing_pending, State.tick_pending, State.onServing_pending]
  · rfl

theorem step_idle (h : s.pending = []) : step s = .next s.idle := by rw [step, h]

theorem step_command {rest : List Instr} (h : s.pending = i :: rest) : step s = exec i { s with pending := rest } := by rw [step, h]

theorem step_keeps_inv (h : s.Inv) : ∃ t, step s = .next t ∧ t.Inv := by
  obtain ⟨hclk, hwf⟩ := h
  cases hp : s.pending with
  | nil =>
    refine ⟨s.idle, step_idle hp, ?_, fun i hi => ?_⟩
    · cases hr : s.dev.timeRuns with
      | false => rwa [State.idle_rests hr]
      | true => exact fun h0 => absurd (State.idle_osc hr ▸ h0) (Nat.succ_ne_zero _)
    · rw [State.idle_pending] at hi
      exact hwf i hi
  | cons i rest =>
    obtain ⟨t, ht, hq⟩ := exec_completes (i := i) (s := { s with pending := rest })
    refine ⟨t, (step_command hp).trans ht, exec_keeps_start ht hclk, fun j hj => ?_⟩
    rw [hq] at hj
    exact hwf j (hp ▸ List.mem_cons_of_mem i hj)

/-! A request decided in the idle step. -/

/-- time.accept_step with STEP for mailbox 0, its CRC right (R64, R366 to R368). -/
def stepRequest : List W64 := [0x0070E00000010000, 0, 0, 0x6E410401, 0, 0x463077D3]

/-- READY at 100,000 ns: a step of 1 ns is pending, and the t_ref of time.accept_step has come (R61, R370). -/
def stepAsked : State :=
  { clk := { tor := 100000 * 2 ^ 48 }
    dev := { dst := .ready, regs := [(TIME_STAT_STEP_PEND.addr, 0x20), (TIME_PEND_LO_PEND.addr, 1)],
             mbx := [(0, { reqs := [{ tArr := 0, frac := 0, src := 0, words := stepRequest }] })] } }

/-- The step takes the request before it ticks, so the tick applies the pending ns (log entry 35). -/
theorem stepAsked_idle_tor : stepAsked.idle.clk.tor = 100000 * 2 ^ 48 + 2 ^ 49 + 2 ^ 48 := by decide +kernel

theorem stepAsked_rate : stepAsked.dev.getI TIME_RATE_Y = 0 := by decide +kernel

end ClockRows

end Sys2Proof.Machine

section
open Sys2Proof Sys2Proof.Machine

/-- Settles O4: the rows of resets, supplies, temperature and wake events keep the clock or restart it, every other row keeps it. -/
theorem clockMovesOnlyByReset : Obligations.ClockMovesOnlyByReset := by
  intro i s t h
  exact exec_clock_or h

/-- Settles O5: a row keeps the clock's form or restarts it, a tick counts, and the waiting commands only get fewer. -/
theorem stepKeepsClockAndQueueForm : Obligations.StepKeepsClockAndQueueForm := fun _ => step_keeps_inv

/-- Settles O6: State.reset lists the POR bit alone. -/
theorem resetState : Obligations.ResetState :=
  ⟨rfl, rfl, rfl, ⟨fun _ => rfl, fun _ h => nomatch h⟩, by decide, by decide, fun a ha => if_neg fun h => ha h.symm, rfl⟩

/-- Refutes O2: an idle step first decides the requests whose t_ref has come (log entry 35). One that accepts the pending step, or changes
TIME_RATE, acts before the tick, so the tick is not that of the registers and the servo the step began with. -/
theorem not_idleStepTicksOrRests : ¬ Obligations.IdleStepTicksOrRests := by
  intro h
  obtain ⟨t, ht, -, -, -, htor⟩ := h stepAsked rfl
  obtain rfl : stepAsked.idle = t := Host.Outcome.next.inj ht
  have htick := htor rfl rfl
  rw [stepAsked_idle_tor, stepAsked_rate] at htick
  exact absurd htick (by decide)

end

/-! PROOFS. Images and field writes: what a store of an image leaves alone, and fields of a register through writes of others (R13, R384). -/

namespace Sys2Proof.Machine

section Images

variable {d e : Dev} {f g : Field} {v a k : Nat} {w : W32} {p : Nat → Prop} {ok : Nat → Bool} {ps : List (Nat × Nat)}

theorem Dev.get_put_apart (hf : f.lo + f.width ≤ 32) (h : f.Apart g) : (d.put f v).get g = d.get g := by
  rcases h with h | h | h
  · exact Dev.get_put_ne h
  · exact Dev.get_put_disjoint hf (.inr h)
  · exact Dev.get_put_disjoint hf (.inl h)

theorem Dev.get_lt : d.get f < 2 ^ f.width := Nat.mod_lt _ (by positivity)

/-- A field reads a value that fits its width. -/
theorem Dev.get_put_fit (h : f.lo + f.width ≤ 32) (hv : v < 2 ^ f.width) : (d.put f v).get f = v := by
  rw [Dev.get_put_self h, Nat.mod_eq_of_lt hv]

theorem imageOk_mem (h : imageOk ok ps = true) : ∀ x ∈ ps, ok x.1 = true := by
  simp only [imageOk, Bool.and_eq_true, List.all_eq_true] at h
  exact fun x hx => (h.1 x hx).2

/-- A store outside the LOOP block changes its own register at most. -/
theorem OnlyRegs.regStore (hl : isLoopMem a = false) (h : p a) : OnlyRegs p d (d.regStore a w) := by
  rw [regStore_eq hl]
  exact .setReg h

theorem OnlyRegs.writePairs (h : ∀ x ∈ ps, isLoopMem x.1 = false ∧ p x.1) : OnlyRegs p d (d.writePairs ps) := by
  induction ps generalizing d with
  | nil => exact .refl
  | cons x ps ih => exact (OnlyRegs.regStore (h x (by simp)).1 (h x (by simp)).2).trans (ih fun y hy => h y (by simp [hy]))

/-- A frame of registers also says that a register outside it reads as before. -/
theorem OnlyRegs.reg_eq (h : OnlyRegs p d e) (ha : ¬ p a) : e.reg a = d.reg a := h.1 a ha

theorem OnlyRegs.get_eq (h : OnlyRegs p d e) (ha : ¬ p f.addr) : e.get f = d.get f := Dev.get_congr (h.1 _ ha)

theorem OnlyRegs.flag_eq (h : OnlyRegs p d e) (ha : ¬ p f.addr) : e.flag f = d.flag f := Dev.flag_congr (h.1 _ ha)

end Images

end Sys2Proof.Machine

/-! PROOFS. The state field of a unit, and the time servo's registers (R31, R58 to R61, R64, R612). -/

namespace Sys2Proof.Machine

section ServoRegisters

variable {d : Dev} {f g : Field} {u v st : Nat} {c : Clock} {e : Int} {x : Bool}

theorem Dev.raise_reg {a : Nat} : (d.raise u).reg a = d.reg a := Dev.reg_congr Dev.raise_regs

/-- A unit from 0x40 on keeps its epoch in the device's table. -/
theorem Dev.raise_high (h : 0x40 ≤ u) : d.raise u = { d with epochs := (d.raise u).epochs } := by
  rw [Dev.raise, if_neg (Nat.not_lt.mpr h)]

theorem Dev.get_putState_self (h : f.lo + f.width ≤ 32) (hv : v < 2 ^ f.width) : (d.putState u f v).get f = v := by
  unfold Dev.putState
  split
  · assumption
  · exact (Dev.get_congr Dev.raise_reg).trans (Dev.get_put_fit h hv)

theorem Dev.get_putState_apart (h : f.lo + f.width ≤ 32) (ha : f.Apart g) : (d.putState u f v).get g = d.get g := by
  unfold Dev.putState
  split
  · rfl
  · exact (Dev.get_congr Dev.raise_reg).trans (Dev.get_put_apart h ha)

theorem Dev.putState_keeps : KeepsRegs (· = f.addr) d (d.putState u f v) := by
  intro a ha
  unfold Dev.putState
  split
  · rfl
  · exact Dev.raise_reg.trans (Dev.reg_put_ne fun h => ha h.symm)

theorem Dev.putState_frame (h : 0x40 ≤ u) :
    d.putState u f v = { d with regs := (d.putState u f v).regs, epochs := (d.putState u f v).epochs } := by
  unfold Dev.putState
  split
  · rfl
  · rw [Dev.raise_high h]
    rfl

/-! The servo's state, its pending step and its rate. -/

/-- Nothing but registers, the servo and the epochs of units differs. -/
def ServoFrame (d e : Dev) : Prop := e = { d with regs := e.regs, servo := e.servo, epochs := e.epochs }

theorem ServoFrame.trans {d d' e : Dev} (h : ServoFrame d d') (h' : ServoFrame d' e) : ServoFrame d e :=
  Eq.trans h' (by rw [h])

theorem ServoFrame.regs {p : Nat → Prop} {d e : Dev} (h : OnlyRegs p d e) : ServoFrame d e := h.2 ▸ rfl

theorem Dev.get_servoTo (h : st < 8) : (d.servoTo st).get TIME_STAT_STATE = st := Dev.get_putState_self (by decide) h

theorem Dev.get_servoTo_apart (h : TIME_STAT_STATE.Apart f) : (d.servoTo st).get f = d.get f := Dev.get_putState_apart (by decide) h

theorem Dev.flag_servoTo_apart (h : TIME_STAT_STATE.Apart f) : (d.servoTo st).flag f = d.flag f := by
  rw [Dev.flag, Dev.get_servoTo_apart h, Dev.flag]

theorem Dev.servoTo_frame : d.servoTo st = { d with regs := (d.servoTo st).regs, epochs := (d.servoTo st).epochs } :=
  Dev.putState_frame (by decide)

@[simp] theorem Dev.servoTo_servo : (d.servoTo st).servo = d.servo := by rw [Dev.servoTo_frame]

theorem Dev.servoTo_keeps : KeepsRegs (· = TIME_STAT_STATE.addr) d (d.servoTo st) := Dev.putState_keeps

theorem ServoFrame.servoTo : ServoFrame d (d.servoTo st) := by
  rw [Dev.servoTo_frame]
  rfl

theorem Dev.setPend_frame :
    OnlyRegs (fun a => a = TIME_PEND_LO_PEND.addr ∨ a = TIME_PEND_HI_PEND.addr ∨ a = TIME_STAT_STATE.addr) d (d.setPend e x) :=
  ((OnlyRegs.put (.inl rfl)).trans (.put (.inr (.inl rfl)))).trans (.setf (.inr (.inr rfl)))

@[simp] theorem Dev.setPend_servo : (d.setPend e x).servo = d.servo := by
  rw [Dev.setPend, Dev.put64, Dev.setf, Dev.put_servo, Dev.put_servo, Dev.put_servo]

theorem Dev.flag_setPend : (d.setPend e x).flag TIME_STAT_STEP_PEND = x := Dev.flag_setf_self (f := TIME_STAT_STEP_PEND) ⟨rfl, by decide⟩

theorem Dev.get_setPend_state : (d.setPend e x).get TIME_STAT_STATE = d.get TIME_STAT_STATE := by
  unfold Dev.setPend Dev.put64
  simp (disch := decide) only [Dev.setf, Dev.get_put_ne, Dev.get_put_disjoint]

theorem Dev.setRate_frame : OnlyRegs (fun a => a = TIME_STAT_STATE.addr ∨ a = TIME_RATE_Y.addr) d d.setRate := by
  unfold Dev.setRate
  dsimp only
  split
  · exact (OnlyRegs.put (.inr rfl)).trans (.setf (.inl rfl))
  · exact .put (.inr rfl)

/-- Putting the rate in force sets RATE_LIM at most, beside TIME_RATE. -/
theorem Dev.get_setRate (hy : TIME_RATE_Y.addr ≠ f.addr) (hl : TIME_STAT_RATE_LIM.Apart f) : d.setRate.get f = d.get f := by
  unfold Dev.setRate
  dsimp only
  split
  · rw [Dev.setf, Dev.get_put_apart (by decide) hl, Dev.putI, Dev.get_put_ne hy]
  · rw [Dev.putI, Dev.get_put_ne hy]

theorem Dev.flag_setRate (hy : TIME_RATE_Y.addr ≠ f.addr) (hl : TIME_STAT_RATE_LIM.Apart f) : d.setRate.flag f = d.flag f := by
  rw [Dev.flag, Dev.get_setRate hy hl, Dev.flag]

theorem stat_apart_state : TIME_STAT_RATE_LIM.Apart TIME_STAT_STATE := .inr (.inr (by decide))

/-- A restart stands in FREE at rate 0 with no step pending and no offset seen (R612). -/
theorem Dev.servoRestart_fields : (d.servoRestart c).get TIME_STAT_STATE = servoFree ∧ (d.servoRestart c).getI TIME_RATE_Y = 0 ∧
    (d.servoRestart c).flag TIME_STAT_STEP_PEND = false := by
  unfold Dev.servoRestart
  refine ⟨?_, ?_, ?_⟩
  · rw [Dev.putI, Dev.get_put_ne (by decide), Dev.get_setPend_state, Dev.get_servoTo (by decide)]
  · rw [Dev.putI, Dev.getI, Dev.get_put_self (by decide)]
    decide
  · rw [Dev.putI, Dev.flag_put_apart (by decide) (.inl (by decide)), Dev.flag_setPend]

theorem ServoFrame.servoRestart : ServoFrame d (d.servoRestart c) := by
  have hset : ServoFrame d { d with servo := { syncNs := d.servo.syncNs, watchFrom := c.ns } } := rfl
  exact hset.trans (ServoFrame.servoTo.trans (.trans (.regs Dev.setPend_frame) (.regs (p := fun _ => True) (.put trivial))))

theorem Dev.servoRestart_servo : (d.servoRestart c).servo = { syncNs := d.servo.syncNs, watchFrom := c.ns } := by
  rw [Dev.servoRestart, Dev.putI, Dev.put_servo, Dev.setPend_servo, Dev.servoTo_servo]

end ServoRegisters

end Sys2Proof.Machine

/-! PROOFS. Commands that are in force with their DONE (R64, R77, R194, R198, R298, R317, R319, R382, R539, R612). -/

namespace Sys2Proof.Machine

section DoneCommands

variable {q : Request} {d e : Dev} {c : Clock} {tref g k r n : Nat}

/-! herder.trace (R319 to R321). -/

/-- The registers of the trace ring under the words of herder.trace. -/
def Dev.traceRegs (d : Dev) (q : Request) : Dev :=
  (((((d.put HERDER_TR_CTL_KMASK (bits64 (q.pw 0) 0 8)).put HERDER_TR_CTL_FRZK (bits64 (q.pw 0) 8 8)).put
    HERDER_TR_CTL_POST (bits64 (q.pw 0) 16 12)).put HERDER_TR_EMASK_EMASK (bits64 (q.pw 1) 0 31)).setf HERDER_TR_CTL_FROZEN false)

/-- The same with the ring running again. -/
def Dev.traceSetup (d : Dev) (q : Request) : Dev := { d.traceRegs q with her := { (d.traceRegs q).her with postLeft := none } }

theorem Dev.traceSetup_reg {a : Nat} : (d.traceSetup q).reg a = (d.traceRegs q).reg a := by
  rw [Dev.reg, Dev.reg, Dev.traceSetup]

theorem cmdHerderTrace_done (ht : q.target = 0xF0) (hl : q.payload.length = 2) : cmdHerderTrace c tref q d = .done {} (d.traceSetup q) := by
  rw [cmdHerderTrace, refuseIf_pass (by simp [ht, hl])]
  rfl

theorem Dev.traceSetup_fields : (d.traceSetup q).get HERDER_TR_CTL_KMASK = bits64 (q.pw 0) 0 8 ∧
    (d.traceSetup q).get HERDER_TR_CTL_FRZK = bits64 (q.pw 0) 8 8 ∧ (d.traceSetup q).get HERDER_TR_CTL_POST = bits64 (q.pw 0) 16 12 ∧
    (d.traceSetup q).get HERDER_TR_EMASK_EMASK = bits64 (q.pw 1) 0 31 ∧ (d.traceSetup q).flag HERDER_TR_CTL_FROZEN = false := by
  refine ⟨?_, ?_, ?_, ?_, (Dev.flag_congr Dev.traceSetup_reg).trans (Dev.flag_setf_self (f := HERDER_TR_CTL_FROZEN) ⟨rfl, by decide⟩)⟩
  all_goals
    rw [Dev.get_congr Dev.traceSetup_reg, Dev.traceRegs]
    simp (disch := decide) only [Dev.setf, Dev.get_put_ne, Dev.get_put_disjoint]
    exact Dev.get_put_fit (by decide) (bits64_lt _ _ _)

theorem Dev.traceRegs_frame :
    OnlyRegs (fun a => a = HERDER_TR_CTL_KMASK.addr ∨ a = HERDER_TR_EMASK_EMASK.addr) d (d.traceRegs q) :=
  ((((OnlyRegs.put (.inl rfl)).trans (.put (.inl rfl))).trans (.put (.inl rfl))).trans (.put (.inr rfl))).trans (.setf (.inl rfl))

theorem Dev.traceSetup_keeps : KeepsRegs (fun a => a = HERDER_TR_CTL_KMASK.addr ∨ a = HERDER_TR_EMASK_EMASK.addr) d (d.traceSetup q) :=
  fun _ ha => Dev.traceSetup_reg.trans (Dev.traceRegs_frame.reg_eq ha)

theorem Dev.traceSetup_postLeft : (d.traceSetup q).her.postLeft = none := by rw [Dev.traceSetup]

theorem Dev.traceSetup_frame : d.traceSetup q = { d with regs := (d.traceSetup q).regs, her := (d.traceSetup q).her } := by
  rw [Dev.traceSetup, Dev.traceRegs_frame.2]

/-! sys.mbx (R382). -/

def Dev.mbxSetup (d : Dev) (q : Request) : Dev :=
  (d.setReg MBX_IRQ_EN_MBX.addr (BitVec.ofNat 32 (bits64 (q.pw 0) 0 18))).put MBX_ROUTE_ROUTE (bits64 (q.pw 0) 32 16)

theorem cmdSysMbx_done (ht : q.target = 0xFE) (hl : q.payload.length = 1) (h1 : bits64 (q.pw 0) 18 14 = 0) (h2 : bits64 (q.pw 0) 48 16 = 0) :
    cmdSysMbx c tref q d = .done {} (d.mbxSetup q) := by
  rw [cmdSysMbx, refuseIf_pass (by simp [sysFormat_ok ht hl, h1, h2])]
  rfl

theorem Dev.mbxSetup_words : (d.mbxSetup q).reg MBX_IRQ_EN_MBX.addr = BitVec.ofNat 32 (bits64 (q.pw 0) 0 18) ∧
    (d.mbxSetup q).get MBX_ROUTE_ROUTE = bits64 (q.pw 0) 32 16 :=
  ⟨(Dev.reg_put_ne (by decide)).trans Dev.reg_setReg_self, Dev.get_put_fit (by decide) (bits64_lt _ _ _)⟩

/-! dcg.clear (R198, R200, R224). -/

/-- The pin of group g is high now: PIN is clear, or a free value says that it has returned (log entry 81). -/
def Dev.fltHigh (d : Dev) (g : Nat) : Prop := (d.get PWM_FLT_STAT_PIN).testBit g = false ∨ Config.freeValue d.free % 2 ≠ 0

/-- A mask field of n bits with bit g taken out. -/
theorem testBit_clearBit {m : Nat} (h : m < 2 ^ n) :
    ((if m.testBit g then m - 2 ^ g else m) % 2 ^ n).testBit k = if k = g then false else m.testBit k := by
  have hm : (if m.testBit g then m - 2 ^ g else m) = replaceBit m g false := by
    unfold replaceBit
    split <;> rfl
  rw [hm, Nat.testBit_mod_two_pow, testBit_replaceBit]
  by_cases hk : k < n
  · simp [hk]
  · simp [hk, Nat.testBit_lt_two_pow (h.trans_le (Nat.pow_le_pow_right (by decide) (Nat.not_lt.mp hk)))]

/-- The pin is seen high as it stands, or its bit is taken out of PIN. -/
theorem Dev.fltSample_eq (h : d.fltHigh g) : ((d.get PWM_FLT_STAT_PIN).testBit g = false ∧ d.fltSample g = d) ∨
    ((d.get PWM_FLT_STAT_PIN).testBit g = true ∧
      d.fltSample g = ({ d with free := d.free + 1 } : Dev).put PWM_FLT_STAT_PIN (d.get PWM_FLT_STAT_PIN - 2 ^ g)) := by
  unfold Dev.fltSample
  cases hp : (d.get PWM_FLT_STAT_PIN).testBit g with
  | false => exact .inl ⟨rfl, by simp [hp]⟩
  | true =>
    have hfree : ¬ Config.freeValue d.free % 2 = 0 := h.resolve_left (by simp [hp])
    exact .inr ⟨rfl, by simp [hp, Dev.takeFree, hfree]⟩

theorem Dev.fltSample_high (h : d.fltHigh g) : ((d.fltSample g).get PWM_FLT_STAT_PIN).testBit g = false := by
  rcases Dev.fltSample_eq h with ⟨hp, he⟩ | ⟨hp, he⟩
  · rw [he, hp]
  · have hclear := testBit_clearBit (g := g) (k := g) (Dev.get_lt (d := d) (f := PWM_FLT_STAT_PIN))
    rw [hp, if_pos rfl, if_pos rfl] at hclear
    rw [he, Dev.get_put_self (by decide), hclear]

theorem Dev.fltSample_lat (h : d.fltHigh g) : (d.fltSample g).get PWM_FLT_STAT_LAT = d.get PWM_FLT_STAT_LAT := by
  rcases Dev.fltSample_eq h with ⟨-, he⟩ | ⟨-, he⟩
  · rw [he]
  · rw [he, Dev.get_put_disjoint (by decide) (by decide)]
    rfl

theorem Dev.fltSample_frame (h : d.fltHigh g) : d.fltSample g = { d with regs := (d.fltSample g).regs, free := (d.fltSample g).free } := by
  rcases Dev.fltSample_eq h with ⟨-, he⟩ | ⟨-, he⟩
  · rw [he]
  · rw [he]
    rfl

theorem Dev.showGroup_frame (hg : g < 4) : OnlyRegs isPinReg d (d.showGroup c g) :=
  OnlyRegs.foldl fun d u hu => by
    obtain ⟨w, hw⟩ := d.showUnit_eq c u
    refine hw ▸ .setReg (isPinReg_pinAddr ?_)
    simp only [lanesOfGroup, List.mem_append, List.mem_map, List.mem_range, List.mem_cons, List.not_mem_nil, or_false] at hu
    omega

/-- No latch and no status of a group is shown with the pins. -/
theorem not_isPinReg_flt : ¬ isPinReg PWM_FLT_STAT_LAT.addr := by
  simp only [isPinReg, PWM_FLT_STAT_LAT, PWM_Lnn_OUT_LEVEL, PWM_Ss_OUT_LEVEL]
  omega

theorem not_isPinReg_bstat (_ : g < 4) : ¬ isPinReg (PWM_Gg_BSTAT_REGEN g).addr := by
  simp only [isPinReg, PWM_Gg_BSTAT_REGEN, PWM_Lnn_OUT_LEVEL, PWM_Ss_OUT_LEVEL]
  omega

/-- The latches cleared in the registers, before the event and the pins. -/
def Dev.dcgLatches (d : Dev) (g : Nat) : Dev :=
  ((d.setf (PWM_Gg_BSTAT_REGEN g) false).setf (PWM_Gg_BSTAT_CFAIL g) false).put PWM_FLT_STAT_LAT
    (if (d.get PWM_FLT_STAT_LAT).testBit g then d.get PWM_FLT_STAT_LAT - 2 ^ g else d.get PWM_FLT_STAT_LAT)

theorem Dev.dcgLatches_fields (hg : g < 4) : (d.dcgLatches g).flag (PWM_Gg_BSTAT_REGEN g) = false ∧
    (d.dcgLatches g).flag (PWM_Gg_BSTAT_CFAIL g) = false ∧
    ∀ k, ((d.dcgLatches g).get PWM_FLT_STAT_LAT).testBit k = if k = g then false else (d.get PWM_FLT_STAT_LAT).testBit k := by
  have hlat : PWM_FLT_STAT_LAT.addr ≠ (PWM_Gg_BSTAT_REGEN g).addr := by
    simp only [PWM_Gg_BSTAT_REGEN, PWM_FLT_STAT_LAT]
    omega
  have hlat' : PWM_FLT_STAT_LAT.addr ≠ (PWM_Gg_BSTAT_CFAIL g).addr := hlat
  have hapart : (PWM_Gg_BSTAT_CFAIL g).Apart (PWM_Gg_BSTAT_REGEN g) := Field.apart_bits (by decide)
  have hregen : (PWM_Gg_BSTAT_REGEN g).IsBit := Field.isBit (by decide)
  have hcfail : (PWM_Gg_BSTAT_CFAIL g).IsBit := Field.isBit (by decide)
  rw [Dev.dcgLatches]
  refine ⟨?_, ?_, fun k => ?_⟩
  · rw [Dev.flag_put_apart (by decide) (.inl hlat), Dev.flag_setf_apart hcfail hapart, Dev.flag_setf_self hregen]
  · rw [Dev.flag_put_apart (by decide) (.inl hlat'), Dev.flag_setf_self hcfail]
  · rw [Dev.get_put_self (by decide)]
    exact testBit_clearBit Dev.get_lt

/-- The event of a group whose chopper was regenerating is a packet: no register changes. -/
theorem Dev.reg_groupEvent {t ev a : Nat} {v : Int} : (d.groupEvent t g ev v).reg a = d.reg a := Dev.reg_emit

theorem Dev.groupEvent_frame {t ev : Nat} {v : Int} :
    d.groupEvent t g ev v = { d with fab := (d.groupEvent t g ev v).fab, flt := (d.groupEvent t g ev v).flt } := rfl
/-- The device after dcg.clear: latches cleared, the chopper's event sent, the group's pins shown. -/
def Dev.dcgCleared (d : Dev) (c : Clock) (g : Nat) : Dev :=
  let d0 := d.fltSample g
  (if d0.flag (PWM_Gg_BSTAT_REGEN g) then (d0.dcgLatches g).groupEvent c.ns g 6 (d.getI (SAR_Gg_VOLT_V g)) else d0.dcgLatches g).showGroup c g

theorem cmdDcgClear_done (hg : g < 4) (ht : q.target.toNat = 0x68 + g) (hp : q.payload = [])
    (hv : d.getI (SAR_Gg_VOLT_V g) < d.getI (PWM_Gg_BLO_ACT_V g)) (hpin : d.fltHigh g) :
    cmdDcgClear c tref q d = .done {} (d.dcgCleared c g) := by
  have hsub : q.target.toNat - 0x68 = g := by omega
  have hrange : ¬ (q.target.toNat < 0x68 ∨ 0x6B < q.target.toNat) := by omega
  rw [cmdDcgClear, hsub, refuseIf_pass (by simp [hrange, hp, hv])]
  simp only [Dev.fltSample_high hpin, Bool.false_eq_true, if_false]
  rfl

/-- dcg.clear's registers are the latches cleared, beside the pins. -/
theorem Dev.dcgCleared_keeps (hg : g < 4) : KeepsRegs isPinReg ((d.fltSample g).dcgLatches g) (d.dcgCleared c g) := by
  intro a ha
  unfold Dev.dcgCleared
  dsimp only
  rw [(Dev.showGroup_frame hg).reg_eq ha]
  split
  · exact Dev.reg_groupEvent
  · rfl

theorem Dev.dcgCleared_frame (hg : g < 4) (h : d.fltHigh g) : d.dcgCleared c g = { d with
    regs := (d.dcgCleared c g).regs, fab := (d.dcgCleared c g).fab, flt := (d.dcgCleared c g).flt, free := (d.dcgCleared c g).free } := by
  unfold Dev.dcgCleared
  dsimp only
  rw [(Dev.showGroup_frame hg).2]
  split
  · rw [Dev.groupEvent_frame, Dev.dcgLatches, Dev.fltSample_frame h]
    rfl
  · rw [Dev.dcgLatches, Dev.fltSample_frame h]
    rfl

theorem Dev.dcgCleared_fields (hg : g < 4) (h : d.fltHigh g) : ((d.dcgCleared c g).get PWM_FLT_STAT_LAT).testBit g = false ∧
    (d.dcgCleared c g).flag (PWM_Gg_BSTAT_REGEN g) = false ∧ (d.dcgCleared c g).flag (PWM_Gg_BSTAT_CFAIL g) = false ∧
    ∀ k, k ≠ g → ((d.dcgCleared c g).get PWM_FLT_STAT_LAT).testBit k = (d.get PWM_FLT_STAT_LAT).testBit k := by
  have hk := Dev.dcgCleared_keeps (d := d) (c := c) hg
  obtain ⟨hregen, hcfail, hlat⟩ := Dev.dcgLatches_fields (d := d.fltSample g) hg
  have hget : (d.dcgCleared c g).get PWM_FLT_STAT_LAT = ((d.fltSample g).dcgLatches g).get PWM_FLT_STAT_LAT :=
    Dev.get_congr (hk _ not_isPinReg_flt)
  refine ⟨?_, ?_, ?_, fun k hne => ?_⟩
  · rw [hget, hlat, if_pos rfl]
  · exact (Dev.flag_congr (hk _ (not_isPinReg_bstat hg))).trans hregen
  · exact (Dev.flag_congr (f := PWM_Gg_BSTAT_CFAIL g) (hk _ (not_isPinReg_bstat hg))).trans hcfail
  · rw [hget, hlat, if_neg hne, Dev.fltSample_lat h]

/-! herder.cfg (R296, R308, R312, R317). -/

/-- The registers of herder.cfg under its word. -/
def Dev.herderRegs (d : Dev) (w : W64) : Dev :=
  ((((d.put HERDER_CTRL_TICK (bits64 w 0 7)).put HERDER_CTRL_WIN (bits64 w 16 10)).put HERDER_CAP_TRJ (bits64 w 32 8)).put HERDER_CAP_PKT
    (bits64 w 40 8)).put HERDER_CAP_LOOP (bits64 w 48 8)

theorem Dev.herderRegs_fields {w : W64} : (d.herderRegs w).get HERDER_CTRL_TICK = bits64 w 0 7 ∧
    (d.herderRegs w).get HERDER_CTRL_WIN = bits64 w 16 10 ∧ (d.herderRegs w).get HERDER_CAP_TRJ = bits64 w 32 8 ∧
    (d.herderRegs w).get HERDER_CAP_PKT = bits64 w 40 8 ∧ (d.herderRegs w).get HERDER_CAP_LOOP = bits64 w 48 8 := by
  refine ⟨?_, ?_, ?_, ?_, Dev.get_put_fit (f := HERDER_CAP_LOOP) (by decide) (bits64_lt _ _ _)⟩
  all_goals
    unfold Dev.herderRegs
    simp (disch := decide) only [Dev.get_put_ne, Dev.get_put_disjoint]
    exact Dev.get_put_fit (by decide) (bits64_lt _ _ _)

theorem Dev.herderRegs_frame {w : W64} :
    OnlyRegs (fun a => a = HERDER_CTRL_TICK.addr ∨ a = HERDER_CAP_TRJ.addr) d (d.herderRegs w) :=
  ((((OnlyRegs.put (.inl rfl)).trans (.put (.inl rfl))).trans (.put (.inr rfl))).trans (.put (.inr rfl))).trans (.put (.inr rfl))

/-- The cap that a word of herder.cfg gives engine e. -/
def herderCap (w : W64) (e : Nat) : Nat := if e < 28 then bits64 w 32 8 else if e < 30 then bits64 w 40 8 else bits64 w 48 8

/-- herder.cfg in force: the registers, and a Herder whose demands, tick and window follow the new values. -/
def Dev.herderSetup (d : Dev) (c : Clock) (w : W64) : Dev :=
  let d1 := (d.demandsAt (bits64 w 0 7)).herderRegs w
  { d1 with her := { d1.her with
    tickDone := if bits64 w 0 7 ≠ d.get HERDER_CTRL_TICK then c.ns / (bits64 w 0 7 * 250) else d1.her.tickDone
    winFrom := if bits64 w 16 10 ≠ d.get HERDER_CTRL_WIN then c.ns / (bits64 w 16 10 * 1000000) * (bits64 w 16 10 * 1000000)
      else d1.her.winFrom } }

theorem Dev.herderSetup_reg {w : W64} {a : Nat} : (d.herderSetup c w).reg a = (d.herderRegs w).reg a := by
  have hregs : ((d.demandsAt (bits64 w 0 7)).herderRegs w).regs = (d.herderRegs w).regs := rfl
  rw [Dev.reg, Dev.reg, Dev.herderSetup, hregs]

theorem Dev.herderSetup_fields {w : W64} : (d.herderSetup c w).get HERDER_CTRL_TICK = bits64 w 0 7 ∧
    (d.herderSetup c w).get HERDER_CTRL_WIN = bits64 w 16 10 ∧ (d.herderSetup c w).get HERDER_CAP_TRJ = bits64 w 32 8 ∧
    (d.herderSetup c w).get HERDER_CAP_PKT = bits64 w 40 8 ∧ (d.herderSetup c w).get HERDER_CAP_LOOP = bits64 w 48 8 := by
  obtain ⟨htick, hwin, htrj, hpkt, hloop⟩ := Dev.herderRegs_fields (d := d) (w := w)
  simp only [Dev.get_congr Dev.herderSetup_reg]
  exact ⟨htick, hwin, htrj, hpkt, hloop⟩

theorem Dev.herderSetup_keeps {w : W64} : KeepsRegs (fun a => a = HERDER_CTRL_TICK.addr ∨ a = HERDER_CAP_TRJ.addr) d (d.herderSetup c w) :=
  fun _ ha => Dev.herderSetup_reg.trans (Dev.herderRegs_frame.reg_eq ha)

theorem Dev.herderSetup_frame {w : W64} : d.herderSetup c w = { d with
    regs := (d.herderSetup c w).regs, her := (d.herderSetup c w).her } := by
  rw [Dev.herderSetup, Dev.herderRegs_frame.2]
  rfl

theorem cmdHerderCfg_done {w : W64} (hw : q.pw 0 = w) (ht : q.target = 0xF0) (hl : q.payload.length = 1) (h7 : bits64 w 7 9 = 0)
    (h26 : bits64 w 26 6 = 0) (h56 : bits64 w 56 8 = 0) (hst : bits64 w 0 7 = d.get HERDER_CTRL_TICK ∨ d.dst = .ready)
    (htick : 1 ≤ bits64 w 0 7 ∧ bits64 w 0 7 ≤ 64) (hwin : 1 ≤ bits64 w 16 10 ∧ bits64 w 16 10 ≤ 1000)
    (hcap : ∀ k ∈ [32, 40, 48], 50 ≤ bits64 w k 8 ∧ bits64 w k 8 ≤ 100)
    (hfit : ∀ e, 24 ≤ e → e < 31 →
      d.engineMisfit (bits64 w 0 7) e (herderCap w e) (decide (bits64 w 0 7 ≠ d.get HERDER_CTRL_TICK)) = none) :
    cmdHerderCfg c tref q d = .done {} (d.herderSetup c w) := by
  obtain ⟨ht1, ht2⟩ := htick
  obtain ⟨hw1, hw2⟩ := hwin
  have htrj := hcap 32 (by simp)
  have hpkt := hcap 40 (by simp)
  have hloop := hcap 48 (by simp)
  have hnone : ((List.range 7).map (24 + ·)).findSome? (fun e => (d.engineMisfit (bits64 w 0 7) e (herderCap w e)
      (decide (bits64 w 0 7 ≠ d.get HERDER_CTRL_TICK))).map fun cls => (e, cls)) = none := by
    refine List.findSome?_eq_none_iff.mpr fun e he => ?_
    simp only [List.mem_map, List.mem_range] at he
    rw [hfit e (by omega) (by omega), Option.map_none]
  have hbusy : (decide (bits64 w 0 7 ≠ d.get HERDER_CTRL_TICK) && decide (d.dst ≠ .ready)) = false := by
    rcases hst with h | h <;> simp [h]
  rw [cmdHerderCfg, hw, refuseIf_pass ?_]
  · simp only [herderCap] at hnone
    simp only [hnone]
    rfl
  · simp only [List.forall_mem_cons, List.not_mem_nil, false_implies, implies_true, and_true, hbusy, ht, hl, h7, h26, h56]
    simp
    omega

/-! time.cfg (R77, R612). -/

/-- The registers time.cfg governs. -/
def isTimeCfg (a : Nat) : Bool := a = TIME_CTRL_MODE.addr || a = TIME_GAIN_KP.addr || a = TIME_LIM_JTHR.addr || a = TIME_HOLD_HLIM.addr ||
  a = GATE_MARGIN_MARG.addr

theorem isLoopMem_timeCfg {a : Nat} (h : isTimeCfg a = true) : isLoopMem a = false := by
  simp only [isTimeCfg, Bool.or_eq_true, decide_eq_true_eq] at h
  rcases h with (((rfl | rfl) | rfl) | rfl) | rfl <;> rfl

/-- The device under an image of time.cfg: a change of MODE restarts the servo. -/
def Dev.timeSetup (d : Dev) (c : Clock) (ps : List (Nat × Nat)) : Dev :=
  if (d.writePairs ps).get TIME_CTRL_MODE = d.get TIME_CTRL_MODE then d.writePairs ps else (d.writePairs ps).servoRestart c

theorem cmdTimeCfg_done (ht : q.target = 0x6E) (hp : q.payload ≠ []) (hok : imageOk isTimeCfg q.image = true)
    (hz : timeCfgZero (d.writePairs q.image) = false) (hc : timeCfgConflict (d.writePairs q.image) = false) :
    cmdTimeCfg c tref q d = .done {} (d.timeSetup c q.image) := by
  unfold isTimeCfg at hok
  rw [cmdTimeCfg, refuseIf_pass (by simp only [List.forall_mem_cons, ht, noImage_of_payload hp, hok, hz, hc]; simp)]
  rfl

theorem Dev.timeSetup_frame {ps : List (Nat × Nat)} (hok : imageOk isTimeCfg ps = true) : ServoFrame d (d.timeSetup c ps) := by
  have himage : OnlyRegs (fun _ => True) d (d.writePairs ps) :=
    .writePairs fun x hx => ⟨isLoopMem_timeCfg (imageOk_mem hok x hx), trivial⟩
  unfold Dev.timeSetup
  split
  · exact .regs himage
  · exact ServoFrame.trans (.regs himage) .servoRestart

theorem Dev.timeSetup_same {ps : List (Nat × Nat)} (h : (d.writePairs ps).get TIME_CTRL_MODE = d.get TIME_CTRL_MODE) :
    d.timeSetup c ps = d.writePairs ps := if_pos h

theorem Dev.timeSetup_restarts {ps : List (Nat × Nat)} (h : (d.writePairs ps).get TIME_CTRL_MODE ≠ d.get TIME_CTRL_MODE) :
    (d.timeSetup c ps).get TIME_STAT_STATE = servoFree ∧ (d.timeSetup c ps).getI TIME_RATE_Y = 0 ∧
      (d.timeSetup c ps).flag TIME_STAT_STEP_PEND = false ∧ (d.timeSetup c ps).servo.seen = false := by
  have hset : d.timeSetup c ps = (d.writePairs ps).servoRestart c := if_neg h
  obtain ⟨hst, hy, hpend⟩ := Dev.servoRestart_fields (d := d.writePairs ps) (c := c)
  rw [hset, Dev.servoRestart_servo]
  exact ⟨hst, hy, hpend, rfl⟩

/-! cap.cfg (R539). -/

theorem cmdCapCfg_done (hr : r < 8) (ht : q.target.toNat = 0x58 + r) (hp : q.payload ≠ []) (hb : d.capBusy r = false)
    (hok : imageOk (isCapCfg r) q.image = true) (hz : (d.writePairs q.image).capZero r = false)
    (hc : (d.writePairs q.image).capConflict r = false) (ho : (d.writePairs q.image).capOverload r = false) :
    cmdCapCfg c tref q d = .done {} ((d.writePairs q.image).capCopy r) := by
  have hsub : q.target.toNat - 0x58 = r := by omega
  have htarget : capTarget q = true := by simp [capTarget]; omega
  rw [cmdCapCfg, hsub, refuseIf_pass (by simp [htarget, noImage_of_payload hp, hb, hok, hz, hc, ho])]

/-! cmdin.cfg (R194, R196). -/

/-- The image of cmdin.cfg, written pair by pair. -/
def Dev.cmdinSetup (d : Dev) (ps : List (Nat × Nat)) : Dev := ps.foldl (fun d p => d.cmdinWrite p.1 (BitVec.ofNat 32 p.2)) d

theorem cmdCmdinCfg_done (ht : q.target.toNat < 24) (hp : q.payload ≠ []) (hr : d.isReleased 7 q.target.toNat = false)
    (hok : imageOk isCmdinReg q.image = true) : cmdCmdinCfg c tref q d = .done {} (d.cmdinSetup q.image) := by
  rw [cmdCmdinCfg, refuseIf_pass (by simp [ht, noImage_of_payload hp, hr, hok])]
  rfl

theorem isCmdinReg_iff {a : Nat} : isCmdinReg a = true ↔ 0x40073800 ≤ a ∧ a < 0x40073900 := by
  rw [isCmdinReg, Bool.and_eq_true, decide_eq_true_eq, decide_eq_true_eq]

theorem isLoopMem_cmdin {a : Nat} (h : isCmdinReg a = true) : isLoopMem a = false := by
  rw [isCmdinReg_iff] at h
  simp only [isLoopMem, Bool.and_eq_false_iff, decide_eq_false_iff_not]
  omega

/-- Input c commands a running lane. -/
def Dev.cmdinBound (d : Dev) (c : Nat) : Prop :=
  d.get (FBK_CMDc_CFG_MODE c) ≠ 0 ∧ (d.lane (d.get (FBK_CMDc_CFG_LANE c))).state.running = true

theorem Dev.cmdinRefresh_frame (hn : n < 8) :
    OnlyRegs (fun a => isCmdinReg a = true ∧ ∀ m, a ≠ (FBK_CMDc_CFG_MODE m).addr) d (d.cmdinRefresh n) := by
  unfold Dev.cmdinRefresh
  split
  · exact .refl
  · refine .put ⟨?_, fun m => ?_⟩
    · simp only [isCmdinReg_iff, FBK_CMDc_VAL_CMD]
      omega
    · simp only [FBK_CMDc_VAL_CMD, FBK_CMDc_CFG_MODE]
      omega

theorem isCmdinReg_cfg (hn : n < 8) : isCmdinReg (FBK_CMDc_CFG_MODE n).addr = true := by
  simp only [isCmdinReg_iff, FBK_CMDc_CFG_MODE]
  omega

/-- A write of an input's CFG changes no CFG of an input that commands a running lane: its own is ignored, every other stands elsewhere. -/
theorem Dev.cmdinCfgWrite_frame {v : W32} (hn : n < 8) :
    OnlyRegs (fun a => isCmdinReg a = true ∧ ∀ m, d.cmdinBound m → a ≠ (FBK_CMDc_CFG_MODE m).addr) d (d.cmdinCfgWrite n v) := by
  unfold Dev.cmdinCfgWrite
  dsimp only
  split
  · exact .refl
  · next hfree =>
    simp only [Bool.or_eq_true, Bool.and_eq_true, decide_eq_true_eq, not_or, not_and] at hfree
    obtain ⟨⟨-, hnew⟩, hleave⟩ := hfree
    refine OnlyRegs.trans (.regStore (isLoopMem_cmdin (isCmdinReg_cfg hn)) ⟨isCmdinReg_cfg hn, fun m hm hmn => ?_⟩)
      ((Dev.cmdinRefresh_frame hn).mono fun a ha => ⟨ha.1, fun m _ => ha.2 m⟩)
    have hmn : n = m := by
      simp only [FBK_CMDc_CFG_MODE] at hmn
      omega
    subst hmn
    obtain ⟨hmode, hrun⟩ := hm
    by_cases hlane : d.get (FBK_CMDc_CFG_LANE n) = v.toNat / 16 % 32
    · exact hnew (hlane ▸ hrun)
    · exact hleave ⟨hmode, .inr hlane⟩ hrun

theorem Dev.cmdinWrite_frame {a : Nat} {v : W32} (ha : isCmdinReg a = true) :
    OnlyRegs (fun b => isCmdinReg b = true ∧ ∀ m, d.cmdinBound m → b ≠ (FBK_CMDc_CFG_MODE m).addr) d (d.cmdinWrite a v) := by
  have hn : a % 0x100 / 0x20 < 8 := by omega
  unfold Dev.cmdinWrite
  dsimp only
  split
  · exact Dev.cmdinCfgWrite_frame hn
  · next hoff =>
    refine OnlyRegs.trans (.regStore (isLoopMem_cmdin ha) ⟨ha, fun m _ hm => hoff ?_⟩)
      ((Dev.cmdinRefresh_frame hn).mono fun b hb => ⟨hb.1, fun m _ => hb.2 m⟩)
    simp only [FBK_CMDc_CFG_MODE] at hm
    omega

theorem Dev.cmdinSetup_frame {ps : List (Nat × Nat)} (h : ∀ x ∈ ps, isCmdinReg x.1 = true) :
    OnlyRegs (fun b => isCmdinReg b = true ∧ ∀ m, d.cmdinBound m → b ≠ (FBK_CMDc_CFG_MODE m).addr) d (d.cmdinSetup ps) := by
  induction ps generalizing d with
  | nil => exact .refl
  | cons x ps ih =>
    have hx : OnlyRegs _ d (d.cmdinWrite x.1 (BitVec.ofNat 32 x.2)) := Dev.cmdinWrite_frame (h x (by simp))
    refine hx.trans ((ih fun y hy => h y (by simp [hy])).mono fun a ha => ⟨ha.1, fun m hm => ha.2 m ?_⟩)
    obtain ⟨hmode, hrun⟩ := hm
    have hcfg : (d.cmdinWrite x.1 (BitVec.ofNat 32 x.2)).reg (FBK_CMDc_CFG_MODE m).addr = d.reg (FBK_CMDc_CFG_MODE m).addr :=
      hx.reg_eq fun h => h.2 m ⟨hmode, hrun⟩ rfl
    have hlane : (d.cmdinWrite x.1 (BitVec.ofNat 32 x.2)).lanes = d.lanes := by rw [hx.2]
    rw [Dev.cmdinBound, Dev.lane, hlane, Dev.get_congr hcfg, Dev.get_congr (f := FBK_CMDc_CFG_LANE m) hcfg]
    exact ⟨hmode, hrun⟩

end DoneCommands

end Sys2Proof.Machine

section
open Sys2Proof Sys2Proof.Machine

/-- Settles O20: each command passes its conditions by its own lemma and leaves the device that the lemma names. -/
theorem configurationsInForceAtOnce : Obligations.ConfigurationsInForceAtOnce := by
  intro q s
  refine ⟨?trace, ?mbx, ?dcg, ?herder, ?time, ?cap, ?cmdin⟩
  case trace =>
    intro ht hl hs
    obtain ⟨hk, hf, hp, he, hz⟩ := Dev.traceSetup_fields (d := s.dev) (q := q)
    exact ⟨s.dev.traceSetup q, exec_done rfl (cmdHerderTrace_done ht hl) hs, hk, hf, hp, he, hz, Dev.traceSetup_postLeft,
      Dev.traceSetup_frame, Dev.traceSetup_keeps⟩
  case mbx =>
    intro ht hl h1 h2 hs
    obtain ⟨hirq, hroute⟩ := Dev.mbxSetup_words (d := s.dev) (q := q)
    exact ⟨s.dev.mbxSetup q, exec_done rfl (cmdSysMbx_done ht hl h1 h2) hs, hirq, hroute,
      (OnlyRegs.setReg (.inl rfl)).trans (.put (.inr rfl))⟩
  case dcg =>
    intro g hg ht hp hv hpin hs
    obtain ⟨hlat, hregen, hcfail, hother⟩ := Dev.dcgCleared_fields (c := s.clk) hg hpin
    exact ⟨s.dev.dcgCleared s.clk g, exec_done rfl (cmdDcgClear_done hg ht hp hv hpin) hs, hlat, hregen, hcfail, hother,
      Dev.dcgCleared_frame hg hpin⟩
  case herder =>
    intro f cap ht hl h7 h26 h56 hst hlo hhi hwlo hwhi hcap hfit hs
    obtain ⟨htick, hwin, htrj, hpkt, hloop⟩ := Dev.herderSetup_fields (d := s.dev) (c := s.clk) (w := q.pw 0)
    exact ⟨s.dev.herderSetup s.clk (q.pw 0),
      exec_done rfl (cmdHerderCfg_done rfl ht hl h7 h26 h56 hst ⟨hlo, hhi⟩ ⟨hwlo, hwhi⟩ hcap hfit) hs,
      htick, hwin, htrj, hpkt, hloop, Dev.herderSetup_frame, Dev.herderSetup_keeps⟩
  case time =>
    intro d1 ht hp hok hz hc hs
    exact ⟨s.dev.timeSetup s.clk q.image, exec_done rfl (cmdTimeCfg_done ht hp hok hz hc) hs, Dev.timeSetup_frame hok, Dev.timeSetup_same,
      Dev.timeSetup_restarts⟩
  case cap =>
    intro r hr ht d1 hp hb hok hz hc ho hs
    exact exec_done rfl (cmdCapCfg_done hr ht hp hb hok hz hc ho) hs
  case cmdin =>
    intro ht hp hr hok hs
    have hframe := Dev.cmdinSetup_frame (d := s.dev) (imageOk_mem hok)
    refine ⟨s.dev.cmdinSetup q.image, exec_done rfl (cmdCmdinCfg_done ht hp hr hok) hs, hframe.mono fun a ha => ha.1, fun c _ hmode hrun => ?_⟩
    have hcfg := hframe.reg_eq (a := (FBK_CMDc_CFG_MODE c).addr) fun h => h.2 c ⟨hmode, hrun⟩ rfl
    exact ⟨(Dev.get_congr hcfg).trans_ne hmode, Dev.get_congr (f := FBK_CMDc_CFG_LANE c) hcfg⟩

end

/-! PROOFS. The commands of the servo's step, of the safety unit, of the chain and of the pair (R64, R423, R472 to R474, R498). -/

namespace Sys2Proof.Machine

section UnitCommands

variable {q : Request} {d : Dev} {c : Clock} {tref v promise opc : Nat} {i : Instr} {f : CmdFn} {s : State}

/-- Two fields with known places stand apart by their numbers. -/
theorem Field.apart_of {f g : Field} (h : f.addr ≠ g.addr ∨ f.lo + f.width ≤ g.lo ∨ g.lo + g.width ≤ f.lo) : f.Apart g := h

theorem exec_acceptsOnly (hx : exec i s = .next (s.command opc f q)) (h : f s.clk s.clk.ns q s.dev = .acceptOnly promise d)
    (hs : Served s q opc promise) : exec i s = .next (s.acceptedOnly opc q promise d) :=
  hx.trans (congrArg _ (State.command_acceptOnly h hs))

/-! time.accept_step (R64). -/

/-- The registers when a pending step is accepted: none is pending, and no jump is shown. -/
def Dev.stepTaken (d : Dev) : Dev := (d.setPend 0 false).setf TIME_STAT_TIME_JUMP false

/-- The accepted step is slewed out. -/
def Dev.slewStep (d : Dev) : Dev :=
  (({ d.stepTaken with servo := { d.stepTaken.servo with slewRem := d.timePend * 2 ^ 48, good := 0 } } : Dev).servoTo servoSlew).setRate

/-- The accepted step is applied at the next tick. -/
def Dev.jumpStep (d : Dev) : Dev :=
  ({ d.stepTaken with servo := { d.stepTaken.servo with stepNow := some d.timePend, good := 0 } } : Dev).servoTo servoAcquire

theorem cmdTimeAcceptStep_slew (ht : q.target = 0x6E) (hl : q.payload.length = 1) (hp : d.flag TIME_STAT_STEP_PEND = true)
    (hodd : (q.pw 0).toNat % 2 = 1) : cmdTimeAcceptStep c tref q d = .done {} d.slewStep := by
  rw [cmdTimeAcceptStep, refuseIf_pass (by simp [ht, hl, hp, hodd]), if_pos hodd]
  rfl

theorem cmdTimeAcceptStep_jump (ht : q.target = 0x6E) (hl : q.payload.length = 1) (hp : d.flag TIME_STAT_STEP_PEND = true)
    (heven : (q.pw 0).toNat % 2 = 0) (hlane : d.noLaneRunning = true) : cmdTimeAcceptStep c tref q d = .done {} d.jumpStep := by
  rw [cmdTimeAcceptStep, refuseIf_pass (by simp [ht, hl, hp, hlane]), if_neg (by omega)]
  rfl

theorem Dev.stepTaken_flags : d.stepTaken.flag TIME_STAT_STEP_PEND = false ∧ d.stepTaken.flag TIME_STAT_TIME_JUMP = false := by
  rw [Dev.stepTaken]
  refine ⟨?_, Dev.flag_setf_self (f := TIME_STAT_TIME_JUMP) ⟨rfl, by decide⟩⟩
  rw [Dev.flag_setf_apart ⟨rfl, by decide⟩ (Field.apart_of (by decide)), Dev.flag_setPend]

theorem Dev.stepTaken_frame :
    OnlyRegs (fun a => a = TIME_PEND_LO_PEND.addr ∨ a = TIME_PEND_HI_PEND.addr ∨ a = TIME_STAT_STATE.addr) d d.stepTaken :=
  Dev.setPend_frame.trans (.setf (.inr (.inr rfl)))

@[simp] theorem Dev.setRate_servo : d.setRate.servo = d.servo := by rw [Dev.setRate_frame.2]

theorem Dev.flag_setServo {x : Servo} {g : Field} : ({ d with servo := x } : Dev).flag g = d.flag g := Dev.flag_congr rfl

/-- The step is no longer pending, and the servo holds what is left to remove. -/
theorem Dev.slewStep_fields : d.slewStep.flag TIME_STAT_STEP_PEND = false ∧ d.slewStep.flag TIME_STAT_TIME_JUMP = false ∧
    d.slewStep.get TIME_STAT_STATE = servoSlew ∧ d.slewStep.servo.slewRem = d.timePend * 2 ^ 48 := by
  obtain ⟨hpend, hjump⟩ := Dev.stepTaken_flags (d := d)
  unfold Dev.slewStep
  refine ⟨?_, ?_, ?_, ?_⟩
  · rw [Dev.flag_setRate (by decide) (Field.apart_of (by decide)), Dev.flag_servoTo_apart (Field.apart_of (by decide)), Dev.flag_setServo, hpend]
  · rw [Dev.flag_setRate (by decide) (Field.apart_of (by decide)), Dev.flag_servoTo_apart (Field.apart_of (by decide)), Dev.flag_setServo, hjump]
  · rw [Dev.get_setRate (by decide) stat_apart_state, Dev.get_servoTo (by decide)]
  · rw [Dev.setRate_servo, Dev.servoTo_servo]

theorem Dev.jumpStep_fields : d.jumpStep.flag TIME_STAT_STEP_PEND = false ∧ d.jumpStep.flag TIME_STAT_TIME_JUMP = false ∧
    d.jumpStep.get TIME_STAT_STATE = servoAcquire ∧ d.jumpStep.servo.stepNow = some d.timePend := by
  obtain ⟨hpend, hjump⟩ := Dev.stepTaken_flags (d := d)
  unfold Dev.jumpStep
  refine ⟨?_, ?_, Dev.get_servoTo (by decide), ?_⟩
  · rw [Dev.flag_servoTo_apart (Field.apart_of (by decide)), Dev.flag_setServo, hpend]
  · rw [Dev.flag_servoTo_apart (Field.apart_of (by decide)), Dev.flag_setServo, hjump]
  · rw [Dev.servoTo_servo]

theorem ServoFrame.setServo {x : Servo} : ServoFrame d { d with servo := x } := rfl

theorem ServoFrame.slewStep : ServoFrame d d.slewStep :=
  ServoFrame.trans (.regs Dev.stepTaken_frame) (.trans .setServo (.trans .servoTo (.regs Dev.setRate_frame)))

theorem ServoFrame.jumpStep : ServoFrame d d.jumpStep :=
  ServoFrame.trans (.regs Dev.stepTaken_frame) (.trans .setServo .servoTo)

/-! safe.cfg (R498). -/

theorem isLoopMem_safeCfg {a : Nat} (h : safeCfgRegs.contains a = true) : isLoopMem a = false := by
  have hall : ∀ a ∈ safeCfgRegs, isLoopMem a = false := by decide
  exact hall a (List.contains_iff_mem.mp h)

/-- A fresh CRC, a free value, over the configuration. -/
def Dev.safeCrc (d : Dev) : Dev := ({ d with free := d.free + 1 } : Dev).put SAFE_CFGCRC_CRC (Config.freeValue d.free % 2 ^ 32).toNat

/-- The configuration and its CRC stored, and the image kept for the next cycle. -/
def Dev.safeKeep (d : Dev) (q : Request) : Dev := { d with
  safeStore := (SAFE_CFGCRC_CRC.addr :: safeCfgRegs).map fun a => (a, (d.reg a).toNat)
  safe := { d.safe with cfg := some (q.image, q.id) } }

/-- The device that has stored an image of safe.cfg. -/
def Dev.safeStored (d : Dev) (q : Request) : Dev := (d.writePairs q.image).safeCrc.safeKeep q

theorem cmdSafeCfg_accepts (ht : q.target = 0x6C) (hp : q.payload ≠ []) (hok : imageOk (fun a => safeCfgRegs.contains a) q.image = true)
    (hg : ∀ g < 4, d.sg g ≠ sgEnable ∧ d.sg g ≠ sgSs1) (hn : d.safe.cfg = none) (hz : (d.writePairs q.image).safeZero = false)
    (hc : (d.writePairs q.image).safeConflict = false) : cmdSafeCfg c tref q d = .accept (tref + 200000000) (d.safeStored q) := by
  have hbusy : ((List.range 4).any fun g => d.sg g = sgEnable || d.sg g = sgSs1) = false := by
    simp only [List.any_eq_false, List.mem_range, Bool.or_eq_true, decide_eq_true_eq, not_or]
    exact hg
  rw [cmdSafeCfg, refuseIf_pass (by simp only [List.forall_mem_cons, ht, noImage_of_payload hp, hok, hbusy, hn, hz, hc]; simp)]
  rfl

theorem Dev.safeCrc_keeps : KeepsRegs (· = SAFE_CFGCRC_CRC.addr) d d.safeCrc := fun a ha => by
  rw [Dev.safeCrc, Dev.reg_put_ne fun h => ha h.symm, Dev.reg, Dev.reg]

theorem Dev.safeCrc_frame : d.safeCrc = { d with regs := d.safeCrc.regs, free := d.safeCrc.free } := by
  rw [Dev.safeCrc]
  rfl

theorem Dev.safeKeep_reg {a : Nat} : (d.safeKeep q).reg a = d.reg a := by rw [Dev.reg, Dev.reg, Dev.safeKeep]

theorem Dev.safeKeep_frame : d.safeKeep q = { d with safe := (d.safeKeep q).safe, safeStore := (d.safeKeep q).safeStore } := by
  rw [Dev.safeKeep]

theorem Dev.safeStored_keeps : KeepsRegs (· = SAFE_CFGCRC_CRC.addr) (d.writePairs q.image) (d.safeStored q) :=
  fun a ha => Dev.safeKeep_reg.trans (Dev.safeCrc_keeps a ha)

theorem Dev.writePairs_safeCfg {ps : List (Nat × Nat)} (hok : imageOk (fun a => safeCfgRegs.contains a) ps = true) :
    OnlyRegs (fun _ => True) d (d.writePairs ps) :=
  .writePairs fun x hx => ⟨isLoopMem_safeCfg (imageOk_mem hok x hx), trivial⟩

theorem Dev.safeStored_safe (hok : imageOk (fun a => safeCfgRegs.contains a) q.image = true) :
    (d.safeStored q).safe = { d.safe with cfg := some (q.image, q.id) } := by
  rw [Dev.safeStored, Dev.safeKeep, Dev.safeCrc_frame, (Dev.writePairs_safeCfg hok).2]

theorem Dev.safeStored_frame (hok : imageOk (fun a => safeCfgRegs.contains a) q.image = true) : d.safeStored q = { d with
    regs := (d.safeStored q).regs, safe := (d.safeStored q).safe, safeStore := (d.safeStored q).safeStore, free := (d.safeStored q).free } := by
  rw [Dev.safeStored, Dev.safeKeep_frame, Dev.safeCrc_frame, (Dev.writePairs_safeCfg hok).2]

/-! chain.enum (R423). -/

/-- Address 1, the controller's mark and an identifier, a free value. -/
def Dev.enumRegs (d : Dev) : Dev := ((({ d with free := d.free + 1 } : Dev).put CHAIN_STAT_ADDR 1).setf CHAIN_STAT_CTRL).put CHAIN_STAT_ENUMID
  (uInt 16 (Config.freeValue d.free))

/-- The enumeration runs until `promise`, and nothing has answered. -/
def Dev.enumKeep (d : Dev) (id promise : Nat) : Dev := { d with chain := { d.chain with enum := some (id, promise), idents := [] } }

/-- The controller of an enumeration, before its first frame. -/
def Dev.enumStart (d : Dev) (q : Request) (promise : Nat) : Dev := d.enumRegs.enumKeep q.id promise

theorem cmdChainEnum_accepts (ht : q.target = 0xFE) (hl : q.payload = []) (hr : d.anyReleased 0x0C = false) (hlane : d.noLaneRunning = true)
    (he : d.chain.enum = none) : cmdChainEnum c tref q d = .accept (tref + 10000000)
      (((d.enumStart q (tref + 10000000)).launchBlock c 1 0xF0 0xFF 0x69
        [BitVec.ofNat 64 (2 + uInt 16 (Config.freeValue d.free) * 2 ^ 16)]).pktArm c 199) := by
  rw [cmdChainEnum, refuseIf_pass (by simp [ht, hl, hr, hlane, he])]
  dsimp only [Dev.enumStart, Dev.enumKeep, Dev.enumRegs, Dev.takeFree]

theorem uInt_lt {w : Nat} {x : Int} : uInt w x < 2 ^ w := by
  unfold uInt
  have hpos : (0 : Int) < 2 ^ w := by positivity
  have hlo := Int.emod_nonneg x hpos.ne'
  have hhi := Int.emod_lt_of_pos x hpos
  zify
  omega

theorem Dev.enumRegs_fields : d.enumRegs.get CHAIN_STAT_ADDR = 1 ∧ d.enumRegs.flag CHAIN_STAT_CTRL = true ∧
    d.enumRegs.get CHAIN_STAT_ENUMID = uInt 16 (Config.freeValue d.free) := by
  unfold Dev.enumRegs
  refine ⟨?_, ?_, Dev.get_put_fit (f := CHAIN_STAT_ENUMID) (by decide) (uInt_lt (w := 16))⟩
  · rw [Dev.setf, Dev.get_put_apart (by decide) (Field.apart_of (by decide)), Dev.get_put_apart (by decide) (Field.apart_of (by decide)),
      Dev.get_put_fit (by decide) (by decide)]
  · rw [Dev.flag_put_apart (by decide) (Field.apart_of (by decide)), Dev.flag_setf_self ⟨rfl, by decide⟩]

theorem Dev.enumRegs_frame : d.enumRegs = { d with regs := d.enumRegs.regs, free := d.enumRegs.free } := by
  have hregs : OnlyRegs (fun _ => True) { d with free := d.free + 1 } d.enumRegs :=
    ((OnlyRegs.put trivial).trans (.setf trivial)).trans (.put trivial)
  rw [hregs.2]

theorem Dev.enumKeep_reg {a id : Nat} : (d.enumKeep id promise).reg a = d.reg a := by rw [Dev.reg, Dev.reg, Dev.enumKeep]

theorem Dev.enumStart_fields : (d.enumStart q promise).get CHAIN_STAT_ADDR = 1 ∧ (d.enumStart q promise).flag CHAIN_STAT_CTRL = true ∧
    (d.enumStart q promise).get CHAIN_STAT_ENUMID = uInt 16 (Config.freeValue d.free) ∧
    (d.enumStart q promise).chain = { d.chain with enum := some (q.id, promise), idents := [] } := by
  obtain ⟨haddr, hctrl, hid⟩ := Dev.enumRegs_fields (d := d)
  refine ⟨(Dev.get_congr Dev.enumKeep_reg).trans haddr, (Dev.flag_congr Dev.enumKeep_reg).trans hctrl,
    (Dev.get_congr Dev.enumKeep_reg).trans hid, ?_⟩
  rw [Dev.enumStart, Dev.enumKeep, Dev.enumRegs_frame]

theorem Dev.enumStart_frame : d.enumStart q promise = { d with
    regs := (d.enumStart q promise).regs, chain := (d.enumStart q promise).chain, free := (d.enumStart q promise).free } := by
  rw [Dev.enumStart, Dev.enumKeep, Dev.enumRegs_frame]

/-! pair.join and pair.leave (R472 to R474). -/

/-- The registers of a device that joins in `role`: its configuration, its role and the mirror load. -/
def Dev.pairRole (d : Dev) (w : W64) (role : Nat) : Dev :=
  ((d.pairCfg w).put PAIR_STAT_ROLE role).put PAIR_BW_BW (u88 ((d.pairCfg w).mirrorLoad ((d.pairCfg w).get PAIR_CFG_MDIV)))

/-- The join is kept until its promise. -/
def Dev.keepJoin (d : Dev) (promise id : Nat) : Dev := { d with pair := { d.pair with join := some (promise, id) } }

/-- The standby that synchronises until `promise`. -/
def Dev.standbyJoin (d : Dev) (w : W64) (promise id : Nat) : Dev := (d.pairRole w roleStandby).pairSync.keepJoin promise id

/-- The registers of pair.join. -/
def isPairReg (a : Nat) : Prop := a = PAIR_CFG_MDIV.addr ∨ a = PAIR_CFG2_RBEDGE.addr ∨ a = PAIR_STAT_ROLE.addr ∨ a = PAIR_BW_BW.addr

theorem Dev.pairCfg_frame {w : W64} : OnlyRegs isPairReg d (d.pairCfg w) :=
  ((((((OnlyRegs.put (.inl rfl)).trans (.put (.inl rfl))).trans (.put (.inl rfl))).trans (.put (.inl rfl))).trans (.put (.inl rfl))).trans
    (.put (.inr (.inl rfl)))).trans (.put (.inr (.inl rfl)))

theorem Dev.pairRole_frame {w : W64} {role : Nat} : OnlyRegs isPairReg d (d.pairRole w role) :=
  (Dev.pairCfg_frame.trans (.put (.inr (.inr (.inl rfl))))).trans (.put (.inr (.inr (.inr rfl))))

theorem Dev.get_pairRole {w : W64} {role : Nat} (h : role < 4) : (d.pairRole w role).get PAIR_STAT_ROLE = role := by
  rw [Dev.pairRole, Dev.get_put_ne (by decide), Dev.get_put_fit (by decide) h]

/-- A word of pair.join whose reserved bits are 0, with the periods and the limit nonzero. -/
structure JoinWord (d : Dev) (q : Request) : Prop where
  target : q.target = 0x6F
  length : q.payload.length = 1
  resv10 : bits64 (q.pw 0) 10 1 = 0
  resv13 : bits64 (q.pw 0) 13 3 = 0
  resv44 : bits64 (q.pw 0) 44 4 = 0
  resv56 : bits64 (q.pw 0) 56 8 = 0
  mdiv : (d.pairCfg (q.pw 0)).get PAIR_CFG_MDIV ≠ 0
  rbper : (d.pairCfg (q.pw 0)).get PAIR_CFG_RBPER ≠ 0
  tofflim : (d.pairCfg (q.pw 0)).get PAIR_CFG2_TOFFLIM ≠ 0

theorem cmdPairJoin_active (hw : JoinWord d q) (hn : d.pair.join = none) (hrole : bits64 (q.pw 0) 11 2 = roleActive)
    (hst : d.dst = .ready ∨ d.dst = .run)
    (hlight : (d.pstate = psSyncing ∨ d.pstate = psMirrored) → d.mirrorLoad ((d.pairCfg (q.pw 0)).get PAIR_CFG_MDIV) ≤ 200) :
    cmdPairJoin c tref q d = .done {} ((d.pairRole (q.pw 0) roleActive).setf PAIR_CFG_ALLOW) := by
  obtain ⟨ht, hl, h10, h13, h44, h56, hm, hr, hto⟩ := hw
  have hother : ¬ roleActive = roleStandby := by decide
  rw [cmdPairJoin, hrole, refuseIf_pass ?_]
  · rfl
  · rcases hst with h | h <;> simp only [List.forall_mem_cons, h, ht, hl, h10, h13, h44, h56, hm, hr, hto, hn, hother] <;>
      simpa [pairUnit] using hlight

theorem cmdPairJoin_standby (hw : JoinWord d q) (hn : d.pair.join = none) (hrole : bits64 (q.pw 0) 11 2 = roleStandby)
    (hst : d.dst = .ready) (hpartner : d.partnerReady = true) (hsame : d.pair.same = true)
    (hlight : d.mirrorLoad ((d.pairCfg (q.pw 0)).get PAIR_CFG_MDIV) ≤ 200) :
    cmdPairJoin c tref q d = .accept (tref + 200000000) (d.standbyJoin (q.pw 0) (tref + 200000000) q.id) := by
  obtain ⟨ht, hl, h10, h13, h44, h56, hm, hr, hto⟩ := hw
  have hother : ¬ roleStandby = roleActive := by decide
  have hheavy : decide (200 < d.mirrorLoad ((d.pairCfg (q.pw 0)).get PAIR_CFG_MDIV)) = false := by simpa using hlight
  rw [cmdPairJoin, hrole, refuseIf_pass ?_]
  · rfl
  · simp only [List.forall_mem_cons, hheavy, hst, hpartner, hsame, ht, hl, h10, h13, h44, h56, hm, hr, hto, hn, hother]
    simp [pairUnit]

/-- Nothing but registers, the pair's state and the epochs of units differs. -/
def PairFrame (d e : Dev) : Prop := e = { d with regs := e.regs, pair := e.pair, epochs := e.epochs }

theorem PairFrame.trans {d d' e : Dev} (h : PairFrame d d') (h' : PairFrame d' e) : PairFrame d e :=
  Eq.trans h' (by rw [h])

theorem PairFrame.regs {p : Nat → Prop} {d e : Dev} (h : OnlyRegs p d e) : PairFrame d e := h.2 ▸ rfl

theorem PairFrame.setPair {x : PairX} : PairFrame d { d with pair := x } := rfl

theorem Dev.pairTo_frame {st : Nat} : d.pairTo st = { d with regs := (d.pairTo st).regs, epochs := (d.pairTo st).epochs } :=
  Dev.putState_frame (by decide)

theorem PairFrame.pairTo {st : Nat} : PairFrame d (d.pairTo st) := by
  rw [Dev.pairTo_frame]
  rfl

theorem Dev.pairTo_role {st : Nat} : (d.pairTo st).role = d.role := Dev.get_putState_apart (by decide) (Field.apart_of (by decide))

/-- A standby that starts to synchronise sends no snapshot. -/
theorem Dev.pairSync_standby (h : d.role ≠ roleActive) : d.pairSync = { d.pairTo psSyncing with pair := d.pairSync.pair } := by
  have hrole : ∀ x, ({ d.pairTo psSyncing with pair := x } : Dev).role = d.role := fun x => (Dev.get_congr rfl).trans Dev.pairTo_role
  unfold Dev.pairSync
  dsimp only
  rw [if_neg (by rw [Dev.setLink, hrole]; exact h), Dev.setLink]

theorem PairFrame.pairSync (h : d.role ≠ roleActive) : PairFrame d d.pairSync := by
  rw [Dev.pairSync_standby h]
  exact PairFrame.trans .pairTo .setPair

theorem Dev.pairSync_reg {a : Nat} (h : d.role ≠ roleActive) : d.pairSync.reg a = (d.pairTo psSyncing).reg a := by
  rw [Dev.reg, Dev.reg, Dev.pairSync_standby h]

theorem Dev.keepJoin_reg {a id : Nat} : (d.keepJoin promise id).reg a = d.reg a := by rw [Dev.reg, Dev.reg, Dev.keepJoin]

theorem Dev.pairRole_standby {w : W64} : (d.pairRole w roleStandby).role ≠ roleActive :=
  (Dev.get_pairRole (d := d) (w := w) (role := roleStandby) (by decide)).trans_ne (by decide)

theorem Dev.standbyJoin_fields {w : W64} {id : Nat} : (d.standbyJoin w promise id).get PAIR_STAT_ROLE = roleStandby ∧
    (d.standbyJoin w promise id).get PAIR_STAT_PSTATE = psSyncing ∧ (d.standbyJoin w promise id).pair.join = some (promise, id) := by
  have hreg : ∀ a, (d.standbyJoin w promise id).reg a = ((d.pairRole w roleStandby).pairTo psSyncing).reg a := fun a =>
    Dev.keepJoin_reg.trans (Dev.pairSync_reg Dev.pairRole_standby)
  refine ⟨?_, ?_, by rw [Dev.standbyJoin, Dev.keepJoin]⟩
  · exact ((Dev.get_congr (hreg _)).trans Dev.pairTo_role).trans (Dev.get_pairRole (by decide))
  · rw [Dev.get_congr (hreg _), Dev.pairTo, Dev.get_putState_self (by decide) (by decide)]

theorem PairFrame.standbyJoin {w : W64} {id : Nat} : PairFrame d (d.standbyJoin w promise id) :=
  PairFrame.trans (.regs Dev.pairRole_frame) (.trans (.pairSync Dev.pairRole_standby) .setPair)

/-- The active in SOLO: no partner may join, and PFORCE_N is released. -/
def Dev.pairSolo (d : Dev) : Dev := ((d.pairTo psSolo).setf PAIR_CFG_ALLOW false).pull false

theorem cmdPairLeave_active (ht : q.target.toNat = pairUnit) (hl : q.payload = []) (hr : d.get PAIR_STAT_ROLE = roleActive) :
    cmdPairLeave c tref q d = .done {} d.pairSolo := by
  have hrole : d.role = roleActive := hr
  have hne : ¬ roleActive = 0 := by decide
  rw [cmdPairLeave, refuseIf_pass (by simp [ht, hl, hrole, hne]), if_pos hrole, Dev.pairSolo]

theorem cmdPairLeave_standby (ht : q.target.toNat = pairUnit) (hl : q.payload = []) (hr : d.get PAIR_STAT_ROLE = roleStandby) :
    cmdPairLeave c tref q d = .acceptOnly (tref + 1000000) (d.resetFrom tref) := by
  have hrole : d.role = roleStandby := hr
  have hne : ¬ roleStandby = 0 := by decide
  rw [cmdPairLeave, refuseIf_pass (by simp [ht, hl, hrole, hne]), if_neg (by rw [hrole]; decide)]

/-- The instant of the reset 1 ms after t_ref, or of an earlier one. -/
def Dev.softBy (d : Dev) (tref : Nat) : Nat :=
  match d.pow.softAt with
  | some t => min t (tref + 1000000)
  | none => tref + 1000000

theorem Dev.resetFrom_eq : d.resetFrom tref = { d with pow := { d.pow with softAt := some (d.softBy tref) } } := by
  unfold Dev.resetFrom Dev.softBy
  cases d.pow.softAt <;> rfl

theorem Dev.pull_off_frame : OnlyRegs (· = PAIR_STAT_ROLE.addr) d (d.pull false) := by
  unfold Dev.pull
  rw [if_neg Bool.false_ne_true]
  split
  · have hpull : OnlyRegs (· = PAIR_STAT_ROLE.addr) d (d.setf PAIR_STAT_PULL false) := .setf rfl
    exact hpull.trans (OnlyRegs.setf (f := PAIR_STAT_PFORCE) rfl)
  · exact .refl

theorem Dev.flag_pull_off : (d.pull false).flag PAIR_STAT_PULL = false := by
  unfold Dev.pull
  rw [if_neg Bool.false_ne_true]
  split
  · rw [Dev.flag_setf_apart ⟨rfl, by decide⟩ (Field.apart_of (by decide)), Dev.flag_setf_self ⟨rfl, by decide⟩]
  · next h => simpa using h

theorem Dev.get_pull_off_pstate : (d.pull false).get PAIR_STAT_PSTATE = d.get PAIR_STAT_PSTATE := by
  unfold Dev.pull
  rw [if_neg (by decide)]
  split
  · rw [Dev.setf, Dev.setf, Dev.get_put_apart (by decide) (Field.apart_of (by decide)), Dev.get_put_apart (by decide) (Field.apart_of (by decide))]
  · rfl

theorem Dev.pairSolo_fields : d.pairSolo.get PAIR_STAT_PSTATE = psSolo ∧ d.pairSolo.flag PAIR_CFG_ALLOW = false ∧
    d.pairSolo.flag PAIR_STAT_PULL = false := by
  unfold Dev.pairSolo
  refine ⟨?_, ?_, Dev.flag_pull_off⟩
  · rw [Dev.get_pull_off_pstate, Dev.setf, Dev.get_put_ne (by decide), Dev.pairTo, Dev.get_putState_self (by decide) (by decide)]
  · rw [Dev.flag_congr (Dev.pull_off_frame.reg_eq (by decide)), Dev.flag_setf_self ⟨rfl, by decide⟩]

theorem Dev.pairSolo_keeps : KeepsRegs (fun a => a = PAIR_STAT_ROLE.addr ∨ a = PAIR_CFG_ALLOW.addr) d d.pairSolo := by
  intro a ha
  have hpull : d.pairSolo.reg a = ((d.pairTo psSolo).setf PAIR_CFG_ALLOW false).reg a := Dev.pull_off_frame.reg_eq fun h => ha (.inl h)
  rw [hpull, Dev.setf, Dev.reg_put_ne fun h => ha (.inr h.symm)]
  exact Dev.putState_keeps a fun h => ha (.inl h)

theorem Dev.pairSolo_frame : d.pairSolo = { d with regs := d.pairSolo.regs, epochs := d.pairSolo.epochs } := by
  have hallow : OnlyRegs (fun _ => True) (d.pairTo psSolo) ((d.pairTo psSolo).setf PAIR_CFG_ALLOW false) := .setf trivial
  rw [Dev.pairSolo, Dev.pull_off_frame.2, hallow.2, Dev.pairTo_frame]

end UnitCommands

end Sys2Proof.Machine

section
open Sys2Proof Sys2Proof.Machine

/-- Settles O24: each command passes its conditions by its own lemma and leaves the device that the lemma names. -/
theorem unitCommands : Obligations.UnitCommands := by
  intro q s
  refine ⟨?step, ?safe, ?chain, ?join, ?leaveActive, ?leaveStandby⟩
  case step =>
    intro ht hl hp hs
    refine ⟨fun hodd => ?_, fun heven hlane => ?_⟩
    · obtain ⟨hpend, hjump, hst, hrem⟩ := Dev.slewStep_fields (d := s.dev)
      exact ⟨s.dev.slewStep, exec_done rfl (cmdTimeAcceptStep_slew ht hl hp hodd) hs, hpend, hjump, hst, hrem, ServoFrame.slewStep⟩
    · obtain ⟨hpend, hjump, hst, hnow⟩ := Dev.jumpStep_fields (d := s.dev)
      exact ⟨s.dev.jumpStep, exec_done rfl (cmdTimeAcceptStep_jump ht hl hp heven hlane) hs, hpend, hjump, hst, hnow, ServoFrame.jumpStep⟩
  case safe =>
    intro d1 ht hp hok hg hn hz hc hs
    exact ⟨s.dev.safeStored q, exec_accepts rfl (cmdSafeCfg_accepts ht hp hok hg hn hz hc) hs, Dev.safeStored_safe hok,
      Dev.safeStored_keeps, Dev.safeStored_frame hok⟩
  case chain =>
    intro p id ht hl hr hlane he hs
    obtain ⟨haddr, hctrl, hid, hchain⟩ := Dev.enumStart_fields (d := s.dev) (q := q) (promise := p)
    exact ⟨s.dev.enumStart q p, exec_accepts rfl (cmdChainEnum_accepts ht hl hr hlane he) hs, haddr, hctrl, hid, hchain, Dev.enumStart_frame⟩
  case join =>
    intro w role d1 light ht hl h10 h13 h44 h56 hn hm hr hto
    have hw : JoinWord s.dev q := ⟨ht, hl, h10, h13, h44, h56, hm, hr, hto⟩
    refine ⟨fun hrole hst hlight hs => ?_, fun hrole hst hpartner hsame hlight hs => ?_⟩
    · have hget := Dev.get_pairRole (d := s.dev) (w := w) (role := roleActive) (by decide)
      refine ⟨_, exec_done rfl (cmdPairJoin_active hw hn hrole hst hlight) hs, ?_, Dev.flag_setf_self ⟨rfl, by decide⟩,
        Dev.pairRole_frame.trans (.setf (.inl rfl))⟩
      rw [Dev.setf, Dev.get_put_ne (by decide), hget]
    · obtain ⟨hget, hst', hjoin⟩ := Dev.standbyJoin_fields (d := s.dev) (w := w) (promise := s.clk.ns + 200000000) (id := q.id)
      exact ⟨_, exec_accepts rfl (cmdPairJoin_standby hw hn hrole hst hpartner hsame hlight) hs, hget, hst', hjoin, PairFrame.standbyJoin⟩
  case leaveActive =>
    intro ht hl hr hs
    obtain ⟨hst, hallow, hpull⟩ := Dev.pairSolo_fields (d := s.dev)
    exact ⟨s.dev.pairSolo, exec_done rfl (cmdPairLeave_active ht hl hr) hs, hst, hallow, hpull, Dev.pairSolo_keeps, Dev.pairSolo_frame⟩
  case leaveStandby =>
    intro ht hl hr hs
    refine ⟨_, _, exec_acceptsOnly rfl (cmdPairLeave_standby ht hl hr) hs, ?_, Dev.resetFrom_eq⟩
    unfold Dev.softBy
    split
    · exact min_le_right _ _
    · exact le_rfl

end

/-! PROOFS. Gate firings: the gate's own state and registers, the targets, late data, recorders and staging locks (R65 to R73, R83, R215, R405,
R508, R531). -/

namespace Sys2Proof.Machine

section Firing

variable {d e : Dev} {c : Clock} {g k : Nat} {i : Instr} {s : State} {f : Clock → Dev → Dev}

/-! A row of a gate that is not due changes nothing (R65). -/

theorem exec_gateIdle (hs : s.dev.dst.serves = true) (hx : exec i s = .next (s.onServing fun c d => if d.gateDue c g k then f c d else d))
    (h : s.dev.gateDue s.clk g k = false) : exec i s = .next s := by
  rw [exec_serving hs hx, h, if_neg Bool.false_ne_true]

theorem exec_gateDue (hs : s.dev.dst.serves = true) (hx : exec i s = .next (s.onServing fun c d => if d.gateDue c g k then f c d else d))
    (h : s.dev.gateDue s.clk g k = true) : exec i s = .next { s with dev := f s.clk s.dev } := by
  rw [exec_serving hs hx, if_pos h]

/-! The group in force (R69). -/

/-- The registers a firing or a commit of gate g writes: its group in force, NEXT and CTL. -/
def isGateReg (g a : Nat) : Prop := 0x40030110 + 0x40 * g ≤ a ∧ a ≤ 0x40030120 + 0x40 * g

/-- NEXT and CTL of gate g. -/
def isGateShow (g a : Nat) : Prop := 0x40030118 + 0x40 * g ≤ a ∧ a ≤ 0x40030120 + 0x40 * g

theorem OnlyRegs.put64 {p : Nat → Prop} {lo hi : Field} {v : Nat} (hl : p lo.addr) (hh : p hi.addr) : OnlyRegs p d (d.put64 lo hi v) :=
  (OnlyRegs.put hl).trans (.put hh)

theorem isGateShow_ctl : isGateShow g (0x40030120 + 0x40 * g) := ⟨by omega, le_rfl⟩

theorem isGateShow_next : isGateShow g (GATE_GTnnn_NEXT_LO_NEXT g).addr ∧ isGateShow g (GATE_GTnnn_NEXT_HI_NEXT g).addr := by
  simp only [isGateShow, GATE_GTnnn_NEXT_LO_NEXT, GATE_GTnnn_NEXT_HI_NEXT]
  omega

/-- Configuration and period of the group in force. -/
def Dev.gateGroupIn (d : Dev) (g cfg per : Nat) : Dev :=
  (d.setReg (GATE_GTnnn_CFG_ACT_EN g).addr (BitVec.ofNat 32 cfg)).put (GATE_GTnnn_PER_ACT_PER g) per

theorem Dev.gateInForce_show {cfg per cmp bound : Nat} :
    OnlyRegs (isGateShow g) (d.gateGroupIn g cfg per) (d.gateInForce g cfg per cmp bound) := by
  have hctl := isGateShow_ctl (g := g)
  obtain ⟨hlo, hhi⟩ := isGateShow_next (g := g)
  unfold Dev.gateInForce
  rw [← Dev.gateGroupIn]
  dsimp only
  split
  · exact .setf hctl
  · split
    · split
      · exact (OnlyRegs.setf hctl).trans (.setf hctl)
      · exact (OnlyRegs.put64 hlo hhi).trans (.setf hctl)
    · exact ((OnlyRegs.put64 hlo hhi).trans (.put hctl)).trans (.setf hctl)

theorem Dev.gateGroupIn_frame {cfg per : Nat} : OnlyRegs (isGateReg g) d (d.gateGroupIn g cfg per) := by
  refine (OnlyRegs.setReg ?_).trans (.put ?_)
  · simp only [isGateReg, GATE_GTnnn_CFG_ACT_EN]
    omega
  · simp only [isGateReg, GATE_GTnnn_PER_ACT_PER]
    omega

theorem Dev.gateInForce_frame {cfg per cmp bound : Nat} : OnlyRegs (isGateReg g) d (d.gateInForce g cfg per cmp bound) :=
  Dev.gateGroupIn_frame.trans (Dev.gateInForce_show.mono fun a ha => ⟨by have := ha.1; omega, ha.2⟩)

theorem Dev.gateInForce_cfg {cfg per cmp bound : Nat} :
    (d.gateInForce g cfg per cmp bound).reg (GATE_GTnnn_CFG_ACT_EN g).addr = BitVec.ofNat 32 cfg := by
  have hshow : ¬ isGateShow g (GATE_GTnnn_CFG_ACT_EN g).addr := by
    simp only [isGateShow, GATE_GTnnn_CFG_ACT_EN]
    omega
  have hper : (GATE_GTnnn_PER_ACT_PER g).addr ≠ (GATE_GTnnn_CFG_ACT_EN g).addr := by
    simp only [GATE_GTnnn_PER_ACT_PER, GATE_GTnnn_CFG_ACT_EN]
    omega
  rw [Dev.gateInForce_show.reg_eq hshow, Dev.gateGroupIn, Dev.reg_put_ne hper, Dev.reg_setReg_self]

/-- NEXT and CTL stand in registers of their own. -/
theorem Dev.reg_putNext {v : Nat} : (d.put64 (GATE_GTnnn_NEXT_LO_NEXT g) (GATE_GTnnn_NEXT_HI_NEXT g) v).reg (0x40030120 + 0x40 * g) =
    d.reg (0x40030120 + 0x40 * g) := by
  refine Dev.reg_put64_ne ?_ ?_
  · simp only [GATE_GTnnn_NEXT_LO_NEXT]
    omega
  · simp only [GATE_GTnnn_NEXT_HI_NEXT]
    omega

/-- The commit flag of a gate is no business of the group that comes into force. -/
theorem Dev.gateInForce_cmt {cfg per cmp bound : Nat} :
    (d.gateInForce g cfg per cmp bound).flag (GATE_GTnnn_CTL_CMT g) = d.flag (GATE_GTnnn_CTL_CMT g) := by
  have harmed : (GATE_GTnnn_CTL_ARMED g).IsBit := Field.isBit (by decide)
  have hmissed : (GATE_GTnnn_CTL_MISSED g).IsBit := Field.isBit (by decide)
  have hca : (GATE_GTnnn_CTL_ARMED g).Apart (GATE_GTnnn_CTL_CMT g) := Field.apart_bits (by decide)
  have hcm : (GATE_GTnnn_CTL_MISSED g).Apart (GATE_GTnnn_CTL_CMT g) := Field.apart_bits (by decide)
  have hskip : (GATE_GTnnn_CTL_SKIP g).Apart (GATE_GTnnn_CTL_CMT g) := .inr (.inr (by simp [GATE_GTnnn_CTL_SKIP, GATE_GTnnn_CTL_CMT]))
  have hfit : (GATE_GTnnn_CTL_SKIP g).lo + (GATE_GTnnn_CTL_SKIP g).width ≤ 32 := le_rfl
  have hnext : ∀ (e : Dev) v, (e.put64 (GATE_GTnnn_NEXT_LO_NEXT g) (GATE_GTnnn_NEXT_HI_NEXT g) v).flag (GATE_GTnnn_CTL_CMT g) =
      e.flag (GATE_GTnnn_CTL_CMT g) := fun e v => Dev.flag_congr Dev.reg_putNext
  have hgroup : (d.gateGroupIn g cfg per).flag (GATE_GTnnn_CTL_CMT g) = d.flag (GATE_GTnnn_CTL_CMT g) := by
    refine Dev.flag_congr ((Dev.reg_put_ne ?_).trans (Dev.reg_setReg_ne ?_))
    · simp only [GATE_GTnnn_PER_ACT_PER, GATE_GTnnn_CTL_CMT]
      omega
    · simp only [GATE_GTnnn_CFG_ACT_EN, GATE_GTnnn_CTL_CMT]
      omega
  unfold Dev.gateInForce
  rw [← Dev.gateGroupIn]
  dsimp only
  split
  · rw [Dev.flag_setf_apart harmed hca, hgroup]
  · split
    · split
      · rw [Dev.flag_setf_apart hmissed hcm, Dev.flag_setf_apart harmed hca, hgroup]
      · rw [Dev.flag_setf_apart harmed hca, hnext, hgroup]
    · rw [Dev.flag_setf_apart harmed hca, Dev.bump, Dev.flag_put_apart hfit hskip, hnext, hgroup]

/-! The firing itself (R67, R73). -/

/-- The gate notes the firing. -/
def Dev.gateNoted (d : Dev) (c : Clock) (g : Nat) : Dev := d.setGateX g { d.gateX g with fired := c.ns, last := d.gateNext g, after := none }

theorem Dev.gateFire_once (h : (d.gateX g).after = none) (hp : d.get (GATE_GTnnn_PER_ACT_PER g) = 0) :
    d.gateFire c g = (d.gateNoted c g).setf (GATE_GTnnn_CTL_ARMED g) false := by
  simp only [Dev.gateFire, h, if_pos hp, Dev.gateNoted]

theorem Dev.gateFire_periodic (h : (d.gateX g).after = none) (hp : d.get (GATE_GTnnn_PER_ACT_PER g) ≠ 0) :
    d.gateFire c g = (d.gateNoted c g).put64 (GATE_GTnnn_NEXT_LO_NEXT g) (GATE_GTnnn_NEXT_HI_NEXT g)
      (d.gateNext g + 2 * d.get (GATE_GTnnn_PER_ACT_PER g)) := by
  simp only [Dev.gateFire, h, if_neg hp, Dev.gateNoted]

theorem Dev.gateFire_after {cfg p cmp : Nat} (h : (d.gateX g).after = some (cfg, p, cmp)) :
    d.gateFire c g = ((d.gateNoted c g).setf (GATE_GTnnn_CTL_CMT g) false).gateInForce g cfg p cmp (d.gateNext g + 1) := by
  simp only [Dev.gateFire, h, Dev.gateNoted]

/-- A firing without a waiting group disarms or moves NEXT. -/
theorem Dev.gateFire_none (h : (d.gateX g).after = none) : OnlyRegs (fun a => a = (GATE_GTnnn_CTL_ARMED g).addr ∨
    a = (GATE_GTnnn_NEXT_LO_NEXT g).addr ∨ a = (GATE_GTnnn_NEXT_HI_NEXT g).addr) (d.gateNoted c g) (d.gateFire c g) := by
  by_cases hp : d.get (GATE_GTnnn_PER_ACT_PER g) = 0
  · rw [Dev.gateFire_once h hp]
    exact .setf (.inl rfl)
  · rw [Dev.gateFire_periodic h hp]
    exact .put64 (.inr (.inl rfl)) (.inr (.inr rfl))

theorem Dev.gateFire_frame : OnlyRegs (isGateReg g) (d.gateNoted c g) (d.gateFire c g) := by
  cases h : (d.gateX g).after with
  | none =>
    refine (Dev.gateFire_none h).mono fun a ha => ?_
    simp only [GATE_GTnnn_CTL_ARMED, GATE_GTnnn_NEXT_LO_NEXT, GATE_GTnnn_NEXT_HI_NEXT] at ha
    simp only [isGateReg]
    omega
  | some x =>
    obtain ⟨cfg, p, cmp⟩ := x
    rw [Dev.gateFire_after h]
    have hctl : isGateReg g (GATE_GTnnn_CTL_CMT g).addr := by
      simp only [isGateReg, GATE_GTnnn_CTL_CMT]
      omega
    exact (OnlyRegs.setf hctl).trans Dev.gateInForce_frame

theorem Dev.gateFire_gateX : (d.gateFire c g).gateX k = (d.gateNoted c g).gateX k := by
  rw [Dev.gateX, Dev.gateFire_frame.2, Dev.gateX]

theorem Dev.gateFire_self : (d.gateFire c g).gateX g = { d.gateX g with fired := c.ns, last := d.gateNext g, after := none } := by
  rw [Dev.gateFire_gateX, Dev.gateNoted, Dev.gateX_setGateX_self]

theorem Dev.gateFire_eq : d.gateFire c g = { d with regs := (d.gateFire c g).regs, gates := (d.gateFire c g).gates } := by
  rw [Dev.gateFire_frame.2, Dev.gateNoted, Dev.setGateX]

/-- A register of no gate reads as before a firing. -/
theorem Dev.gateFire_reg {a : Nat} (h : ¬ isGateReg g a) : (d.gateFire c g).reg a = d.reg a :=
  (Dev.gateFire_frame.reg_eq h).trans Dev.setGateX_reg

theorem Dev.gateFire_disarms (h : (d.gateX g).after = none) (hp : d.get (GATE_GTnnn_PER_ACT_PER g) = 0) :
    (d.gateFire c g).flag (GATE_GTnnn_CTL_ARMED g) = false := by
  rw [Dev.gateFire_once h hp]
  exact Dev.flag_setf_self (Field.isBit (by decide))

theorem Dev.gateFire_moves (h : (d.gateX g).after = none) (hp : d.get (GATE_GTnnn_PER_ACT_PER g) ≠ 0) :
    (d.gateFire c g).gateNext g = (d.gateNext g + 2 * d.get (GATE_GTnnn_PER_ACT_PER g)) % 2 ^ 64 ∧
      (d.gateFire c g).flag (GATE_GTnnn_CTL_ARMED g) = d.flag (GATE_GTnnn_CTL_ARMED g) := by
  have hne : (GATE_GTnnn_NEXT_HI_NEXT g).addr ≠ (GATE_GTnnn_NEXT_LO_NEXT g).addr := by
    simp only [GATE_GTnnn_NEXT_LO_NEXT, GATE_GTnnn_NEXT_HI_NEXT]
    omega
  rw [Dev.gateFire_periodic h hp]
  exact ⟨Dev.get64_put64 ⟨rfl, rfl⟩ ⟨rfl, rfl⟩ hne, Dev.flag_congr (Dev.reg_putNext.trans Dev.setGateX_reg)⟩

theorem Dev.gateFire_group {cfg p cmp : Nat} (h : (d.gateX g).after = some (cfg, p, cmp)) :
    (d.gateFire c g).reg (GATE_GTnnn_CFG_ACT_EN g).addr = BitVec.ofNat 32 cfg ∧ (d.gateFire c g).flag (GATE_GTnnn_CTL_CMT g) = false := by
  rw [Dev.gateFire_after h]
  exact ⟨Dev.gateInForce_cfg, Dev.gateInForce_cmt.trans (Dev.flag_setf_self (Field.isBit (by decide)))⟩

end Firing

section GateTargets

variable {d e : Dev} {c : Clock} {g k l own now t : Nat} {i : Instr} {s : State}

/-! The targets of SAMPLE, RELOAD, LATCH and FRAME gates (R66, R83, R405). -/

/-- Configuration of the gate that fires. -/
def Dev.gateTarget (d : Dev) (g : Nat) : Nat := d.get (GATE_GTnnn_CFG_ACT_TARGET g)
def Dev.gateSub (d : Dev) (g : Nat) : Nat := d.get (GATE_GTnnn_CFG_ACT_SUB g)

theorem Dev.sampleGate_lane (h : d.gateTarget g < 24) : d.sampleGate c g =
    ((d.gateFire c g).actsFor (d.gateTarget g) g (d.gateNext g)).laneSample c (d.gateTarget g) (d.gateNext g) := by
  rw [Dev.gateTarget] at h ⊢
  rw [Dev.sampleGate, if_pos h]

theorem Dev.sampleGate_link (hk : k < 4) (h : d.gateTarget g = 0x68 + k) : d.sampleGate c g =
    ((d.gateFire c g).actsFor (84 + k) g (d.gateNext g)).linkGate c k (d.gateNext g) := by
  rw [Dev.gateTarget] at h
  rw [Dev.sampleGate, h, if_neg (by omega), if_pos (by omega), Nat.add_sub_cancel_left,
    Nat.add_sub_assoc (by omega), Nat.add_sub_cancel_left]

theorem Dev.sampleGate_list (h : d.gateTarget g = 0xFE) (hlo : 0x10 ≤ d.gateSub g) (hhi : d.gateSub g < 0x20) : d.sampleGate c g =
    (d.gateFire c g).seqStart c (d.gateSub g % 16 / 4) (d.gateSub g % 4) (d.gateNext g) := by
  rw [Dev.gateTarget] at h
  rw [Dev.gateSub] at hlo hhi ⊢
  rw [Dev.sampleGate, h, if_neg (by omega), if_neg (by omega), if_pos ⟨rfl, hlo, hhi⟩]

theorem Dev.sampleGate_other (h : 24 ≤ d.gateTarget g) (hl : d.gateTarget g < 0x68 ∨ 0x6C ≤ d.gateTarget g)
    (hs : d.gateTarget g ≠ 0xFE ∨ d.gateSub g < 0x10 ∨ 0x20 ≤ d.gateSub g) : d.sampleGate c g = d.gateFire c g := by
  rw [Dev.gateTarget] at h hl hs
  rw [Dev.gateSub] at hs
  rw [Dev.sampleGate, if_neg (by omega), if_neg (by omega), if_neg (by omega)]

theorem Dev.reloadGate_lane (h : d.gateTarget g < 24) : d.reloadGate c g =
    ((d.gateFire c g).actsFor (48 + d.gateTarget g) g (d.gateNext g)).reloadLane c (d.gateTarget g) (d.gateNext g) := by
  rw [Dev.gateTarget] at h ⊢
  rw [Dev.reloadGate, if_pos h]

theorem Dev.reloadGate_stepper (hk : k < 8) (h : d.gateTarget g = 24 + k) : d.reloadGate c g =
    ((d.gateFire c g).actsFor (72 + k) g (d.gateNext g)).carrierStart c k (d.gateNext g) := by
  rw [Dev.gateTarget] at h
  rw [Dev.reloadGate, h, if_neg (by omega), if_pos (by omega), Nat.add_sub_cancel_left, ← Nat.add_assoc]

theorem Dev.reloadGate_chopper (hk : k < 4) (h : d.gateTarget g = 0x68 + k) : d.reloadGate c g =
    ((d.gateFire c g).actsFor (80 + k) g (d.gateNext g)).brakeReload k (d.gateNext g) := by
  rw [Dev.gateTarget] at h
  rw [Dev.reloadGate, h, if_neg (by omega), if_neg (by omega), if_pos (by omega), Nat.add_sub_cancel_left,
    Nat.add_sub_assoc (by omega), Nat.add_sub_cancel_left]

theorem Dev.reloadGate_other (h : 32 ≤ d.gateTarget g) (hl : d.gateTarget g < 0x68 ∨ 0x6C ≤ d.gateTarget g) :
    d.reloadGate c g = d.gateFire c g := by
  rw [Dev.gateTarget] at h hl
  rw [Dev.reloadGate, if_neg (by omega), if_neg (by omega), if_neg (by omega)]

theorem Dev.gateLatch_idle (h : d.gateDue c g 3 = false) : d.gateLatch c g = d := by
  rw [Dev.gateLatch, h, Bool.not_false, if_pos rfl]

/-- A port whose mode is no SAR mode only latches. -/
theorem Dev.gateLatch_port (h : d.gateDue c g 3 = true)
    (hm : sarMode (((d.gateFire c g).portLatch c (d.gateTarget g) (d.gateNext g) (g = 24 + d.gateTarget g)).fbMode (d.gateTarget g)) =
      false) :
    d.gateLatch c g = (d.gateFire c g).portLatch c (d.gateTarget g) (d.gateNext g) (g = 24 + d.gateTarget g) := by
  rw [Dev.gateTarget] at hm ⊢
  rw [Dev.gateLatch, h, Bool.not_true, if_neg Bool.false_ne_true]
  dsimp only
  rw [hm, if_neg Bool.false_ne_true]

theorem Dev.frameGate_idle (h : d.gateDue c g 5 = false) : d.frameGate c g = d := by
  rw [Dev.frameGate, h, Bool.not_false, if_pos rfl]

theorem Dev.frameGate_desc (h : d.gateDue c g 5 = true) (ht : d.gateTarget g = 0xFE) (hs : d.gateSub g < 16) :
    d.frameGate c g = (d.gateFire c g).launchDesc c g (d.gateSub g) (d.gateNext g) := by
  rw [Dev.gateTarget] at ht
  rw [Dev.gateSub] at hs ⊢
  rw [Dev.frameGate, h, Bool.not_true, if_neg Bool.false_ne_true]
  dsimp only
  rw [ht, if_pos (by simp [hs])]

theorem Dev.frameGate_service (h : d.gateDue c g 5 = true) (ht : d.gateTarget g = 0xFE) (hs : d.gateSub g = 16) :
    d.frameGate c g = (d.gateFire c g).launchService c g (d.gateNext g) := by
  rw [Dev.gateTarget] at ht
  rw [Dev.gateSub] at hs
  rw [Dev.frameGate, h, Bool.not_true, if_neg Bool.false_ne_true]
  dsimp only
  rw [ht, hs, if_neg (by decide), if_pos (by decide)]

theorem Dev.frameGate_sync (h : d.gateDue c g 5 = true) (ht : d.gateTarget g = 0xFE) (hk : k < 2) (hs : d.gateSub g = 0x20 + k) :
    d.frameGate c g = (d.gateFire c g).launchSync c k (d.gateNext g) := by
  rw [Dev.gateTarget] at ht
  rw [Dev.gateSub] at hs
  have hk' : k = 0 ∨ k = 1 := by omega
  rw [Dev.frameGate, h, Bool.not_true, if_neg Bool.false_ne_true]
  dsimp only
  rw [ht, hs, if_neg (by simp; omega), if_neg (by simp; omega), if_pos (by simp; omega), Nat.add_sub_cancel_left]

theorem Dev.frameGate_other (h : d.gateDue c g 5 = true)
    (ho : d.gateTarget g ≠ 0xFE ∨ (0x10 < d.gateSub g ∧ d.gateSub g < 0x20) ∨ 0x21 < d.gateSub g) : d.frameGate c g = d.gateFire c g := by
  rw [Dev.gateTarget, Dev.gateSub] at ho
  rw [Dev.frameGate, h, Bool.not_true, if_neg Bool.false_ne_true]
  dsimp only
  rw [if_neg (by simp; omega), if_neg (by simp; omega), if_neg (by simp; omega)]

/-! FIELD gates (R70, R508 to R511). -/

/-- The firing of gate g counts late data, kept beside gate `own` (R70). -/
def Dev.gateLate (d : Dev) (c : Clock) (g : Nat) : Dev :=
  ((d.setf (GATE_GTnnn_CTL_LATE g)).bump GATE_LATE_CNT_CNT).record c 10 (d.get (GATE_GTnnn_CFG_ACT_TARGET g)) g

theorem Dev.gateData_late (h : (d.gateX own).dataAt = some t) (hl : now < t + d.margin) : d.gateData c g own now = (false, d.gateLate c g) := by
  have hlate : ¬ t + d.margin ≤ now := by omega
  simp only [Dev.gateData, h, if_neg hlate, Dev.gateLate]

theorem Dev.gateData_taken (h : (d.gateX own).dataAt = some t) (hl : t + d.margin ≤ now) :
    d.gateData c g own now = (true, d.setGateX own { d.gateX own with dataAt := none }) := by
  simp only [Dev.gateData, h, if_pos hl]

theorem Dev.gateData_none (h : (d.gateX own).dataAt = none) : d.gateData c g own now = (false, d) := by
  simp only [Dev.gateData, h]

theorem Dev.fieldGate_late (h : ((d.gateFire c g).gateX (236 + d.gateSub g)).dataAt = some t)
    (hl : d.gateNext g < t + (d.gateFire c g).margin) : d.fieldGate c g = (d.gateFire c g).gateLate c g := by
  rw [Dev.gateSub] at h
  rw [Dev.fieldGate, h, if_neg (by simp), Dev.gateData_late h hl]
  rfl

theorem Dev.fio_noSets (h : d.fio.sets = []) : ({ d with fio := { d.fio with sets := [] } } : Dev) = d := by rw [← h]

theorem Dev.fioSets_none (h : d.fio.sets = []) : d.fioSets k t = d := by
  simp only [Dev.fioSets, h, List.foldl_nil, List.map_nil, Dev.fio_noSets h]

theorem Dev.fioSetsDone_none (h : d.fio.sets = []) : d.fioSetsDone t = d := by
  simp only [Dev.fioSetsDone, h, List.filter_nil, List.foldl_nil, Dev.fio_noSets h]

/-- A FIELD gate that no channel follows only fires, while no io.set waits. -/
theorem Dev.fieldGate_quiet (h : ((d.gateFire c g).gateX (236 + d.gateSub g)).dataAt = none)
    (hc : ∀ cc < 24, (d.gateFire c g).get (FIO_CHcc_CFG_ACT_GATE cc) ≠ d.gateSub g) (hf : d.fio.sets = []) :
    d.fieldGate c g = d.gateFire c g := by
  have hsets : (d.gateFire c g).fio.sets = [] := by rw [Dev.gateFire_eq, hf]
  have hchs : ((List.range 24).filter fun cc => (d.gateFire c g).get (FIO_CHcc_CFG_ACT_GATE cc) = d.gateSub g) = [] := by
    simpa using hc
  rw [Dev.gateSub] at h hchs
  rw [Dev.fieldGate, if_pos h]
  simp only [Bool.not_true, Bool.false_eq_true, if_false, hchs, List.foldl_nil, Dev.fioSets_none hsets, if_true, Dev.fioSetsDone_none hsets]

/-! CAPTURE gates (R531, R532). -/

theorem Dev.captureGate_idle (h : ((d.gateFire c g).gateX g).dataAt = none) : d.captureGate c g = d.gateFire c g := by
  rw [Dev.captureGate, Dev.gateData_none h]
  rfl

theorem Dev.captureGate_late (h : ((d.gateFire c g).gateX g).dataAt = some t) (hl : d.gateNext g < t + (d.gateFire c g).margin) :
    d.captureGate c g = (d.gateFire c g).gateLate c g := by
  rw [Dev.captureGate, Dev.gateData_late h hl]
  rfl

/-- The device of a firing whose data is taken. -/
def Dev.gateTaken (d : Dev) (c : Clock) (g : Nat) : Dev :=
  (d.gateFire c g).setGateX g { (d.gateFire c g).gateX g with dataAt := none }

theorem Dev.captureGate_starts {r : Nat} (h : ((d.gateFire c g).gateX g).dataAt = some t) (hl : t + (d.gateFire c g).margin ≤ d.gateNext g)
    (ht : d.gateTarget g = 0x58 + r) (ha : (d.capX r).armWork.isSome = true) :
    d.captureGate c g = (d.gateTaken c g).capStart r (d.gateNext g) := by
  have hcap : (d.gateTaken c g).capX r = d.capX r := by
    rw [Dev.capX, Dev.gateTaken, Dev.setGateX, Dev.gateFire_eq, Dev.capX]
  rw [Dev.gateTarget] at ht
  rw [Dev.captureGate, Dev.gateData_taken h hl, ht, Nat.add_sub_cancel_left, ← Dev.gateTaken]
  simp only [hcap, ha, Bool.and_self, if_true]

theorem Dev.gateTaken_reg {a : Nat} (hg : g < 256) (h : 0x40034100 ≤ a) : (d.gateTaken c g).reg a = d.reg a := by
  rw [Dev.gateTaken, Dev.setGateX_reg, Dev.gateFire_reg]
  simp only [isGateReg]
  omega

/-- The recorder's values before its start are dropped. -/
def Dev.capDrop (d : Dev) (chs : List Nat) : Dev := chs.foldl (fun d cc => d.setCapChX cc { d.capChX cc with vals := [] }) d

/-- The segment that the recorder writes, and the oldest one freed for it where none is free. -/
def Dev.capSegment (d : Dev) (r : Nat) : Dev :=
  let nseg := 2 ^ d.get (CAP_Rr_CFG_ACT_NSEGLOG r)
  let d0 := if nseg ≤ d.get (CAP_Rr_STAT_FULL r) then d.segRelease r else d
  d0.put (CAP_Rr_STAT_WSEG r) ((d0.get (CAP_Rr_STAT_RSEG r) + d0.get (CAP_Rr_STAT_FULL r)) % nseg)

/-- The recorder's state at its start. -/
def Dev.capRuns (d : Dev) (r : Nat) : Dev :=
  (d.capSegment r).putState (capUnit r) (CAP_Rr_STAT_STATE r) (if d.get (CAP_Rr_PRE_ACT_N r) = 0 then 2 else 1)

/-- The recorder's own record at its start. -/
def CapX.started (x : CapX) (next t : Nat) : CapX := { armWork := x.armWork, stop := x.stop, next := some next, deadFrom := t }

theorem Dev.capStart_eq {r : Nat} :
    d.capStart r t = ((d.capRuns r).setCapX r ((d.capX r).started (d.capGrid r t) t)).capDrop (d.capChans r) := by
  simp only [Dev.capStart, Dev.capDrop, Dev.capRuns, Dev.capSegment, CapX.started]

theorem Dev.capDrop_keeps {chs : List Nat} : (d.capDrop chs).regs = d.regs ∧ (d.capDrop chs).cap = d.cap := by
  induction chs generalizing d with
  | nil => exact ⟨rfl, rfl⟩
  | cons cc chs ih => exact ih (d := d.setCapChX cc _)

theorem Dev.capStart_capX {r : Nat} : (d.capStart r t).capX r = (d.capX r).started (d.capGrid r t) t := by
  rw [Dev.capStart_eq, Dev.capX, Dev.capDrop_keeps.2, ← Dev.capX, Dev.capX_setCapX_self]

theorem Dev.capStart_reg {r a : Nat} : (d.capStart r t).reg a = (d.capRuns r).reg a := by
  rw [Dev.capStart_eq, Dev.reg_congr Dev.capDrop_keeps.1, Dev.setCapX_reg]

theorem Dev.capStart_state {r : Nat} : (d.capStart r t).get (CAP_Rr_STAT_STATE r) = if d.get (CAP_Rr_PRE_ACT_N r) = 0 then 2 else 1 := by
  have hfit : (CAP_Rr_STAT_STATE r).lo + (CAP_Rr_STAT_STATE r).width ≤ 32 := show 0 + 3 ≤ 32 by decide
  rw [Dev.get_congr Dev.capStart_reg, Dev.capRuns, Dev.get_putState_self hfit]
  show _ < 2 ^ 3
  split <;> decide

/-- A recorder with a free segment writes the one after its full ones. -/
theorem Dev.capStart_segment {r : Nat} (h : d.get (CAP_Rr_STAT_FULL r) < 2 ^ d.get (CAP_Rr_CFG_ACT_NSEGLOG r)) :
    (d.capStart r t).get (CAP_Rr_STAT_FULL r) = d.get (CAP_Rr_STAT_FULL r) ∧ (d.capStart r t).get (CAP_Rr_STAT_WSEG r) =
      (d.get (CAP_Rr_STAT_RSEG r) + d.get (CAP_Rr_STAT_FULL r)) % 2 ^ d.get (CAP_Rr_CFG_ACT_NSEGLOG r) % 2 ^ 4 := by
  have hfit : (CAP_Rr_STAT_STATE r).lo + (CAP_Rr_STAT_STATE r).width ≤ 32 := show 0 + 3 ≤ 32 by decide
  have hwseg : (CAP_Rr_STAT_WSEG r).lo + (CAP_Rr_STAT_WSEG r).width ≤ 32 := show 16 + 4 ≤ 32 by decide
  have hsf : (CAP_Rr_STAT_STATE r).Apart (CAP_Rr_STAT_FULL r) := .inr (.inl (show 0 + 3 ≤ 8 by decide))
  have hsw : (CAP_Rr_STAT_STATE r).Apart (CAP_Rr_STAT_WSEG r) := .inr (.inl (show 0 + 3 ≤ 16 by decide))
  have hwf : (CAP_Rr_STAT_WSEG r).Apart (CAP_Rr_STAT_FULL r) := .inr (.inr (show 8 + 5 ≤ 16 by decide))
  rw [Dev.get_congr Dev.capStart_reg, Dev.get_congr (f := CAP_Rr_STAT_WSEG r) Dev.capStart_reg, Dev.capRuns,
    Dev.get_putState_apart hfit hsf, Dev.get_putState_apart hfit hsw, Dev.capSegment, if_neg (by omega)]
  exact ⟨Dev.get_put_apart hwseg hwf, Dev.get_put_self hwseg⟩

/-! The end of a staging lock (R215). -/

theorem Dev.setReg_regs_congr {a : Nat} {w : W32} (h : d.regs = e.regs) : (d.setReg a w).regs = (e.setReg a w).regs := by
  rw [Dev.setReg, Dev.setReg, h]

/-- Held writes change registers as they would in any device with the same registers. -/
theorem Dev.regStore_regs_congr {a : Nat} {w : W32} (hl : isLoopMem a = false) (h : d.regs = e.regs) :
    (d.regStore a w).regs = (e.regStore a w).regs := by
  rw [regStore_eq hl, regStore_eq hl, Dev.reg_congr h]
  exact Dev.setReg_regs_congr h

theorem Dev.heldWrites_regs {ps : List (Nat × W32)} (hl : ∀ p ∈ ps, isLoopMem p.1 = false) (h : d.regs = e.regs) :
    (ps.foldl (fun d p => d.regStore p.1 p.2) d).regs = (ps.foldl (fun d p => d.regStore p.1 p.2) e).regs := by
  induction ps generalizing d e with
  | nil => exact h
  | cons p ps ih => exact ih (fun p' hp => hl p' (by simp [hp])) (Dev.regStore_regs_congr (hl p (by simp)) h)

theorem Dev.heldWrites_frame {ps : List (Nat × W32)} (hl : ∀ p ∈ ps, isLoopMem p.1 = false) :
    OnlyRegs (fun _ => True) d (ps.foldl (fun d p => d.regStore p.1 p.2) d) := by
  induction ps generalizing d with
  | nil => exact .refl
  | cons p ps ih => exact (OnlyRegs.regStore (hl p (by simp)) trivial).trans (ih fun p' hp => hl p' (by simp [hp]))

theorem Dev.lockEnd_early (h : (d.pwmX l).lockUntil = 0 ∨ c.ns < (d.pwmX l).lockUntil) : d.lockEnd c l = d := by
  rw [Dev.lockEnd, if_pos h]

/-- The lane's lock is over and its held writes are complete. -/
theorem Dev.lockEnd_ends (h0 : (d.pwmX l).lockUntil ≠ 0) (h : (d.pwmX l).lockUntil ≤ c.ns)
    (hl : ∀ p ∈ (d.pwmX l).held, isLoopMem p.1 = false) :
    ((d.lockEnd c l).pwmX l).lockUntil = 0 ∧ ((d.lockEnd c l).pwmX l).held = [] ∧
      d.lockEnd c l = { d with regs := (d.lockEnd c l).regs, pwm := (d.lockEnd c l).pwm } ∧
      (d.lockEnd c l).regs = ((d.pwmX l).held.foldl (fun d p => d.regStore p.1 p.2) d).regs := by
  have hend : d.lockEnd c l = (d.pwmX l).held.foldl (fun d p => d.regStore p.1 p.2)
      (d.setPwmX l { d.pwmX l with lockUntil := 0, held := [] }) := by rw [Dev.lockEnd, if_neg (by omega)]
  have hframe := (Dev.heldWrites_frame (d := d.setPwmX l { d.pwmX l with lockUntil := 0, held := [] }) hl).2
  have hx : (d.lockEnd c l).pwmX l = { d.pwmX l with lockUntil := 0, held := [] } := by
    rw [hend, hframe]
    exact Dev.pwmX_setPwmX_self
  refine ⟨by rw [hx], by rw [hx], ?_, by rw [hend]; exact Dev.heldWrites_regs hl rfl⟩
  rw [hend, hframe]
  rfl

theorem Dev.stpLockEnd_early (h : (d.stpX l).lockUntil = 0 ∨ c.ns < (d.stpX l).lockUntil) : d.stpLockEnd c l = d := by
  rw [Dev.stpLockEnd, if_pos h]

/-- The same of a stepper lane. -/
theorem Dev.stpLockEnd_ends (h0 : (d.stpX l).lockUntil ≠ 0) (h : (d.stpX l).lockUntil ≤ c.ns)
    (hl : ∀ p ∈ (d.stpX l).held, isLoopMem p.1 = false) :
    ((d.stpLockEnd c l).stpX l).lockUntil = 0 ∧ ((d.stpLockEnd c l).stpX l).held = [] ∧
      d.stpLockEnd c l = { d with regs := (d.stpLockEnd c l).regs, stp := (d.stpLockEnd c l).stp } ∧
      (d.stpLockEnd c l).regs = ((d.stpX l).held.foldl (fun d p => d.regStore p.1 p.2) d).regs := by
  have hend : d.stpLockEnd c l = (d.stpX l).held.foldl (fun d p => d.regStore p.1 p.2)
      (d.setStpX l { d.stpX l with lockUntil := 0, held := [] }) := by rw [Dev.stpLockEnd, if_neg (by omega)]
  have hframe := (Dev.heldWrites_frame (d := d.setStpX l { d.stpX l with lockUntil := 0, held := [] }) hl).2
  have hx : (d.stpLockEnd c l).stpX l = { d.stpX l with lockUntil := 0, held := [] } := by
    rw [hend, hframe]
    exact Dev.stpX_setStpX_self
  refine ⟨by rw [hx], by rw [hx], ?_, by rw [hend]; exact Dev.heldWrites_regs hl rfl⟩
  rw [hend, hframe]
  rfl

theorem exec_stagingLockEnd_lane {g : Fin 256} (hs : s.dev.dst.serves = true) (hlo : 48 ≤ g.val) (hhi : g.val < 72) :
    exec (.stagingLockEnd g) s = .next { s with dev := s.dev.lockEnd s.clk (g.val - 48) } :=
  (exec_serving hs rfl).trans (by rw [if_pos ⟨hlo, hhi⟩])

theorem exec_stagingLockEnd_stepper {g : Fin 256} (hs : s.dev.dst.serves = true) (hlo : 72 ≤ g.val) (hhi : g.val < 80) :
    exec (.stagingLockEnd g) s = .next { s with dev := s.dev.stpLockEnd s.clk (g.val - 72) } :=
  (exec_serving hs rfl).trans (by rw [if_neg (by omega), if_pos ⟨hlo, hhi⟩])

theorem exec_stagingLockEnd_other {g : Fin 256} (hs : s.dev.dst.serves = true) (h : g.val < 48 ∨ 80 ≤ g.val) :
    exec (.stagingLockEnd g) s = .next s :=
  (exec_serving hs rfl).trans (by rw [if_neg (by omega), if_neg (by omega)])

end GateTargets

end Sys2Proof.Machine

section
open Sys2Proof Sys2Proof.Machine

/-- Settles O44: a firing notes its instant and its group by the lemmas about it, and each kind then acts as its target's lemma says. -/
theorem gateFirings : Obligations.GateFirings := by
  intro s g hs due fire now gives per target sub idle acts late
  refine ⟨?idle, ?fire, ?mark, ?sample, ?reload, ?latch, ?fieldLate, ?fieldQuiet, ?frameOther, ?frameDesc, ?frameService, ?frameSync, ?capture,
    ?lane, ?stepper, exec_stagingLockEnd_other hs⟩
  case idle =>
    refine ⟨exec_gateIdle hs rfl, exec_gateIdle hs rfl, exec_gateIdle hs rfl, fun h => ?_, exec_gateIdle hs rfl, fun h => ?_,
      exec_gateIdle hs rfl⟩
    · exact (exec_serving hs rfl).trans (by rw [Dev.gateLatch_idle h])
    · exact (exec_serving hs rfl).trans (by rw [Dev.frameGate_idle h])
  case fire =>
    have hself : fire.gateX g = _ := Dev.gateFire_self
    refine ⟨by rw [hself], by rw [hself], by rw [hself], fun hn => ⟨Dev.gateFire_disarms hn, Dev.gateFire_moves hn, fun a ha => ?_⟩,
      fun cfg p cmp h => Dev.gateFire_group h, Dev.gateFire_eq⟩
    exact ((Dev.gateFire_none hn).reg_eq ha).trans Dev.setGateX_reg
  case mark => exact fun h => exec_gateDue (f := fun c d => d.gateFire c g) hs rfl h
  case sample =>
    intro h
    refine ⟨fun ht => ?_, fun k hk ht => ?_, fun ht hlo hhi => ?_, fun ht hl hsub => ?_⟩
    · exact (exec_gateDue hs rfl h).trans (by rw [Dev.sampleGate_lane ht]; rfl)
    · exact (exec_gateDue hs rfl h).trans (by rw [Dev.sampleGate_link hk ht]; rfl)
    · exact (exec_gateDue hs rfl h).trans (by rw [Dev.sampleGate_list ht hlo hhi]; rfl)
    · exact (exec_gateDue hs rfl h).trans (by rw [Dev.sampleGate_other ht hl hsub])
  case reload =>
    intro h
    refine ⟨fun ht => ?_, fun k hk ht => ?_, fun k hk ht => ?_, fun ht hl => ?_⟩
    · exact (exec_gateDue hs rfl h).trans (by rw [Dev.reloadGate_lane ht]; rfl)
    · exact (exec_gateDue hs rfl h).trans (by rw [Dev.reloadGate_stepper hk ht]; rfl)
    · exact (exec_gateDue hs rfl h).trans (by rw [Dev.reloadGate_chopper hk ht]; rfl)
    · exact (exec_gateDue hs rfl h).trans (by rw [Dev.reloadGate_other ht hl])
  case latch => exact fun h hm => (exec_serving hs rfl).trans (by rw [Dev.gateLatch_port h hm]; rfl)
  case fieldLate => exact fun h t ht hl => (exec_gateDue hs rfl h).trans (by rw [Dev.fieldGate_late ht hl]; rfl)
  case fieldQuiet =>
    intro h hn hc hf
    refine ⟨_, (exec_gateDue hs rfl h).trans (by rw [Dev.fieldGate_quiet hn hc hf]), rfl, ?_⟩
    rw [Dev.gateFire_eq]
  case frameOther => exact fun h ho => (exec_serving hs rfl).trans (by rw [Dev.frameGate_other h ho])
  case frameDesc => exact fun h ht hsub => (exec_serving hs rfl).trans (by rw [Dev.frameGate_desc h ht hsub]; rfl)
  case frameService => exact fun h ht hsub => (exec_serving hs rfl).trans (by rw [Dev.frameGate_service h ht hsub])
  case frameSync => exact fun h ht p hp hsub => (exec_serving hs rfl).trans (by rw [Dev.frameGate_sync h ht hp hsub])
  case capture =>
    intro h
    refine ⟨fun hn => ?_, fun t ht hl => ?_, fun t r ht hl htarget harm => ?_⟩
    · exact (exec_gateDue hs rfl h).trans (by rw [Dev.captureGate_idle hn])
    · exact (exec_gateDue hs rfl h).trans (by rw [Dev.captureGate_late ht hl]; rfl)
    · have hget : ∀ f : Field, 0x40034100 ≤ f.addr → (s.dev.gateTaken s.clk g).get f = s.dev.get f := fun f hf =>
        Dev.get_congr (Dev.gateTaken_reg g.isLt hf)
      have hpre : (s.dev.gateTaken s.clk g).get (CAP_Rr_PRE_ACT_N r) = _ := hget _ (by simp only [CAP_Rr_PRE_ACT_N]; omega)
      have hfull : (s.dev.gateTaken s.clk g).get (CAP_Rr_STAT_FULL r) = _ := hget _ (by simp only [CAP_Rr_STAT_FULL]; omega)
      have hrseg : (s.dev.gateTaken s.clk g).get (CAP_Rr_STAT_RSEG r) = _ := hget _ (by simp only [CAP_Rr_STAT_RSEG]; omega)
      have hnseg : (s.dev.gateTaken s.clk g).get (CAP_Rr_CFG_ACT_NSEGLOG r) = _ := hget _ (by
        simp only [CAP_Rr_CFG_ACT_NSEGLOG]
        omega)
      have hgrid : (s.dev.gateTaken s.clk g).capGrid r now = s.dev.capGrid r now := by
        rw [Dev.capGrid, hget _ (by simp only [CAP_Rr_SPH_ACT_SPH]; omega), hget _ (by simp only [CAP_Rr_SPER_ACT_SPER]; omega), Dev.capGrid]
      refine ⟨_, (exec_gateDue hs rfl h).trans (by rw [Dev.captureGate_starts ht hl htarget harm]), ?_, ?_, ?_, fun hfree => ?_⟩
      · rw [Dev.capStart_capX, CapX.started]
      · rw [Dev.capStart_capX, CapX.started, hgrid]
      · rw [Dev.capStart_state, hpre]
      · have hseg := Dev.capStart_segment (t := now) (d := s.dev.gateTaken s.clk g) (r := r) (by rw [hfull, hnseg]; exact hfree)
        rw [hfull, hrseg, hnseg] at hseg
        exact hseg
  case lane =>
    intro hlo hhi x
    refine ⟨fun h => ?_, fun h0 h hl => ?_⟩
    · exact (exec_stagingLockEnd_lane hs hlo hhi).trans (by rw [Dev.lockEnd_early h])
    · obtain ⟨huntil, hheld, hframe, hregs⟩ := Dev.lockEnd_ends h0 h hl
      exact ⟨_, exec_stagingLockEnd_lane hs hlo hhi, huntil, hheld, congrArg (fun d => ({ s with dev := d } : State)) hframe, hregs⟩
  case stepper =>
    intro hlo hhi x
    refine ⟨fun h => ?_, fun h0 h hl => ?_⟩
    · exact (exec_stagingLockEnd_stepper hs hlo hhi).trans (by rw [Dev.stpLockEnd_early h])
    · obtain ⟨huntil, hheld, hframe, hregs⟩ := Dev.stpLockEnd_ends h0 h hl
      exact ⟨_, exec_stagingLockEnd_stepper hs hlo hhi, huntil, hheld, congrArg (fun d => ({ s with dev := d } : State)) hframe, hregs⟩

end

/-! PROOFS. What reports, jobs of the packet engines and the time servo leave of the chain's registers and ports and of the lanes (R58 to R64,
R293, R409, R549 to R553). -/

namespace Sys2Proof.Machine

section Asides

variable {d d' e : Dev} {c : Clock} {f : Field} {g j n v st : Nat} {x : Int} {p : Nat → Prop}

/-- Address in the chain's block. -/
def isChainReg (a : Nat) : Prop := 0x400C0000 ≤ a ∧ a < 0x400D0000

/-- The chain's registers and ports and the lanes stay. -/
structure Aside (d e : Dev) : Prop where
  regs : ∀ a, isChainReg a → e.reg a = d.reg a
  ports : e.chain.ports = d.chain.ports
  lanes : e.lanes = d.lanes

theorem Aside.refl : Aside d d := ⟨fun _ _ => rfl, rfl, rfl⟩

theorem Aside.trans (h : Aside d d') (h' : Aside d' e) : Aside d e :=
  ⟨fun a ha => (h'.regs a ha).trans (h.regs a ha), h'.ports.trans h.ports, h'.lanes.trans h.lanes⟩

theorem Aside.of_onlyRegs (h : OnlyRegs p d e) (hp : ∀ a, isChainReg a → ¬ p a) : Aside d e :=
  ⟨fun a ha => h.1 a (hp a ha), by rw [h.2], by rw [h.2]⟩

theorem Aside.put (h : ¬ isChainReg f.addr) : Aside d (d.put f v) :=
  .of_onlyRegs (OnlyRegs.put (p := (· = f.addr)) rfl) fun _ ha hf => h (hf ▸ ha)

theorem Aside.setf {b : Bool} (h : ¬ isChainReg f.addr) : Aside d (d.setf f b) := .put h

/-! Reports (R549 to R553). -/

/-- Nothing but registers, the log, the fabric and the pair's link differs. -/
def ReportFrame (d e : Dev) : Prop := e = { d with regs := e.regs, flt := e.flt, fab := e.fab, pair := e.pair }

theorem ReportFrame.trans (h : ReportFrame d d') (h' : ReportFrame d' e) : ReportFrame d e := Eq.trans h' (by rw [h])

theorem ReportFrame.put : ReportFrame d (d.put f v) := (OnlyRegs.put (p := fun _ => True) trivial).2 ▸ rfl

theorem ReportFrame.emit {u type offs : Nat} {time : Option (Nat × Nat)} {ws : List W64} {inj : Bool} :
    ReportFrame d (d.emit u type time offs ws inj) := rfl

theorem ReportFrame.pairNotice {ft u type : Nat} {w : W64} : ReportFrame d (d.pairNotice c ft u type w) := by
  unfold Dev.pairNotice
  split <;> rfl

theorem ReportFrame.setFlt {y : Flt} : ReportFrame d { d with flt := y } := rfl

theorem ReportFrame.record {code u info : Nat} {inj : Bool} : ReportFrame d (d.record c code u info inj) := by
  unfold Dev.record
  refine ReportFrame.trans ?_ (ReportFrame.emit.trans .pairNotice)
  split
  · exact ReportFrame.setFlt.trans .put
  · exact .put

/-- The registers of the fault log. -/
def isLogReg (a : Nat) : Prop := a = FLT_STAT_UNREAD.addr ∨ a = FLT_SUPP_V.addr

theorem Dev.reportLim_report {code u info key : Nat} {inj : Bool} :
    ReportFrame d (d.reportLim c code u info key inj) ∧ KeepsRegs isLogReg d (d.reportLim c code u info key inj) := by
  have hopen : ReportFrame d (Dev.reportLim.open_ d c code u info inj (code * 2 ^ 16 + key)) ∧
      KeepsRegs isLogReg d (Dev.reportLim.open_ d c code u info inj (code * 2 ^ 16 + key)) := by
    rw [Dev.reportLim.open_]
    exact ⟨ReportFrame.setFlt.trans .record, fun a ha => Dev.record_keepsRegs a fun h => ha (.inl h)⟩
  unfold Dev.reportLim
  simp only
  split
  · split
    · exact ⟨.put, fun a ha => Dev.reg_bump_ne fun h => ha (.inr h.symm)⟩
    · exact hopen
  · exact hopen

theorem not_isLogReg {a : Nat} (h : a < 0x40110000) : ¬ isLogReg a := by
  simp only [isLogReg, FLT_STAT_UNREAD, FLT_SUPP_V]
  omega

theorem Aside.of_report (h : ReportFrame d e) (hr : KeepsRegs isLogReg d e) : Aside d e :=
  ⟨fun a ha => hr a (not_isLogReg (by have := ha.2; omega)), by rw [h], by rw [h]⟩

theorem Aside.record {code u info : Nat} {inj : Bool} : Aside d (d.record c code u info inj) :=
  .of_report .record fun a ha => Dev.record_keepsRegs a fun h => ha (.inl h)

theorem Aside.reportLim {code u info key : Nat} {inj : Bool} : Aside d (d.reportLim c code u info key inj) :=
  .of_report Dev.reportLim_report.1 Dev.reportLim_report.2

theorem Dev.record_servo {code u info : Nat} {inj : Bool} : (d.record c code u info inj).servo = d.servo := by rw [ReportFrame.record]

theorem Dev.reportLim_servo {code u info key : Nat} {inj : Bool} : (d.reportLim c code u info key inj).servo = d.servo := by
  rw [Dev.reportLim_report.1]

/-! Jobs of the packet engines (R293, R409): a slot that is FREE has nothing to withdraw. -/

/-- Nothing but the Herder's registers, slots and lists differs. -/
structure HerdStep (d e : Dev) : Prop where
  frame : e = { d with regs := e.regs, jobs := e.jobs, her := e.her }
  regs : KeepsRegs (· < 0x40020000) d e

theorem HerdStep.trans (h : HerdStep d d') (h' : HerdStep d' e) : HerdStep d e :=
  ⟨Eq.trans h'.frame (by rw [h.frame]), fun a ha => (h'.regs a ha).trans (h.regs a ha)⟩

theorem HerdStep.put (h : f.addr < 0x40020000) : HerdStep d (d.put f v) :=
  ⟨(OnlyRegs.put (p := fun _ => True) trivial).2 ▸ rfl, fun _ ha => Dev.reg_put_ne fun hf => ha (hf ▸ h)⟩

theorem HerdStep.setHer {y : Herder} : HerdStep d { d with her := y } := ⟨rfl, fun _ _ => rfl⟩

theorem HerdStep.setJobX {y : JobX} : HerdStep d (d.setJobX j y) := ⟨rfl, fun _ _ => rfl⟩

theorem jobReg_lt (hj : j < 1024) {k : Nat} (hk : k < 0x20) : 0x40014000 + k + 0x20 * j < 0x40020000 := by omega

theorem HerdStep.engStat (h : g < 32) : HerdStep d (d.engStat g) := by
  have hreg : (HERDER_ENGe_STAT_DEPTH g).addr < 0x40020000 := by
    simp only [HERDER_ENGe_STAT_DEPTH]
    omega
  unfold Dev.engStat
  exact (HerdStep.put (f := HERDER_ENGe_STAT_DEPTH g) hreg).trans
    ((HerdStep.put (f := HERDER_ENGe_STAT_RUN g) hreg).trans (.put (f := HERDER_ENGe_STAT_SHADOW g) hreg))

theorem HerdStep.putState (hj : j < 1024) : HerdStep d (d.put (HERDER_JOBj_CFG_STATE j) v) := .put (jobReg_lt hj (k := 0) (by decide))

theorem HerdStep.jobToReady (hj : j < 1024) : HerdStep d (d.jobToReady j n) := by
  unfold Dev.jobToReady
  refine HerdStep.trans ?_ (.engStat Dev.jobEng_lt)
  refine HerdStep.trans ?_ .setJobX
  exact (HerdStep.putState hj).trans .setHer

theorem HerdStep.jobReleased (hj : j < 1024) : HerdStep d (d.jobReleased j n) := by
  unfold Dev.jobReleased
  split
  · exact .jobToReady hj
  · exact (HerdStep.putState hj).trans .setHer

theorem Dev.jobWithdraw_free {k : Nat} (h : d.jobState j = jobFree) : Dev.jobWithdraw c k d j = d := by
  cases k with
  | zero => rfl
  | succ k =>
    rw [Dev.jobWithdraw, h, if_neg (by decide)]

theorem HerdStep.jobArm_free {inst launch dlrel : Nat} (hj : j < 1024) (h : d.jobState j = jobFree) :
    HerdStep d (d.jobArm c j inst launch dlrel) := by
  have hset : ∀ (e : Dev) y, HerdStep e ((e.setJobX j y).put (HERDER_JOBj_CFG_STATE j) jobWait) := fun e y =>
    HerdStep.setJobX.trans (.putState hj)
  have hcnt : ∀ e : Dev, HerdStep e (((e.put (HERDER_JOBj_CNT_CNT j) (d.get (HERDER_JOBj_CNT_RST j))).put64 (HERDER_JOBj_LAUNCH_LO_LAUNCH j)
      (HERDER_JOBj_LAUNCH_HI_LAUNCH j) launch).put (HERDER_JOBj_DLREL_DLREL j) dlrel) := fun e =>
    ((HerdStep.put (jobReg_lt hj (k := 4) (by decide))).trans ((HerdStep.put (jobReg_lt hj (k := 8) (by decide))).trans
      (.put (jobReg_lt hj (k := 12) (by decide))))).trans (.put (jobReg_lt hj (k := 16) (by decide)))
  unfold Dev.jobArm
  rw [Dev.jobWithdraw_free h]
  dsimp only
  rw [if_neg (by rw [h]; decide)]
  split
  · exact ((hcnt d).trans (hset _ _)).trans (.jobReleased hj)
  · exact (hcnt d).trans (hset _ _)

theorem Dev.pktArm_free (h : d.jobState j = jobFree) : d.pktArm c j = d.jobArm c j c.ns c.ns d.cycNs := by rw [Dev.pktArm, if_pos h]

theorem Dev.pktArm_owed (h : d.jobState j ≠ jobFree) : d.pktArm c j =
    { d with chain := { d.chain with again := d.chain.again.set (fun _ => 0) j (d.chain.again.get (fun _ => 0) j + 1) } } := by
  rw [Dev.pktArm, if_neg h]

theorem Aside.pktArm (hj : j < 1024) : Aside d (d.pktArm c j) := by
  by_cases h : d.jobState j = jobFree
  · have hstep := HerdStep.jobArm_free (c := c) (inst := c.ns) (launch := c.ns) (dlrel := d.cycNs) hj h
    rw [Dev.pktArm_free h]
    exact ⟨fun a ha => hstep.regs a (by have := ha.1; omega), by rw [hstep.frame], by rw [hstep.frame]⟩
  · rw [Dev.pktArm_owed h]
    exact ⟨fun _ _ => rfl, rfl, rfl⟩

theorem Dev.pktArm_servo (hj : j < 1024) : (d.pktArm c j).servo = d.servo := by
  by_cases h : d.jobState j = jobFree
  · rw [Dev.pktArm_free h, (HerdStep.jobArm_free hj h).frame]
  · rw [Dev.pktArm_owed h]

/-! The time servo (R58 to R63). -/

theorem Aside.setServo {y : Servo} : Aside d { d with servo := y } := ⟨fun _ _ => rfl, rfl, rfl⟩

theorem Aside.servoTo : Aside d (d.servoTo st) :=
  ⟨fun a ha => Dev.servoTo_keeps a fun h => by
    have := ha.1
    rw [h] at this
    exact absurd this (by decide), by rw [Dev.servoTo_frame], by rw [Dev.servoTo_frame]⟩

theorem Aside.setRate : Aside d d.setRate := .of_onlyRegs Dev.setRate_frame fun a ha h => by
  obtain ⟨hlo, -⟩ := ha
  simp only [TIME_STAT_STATE, TIME_RATE_Y] at h
  omega

theorem Aside.setPend {b : Bool} : Aside d (d.setPend x b) := .of_onlyRegs Dev.setPend_frame fun a ha h => by
  obtain ⟨hlo, -⟩ := ha
  simp only [TIME_PEND_LO_PEND, TIME_PEND_HI_PEND, TIME_STAT_STATE] at h
  omega

theorem Aside.toHoldover : Aside d (d.toHoldover c) := Aside.setServo.trans (Aside.servoTo.trans .setRate)

/-- TIME_STAT is no register of the chain. -/
theorem not_isChainReg_timeStat : ¬ isChainReg 0x40020004 := by
  simp only [isChainReg]
  omega

theorem Aside.refuseOffset : Aside d (d.refuseOffset c x) := by
  have hjump : ∀ e : Dev, Aside e (e.setf TIME_STAT_TIME_JUMP) := fun e => .setf not_isChainReg_timeStat
  unfold Dev.refuseOffset
  exact (((Aside.setServo.trans (hjump _)).trans .setPend).trans .toHoldover).trans .record

/-- The count of consecutive good offsets. -/
def Dev.counting (d : Dev) (n : Nat) : Dev := { d with servo := { d.servo with good := n } }

/-- An offset within LTHR counts, another starts the count anew (R59). -/
def Dev.goodAfter (d : Dev) (x : Int) : Nat := if x.natAbs ≤ d.get TIME_LIM_LTHR then d.servo.good + 1 else 0

theorem Dev.judgeLock_eq : d.judgeLock x =
    if d.get TIME_STAT_STATE = servoAcquire ∧ 16 ≤ d.goodAfter x then (d.counting (d.goodAfter x)).servoTo servoLocked
    else if d.get TIME_STAT_STATE = servoLocked ∧ (!decide (x.natAbs ≤ d.get TIME_LIM_LTHR)) = true then
      (d.counting (d.goodAfter x)).servoTo servoAcquire
    else d.counting (d.goodAfter x) := by
  rw [Dev.judgeLock, Dev.counting, Dev.goodAfter]

/-- The lock is judged by a new count and perhaps a new state (R59). -/
theorem Dev.judgeLock_cases : ∃ n, d.judgeLock x = d.counting n ∨ ∃ st, d.judgeLock x = (d.counting n).servoTo st := by
  refine ⟨d.goodAfter x, ?_⟩
  rw [Dev.judgeLock_eq]
  split
  · exact .inr ⟨_, rfl⟩
  · split
    · exact .inr ⟨_, rfl⟩
    · exact .inl rfl

theorem Aside.judgeLock : Aside d (d.judgeLock x) := by
  have hcount : ∀ n, Aside d (d.counting n) := fun _ => .setServo
  obtain ⟨n, h | ⟨st, h⟩⟩ := Dev.judgeLock_cases (d := d) (x := x)
  · exact h ▸ hcount n
  · exact h ▸ (hcount n).trans .servoTo

/-- The servo with a master it has heard. -/
def Dev.hearing (d : Dev) (c : Clock) : Dev := { d with servo := { d.servo with seen := true, watchFrom := c.ns, lossReported := false } }

/-- The servo's state when an offset is not refused. -/
def Dev.resume (d : Dev) (st : Nat) : Dev :=
  if st = servoFree then d.servoTo servoAcquire else if st = servoHoldover then (d.setPend 0 false).servoTo servoAcquire else d

/-- The integral and the proportional part put in force, and the lock judged (R58, R59). -/
def Dev.govern (d : Dev) (integ ys raw : Int) (x : Int) : Dev :=
  let d2 := ({ d with servo := { d.servo with integ := integ, ys := ys } } : Dev).judgeLock x
  (if raw = ys then d2 else d2.setf TIME_STAT_RATE_LIM).setRate

/-- What an offset does: the first one jumps or is governed, a large one is refused. -/
theorem Dev.servoOffset_rec {P : Dev → Prop}
    (hjump : ∀ sv : Servo, sv.seen = true → sv.watchFrom = c.ns → sv.lossReported = false →
      P (({ d.hearing c with servo := sv } : Dev).servoTo servoAcquire))
    (hrefuse : P ((d.hearing c).refuseOffset c x))
    (hgovern : ∀ integ ys raw, P (((d.hearing c).resume (d.get TIME_STAT_STATE)).govern integ ys raw x)) : P (d.servoOffset c x) := by
  unfold Dev.servoOffset
  dsimp only
  split
  · exact hjump { (d.hearing c).servo with stepNow := some x } rfl rfl rfl
  · split
    · exact hrefuse
    · exact hgovern _ _ _

theorem Aside.resume : Aside d (d.resume st) := by
  unfold Dev.resume
  split
  · exact .servoTo
  · split
    · exact Aside.setPend.trans .servoTo
    · exact .refl

theorem Aside.govern {integ ys raw : Int} : Aside d (d.govern integ ys raw x) := by
  have hlim : ∀ e : Dev, Aside e (e.setf TIME_STAT_RATE_LIM) := fun e => .setf not_isChainReg_timeStat
  unfold Dev.govern
  dsimp only
  refine Aside.trans ?_ .setRate
  split
  · exact Aside.setServo.trans .judgeLock
  · exact (Aside.setServo.trans .judgeLock).trans (hlim _)

theorem Aside.hearing : Aside d (d.hearing c) := .setServo

theorem Aside.servoOffset : Aside d (d.servoOffset c x) :=
  Dev.servoOffset_rec (P := Aside d) (fun _ _ _ _ => (Aside.hearing.trans .setServo).trans .servoTo)
    (Aside.hearing.trans .refuseOffset) fun _ _ _ => (Aside.hearing.trans .resume).trans .govern

/-! The servo has heard its master (R62). -/

/-- The servo saw an offset at instant t and reports no loss. -/
def Servo.heard (y : Servo) (t : Nat) : Prop := y.seen = true ∧ y.watchFrom = t ∧ y.lossReported = false

theorem Dev.toHoldover_heard (h : d.servo.heard n) : (d.toHoldover c).servo.heard n := by
  obtain ⟨hseen, hwatch, hloss⟩ := h
  simp only [Dev.toHoldover, Dev.setRate_servo, Dev.servoTo_servo]
  split <;> exact ⟨hseen, hwatch, hloss⟩

theorem Dev.refuseOffset_heard (h : d.servo.heard n) : (d.refuseOffset c x).servo.heard n := by
  obtain ⟨hseen, hwatch, hloss⟩ := h
  rw [Dev.refuseOffset, Dev.record_servo]
  refine Dev.toHoldover_heard ?_
  rw [Dev.setPend_servo, Dev.setf, Dev.put_servo]
  exact ⟨hseen, hwatch, hloss⟩

theorem Dev.judgeLock_heard (h : d.servo.heard n) : (d.judgeLock x).servo.heard n := by
  have hcount : ∀ k, (d.counting k).servo.heard n := fun _ => h
  obtain ⟨k, he | ⟨st, he⟩⟩ := Dev.judgeLock_cases (d := d) (x := x)
  · rw [he]
    exact hcount k
  · rw [he, Dev.servoTo_servo]
    exact hcount k

theorem Dev.resume_servo : (d.resume st).servo = d.servo := by
  unfold Dev.resume
  split
  · rw [Dev.servoTo_servo]
  · split
    · rw [Dev.servoTo_servo, Dev.setPend_servo]
    · rfl

theorem Dev.govern_heard {integ ys raw : Int} (h : d.servo.heard n) : (d.govern integ ys raw x).servo.heard n := by
  have hjudge : (({ d with servo := { d.servo with integ := integ, ys := ys } } : Dev).judgeLock x).servo.heard n := Dev.judgeLock_heard h
  rw [Dev.govern, Dev.setRate_servo]
  split
  · exact hjudge
  · rw [Dev.setf, Dev.put_servo]
    exact hjudge

theorem Dev.servoOffset_heard : (d.servoOffset c x).servo.heard c.ns :=
  Dev.servoOffset_rec (P := fun e => e.servo.heard c.ns) (fun sv hseen hwatch hloss => by rw [Dev.servoTo_servo]; exact ⟨hseen, hwatch, hloss⟩)
    (Dev.refuseOffset_heard ⟨rfl, rfl, rfl⟩) fun _ _ _ => Dev.govern_heard (by rw [Dev.resume_servo]; exact ⟨rfl, rfl, rfl⟩)

end Asides

end Sys2Proof.Machine

/-! PROOFS. Frames of the chain that arrive or leave: counters, the port's own state, the copy on the other port (R391 to R396, R402, R412). -/

namespace Sys2Proof.Machine

section PortFrames

variable {d d' e : Dev} {c : Clock} {f copy : EthFrame} {n p q x y x' y' : Nat} {a b : Bool}

/-! The guard reads no counter (R396). -/

/-- Counter registers of the two ports. -/
def isPortCount (a : Nat) : Prop := 0x400C0414 ≤ a ∧ a < 0x400C0700

theorem isPortCount_of (hp : p < 2) {k : Nat} (hlo : 0x14 ≤ k) (hhi : k < 0x2C) : isPortCount (0x400C0400 + k + 0x100 * p) := by
  simp only [isPortCount]
  omega

theorem Dev.framePorts_counts (h : OnlyRegs isPortCount d e) (_ : n < 219) : e.framePorts x n = d.framePorts x n := by
  have hget : ∀ g : Field, ¬ isPortCount g.addr → e.get g = d.get g := fun g hg => h.get_eq hg
  have hflag : ∀ g : Field, ¬ isPortCount g.addr → e.flag g = d.flag g := fun g hg => h.flag_eq hg
  have hchain : e.chain = d.chain := by rw [h.2]
  have hen : ¬ isPortCount (CHAIN_Dd_CFG_ACT_EN (n - 200)).addr := by
    simp only [isPortCount, CHAIN_Dd_CFG_ACT_EN]
    omega
  have hports : ¬ isPortCount (CHAIN_Dd_CFG_ACT_PORTS (n - 200)).addr := hen
  have hcap : ¬ isPortCount (chCap (n - 217)).addr := by
    unfold chCap
    split <;> simp only [isPortCount, CHAIN_STAT_CAP0, CHAIN_STAT_CAP1] <;> omega
  have hnext : e.gateNext 216 = d.gateNext 216 := Dev.get64_congr (h.1 _ (by simp [isPortCount, GATE_GTnnn_NEXT_LO_NEXT]))
    (h.1 _ (by simp [isPortCount, GATE_GTnnn_NEXT_HI_NEXT]))
  have hmargin : e.margin = d.margin := by rw [Dev.margin, Dev.margin, hget _ (by simp [isPortCount, GATE_MARGIN_MARG])]
  unfold Dev.framePorts
  rw [hflag _ hen, hget _ hports, hnext, hmargin, hchain, hget CHAIN_SVC_ACT_PORTS (by simp [isPortCount, CHAIN_SVC_ACT_PORTS]),
    hget TIME_CTRL_MODE (by simp [isPortCount, TIME_CTRL_MODE]), hflag _ hcap]

theorem Dev.chGuarded_counts (h : OnlyRegs isPortCount d e) : e.chGuarded c q = d.chGuarded c q := by
  have hgate : ∀ i < 19, e.flag (GATE_GTnnn_CTL_ARMED (200 + i)) = d.flag (GATE_GTnnn_CTL_ARMED (200 + i)) ∧
      e.gateNext (200 + i) = d.gateNext (200 + i) := fun i hi => by
    refine ⟨h.flag_eq ?_, Dev.get64_congr (h.1 _ ?_) (h.1 _ ?_)⟩
    · simp only [isPortCount, GATE_GTnnn_CTL_ARMED]
      omega
    · simp only [isPortCount, GATE_GTnnn_NEXT_LO_NEXT]
      omega
    · simp only [isPortCount, GATE_GTnnn_NEXT_HI_NEXT]
      omega
  have hguard : e.get CHAIN_CYC_ACT_GUARD = d.get CHAIN_CYC_ACT_GUARD := h.get_eq (by simp [isPortCount, CHAIN_CYC_ACT_GUARD])
  rw [Bool.eq_iff_iff]
  simp only [Dev.chGuarded, List.any_eq_true, List.mem_range]
  refine exists_congr fun i => and_congr_right fun hi => ?_
  obtain ⟨harmed, hnext⟩ := hgate i hi
  rw [Dev.framePorts_counts h (by omega), harmed, hnext, hguard]

theorem chLink_addr : (chLink p).addr = CHAIN_STAT_LINK0.addr := by
  unfold chLink
  split <;> rfl

theorem chCap_addr : (chCap p).addr = CHAIN_STAT_LINK0.addr := by
  unfold chCap
  split <;> rfl

/-- Port q takes a forwarded frame at once: link, nothing under way or stored, and no guard. -/
structure PortFree (d : Dev) (c : Clock) (q : Nat) : Prop where
  link : d.flag (chLink q) = true
  idle : d.chBusy c q = false
  empty : (d.chPort q).store = []
  open_ : d.chGuarded c q = false

theorem PortFree.counts (h : PortFree d c q) (ho : OnlyRegs isPortCount d e) : PortFree e c q := by
  obtain ⟨hlink, hidle, hempty, hopen⟩ := h
  have hport : e.chPort q = d.chPort q := by rw [Dev.chPort, ho.2, Dev.chPort]
  refine ⟨?_, ?_, ?_, ?_⟩
  · rw [ho.flag_eq (by rw [chLink_addr]; simp [isPortCount, CHAIN_STAT_LINK0]), hlink]
  · rw [Dev.chBusy, hport]
    exact hidle
  · rw [hport, hempty]
  · rw [Dev.chGuarded_counts ho, hopen]

theorem Dev.chForward_free (h : PortFree d c q) : ((d.chForward c q f).chPort q).sent = some (c.ns, f) := by
  obtain ⟨hlink, hidle, hempty, hopen⟩ := h
  rw [Dev.chForward]
  simp only [hlink, hidle, hempty, hopen, List.isEmpty_nil, Bool.not_true, Bool.not_false, Bool.and_self, Bool.false_eq_true, if_false, if_true]
  rw [Dev.chStart, if_neg Bool.false_ne_true, Dev.chPort_setChPort_self]

/-! What a frame adds to the counters of the port it arrives on (R402). -/

/-- Port p has counted x erroneous and y sound frames more; its link and capability, the servo and the lanes stay. -/
structure Counted (p x y : Nat) (d e : Dev) : Prop where
  err : e.get (CHAIN_CHp_RXERR_V p) = satU 32 (d.get (CHAIN_CHp_RXERR_V p) + x)
  ok : e.get (CHAIN_CHp_RXOK_V p) = satU 32 (d.get (CHAIN_CHp_RXOK_V p) + y)
  stat : e.reg CHAIN_STAT_LINK0.addr = d.reg CHAIN_STAT_LINK0.addr
  servo : e.servo = d.servo
  lanes : e.lanes = d.lanes

theorem satU_add (n x y : Nat) : satU 32 (satU 32 (n + x) + y) = satU 32 (n + (x + y)) := by
  simp only [satU]
  omega

theorem satU_get {g : Field} (h : g.width = 32) : satU 32 (d.get g) = d.get g := by
  have hlt := Dev.get_lt (d := d) (f := g)
  rw [h] at hlt
  simp only [satU]
  omega

theorem Counted.trans (h : Counted p x y d d') (h' : Counted p x' y' d' e) : Counted p (x + x') (y + y') d e := by
  refine ⟨?_, ?_, h'.stat.trans h.stat, h'.servo.trans h.servo, h'.lanes.trans h.lanes⟩
  · rw [h'.err, h.err, satU_add]
  · rw [h'.ok, h.ok, satU_add]

/-- What leaves the port's counters alone. -/
theorem Counted.none (herr : e.reg (CHAIN_CHp_RXERR_V p).addr = d.reg (CHAIN_CHp_RXERR_V p).addr)
    (hok : e.reg (CHAIN_CHp_RXOK_V p).addr = d.reg (CHAIN_CHp_RXOK_V p).addr)
    (hstat : e.reg CHAIN_STAT_LINK0.addr = d.reg CHAIN_STAT_LINK0.addr) (hservo : e.servo = d.servo) (hlanes : e.lanes = d.lanes) :
    Counted p 0 0 d e := by
  refine ⟨?_, ?_, hstat, hservo, hlanes⟩
  · rw [Dev.get_congr herr, Nat.add_zero, satU_get rfl]
  · rw [Dev.get_congr hok, Nat.add_zero, satU_get rfl]

theorem isChainReg_counts (hp : p < 2) : isChainReg (CHAIN_CHp_RXERR_V p).addr ∧ isChainReg (CHAIN_CHp_RXOK_V p).addr ∧
    isChainReg CHAIN_STAT_LINK0.addr := by
  simp only [isChainReg, CHAIN_CHp_RXERR_V, CHAIN_CHp_RXOK_V, CHAIN_STAT_LINK0]
  omega

theorem Counted.of_aside (hp : p < 2) (h : Aside d e) (hs : e.servo = d.servo) : Counted p 0 0 d e := by
  obtain ⟨herr, hok, hstat⟩ := isChainReg_counts hp
  exact .none (h.regs _ herr) (h.regs _ hok) (h.regs _ hstat) hs h.lanes

theorem Counted.bumpErr (hp : p < 2) : Counted p 1 0 d (d.bump (CHAIN_CHp_RXERR_V p)) := by
  refine ⟨Dev.get_bump_self (f := CHAIN_CHp_RXERR_V p) le_rfl, ?_, Dev.reg_bump_ne ?_, ?_, ?_⟩
  · rw [Dev.bump, Dev.get_put_ne, Nat.add_zero, satU_get rfl]
    simp only [CHAIN_CHp_RXERR_V, CHAIN_CHp_RXOK_V]
    omega
  · simp only [CHAIN_CHp_RXERR_V, CHAIN_STAT_LINK0]
    omega
  · rw [Dev.bump, Dev.put_servo]
  · rw [Dev.bump, Dev.put_lanes]

theorem Counted.bumpOk (hp : p < 2) : Counted p 0 1 d (d.bump (CHAIN_CHp_RXOK_V p)) := by
  refine ⟨?_, Dev.get_bump_self (f := CHAIN_CHp_RXOK_V p) le_rfl, Dev.reg_bump_ne ?_, ?_, ?_⟩
  · rw [Dev.bump, Dev.get_put_ne, Nat.add_zero, satU_get rfl]
    simp only [CHAIN_CHp_RXERR_V, CHAIN_CHp_RXOK_V]
    omega
  · simp only [CHAIN_CHp_RXOK_V, CHAIN_STAT_LINK0]
    omega
  · rw [Dev.bump, Dev.put_servo]
  · rw [Dev.bump, Dev.put_lanes]

theorem Counted.setChPort {z : ChainPort} : Counted p 0 0 d (d.setChPort q z) := .none rfl rfl rfl rfl rfl

/-- A frame forwarded on port q leaves the counters of another port alone. -/
theorem Counted.chForward (hp : p < 2) (hq : q < 2) (_ : q ≠ p) : Counted p 0 0 d (d.chForward c q f) := by
  unfold Dev.chForward
  dsimp only
  split
  · exact .none rfl rfl rfl rfl rfl
  · split
    · rw [Dev.chStart, if_neg Bool.false_ne_true]
      exact .setChPort
    · split
      · exact .setChPort
      · have hdrop : Counted p 0 0 d (d.bump (CHAIN_CHp_DROP_V q)) := by
          refine .none (Dev.reg_bump_ne ?_) (Dev.reg_bump_ne ?_) (Dev.reg_bump_ne ?_) ?_ ?_
          · simp only [CHAIN_CHp_DROP_V, CHAIN_CHp_RXERR_V]
            omega
          · simp only [CHAIN_CHp_DROP_V, CHAIN_CHp_RXOK_V]
            omega
          · simp only [CHAIN_CHp_DROP_V, CHAIN_STAT_LINK0]
            omega
          · rw [Dev.bump, Dev.put_servo]
          · rw [Dev.bump, Dev.put_lanes]
        exact hdrop.trans (.of_aside hp .reportLim Dev.reportLim_servo)

theorem Counted.cap (h : Counted p x y d e) : e.flag (chCap q) = d.flag (chCap q) := Dev.flag_congr (chCap_addr ▸ h.stat)

/-! A PTP frame that arrived (R391, R395, R412). -/

/-- The frame is erroneous. -/
def frameWrong (f : EthFrame) : Bool := f.bad || !lengthOk f

/-- Count of a frame that arrived. -/
def Dev.countFrame (d : Dev) (p : Nat) (f : EthFrame) : Dev := d.bump (if frameWrong f then CHAIN_CHp_RXERR_V p else CHAIN_CHp_RXOK_V p)

theorem Counted.countFrame (hp : p < 2) :
    Counted p (if frameWrong f then 1 else 0) (if frameWrong f then 0 else 1) d (d.countFrame p f) := by
  unfold Dev.countFrame
  split
  · exact .bumpErr hp
  · exact .bumpOk hp

theorem Dev.countFrame_counts (hp : p < 2) : OnlyRegs isPortCount d (d.countFrame p f) := by
  refine .put ?_
  split
  · exact isPortCount_of hp (k := 0x18) (by decide) (by decide)
  · exact isPortCount_of hp (k := 0x14) (by decide) (by decide)

/-- A frame of sound length goes on from a capable port. -/
theorem Dev.ptpOn_eq : d.ptpOn c p f copy = if lengthOk f = true ∧ d.flag (chCap p) = true then
    (d.countFrame p f).chForward c (1 - p) { copy with bad := f.bad } else d.countFrame p f := by
  unfold Dev.ptpOn Dev.countFrame frameWrong
  cases hl : lengthOk f <;> cases hc : d.flag (chCap p) <;> simp

theorem Counted.ptpOn (hp : p < 2) :
    Counted p (if frameWrong f then 1 else 0) (if frameWrong f then 0 else 1) d (d.ptpOn c p f copy) := by
  rw [Dev.ptpOn_eq]
  by_cases h : lengthOk f = true ∧ d.flag (chCap p) = true
  · rw [if_pos h]
    exact (Counted.countFrame hp).trans (.chForward hp (by omega) (by omega))
  · rw [if_neg h]
    exact .countFrame hp

/-- The copy that leaves at once on the other port ends in error where the frame was bad. -/
theorem Dev.ptpOn_sent (hp : p < 2) (hl : lengthOk f = true) (hc : d.flag (chCap p) = true) (h : PortFree d c (1 - p)) :
    ((d.ptpOn c p f copy).chPort (1 - p)).sent = some (c.ns, { copy with bad := f.bad }) := by
  rw [Dev.ptpOn_eq, if_pos ⟨hl, hc⟩]
  exact Dev.chForward_free (h.counts (Dev.countFrame_counts hp))

/-- From a port that is not capable nothing goes on. -/
theorem Dev.ptpOn_stays (hc : d.flag (chCap p) = false) : (d.ptpOn c p f copy).chain = d.chain := by
  rw [Dev.ptpOn_eq, hc, if_neg (by simp), Dev.countFrame, Dev.bump, Dev.put_chain]

theorem Dev.chPort_ports (h : e.chain.ports = d.chain.ports) : e.chPort q = d.chPort q := by rw [Dev.chPort, h, Dev.chPort]

end PortFrames

end Sys2Proof.Machine

/-! PROOFS. Sync with its Follow_Up (R412, R415, R416, R612). -/

namespace Sys2Proof.Machine

section Sync

variable {d : Dev} {c : Clock} {m : PtpSync} {s : State} {f : EthFrame}

theorem frameWrong_iff : frameWrong f = true ↔ f.bad = true ∨ lengthOk f = false := by simp [frameWrong]

/-- A Sync on a port with link (R412). -/
def Dev.syncSound (d : Dev) (m : PtpSync) : Prop := d.flag (chLink m.port.val) = true ∧ isPtp m.sync = true ∧ ptpType m.sync = 0

/-- The Follow_Up of a two-step Sync belongs to it. -/
def syncPaired (m : PtpSync) : Bool :=
  !ptpTwoStep m.sync || (isPtp m.follow && ptpType m.follow = 8 && ptpSeq m.follow = ptpSeq m.sync)

/-- Residence and ingress link delay of a Sync that goes on. -/
def Dev.syncRes (d : Dev) (m : PtpSync) : Int :=
  (d.egress (1 - m.port.val) m.egress - 64 * 65536 : Nat) - (d.ingress m.port.val m.ingress : Nat) + d.linkDelay m.port.val

/-- The Sync counted, and its copy sent on. -/
def Dev.syncPassed (d : Dev) (c : Clock) (m : PtpSync) : Dev :=
  d.ptpOn c m.port.val m.sync (if ptpTwoStep m.sync then m.sync else addCorr m.sync (d.syncRes m))

/-- The same with its Follow_Up. -/
def Dev.syncFollowed (d : Dev) (c : Clock) (m : PtpSync) : Dev :=
  if !ptpTwoStep m.sync then d.syncPassed c m
  else if !frameWrong m.sync && syncPaired m then
    (d.syncPassed c m).ptpOn c m.port.val m.follow (d.scaleRate m.port.val (addCorr m.follow (d.syncRes m)))
  else (d.syncPassed c m).bump (if !frameWrong m.follow then CHAIN_CHp_RXOK_V m.port.val else CHAIN_CHp_RXERR_V m.port.val)

/-- The job of a sound Sync is armed. -/
def Dev.syncHeard (d : Dev) (c : Clock) (m : PtpSync) : Dev :=
  if !frameWrong m.sync then (d.syncFollowed c m).pktArm c (195 + m.port.val) else d.syncFollowed c m

/-- Sync and Follow_Up are sound and belong together. -/
def syncWhole (m : PtpSync) : Bool :=
  !frameWrong m.sync && syncPaired m && (!ptpTwoStep m.sync || !frameWrong m.follow)

/-- The Sync is this device's master's on its slave port. -/
def Dev.syncMine (d : Dev) (m : PtpSync) : Prop :=
  d.get TIME_CTRL_MODE = 1 ∧ d.get TIME_CTRL_PORT = m.port.val ∧ d.ptpMine m.sync = true

theorem frameWrong_not : (!frameWrong f) = (!f.bad && lengthOk f) := by simp [frameWrong]

theorem Dev.syncReceived_unsound (h : ¬ d.syncSound m) : d.syncReceived c m = d := by
  rw [Dev.syncSound] at h
  rw [Dev.syncReceived, if_pos]
  simp only [Bool.not_eq_true']
  by_contra hno
  simp only [not_or, Bool.not_eq_false, not_not, ne_eq] at hno
  exact h hno

theorem Dev.syncReceived_sound (h : d.syncSound m) : d.syncReceived c m =
    if syncWhole m = true ∧ d.flag (chCap m.port.val) = true ∧ d.get TIME_CTRL_MODE = 1 ∧ d.get TIME_CTRL_PORT = m.port.val ∧
      d.ptpMine m.sync = true then (d.syncHeard c m).servoOffset c (d.syncOffset m.port.val m) else d.syncHeard c m := by
  obtain ⟨hlink, hptp, htype⟩ := h
  rw [Dev.syncReceived, if_neg (by simp [hlink, hptp, htype])]
  simp only [← frameWrong_not]
  rfl

theorem Dev.syncReceived_used (h : d.syncSound m) (hw : syncWhole m = true) (hc : d.flag (chCap m.port.val) = true) (hm : d.syncMine m) :
    d.syncReceived c m = (d.syncHeard c m).servoOffset c (d.syncOffset m.port.val m) := by
  rw [Dev.syncReceived_sound h]
  exact if_pos ⟨hw, hc, hm⟩

theorem Dev.syncReceived_heard (h : d.syncSound m) (hn : syncWhole m = false ∨ d.flag (chCap m.port.val) = false ∨ ¬ d.syncMine m) :
    d.syncReceived c m = d.syncHeard c m := by
  rw [Dev.syncReceived_sound h, if_neg]
  rintro ⟨hw, hc, hm⟩
  rcases hn with hn | hn | hn
  · simp [hn] at hw
  · simp [hn] at hc
  · exact hn hm

/-! What is counted (R402). -/

/-- Erroneous frames among the Sync and its Follow_Up. -/
def syncErrs (m : PtpSync) : Nat :=
  (if frameWrong m.sync then 1 else 0) + if !ptpTwoStep m.sync then 0 else if frameWrong m.follow then 1 else 0

/-- Sound frames among the two. -/
def syncOks (m : PtpSync) : Nat :=
  (if frameWrong m.sync then 0 else 1) + if !ptpTwoStep m.sync then 0 else if frameWrong m.follow then 0 else 1

theorem Counted.pktArm {p : Nat} (hp : p < 2) : Counted p 0 0 d (d.pktArm c (195 + p)) :=
  .of_aside hp (.pktArm (by omega)) (Dev.pktArm_servo (by omega))

theorem Counted.bumpEither {p : Nat} (hp : p < 2) : Counted p (if frameWrong f then 1 else 0) (if frameWrong f then 0 else 1) d
    (d.bump (if !frameWrong f then CHAIN_CHp_RXOK_V p else CHAIN_CHp_RXERR_V p)) := by
  cases hf : frameWrong f with
  | false => exact .bumpOk hp
  | true => exact .bumpErr hp

theorem Counted.syncPassed : Counted m.port.val (if frameWrong m.sync then 1 else 0) (if frameWrong m.sync then 0 else 1) d (d.syncPassed c m) :=
  .ptpOn m.port.isLt

theorem Counted.syncFollowed : Counted m.port.val (syncErrs m) (syncOks m) d (d.syncFollowed c m) := by
  have hpassed := Counted.syncPassed (d := d) (c := c) (m := m)
  unfold Dev.syncFollowed syncErrs syncOks
  cases ptpTwoStep m.sync with
  | false => exact hpassed
  | true =>
    simp only [Bool.not_true, Bool.false_eq_true, if_false]
    by_cases hg : (!frameWrong m.sync && syncPaired m) = true
    · rw [if_pos hg]
      exact hpassed.trans (.ptpOn m.port.isLt)
    · rw [if_neg hg]
      exact hpassed.trans (.bumpEither m.port.isLt)

theorem Counted.syncHeard : Counted m.port.val (syncErrs m) (syncOks m) d (d.syncHeard c m) := by
  unfold Dev.syncHeard
  split
  · exact Counted.syncFollowed.trans (.pktArm m.port.isLt)
  · exact .syncFollowed

/-! What goes on (R395, R412). -/

theorem Dev.syncHeard_ports : (d.syncHeard c m).chain.ports = (d.syncFollowed c m).chain.ports := by
  unfold Dev.syncHeard
  split
  · exact (Aside.pktArm (by have := m.port.isLt; omega)).ports
  · rfl

/-- A Follow_Up that belongs to no sound Sync stays. -/
theorem Dev.syncFollowed_alone (h : ptpTwoStep m.sync = false ∨ frameWrong m.sync = true ∨ syncPaired m = false) :
    (d.syncFollowed c m).chain = (d.syncPassed c m).chain := by
  unfold Dev.syncFollowed
  split
  · rfl
  · next hone =>
    have hnone : ¬ (!frameWrong m.sync && syncPaired m) = true := by
      rcases h with h | h | h <;> simp_all
    rw [if_neg hnone, Dev.bump, Dev.put_chain]

/-- From a port that is not capable neither goes on. -/
theorem Dev.syncFollowed_stays (h : d.flag (chCap m.port.val) = false) : (d.syncFollowed c m).chain = d.chain := by
  have hpassed : (d.syncPassed c m).chain = d.chain := Dev.ptpOn_stays h
  have hcap : (d.syncPassed c m).flag (chCap m.port.val) = false := (Counted.syncPassed (d := d) (c := c) (m := m)).cap.trans h
  unfold Dev.syncFollowed
  split
  · exact hpassed
  · split
    · exact (Dev.ptpOn_stays hcap).trans hpassed
    · rw [Dev.bump, Dev.put_chain, hpassed]

theorem Dev.syncPassed_sent (hl : lengthOk m.sync = true) (hc : d.flag (chCap m.port.val) = true) (h : PortFree d c (1 - m.port.val)) :
    ((d.syncPassed c m).chPort (1 - m.port.val)).sent =
      some (c.ns, { (if ptpTwoStep m.sync then m.sync else addCorr m.sync (d.syncRes m)) with bad := m.sync.bad }) :=
  Dev.ptpOn_sent m.port.isLt hl hc h

/-- The frame that the other port sent last, where the Follow_Up stays. -/
theorem Dev.syncHeard_sent (hl : lengthOk m.sync = true) (hc : d.flag (chCap m.port.val) = true) (h : PortFree d c (1 - m.port.val))
    (ha : ptpTwoStep m.sync = false ∨ frameWrong m.sync = true ∨ syncPaired m = false) :
    ((d.syncHeard c m).chPort (1 - m.port.val)).sent =
      some (c.ns, { (if ptpTwoStep m.sync then m.sync else addCorr m.sync (d.syncRes m)) with bad := m.sync.bad }) := by
  have hports : (d.syncHeard c m).chain.ports = (d.syncPassed c m).chain.ports :=
    Dev.syncHeard_ports.trans (by rw [Dev.syncFollowed_alone ha])
  rw [Dev.chPort_ports hports, Dev.syncPassed_sent hl hc h]

/-! The rows of a Sync. -/

theorem exec_syncReceived (hs : s.dev.dst.serves = true) :
    exec (.syncReceived m) s = .next { s with dev := s.dev.syncReceived s.clk m } :=
  exec_serving (h := fun c d => d.syncReceived c m) hs rfl

/-- One of the two frames is erroneous. -/
def syncBad (m : PtpSync) : Prop := frameWrong m.sync = true ∨ (ptpTwoStep m.sync = true ∧ frameWrong m.follow = true)

theorem syncBad_iff : syncBad m ↔ m.sync.bad = true ∨ lengthOk m.sync = false ∨
    (ptpTwoStep m.sync = true ∧ (m.follow.bad = true ∨ lengthOk m.follow = false)) := by
  rw [syncBad, frameWrong_iff, frameWrong_iff, or_assoc]

theorem syncWhole_bad (h : syncBad m) : syncWhole m = false := by
  rcases h with h | ⟨h, hf⟩
  · simp [syncWhole, h]
  · simp [syncWhole, h, hf]

theorem syncWhole_unpaired (h : syncPaired m = false) : syncWhole m = false := by simp [syncWhole, h]

theorem syncPaired_false (ht : ptpTwoStep m.sync = true)
    (h : (isPtp m.follow && ptpType m.follow = 8 && ptpSeq m.follow = ptpSeq m.sync) = false) : syncPaired m = false := by
  rw [syncPaired, ht, h]
  rfl

theorem syncWhole_one (h : ¬ syncBad m) (ht : ptpTwoStep m.sync = false) : syncWhole m = true := by
  have hsync : frameWrong m.sync = false := by
    by_contra hw
    exact h (.inl (by simpa using hw))
  simp [syncWhole, syncPaired, ht, hsync]

theorem syncErrs_eq : syncErrs m = (if m.sync.bad = true ∨ lengthOk m.sync = false then 1 else 0) +
    if ptpTwoStep m.sync = true ∧ (m.follow.bad = true ∨ lengthOk m.follow = false) then 1 else 0 := by
  rw [syncErrs, if_congr frameWrong_iff rfl rfl, if_congr (frameWrong_iff (f := m.follow)) rfl rfl]
  cases ptpTwoStep m.sync <;> simp

theorem syncOks_sound (h : ¬ syncBad m) : syncOks m = if ptpTwoStep m.sync then 2 else 1 := by
  simp only [syncBad, not_or, not_and, Bool.not_eq_true] at h
  obtain ⟨hsync, hfollow⟩ := h
  cases ht : ptpTwoStep m.sync with
  | false => simp [syncOks, hsync, ht]
  | true => simp [syncOks, hsync, ht, hfollow ht]

theorem lengthOk_of_sound (h : ¬ syncBad m) : lengthOk m.sync = true := by
  by_contra hl
  exact h (.inl (frameWrong_iff.mpr (.inr (by simpa using hl))))

/-- Beside the counters and the copies the servo alone is moved. -/
theorem Dev.syncReceived_aside (h : d.syncSound m) : Aside (d.syncHeard c m) (d.syncReceived c m) := by
  rw [Dev.syncReceived_sound h]
  split
  · exact .servoOffset
  · exact .refl

/-- A one-step Sync of wrong length is counted and nothing else. -/
theorem Dev.syncReceived_short (h : d.syncSound m) (ht : ptpTwoStep m.sync = false) (hl : lengthOk m.sync = false) :
    d.syncReceived c m = d.bump (CHAIN_CHp_RXERR_V m.port.val) := by
  have hwrong : frameWrong m.sync = true := frameWrong_iff.mpr (.inr hl)
  rw [Dev.syncReceived_heard h (.inl (syncWhole_bad (.inl hwrong))), Dev.syncHeard, hwrong, Dev.syncFollowed, ht]
  simp only [Bool.not_true, Bool.not_false, Bool.false_eq_true, if_false, if_true]
  rw [Dev.syncPassed, Dev.ptpOn_eq, if_neg (by simp [hl]), Dev.countFrame, hwrong, if_pos rfl]

end Sync

end Sys2Proof.Machine

/-! PROOFS. Peer delay, Announce, and what the servo does when its master or its limits fail (R59, R62 to R64, R414, R417). -/

namespace Sys2Proof.Machine

section PeerDelay

variable {d : Dev} {c : Clock} {f : EthFrame} {m : PdelayMsg} {p q j n : Nat} {own : Bool}

/-! Peer delay (R414). -/

/-- Port p is in the same exchange: its sequence number, the instant of its request, and whether it is open. -/
def SameExchange (x y : ChainPort) : Prop := y.open_ = x.open_ ∧ y.reqAt = x.reqAt ∧ y.seq = x.seq

theorem SameExchange.trans {x y z : ChainPort} (h : SameExchange x y) (h' : SameExchange y z) : SameExchange x z :=
  ⟨h'.1.trans h.1, h'.2.1.trans h.2.1, h'.2.2.trans h.2.2⟩

theorem SameExchange.setChPort {x : ChainPort} (h : SameExchange (d.chPort p) x) : SameExchange (d.chPort p) ((d.setChPort p x).chPort p) := by
  rw [Dev.chPort_setChPort_self]
  exact h

/-- What follows from a frame that starts leaves the exchange as it is. -/
theorem SameExchange.afterStart : SameExchange (d.chPort p) ((d.afterStart p n f).chPort p) := by
  unfold Dev.afterStart
  dsimp only
  split
  · exact ⟨rfl, rfl, rfl⟩
  · split
    · exact .setChPort ⟨rfl, rfl, rfl⟩
    · exact .setChPort ⟨rfl, rfl, rfl⟩
    · split
      · exact .setChPort ⟨rfl, rfl, rfl⟩
      · exact ⟨rfl, rfl, rfl⟩
    · exact ⟨rfl, rfl, rfl⟩

theorem SameExchange.chStart : SameExchange (d.chPort p) ((d.chStart c p f own).chPort p) := by
  have hset : SameExchange (d.chPort p)
      ((d.setChPort p { d.chPort p with busy := c.ns + 8 * (f.bytes.length + 24), sent := some (c.ns, f) }).chPort p) :=
    .setChPort ⟨rfl, rfl, rfl⟩
  unfold Dev.chStart
  dsimp only
  split
  · exact hset.trans .afterStart
  · exact hset

theorem SameExchange.of_ports {e : Dev} (h : e.chain.ports = d.chain.ports) : SameExchange (d.chPort p) (e.chPort p) := by
  rw [Dev.chPort_ports h]
  exact ⟨rfl, rfl, rfl⟩

theorem SameExchange.chLaunch : SameExchange (d.chPort p) ((d.chLaunch c p f).2.chPort p) := by
  unfold Dev.chLaunch
  split
  · exact .of_ports (by rw [Dev.bump, Dev.put_chain])
  · split
    · have hwait : SameExchange (d.chPort p) ((d.setChPort p { d.chPort p with wait := (d.chPort p).wait ++ [f] }).chPort p) :=
        .setChPort ⟨rfl, rfl, rfl⟩
      exact hwait.trans (.of_ports (by rw [Aside.reportLim.ports, Dev.bump, Dev.put_chain]))
    · exact .chStart

theorem Dev.chJudge_ports : (d.chJudge c p).chain.ports = d.chain.ports := by
  unfold Dev.chJudge
  dsimp only
  split
  · rw [Aside.reportLim.ports, Dev.setf, Dev.put_chain]
  · rw [Dev.setf, Dev.put_chain]

/-- The interval of port p has run since its latest request. -/
def Dev.pdelayOver (d : Dev) (c : Clock) (p : Nat) : Bool := intervalOver (d.chPort p).reqAt c.ns (logSecs (d.getI CHAIN_PTP_ACT_LPDLY))

theorem Dev.pdelayReq_idle (h : d.flag (chLink p) = false ∨ d.pdelayOver c p = false) : d.pdelayReq c p = d := by
  rw [Dev.pdelayOver] at h
  rw [Dev.pdelayReq, if_pos (by rcases h with h | h <;> simp [h])]

/-- Port p with a new exchange open, before its request leaves. -/
def Dev.reqOpened (d : Dev) (c : Clock) (p : Nat) : Dev :=
  ((d.pktArm c (197 + p)).setChPort p { d.chPort p with
    reqAt := some c.ns
    good := if (d.chPort p).open_ then 0 else (d.chPort p).good
    seq := ((d.chPort p).seq + 1) % 65536, open_ := true, t1 := none, resp := none }).chJudge c p

theorem Dev.pdelayReq_eq (hl : d.flag (chLink p) = true) (h : d.pdelayOver c p = true) : d.pdelayReq c p = ((d.reqOpened c p).chLaunch c p
    ((d.reqOpened c p).ptpFrame p 2 (((d.chPort p).seq + 1) % 65536) 0 false 0x7F (beBytes 20 0))).2 := by
  rw [Dev.pdelayOver] at h
  rw [Dev.pdelayReq, if_neg (by simp [hl, h])]
  rfl

/-- A request opens an exchange with the next sequence number. -/
theorem Dev.pdelayReq_opens (hl : d.flag (chLink p) = true) (h : d.pdelayOver c p = true) :
    ((d.pdelayReq c p).chPort p).open_ = true ∧ ((d.pdelayReq c p).chPort p).reqAt = some c.ns ∧
      ((d.pdelayReq c p).chPort p).seq = ((d.chPort p).seq + 1) % 65536 := by
  rw [Dev.pdelayReq_eq hl h]
  obtain ⟨hopen, hreq, hseq⟩ := SameExchange.chLaunch (d := d.reqOpened c p) (c := c) (p := p)
    (f := (d.reqOpened c p).ptpFrame p 2 (((d.chPort p).seq + 1) % 65536) 0 false 0x7F (beBytes 20 0))
  rw [Dev.reqOpened, Dev.chPort_ports Dev.chJudge_ports, Dev.chPort_setChPort_self, ← Dev.reqOpened] at hopen hreq hseq
  exact ⟨hopen, hreq, hseq⟩

theorem Dev.pdelayMessage_deaf (h : d.flag (chLink p) = false) : d.pdelayMessage c p m = d := by
  rw [Dev.pdelayMessage, if_pos (.inl (by simp [h]))]

theorem Dev.pdelayMessage_bad (hl : d.flag (chLink p) = true) (hp : isPtp m.frame = true) (h : m.frame.bad = true ∨ lengthOk m.frame = false) :
    d.pdelayMessage c p m = d.bump (CHAIN_CHp_RXERR_V p) := by
  rw [Dev.pdelayMessage, if_neg (by simp [hl, hp]), if_pos (by simpa using h)]

/-- Port p has counted a message, its job is armed, and x is its new state. -/
def Dev.respKept (d : Dev) (c : Clock) (p : Nat) (x : ChainPort) : Dev := ((d.bump (CHAIN_CHp_RXOK_V p)).pktArm c (197 + p)).setChPort p x

theorem OnlyRegs.setChain {e : Dev} {r : Nat → Prop} {y z : ChainX} (h : OnlyRegs r d e) :
    OnlyRegs r d { ({ ({ e with chain := y } : Dev) with chain := z } : Dev) with chain := d.chain } := ⟨h.1, by rw [h.2]⟩

theorem Dev.respKept_fields {x : ChainPort} (hp : p < 2) :
    (d.respKept c p x).get (CHAIN_CHp_RXOK_V p) = satU 32 (d.get (CHAIN_CHp_RXOK_V p) + 1) ∧ (d.respKept c p x).servo = d.servo ∧
      (d.jobState (197 + p) ≠ jobFree → OnlyRegs (· = (CHAIN_CHp_RXOK_V p).addr) d { d.respKept c p x with chain := d.chain }) := by
  have harm : Counted p 0 0 (d.bump (CHAIN_CHp_RXOK_V p)) ((d.bump (CHAIN_CHp_RXOK_V p)).pktArm c (197 + p)) :=
    .of_aside hp (.pktArm (by omega)) (Dev.pktArm_servo (by omega))
  have hcount : Counted p 0 1 d (d.respKept c p x) := (Counted.bumpOk hp).trans (harm.trans .setChPort)
  refine ⟨hcount.ok, hcount.servo, fun hjob => ?_⟩
  have hstate : (d.bump (CHAIN_CHp_RXOK_V p)).jobState (197 + p) = d.jobState (197 + p) := by
    refine Dev.get_put_ne ?_
    simp only [CHAIN_CHp_RXOK_V, HERDER_JOBj_CFG_STATE]
    omega
  have hbump : OnlyRegs (· = (CHAIN_CHp_RXOK_V p).addr) d (d.bump (CHAIN_CHp_RXOK_V p)) := .put rfl
  rw [Dev.respKept, Dev.pktArm_owed (by rw [hstate]; exact hjob), Dev.setChPort]
  exact hbump.setChain

/-- The response to this port's request is kept with its instants. -/
theorem Dev.pdelayMessage_resp (hl : d.flag (chLink p) = true) (hp : isPtp m.frame = true) (hb : m.frame.bad = false)
    (hlen : lengthOk m.frame = true) (ht : ptpType m.frame = 3) (ho : (d.chPort p).open_ = true) (hseq : ptpSeq m.frame = (d.chPort p).seq)
    (hme : d.ptpToMe p m.frame = true) : d.pdelayMessage c p m = d.respKept c p
      { d.chPort p with resp := some (((ptpNs m.frame : Int) * 65536 - ptpCorr m.frame).toNat, d.ingress p m.ingress) } := by
  rw [Dev.pdelayMessage, if_neg (by simp [hl, hp]), if_neg (by simp [hb, hlen])]
  simp only [ht]
  rw [if_pos ⟨ho, hseq, hme⟩, Dev.respKept]

end PeerDelay

section Announce

variable {d : Dev} {c : Clock}

/-! Announce (R417). -/

/-- The interval of Announce has run. -/
def Dev.announceOver (d : Dev) (c : Clock) : Bool := intervalOver d.chain.annAt c.ns (logSecs (d.getI CHAIN_PTP_ACT_LANN))

/-- The sequence number of Announce taken, and its instant noted. -/
def Dev.announced (d : Dev) (c : Clock) : Dev := { d with chain := { d.chain with
  annAt := some c.ns
  seqs := d.chain.seqs.set (fun _ => 0) 65538 ((d.chain.seqs.get (fun _ => 0) 65538 + 1) % 65536) } }

theorem Dev.announce_idle (h : d.get TIME_CTRL_MODE ≠ 2 ∨ d.announceOver c = false) : d.announce c = d := by
  rw [Dev.announceOver] at h
  rw [Dev.announce, if_pos (by rcases h with h | h <;> simp [h])]

/-- Without links no frame leaves. -/
theorem Dev.announce_unlinked (hm : d.get TIME_CTRL_MODE = 2) (h : d.announceOver c = true) (h0 : d.flag (chLink 0) = false)
    (h1 : d.flag (chLink 1) = false) : d.announce c = d.announced c := by
  have hl0 : (d.announced c).flag (chLink 0) = false := h0
  have hl1 : (d.announced c).flag (chLink 1) = false := h1
  rw [Dev.announceOver] at h
  rw [Dev.announce, if_neg (by simp [hm, h])]
  simp only [List.foldl_cons, List.foldl_nil]
  rw [show (2 ^ 16 + 2 : Nat) = 65538 from rfl, ← Dev.announced, hl0, if_neg Bool.false_ne_true, hl1, if_neg Bool.false_ne_true]

theorem Dev.announced_seq : (d.announced c).chain.seqs.get (fun _ => 0) 65538 = (d.chain.seqs.get (fun _ => 0) 65538 + 1) % 65536 :=
  Tab.get_set_self

end Announce

section ServoLimits

variable {d : Dev} {c : Clock} {x : Int}

/-! The master is lost (R62, R613). -/

theorem Dev.masterLost_idle (h : d.get TIME_CTRL_MODE ≠ 1 ∨ d.servo.lossReported = true ∨ c.ns < d.servo.watchFrom + 3 * d.servo.syncNs) :
    d.masterLost c = d := by rw [Dev.masterLost, if_pos h]

/-- The loss is noted and shown. -/
def Dev.lossShown (d : Dev) : Dev := ({ d with servo := { d.servo with lossReported := true } } : Dev).setf TIME_STAT_MASTER_LOST

/-- What is left of a slew becomes the pending step. -/
def Dev.slewPends (d : Dev) : Dev :=
  if d.get TIME_STAT_STATE = servoSlew then
    ({ d.lossShown with servo := { d.lossShown.servo with slewRem := 0 } } : Dev).setPend (roundDiv d.lossShown.servo.slewRem (2 ^ 48)) true
  else d.lossShown

/-- A servo that follows its master goes to HOLDOVER. -/
def Dev.lossHolds (d : Dev) (c : Clock) : Dev :=
  if d.get TIME_STAT_STATE = servoFree ∨ d.get TIME_STAT_STATE = servoHoldover then d.slewPends else d.slewPends.toHoldover c

theorem Dev.masterLost_eq (hm : d.get TIME_CTRL_MODE = 1) (hl : d.servo.lossReported = false)
    (h : d.servo.watchFrom + 3 * d.servo.syncNs ≤ c.ns) : d.masterLost c = (d.lossHolds c).record c 33 0x6E 0 := by
  rw [Dev.masterLost, if_neg (by simp [hm, hl, h]), Dev.lossHolds, Dev.slewPends]
  rfl

theorem Dev.flag_setPend_apart {g : Field} {b : Bool} (hlo : TIME_PEND_LO_PEND.addr ≠ g.addr) (hhi : TIME_PEND_HI_PEND.addr ≠ g.addr)
    (h : TIME_STAT_STEP_PEND.Apart g) : (d.setPend x b).flag g = d.flag g := by
  rw [Dev.setPend, Dev.flag_setf_apart ⟨rfl, by decide⟩ h]
  exact Dev.flag_congr (Dev.reg_put64_ne hlo hhi)

theorem Dev.lossShown_fields : d.lossShown.flag TIME_STAT_MASTER_LOST = true ∧ d.lossShown.servo.lossReported = true ∧
    d.lossShown.get TIME_STAT_STATE = d.get TIME_STAT_STATE := by
  unfold Dev.lossShown
  refine ⟨Dev.flag_setf_self (f := TIME_STAT_MASTER_LOST) ⟨rfl, by decide⟩, by rw [Dev.setf, Dev.put_servo], ?_⟩
  rw [Dev.setf, Dev.get_put_apart (by decide) (Field.apart_of (by decide))]
  exact Dev.get_congr rfl

theorem Dev.slewPends_fields : d.slewPends.flag TIME_STAT_MASTER_LOST = true ∧ d.slewPends.servo.lossReported = true ∧
    d.slewPends.get TIME_STAT_STATE = d.get TIME_STAT_STATE := by
  obtain ⟨hlost, hrep, hst⟩ := Dev.lossShown_fields (d := d)
  unfold Dev.slewPends
  split
  · refine ⟨?_, by rw [Dev.setPend_servo, hrep], ?_⟩
    · rw [Dev.flag_setPend_apart (by decide) (by decide) (Field.apart_of (by decide)), Dev.flag_setServo, hlost]
    · rw [Dev.get_setPend_state, ← hst]
      exact Dev.get_congr rfl
  · exact ⟨hlost, hrep, hst⟩

theorem Dev.toHoldover_fields : (d.toHoldover c).flag TIME_STAT_MASTER_LOST = d.flag TIME_STAT_MASTER_LOST ∧
    (d.toHoldover c).servo.lossReported = d.servo.lossReported ∧ (d.toHoldover c).get TIME_STAT_STATE = servoHoldover := by
  unfold Dev.toHoldover
  refine ⟨?_, ?_, ?_⟩
  · rw [Dev.flag_setRate (by decide) (Field.apart_of (by decide)), Dev.flag_servoTo_apart (Field.apart_of (by decide)), Dev.flag_setServo]
  · rw [Dev.setRate_servo, Dev.servoTo_servo]
    dsimp only
    split <;> rfl
  · rw [Dev.get_setRate (by decide) stat_apart_state, Dev.get_servoTo (by decide)]

theorem Dev.lossHolds_fields : (d.lossHolds c).flag TIME_STAT_MASTER_LOST = true ∧ (d.lossHolds c).servo.lossReported = true ∧
    (d.lossHolds c).get TIME_STAT_STATE = if d.get TIME_STAT_STATE = servoFree then servoFree else servoHoldover := by
  obtain ⟨hlost, hrep, hst⟩ := Dev.slewPends_fields (d := d)
  obtain ⟨hlost', hrep', hst'⟩ := Dev.toHoldover_fields (d := d.slewPends) (c := c)
  unfold Dev.lossHolds
  by_cases hfree : d.get TIME_STAT_STATE = servoFree
  · rw [if_pos (.inl hfree), if_pos hfree]
    exact ⟨hlost, hrep, hst.trans hfree⟩
  · rw [if_neg hfree]
    by_cases hhold : d.get TIME_STAT_STATE = servoHoldover
    · rw [if_pos (.inr hhold)]
      exact ⟨hlost, hrep, hst.trans hhold⟩
    · rw [if_neg (by rintro (h | h) <;> contradiction)]
      exact ⟨hlost'.trans hlost, hrep'.trans hrep, hst'⟩

theorem Dev.masterLost_fields (hm : d.get TIME_CTRL_MODE = 1) (hl : d.servo.lossReported = false)
    (h : d.servo.watchFrom + 3 * d.servo.syncNs ≤ c.ns) : (d.masterLost c).flag TIME_STAT_MASTER_LOST = true ∧
      (d.masterLost c).servo.lossReported = true ∧
      (d.masterLost c).get TIME_STAT_STATE = if d.get TIME_STAT_STATE = servoFree then servoFree else servoHoldover := by
  obtain ⟨hlost, hrep, hst⟩ := Dev.lossHolds_fields (d := d) (c := c)
  have hreg : ((d.lossHolds c).record c 33 0x6E 0).reg TIME_STAT_STATE.addr = (d.lossHolds c).reg TIME_STAT_STATE.addr :=
    Dev.record_keepsRegs _ (by decide)
  rw [Dev.masterLost_eq hm hl h]
  exact ⟨(Dev.flag_congr (f := TIME_STAT_MASTER_LOST) hreg).trans hlost, by rw [Dev.record_servo, hrep], (Dev.get_congr hreg).trans hst⟩

/-! HOLDOVER past its limit (R63). -/

/-- HOLDOVER has lasted longer than HLIM, not yet shown. -/
def Dev.holdoverOver (d : Dev) (c : Clock) : Prop := d.get TIME_STAT_STATE = servoHoldover ∧ d.servo.expired = false ∧
  d.get TIME_HOLD_HLIM * 1000000 * 2 ^ 48 < c.tor - d.servo.holdFrom

theorem Dev.holdoverLimit_within (h : ¬ d.holdoverOver c) : d.holdoverLimit c = d := by
  rw [Dev.holdoverOver] at h
  rw [Dev.holdoverLimit, if_neg (by simpa using h)]

/-- HOLD_EXP set. -/
def Dev.holdExpired (d : Dev) : Dev := ({ d with servo := { d.servo with expired := true } } : Dev).setf TIME_STAT_HOLD_EXP

theorem Dev.holdoverLimit_over (h : d.holdoverOver c) : d.holdoverLimit c = d.holdExpired := by
  obtain ⟨hst, hexp, hlim⟩ := h
  rw [Dev.holdoverLimit, if_pos ⟨hst, by simp [hexp], hlim⟩, Dev.holdExpired]

theorem Dev.holdoverStop_within (h : ¬ d.holdoverOver c) : d.holdoverStop c = d := by
  rw [Dev.holdoverStop, Dev.holdoverLimit_within h]
  dsimp only
  rw [if_pos]
  cases d.servo.expired <;> simp

theorem Dev.holdExpired_frame : OnlyRegs (· = TIME_STAT_HOLD_EXP.addr) { d with servo := { d.servo with expired := true } } d.holdExpired :=
  .setf rfl

theorem Dev.holdExpired_fields : d.holdExpired.flag TIME_STAT_HOLD_EXP = true ∧ d.holdExpired.servo.expired = true ∧
    OnlyRegs (· = TIME_STAT_HOLD_EXP.addr) d { d.holdExpired with servo := d.servo } := by
  refine ⟨Dev.flag_setf_self (f := TIME_STAT_HOLD_EXP) ⟨rfl, by decide⟩, by rw [Dev.holdExpired_frame.2], fun a ha => ?_, ?_⟩
  · exact Dev.holdExpired_frame.1 a ha
  · rw [Dev.holdExpired_frame.2]

/-- With no slot that follows another nothing else happens. -/
theorem Dev.holdoverStop_over (h : d.holdoverOver c) (hn : ∀ a < 64, (d.axX a).mst = none) : d.holdoverStop c = d.holdExpired := by
  have hax : d.holdExpired.ax = d.ax := by rw [Dev.holdExpired_frame.2]
  have hfold : ∀ l : List Nat, (∀ a ∈ l, a < 64) → l.foldl (fun d a => match (d.axX a).mst with
      | some m => if m.typ = 3 ∨ m.typ = 4 then d.setAxX a { d.axX a with hold31 := true } else d
      | none => d) d.holdExpired = d.holdExpired := by
    intro l hl
    induction l with
    | nil => rfl
    | cons a l ih =>
      have hmst : (d.holdExpired.axX a).mst = none := by rw [Dev.axX, hax, ← Dev.axX, hn a (hl a (by simp))]
      rw [List.foldl_cons, hmst]
      exact ih fun b hb => hl b (by simp [hb])
  rw [Dev.holdoverStop, Dev.holdoverLimit_over h]
  dsimp only
  split
  · rfl
  · exact hfold _ fun a ha => List.mem_range.mp ha

/-! The step is removed (R59, R64). -/

theorem Dev.slewComplete_idle (h : ¬ (d.get TIME_STAT_STATE = servoSlew ∧ d.servo.slewRem = 0)) : d.slewComplete = d := by
  rw [Dev.slewComplete, if_neg h]

/-- The servo after its slew, its offsets counted anew. -/
def Dev.slewed (d : Dev) : Dev := (({ d with servo := { d.servo with good := 0 } } : Dev).servoTo servoAcquire).setRate

theorem Dev.slewComplete_done (h : d.get TIME_STAT_STATE = servoSlew) (hr : d.servo.slewRem = 0) : d.slewComplete = d.slewed := by
  rw [Dev.slewComplete, if_pos ⟨h, hr⟩, Dev.slewed]

/-- Another state of the servo raises the epoch of its unit (R31). -/
theorem Dev.servoTo_epoch {st : Nat} (h : d.get TIME_STAT_STATE ≠ st) : (d.servoTo st).epochOf 0x6E = (d.epochOf 0x6E + 1) % 256 := by
  have hepoch : ∀ e : Dev, e.epochOf 0x6E = e.epochs.get (fun _ => 0) 0x6E := fun e => by
    rw [Dev.epochOf, if_neg (by decide), if_neg (by decide)]
  rw [hepoch, hepoch, Dev.servoTo, Dev.putState, if_neg h, Dev.raise, if_neg (by decide)]
  exact Tab.get_set_self

theorem Dev.epochOf_servo {e : Dev} (h : e.epochs = d.epochs) : e.epochOf 0x6E = d.epochOf 0x6E := by
  rw [Dev.epochOf, Dev.epochOf, if_neg (by decide), if_neg (by decide), if_neg (by decide), if_neg (by decide), h]

theorem Dev.setRate_epochs : d.setRate.epochs = d.epochs := by rw [Dev.setRate_frame.2]

theorem Dev.slewed_fields (h : d.get TIME_STAT_STATE = servoSlew) : d.slewed.get TIME_STAT_STATE = servoAcquire ∧ d.slewed.servo.good = 0 ∧
    d.slewed.epochOf 0x6E = (d.epochOf 0x6E + 1) % 256 := by
  have hst : ({ d with servo := { d.servo with good := 0 } } : Dev).get TIME_STAT_STATE = d.get TIME_STAT_STATE := Dev.get_congr rfl
  have hepoch : ({ d with servo := { d.servo with good := 0 } } : Dev).epochOf 0x6E = d.epochOf 0x6E := Dev.epochOf_servo rfl
  unfold Dev.slewed
  refine ⟨?_, by rw [Dev.setRate_servo, Dev.servoTo_servo], ?_⟩
  · rw [Dev.get_setRate (by decide) stat_apart_state, Dev.get_servoTo (by decide)]
  · rw [Dev.epochOf_servo Dev.setRate_epochs, Dev.servoTo_epoch (by rw [hst, h]; decide), hepoch]

theorem ServoFrame.slewed : ServoFrame d d.slewed := ServoFrame.setServo.trans (ServoFrame.servoTo.trans (.regs Dev.setRate_frame))

theorem Dev.slewed_keeps : KeepsRegs (fun a => a = TIME_STAT_STATE.addr ∨ a = TIME_RATE_Y.addr) d d.slewed := fun a ha =>
  (Dev.setRate_frame.reg_eq ha).trans (Dev.servoTo_keeps a fun h => ha (.inl h))

theorem ServoFrame.onlyRegs {r : Nat → Prop} {e : Dev} (h : ServoFrame d e) (hk : KeepsRegs r d e) :
    OnlyRegs r d { e with servo := d.servo, epochs := d.epochs } := ⟨hk, by rw [h]⟩

theorem Dev.slewed_onlyRegs : OnlyRegs (fun a => a = TIME_STAT_STATE.addr ∨ a = TIME_RATE_Y.addr) d
    { d.slewed with servo := d.servo, epochs := d.epochs } := ServoFrame.slewed.onlyRegs Dev.slewed_keeps

end ServoLimits

end Sys2Proof.Machine

section
open Sys2Proof Sys2Proof.Machine

/-- Settles O52: a message is counted and passed on by the lemmas about its frames, and the servo moves by those about its limits. -/
theorem timeServoRows : Obligations.TimeServoRows := by
  intro s hs d st
  refine ⟨?sync, ?pdelay, ?announceIdle, ?announce, ?lossIdle, ?loss, ?holdIdle, ?hold, ?slewIdle, ?slew⟩
  case sync =>
    intro m two sound bad free
    have hrow := exec_syncReceived (m := m) hs
    have hport : ∀ q, free q → PortFree d s.clk q := fun q ⟨hlink, hidle, hempty, hguard⟩ => ⟨hlink, hidle, hempty, hguard⟩
    have hbad : bad ↔ syncBad m := syncBad_iff.symm
    refine ⟨fun h => ?_, fun h ht hl => ?_, fun h hb => ?_, fun h hb hcap => ?_, fun h hb hcap ht => ?_⟩
    · rw [hrow, Dev.syncReceived_unsound h]
    · rw [hrow, Dev.syncReceived_short h ht hl]
    · have heard := Dev.syncReceived_heard (c := s.clk) h (.inl (syncWhole_bad (hbad.mp hb)))
      obtain ⟨herr, -, -, hservo, hlanes⟩ := Counted.syncHeard (d := d) (c := s.clk) (m := m)
      rw [heard] at hrow
      refine ⟨_, hrow, rfl, hservo, hlanes, syncErrs_eq ▸ herr, fun ht hsync hl hc hf => ?_, fun ht hl hc hf => ?_⟩
      · have hwrong : frameWrong m.sync = true := frameWrong_iff.mpr (.inl hsync)
        have hsent := Dev.syncHeard_sent hl hc (hport _ hf) (.inr (.inl hwrong))
        rw [if_pos ht] at hsent
        exact hsent
      · have hsync : m.sync.bad = true := by
          rcases hb with hb | hb | ⟨hb, -⟩
          · exact hb
          · exact absurd hl (by simp [hb])
          · exact absurd ht (by simp [two, hb])
        exact ⟨_, Dev.syncHeard_sent hl hc (hport _ hf) (.inl ht), hsync⟩
    · have hsound : ¬ syncBad m := fun hx => hb (hbad.mpr hx)
      have hpair : d.flag (chCap m.port.val) = false ∨ (ptpTwoStep m.sync = true ∧ syncPaired m = false) :=
        hcap.imp_right fun ⟨ht, hn⟩ => ⟨ht, syncPaired_false ht hn⟩
      have heard := Dev.syncReceived_heard (c := s.clk) h
        (hpair.elim (fun hc => .inr (.inl hc)) fun hp => .inl (syncWhole_unpaired hp.2))
      obtain ⟨-, hok, -, hservo, -⟩ := Counted.syncHeard (d := d) (c := s.clk) (m := m)
      rw [heard] at hrow
      rw [syncOks_sound hsound] at hok
      refine ⟨_, hrow, rfl, hservo, fun hc => Dev.syncHeard_ports.trans (by rw [Dev.syncFollowed_stays hc]), fun hc hf => ?_, hok⟩
      obtain ⟨ht, hunpaired⟩ := hpair.resolve_left (by simp [hc])
      have hsent := Dev.syncHeard_sent (lengthOk_of_sound hsound) hc (hport _ hf) (.inr (.inr hunpaired))
      rw [if_pos ht] at hsent
      exact hsent
    · have hsound : ¬ syncBad m := fun hx => hb (hbad.mpr hx)
      have haside := Dev.syncReceived_aside (c := s.clk) h
      obtain ⟨-, hok, -, hservo, -⟩ := Counted.syncHeard (d := d) (c := s.clk) (m := m)
      rw [syncOks_sound hsound, if_neg (by simpa [two] using ht)] at hok
      refine ⟨_, hrow, rfl, ?_, fun hlink hidle hempty hguard => ?_, fun hn => ?_, fun hm => ?_⟩
      · exact (Dev.get_congr (haside.regs _ (isChainReg_counts m.port.isLt).2.1)).trans hok
      · have hsent := Dev.syncHeard_sent (lengthOk_of_sound hsound) hcap ⟨hlink, hidle, hempty, hguard⟩ (.inl ht)
        rw [if_neg (by simpa [two] using ht), ← Dev.chPort_ports haside.ports] at hsent
        exact hsent
      · exact (congrArg Dev.servo (Dev.syncReceived_heard h (.inr (.inr hn)))).trans hservo
      · have hused := Dev.syncReceived_used (c := s.clk) h (syncWhole_one hsound ht) hcap hm
        rw [hused]
        exact Dev.servoOffset_heard
  case pdelay =>
    intro p
    refine ⟨fun hl => ⟨?_, fun m => ?_⟩, ⟨fun ho => ?_, fun ho hl => ?_⟩, fun m hl hp hb => ?_,
      fun m hl hp hb hlen ht ho hseq hme => ?_⟩
    · exact (exec_serving hs rfl).trans (by rw [Dev.pdelayReq_idle (.inl hl)])
    · exact (exec_serving hs rfl).trans (by rw [Dev.pdelayMessage_deaf hl])
    · exact (exec_serving hs rfl).trans (by rw [Dev.pdelayReq_idle (.inr ho)])
    · obtain ⟨hopen, hreq, hseq⟩ := Dev.pdelayReq_opens (c := s.clk) hl ho
      exact ⟨_, exec_serving hs rfl, rfl, hopen, hreq, hseq⟩
    · exact (exec_serving hs rfl).trans (by rw [Dev.pdelayMessage_bad hl hp hb])
    · have hrow : exec (.pdelayMessage p m) s = .next { s with dev := d.respKept s.clk p { d.chPort p with
          resp := some (((ptpNs m.frame : Int) * 65536 - ptpCorr m.frame).toNat, d.ingress p m.ingress) } } :=
        (exec_serving hs rfl).trans (by rw [Dev.pdelayMessage_resp hl hp hb hlen ht ho hseq hme])
      obtain ⟨hok, hservo, hregs⟩ := Dev.respKept_fields (d := d) (c := s.clk) p.isLt
      exact ⟨_, hrow, rfl, Dev.chPort_setChPort_self, hok, hservo, hregs⟩
  case announceIdle => exact fun h => (exec_serving hs rfl).trans (by rw [Dev.announce_idle h])
  case announce =>
    intro hm ho h0 h1
    exact ⟨_, (exec_serving hs rfl).trans (by rw [Dev.announce_unlinked hm ho h0 h1]), rfl, Dev.announced_seq⟩
  case lossIdle => exact fun h => (exec_serving hs rfl).trans (by rw [Dev.masterLost_idle h])
  case loss =>
    intro hm hl ho
    exact ⟨_, exec_serving hs rfl, Dev.masterLost_fields hm hl ho⟩
  case holdIdle => exact fun h => (exec_serving hs rfl).trans (by rw [Dev.holdoverStop_within h])
  case hold =>
    intro hst hexp ho hn
    have hrow : exec .holdoverLimit s = .next { s with dev := s.dev.holdoverStop s.clk } :=
      exec_serving (h := fun c d => d.holdoverStop c) hs rfl
    obtain ⟨hflag, hexpired, honly⟩ := Dev.holdExpired_fields (d := s.dev)
    rw [Dev.holdoverStop_over ⟨hst, hexp, ho⟩ hn] at hrow
    exact ⟨_, hrow, hflag, hexpired, honly⟩
  case slewIdle => exact fun h => (exec_serving hs rfl).trans (by rw [Dev.slewComplete_idle h])
  case slew =>
    intro hst hrem
    obtain ⟨hstate, hgood, hepoch⟩ := Dev.slewed_fields hst
    have hrow : exec .slewComplete s = .next { s with dev := s.dev.slewComplete } :=
      exec_serving (h := fun _ d => d.slewComplete) hs rfl
    rw [Dev.slewComplete_done hst hrem] at hrow
    exact ⟨_, hrow, hstate, hgood, hepoch, Dev.slewed_onlyRegs⟩

end

/-! PROOFS. The release of a response while another waits for an entry (R376, log entry 28). -/

namespace Sys2Proof.Machine

section ReleaseLate

variable {m : Nat} {d : Dev} {c : Clock} {ws : List W64} {rest : List (List W64)}

/-- Queue m without its oldest entry. -/
def Dev.rspDropped (d : Dev) (m : Nat) : Dev :=
  (d.put (MBX_Mm_STAT_RHEAD m) ((d.get (MBX_Mm_STAT_RHEAD m) + 1) % 16)).put (MBX_Mm_STAT_RCOUNT m) (d.get (MBX_Mm_STAT_RCOUNT m) - 1)

theorem Dev.rspRelease_eq (hn : d.get (MBX_Mm_STAT_RCOUNT m) ≠ 0) :
    d.rspRelease c m = ((d.rspDropped m).rspLate m).mboxTry c m := by rw [Dev.rspRelease, if_neg hn, Dev.rspDropped]

theorem Dev.rspDropped_count (hc : d.get (MBX_Mm_STAT_RCOUNT m) ≤ 16) :
    (d.rspDropped m).get (MBX_Mm_STAT_RCOUNT m) = d.get (MBX_Mm_STAT_RCOUNT m) - 1 :=
  Dev.get_put_fit (f := MBX_Mm_STAT_RCOUNT m) (by decide : 8 + 5 ≤ 32)
    (show d.get (MBX_Mm_STAT_RCOUNT m) - 1 < 2 ^ 5 by omega)

theorem Dev.rspDropped_frame : OnlyRegs (· = (MBX_Mm_STAT_RCOUNT m).addr) d (d.rspDropped m) := by
  have hhead : OnlyRegs (· = (MBX_Mm_STAT_RCOUNT m).addr) d (d.put (MBX_Mm_STAT_RHEAD m) ((d.get (MBX_Mm_STAT_RHEAD m) + 1) % 16)) :=
    .put rfl
  exact hhead.trans (.put rfl)

theorem Dev.rspDropped_route : (d.rspDropped m).get MBX_ROUTE_ROUTE = d.get MBX_ROUTE_ROUTE := by
  refine Dev.rspDropped_frame.get_eq ?_
  simp only [MBX_Mm_STAT_RCOUNT, MBX_ROUTE_ROUTE]
  omega

/-- A queue with room takes the response that waits. -/
theorem Dev.rspLate_count (hlate : (d.mbox m).late = ws :: rest) (hr : (d.get MBX_ROUTE_ROUTE).testBit m = false)
    (hc : d.get (MBX_Mm_STAT_RCOUNT m) < 16) : (d.rspLate m).get (MBX_Mm_STAT_RCOUNT m) = d.get (MBX_Mm_STAT_RCOUNT m) + 1 := by
  have hkeeps : MboxKeeps m d (d.setMbox m { d.mbox m with late := rest }) := .setMbox rfl rfl
  rw [Dev.rspLate, hlate]
  exact (hkeeps.answers .putEntry).count hr hc

/-- The response that waits takes the entry released, so RCOUNT stays. -/
theorem Dev.rspRelease_late_count (hlate : (d.mbox m).late = ws :: rest) (hr : (d.get MBX_ROUTE_ROUTE).testBit m = false)
    (hn : d.get (MBX_Mm_STAT_RCOUNT m) ≠ 0) (hc : d.get (MBX_Mm_STAT_RCOUNT m) ≤ 16) :
    (d.rspRelease c m).get (MBX_Mm_STAT_RCOUNT m) = d.get (MBX_Mm_STAT_RCOUNT m) := by
  have hdrop : (d.rspDropped m).get (MBX_Mm_STAT_RCOUNT m) = d.get (MBX_Mm_STAT_RCOUNT m) - 1 := Dev.rspDropped_count hc
  calc (d.rspRelease c m).get (MBX_Mm_STAT_RCOUNT m)
      = ((d.rspDropped m).rspLate m).get (MBX_Mm_STAT_RCOUNT m) := by
        rw [Dev.rspRelease_eq hn, Dev.get, Dev.reg, Dev.mboxTry_regs, Dev.get, Dev.reg]
    _ = (d.rspDropped m).get (MBX_Mm_STAT_RCOUNT m) + 1 :=
        Dev.rspLate_count hlate (by rw [Dev.rspDropped_route, hr]) (by omega)
    _ = d.get (MBX_Mm_STAT_RCOUNT m) := by omega

/-- In READY, the 16 entries of response queue 0 are filled and one response more waits; no request waits. -/
def responseWaiting : State :=
  { clk := { tor := 0 }
    dev := { dst := .ready, regs := [((MBX_Mm_STAT_RCOUNT 0).addr, 16 * 2 ^ 8)], mbx := [(0, { late := [List.replicate 8 0] })] } }

theorem responseWaiting_count : responseWaiting.dev.get (MBX_Mm_STAT_RCOUNT 0) = 16 := by decide

end ReleaseLate

end Sys2Proof.Machine

section
open Sys2Proof Sys2Proof.Machine

/-- Refutes O27: the statement lets RCOUNT of a mailbox without waiting requests count down at every release, but where a response waits for
an entry it takes the one released (R376, log entry 28), and RCOUNT stays 16. -/
theorem not_readsAndWritesThatClear : ¬ Obligations.ReadsAndWritesThatClear := by
  intro h
  obtain ⟨-, -, -, -, -, -, -, -, hrelease, -, -⟩ := h responseWaiting rfl
  obtain ⟨t, ht, hcount, -⟩ := hrelease 0 (by decide) rfl
  have hrow : exec (.responseRelease 0) responseWaiting =
      .next { responseWaiting with dev := responseWaiting.dev.rspRelease responseWaiting.clk 0 } :=
    exec_serving (h := fun c d => d.rspRelease c 0) rfl rfl
  obtain rfl := Host.Outcome.next.inj (hrow.symm.trans ht)
  have hstays : (responseWaiting.dev.rspRelease responseWaiting.clk 0).get (MBX_Mm_STAT_RCOUNT 0) = 16 :=
    Dev.rspRelease_late_count (m := 0) rfl (by decide) (by decide) (by decide)
  have hdown : (responseWaiting.dev.rspRelease responseWaiting.clk 0).get (MBX_Mm_STAT_RCOUNT 0) = 16 - 1 :=
    responseWaiting_count ▸ hcount
  exact absurd (hstays.symm.trans hdown) (by decide)

end

/-! PROOFS. What a fault leaves alone of the converters, the trips of the lanes and the packets on their way (R37, R380, R549 to R556). -/

namespace Sys2Proof.Machine

section FaultFrames

variable {d d' e : Dev} {c : Clock} {f : Field} {a g l n u v : Nat} {ids : List Nat} {p : Nat → Prop}

/-- A value that is listed and stays listed after f reads as f makes it. -/
theorem Tab.get_mapV {α : Type} [DecidableEq α] {dflt : Nat → α} {f : α → α} {t : Tab α} {k : Nat} (hv : Tab.get dflt t k ≠ dflt k)
    (hf : f (Tab.get dflt t k) ≠ dflt k) : Tab.get dflt (Tab.mapV dflt f t) k = f (Tab.get dflt t k) := by
  induction t with
  | nil => exact absurd rfl hv
  | cons q t ih =>
    obtain ⟨j, x⟩ := q
    by_cases hj : j = k
    · subst hj
      have hget : Tab.get dflt ((j, x) :: t) j = x := if_pos rfl
      rw [hget] at hf ⊢
      simp [Tab.mapV, hf, Tab.get]
    · have hget : Tab.get dflt ((j, x) :: t) k = Tab.get dflt t k := if_neg hj
      rw [hget] at hv hf ⊢
      rw [← ih hv hf]
      by_cases hx : f x = dflt j
      · simp [Tab.mapV, hx]
      · simp [Tab.mapV, hx, Tab.get, hj]

/-- Registers that hold results of the converters: the block of the filter bank, and VOLT of the DC groups. -/
def isResultReg (a : Nat) : Prop := (0x40050000 ≤ a ∧ a < 0x40060000) ∨ ∃ g < 4, a = (SAR_Gg_VOLT_V g).addr

theorem not_isResultReg (h : a < 0x40050000 ∨ 0x40060000 ≤ a ∧ a % 0x40 ≠ 0x10 ∨ 0x40070000 ≤ a) : ¬ isResultReg a := by
  rintro (hd | ⟨g, hg, hv⟩)
  · omega
  · simp only [SAR_Gg_VOLT_V] at hv
    omega

/-- No DC-link sample of group g is under conversion. -/
def Dev.linkFormed (d : Dev) (g : Nat) : Prop := ∀ q ∈ d.groups, q.1 = g → q.2.dcAt = none

/-- Result registers stay, no packet is taken from its way, and no transfer to undo and no sample under conversion comes up; a lane that has
tripped, or counts as faulted, still does. -/
structure FaultKeeps (d e : Dev) : Prop where
  regs : ∀ a, isResultReg a → e.reg a = d.reg a
  flight : d.fab.flight.length ≤ e.fab.flight.length
  undo : ∀ u, (d.pwmX u).undo = none → (e.pwmX u).undo = none
  trip : ∀ u, (d.lane u).trip = true → (e.lane u).trip = true
  faulted : ∀ u, (d.lane u).faulted = true → (e.lane u).faulted = true
  formed : ∀ g, d.linkFormed g → e.linkFormed g

theorem FaultKeeps.refl : FaultKeeps d d := ⟨fun _ _ => rfl, le_rfl, fun _ h => h, fun _ h => h, fun _ h => h, fun _ h => h⟩

theorem FaultKeeps.trans (h : FaultKeeps d d') (h' : FaultKeeps d' e) : FaultKeeps d e :=
  ⟨fun a ha => (h'.regs a ha).trans (h.regs a ha), h.flight.trans h'.flight, fun u hu => h'.undo u (h.undo u hu),
    fun u hu => h'.trip u (h.trip u hu), fun u hu => h'.faulted u (h.faulted u hu), fun g hg => h'.formed g (h.formed g hg)⟩

theorem FaultKeeps.foldl {α : Type} {k : Dev → α → Dev} {xs : List α} (h : ∀ d, ∀ x ∈ xs, FaultKeeps d (k d x)) :
    FaultKeeps d (xs.foldl k d) :=
  List.foldlRecOn (motive := FaultKeeps d) xs k .refl fun _ hb x hx => hb.trans (h _ x hx)

theorem FaultKeeps.ite {b : Prop} [Decidable b] (ht : FaultKeeps d d') (he : FaultKeeps d e) : FaultKeeps d (if b then d' else e) := by
  split
  · exact ht
  · exact he

/-- What writes no register, none of these records, and at most adds packets. -/
theorem FaultKeeps.of_fields (hr : e.regs = d.regs) (hf : d.fab.flight.length ≤ e.fab.flight.length) (hp : e.pwm = d.pwm)
    (hl : e.lanes = d.lanes) (hg : e.groups = d.groups) : FaultKeeps d e where
  regs a _ := by rw [Dev.reg, hr, Dev.reg]
  flight := hf
  undo u h := by rwa [Dev.pwmX, hp]
  trip u h := by rwa [Dev.lane, hl]
  faulted u h := by rwa [Dev.lane, hl]
  formed g h := by rwa [Dev.linkFormed, hg]

theorem FaultKeeps.of_onlyRegs (h : OnlyRegs p d e) (hp : ∀ a, p a → ¬ isResultReg a) : FaultKeeps d e where
  regs a ha := h.1 a fun hpa => hp a hpa ha
  flight := by rw [h.2]
  undo u hu := by rwa [h.2]
  trip u hu := by rwa [h.2]
  faulted u hu := by rwa [h.2]
  formed g hg := by rwa [h.2]

theorem FaultKeeps.put (h : ¬ isResultReg f.addr) : FaultKeeps d (d.put f v) :=
  .of_onlyRegs (p := (· = f.addr)) (.put rfl) fun _ ha => ha ▸ h

theorem FaultKeeps.setf {x : Bool} (h : ¬ isResultReg f.addr) : FaultKeeps d (d.setf f x) := .put h

theorem FaultKeeps.bump (h : ¬ isResultReg f.addr) : FaultKeeps d (d.bump f n) := .put h

theorem FaultKeeps.copyRegs {ps : List (Nat × Nat)} (h : ∀ r ∈ ps, ¬ isResultReg r.2) : FaultKeeps d (d.copyRegs ps) :=
  .of_onlyRegs (OnlyRegs.copyRegs h) fun _ ha => ha

theorem FaultKeeps.setPwmX {x : PwmX} (h : x.undo = (d.pwmX l).undo) : FaultKeeps d (d.setPwmX l x) where
  regs _ _ := rfl
  flight := le_rfl
  undo u hu := by
    rw [Dev.pwmX_setPwmX]
    split
    · next hlu => rw [h, hlu, hu]
    · exact hu
  trip _ hu := hu
  faulted _ hu := hu
  formed _ hg := hg

theorem FaultKeeps.setLane {x : LaneX} (ht : (d.lane u).trip = true → x.trip = true) (hf : (d.lane u).faulted = true → x.faulted = true) :
    FaultKeeps d (d.setLane u x) where
  regs _ _ := rfl
  flight := le_rfl
  undo _ hu := hu
  trip w hw := by
    rw [Dev.lane_setLane]
    split
    · next huw => exact ht (huw ▸ hw)
    · exact hw
  faulted w hw := by
    rw [Dev.lane_setLane]
    split
    · next huw => exact hf (huw ▸ hw)
    · exact hw
  formed _ hg := hg

/-- A change of every lane that keeps its trip and its count as faulted. -/
theorem FaultKeeps.mapLanes {k : LaneX → LaneX} (ht : ∀ x, (k x).trip = x.trip) (hf : ∀ x, (k x).faulted = x.faulted) :
    FaultKeeps d { d with lanes := d.lanes.mapV (fun _ => {}) k } where
  regs _ _ := rfl
  flight := le_rfl
  undo _ hu := hu
  trip u hu := by
    have hk : (k (d.lane u)).trip = true := (ht _).trans hu
    refine (congrArg LaneX.trip (Tab.get_mapV ?_ ?_)).trans hk
    · exact fun h => Bool.false_ne_true ((congrArg LaneX.trip h).symm.trans hu)
    · exact fun h => Bool.false_ne_true ((congrArg LaneX.trip h).symm.trans hk)
  faulted u hu := by
    have hk : (k (d.lane u)).faulted = true := (hf _).trans hu
    refine (congrArg LaneX.faulted (Tab.get_mapV ?_ ?_)).trans hk
    · exact fun h => Bool.false_ne_true ((congrArg LaneX.faulted h).symm.trans hu)
    · exact fun h => Bool.false_ne_true ((congrArg LaneX.faulted h).symm.trans hk)
  formed _ hg := hg

theorem Dev.linkFormed_setGroupX {x : GroupX} (h : x.dcAt = none) : (d.setGroupX g x).linkFormed g := by
  intro q hq hg
  unfold Dev.setGroupX Tab.set at hq
  have hold : q ∉ d.groups.filter fun p => p.1 ≠ g := fun hmem => by simp [hg] at hmem
  split at hq
  · exact absurd hq hold
  · rcases Tab.mem_ins hq with rfl | hq
    · exact h
    · exact absurd hq hold

theorem Dev.groupX_dcAt (h : d.linkFormed g) : (d.groupX g).dcAt = none := by
  unfold Dev.linkFormed at h
  unfold Dev.groupX
  generalize d.groups = t at h
  induction t with
  | nil => rfl
  | cons q t ih =>
    obtain ⟨j, x⟩ := q
    unfold Tab.get
    split
    · next hj => exact h (j, x) (by simp) hj
    · exact ih fun q hq => h q (by simp [hq])

/-- A group whose record keeps its sample as it was: none comes up. -/
theorem FaultKeeps.setGroupX {x : GroupX} (h : x.dcAt = (d.groupX g).dcAt) : FaultKeeps d (d.setGroupX g x) where
  regs _ _ := rfl
  flight := le_rfl
  undo _ hu := hu
  trip _ hu := hu
  faulted _ hu := hu
  formed k hk := by
    by_cases hg : g = k
    · subst hg
      exact Dev.linkFormed_setGroupX (h.trans (Dev.groupX_dcAt hk))
    · intro q hq hqk
      unfold Dev.setGroupX Tab.set at hq
      have hold : q ∈ d.groups.filter (fun p => p.1 ≠ g) → q.2.dcAt = none := fun hmem => hk q (List.mem_filter.mp hmem).1 hqk
      split at hq
      · exact hold hq
      · rcases Tab.mem_ins hq with rfl | hq
        · exact absurd hqk hg
        · exact hold hq

theorem FaultKeeps.mapGroups {k : GroupX → GroupX} (h : ∀ x, (k x).dcAt = x.dcAt) :
    FaultKeeps d { d with groups := d.groups.mapV (fun _ => {}) k } where
  regs _ _ := rfl
  flight := le_rfl
  undo _ hu := hu
  trip _ hu := hu
  faulted _ hu := hu
  formed g hg := by
    intro q hq hqg
    obtain ⟨y, hy, rfl⟩ := List.mem_map.mp (List.mem_filter.mp hq).1
    exact (h _).trans (hg y hy hqg)

/-! Packets and reports (R25 to R32, R549 to R553). -/

/-- A packet that is sent is one more on its way. -/
theorem Dev.emit_flight_lt {unit type offs : Nat} {time : Option (Nat × Nat)} {ws : List W64} {inj : Bool} (h : n ≤ d.fab.flight.length) :
    n < (d.emit unit type time offs ws inj).fab.flight.length := by
  obtain ⟨x, hx⟩ := Dev.emit_flight (d := d) (unit := unit) (type := type) (time := time) (offs := offs) (ws := ws) (inj := inj)
  rw [hx, List.length_append]
  exact Nat.lt_succ_of_le h

theorem FaultKeeps.emit {unit type offs : Nat} {time : Option (Nat × Nat)} {ws : List W64} {inj : Bool} :
    FaultKeeps d (d.emit unit type time offs ws inj) := .of_fields rfl (Dev.emit_flight_lt le_rfl).le rfl rfl rfl

theorem FaultKeeps.of_report (h : ReportFrame d e) (hr : KeepsRegs isLogReg d e) (hf : d.fab.flight.length ≤ e.fab.flight.length) :
    FaultKeeps d e where
  regs a ha := hr a fun hlog => by
    refine not_isResultReg (.inr (.inr ?_)) ha
    simp only [isLogReg, FLT_STAT_UNREAD, FLT_SUPP_V] at hlog
    omega
  flight := hf
  undo u hu := by rwa [h]
  trip u hu := by rwa [h]
  faulted u hu := by rwa [h]
  formed g hg := by rwa [h]

theorem FaultKeeps.record {code unit info : Nat} {inj : Bool} : FaultKeeps d (d.record c code unit info inj) := by
  refine .of_report .record (fun a ha => Dev.record_keepsRegs a fun h => ha (.inl h)) ?_
  obtain ⟨x, hx⟩ := Dev.record_flight (d := d) (c := c) (code := code) (unit := unit) (info := info) (inj := inj)
  rw [hx]
  simp

theorem FaultKeeps.pairNotice {ft unit type : Nat} {w : W64} : FaultKeeps d (d.pairNotice c ft unit type w) := by
  unfold Dev.pairNotice
  split
  · exact .refl
  · exact .of_fields rfl le_rfl rfl rfl rfl

/-! Responses (R374 to R380). -/

theorem FaultKeeps.wrN {k : Nat} : FaultKeeps d (d.wrN a k v) := by
  induction k generalizing d a v with
  | zero => exact .refl
  | succ k ih => exact FaultKeeps.trans (d' := d.setByte a (BitVec.ofNat 8 v)) (.of_fields rfl le_rfl rfl rfl rfl) ih

theorem FaultKeeps.touchEcc : FaultKeeps d (d.touchEcc a) := by
  unfold Dev.touchEcc
  split <;> exact .of_fields rfl le_rfl rfl rfl rfl

theorem FaultKeeps.wrWords {ws : List W64} : FaultKeeps d (d.wrWords a ws) := by
  induction ws generalizing d a with
  | nil => exact .refl
  | cons w ws ih => exact (FaultKeeps.wrN.trans .touchEcc).trans ih

theorem FaultKeeps.setMbox {x : Mbox} : FaultKeeps d (d.setMbox n x) := .of_fields rfl le_rfl rfl rfl rfl

theorem FaultKeeps.putMbox (h : 0x40128000 ≤ f.addr) : FaultKeeps d (d.put f v) := .put (not_isResultReg (by omega))

theorem FaultKeeps.putEntry {ws : List W64} : FaultKeeps d (d.putEntry n ws) := by
  unfold Dev.putEntry
  split
  · exact .of_fields rfl (by simp) rfl rfl rfl
  · dsimp only
    split
    · exact .setMbox
    · exact FaultKeeps.wrWords.trans (.putMbox mboxStat_high.1)

theorem FaultKeeps.tell {ft : Nat} {ws : List W64} : FaultKeeps d (d.tell ft ws) := by
  unfold Dev.tell
  split
  · exact .of_fields rfl le_rfl rfl rfl rfl
  · exact .refl

theorem FaultKeeps.setTaken {tk : List (Nat × Bool)} : FaultKeeps d (d.setTaken n tk) := by
  have hfloor : 0x40128000 ≤ (MBX_Mm_SEQ_FLOOR n).addr := by
    simp only [MBX_Mm_SEQ_FLOOR]
    omega
  unfold Dev.setTaken
  dsimp only
  split
  · exact FaultKeeps.setMbox.trans (.putMbox hfloor)
  · exact .setMbox

theorem FaultKeeps.placeRsp {src : Byte} {opc seq rtype t : Nat} {r : Rsp} : FaultKeeps d (d.placeRsp n src opc seq rtype t r).2 := by
  unfold Dev.placeRsp
  exact (FaultKeeps.putEntry.trans .tell).trans .setMbox

theorem FaultKeeps.respond {src : Byte} {opc seq rtype t : Nat} {r : Rsp} : FaultKeeps d (d.respond n src opc seq rtype t r) := by
  have hdone : 0x40128000 ≤ (MBX_Mm_DONE_DSEQ n).addr := by
    simp only [MBX_Mm_DONE_DSEQ]
    omega
  have hplace : FaultKeeps d (d.placeRsp n src opc seq rtype t r).2 := .placeRsp
  unfold Dev.respond
  dsimp only
  generalize d.placeRsp n src opc seq rtype t r = x at hplace ⊢
  have hlast {b : Prop} [Decidable b] {y : Mbox} : FaultKeeps d (if b then x.2.setMbox n y else x.2) := .ite (hplace.trans .setMbox) hplace
  have hseq {b b' : Prop} [Decidable b] [Decidable b'] {y : Mbox} :
      FaultKeeps d (if b' then (if b then x.2.setMbox n y else x.2).put (MBX_Mm_DONE_DSEQ n) seq else if b then x.2.setMbox n y else x.2) :=
    .ite (hlast.trans (.putMbox hdone)) hlast
  exact .ite hseq (hseq.trans .setTaken)

theorem FaultKeeps.settle {m : Nat} : FaultKeeps d (d.settle m n) := by
  induction n generalizing d with
  | zero => exact .refl
  | succ n ih =>
    unfold Dev.settle
    dsimp only
    split
    · exact (FaultKeeps.wrWords.trans .wrWords).trans ih
    · exact .refl

theorem FaultKeeps.finish {id rtype t : Nat} {r : Rsp} : FaultKeeps d (d.finish id rtype t r) := by
  unfold Dev.finish
  split
  · exact .refl
  · next w _ =>
    refine FaultKeeps.trans (FaultKeeps.trans ?_ .respond) .settle
    exact FaultKeeps.trans (d' := { d with work := d.work.filter fun w => w.id ≠ id }) (.of_fields rfl le_rfl rfl rfl rfl)
      (.putMbox (by simp only [MBX_Mm_STAT_OUTST]; omega))

/-! Work that is discarded (R37, R255, R380, R555). -/

theorem FaultKeeps.setAxX {x : AxX} : FaultKeeps d (d.setAxX n x) := .of_fields rfl le_rfl rfl rfl rfl

theorem FaultKeeps.discEvent {id : Nat} : FaultKeeps d (d.discEvent c id) := by
  unfold Dev.discEvent
  split
  · split
    · exact .emit
    · exact .refl
  · exact .refl

theorem FaultKeeps.dropMotion : FaultKeeps d (d.dropMotion c a) := by
  unfold Dev.dropMotion
  split
  · exact .refl
  · dsimp only
    split
    · exact FaultKeeps.setAxX.trans .emit
    · exact .setAxX

theorem FaultKeeps.canRemove {i t result : Nat} : FaultKeeps d (d.canRemove n i t result) := by
  have hreg {a : Nat} (ha : 0x400D0000 ≤ a) : ¬ isResultReg a := not_isResultReg (by omega)
  have hcount : 0x400D0000 ≤ (CAN_CHc_TXCTL_COUNT n).addr := by
    simp only [CAN_CHc_TXCTL_COUNT]
    omega
  have hstat : 0x400D0000 ≤ (CAN_CHc_TXSTAT_SENT n).addr := by
    simp only [CAN_CHc_TXSTAT_SENT]
    omega
  unfold Dev.canRemove
  dsimp only
  split
  · exact .refl
  · next e _ =>
    have hshow {x : CanX} : FaultKeeps d ((d.setCanX n x).canTxShow n) :=
      FaultKeeps.trans (d' := d.setCanX n x) (.of_fields rfl le_rfl rfl rfl rfl) (.put (hreg hcount))
    refine FaultKeeps.trans (.ite ?_ ?_) .emit
    · exact hshow.trans (.bump (f := CAN_CHc_TXSTAT_SENT n) (hreg hstat))
    · exact hshow.trans (.bump (f := CAN_CHc_TXSTAT_UNSENT n) (hreg hstat))

theorem FaultKeeps.canDiscard : FaultKeeps d (d.canDiscard c ids) := by
  unfold Dev.canDiscard
  refine .foldl fun d ch _ => .foldl fun d i _ => ?_
  split
  · split
    · exact FaultKeeps.trans (d' := d.takeFree.2) (.of_fields rfl le_rfl rfl rfl rfl) .canRemove
    · exact .refl
  · exact .refl

theorem FaultKeeps.camUse : FaultKeeps d (d.camUse n) := by
  refine .of_onlyRegs Dev.camUse_frame ?_
  rintro a ⟨e, k, rfl⟩
  refine not_isResultReg ?_
  simp only [TRJ_CAMDIR_md_USE]
  omega

theorem FaultKeeps.cancel : FaultKeeps d (d.cancel ids) := by
  unfold Dev.cancel
  dsimp only
  refine FaultKeeps.trans (d' := (d.camLoads.filter fun l => ids.contains l.work).foldl
    (fun d l => d.setAxX l.unit { d.axX l.unit with disc := true }) d) (.foldl fun _ _ _ => .setAxX) ?_
  generalize (d.camLoads.filter fun l => ids.contains l.work).foldl
    (fun d l => d.setAxX l.unit { d.axX l.unit with disc := true }) d = x
  have hlanes := FaultKeeps.mapLanes (d := x) (k := fun y => { y with chg := y.chg.filter fun g => !hitId ids g.work })
    (fun _ => rfl) fun _ => rfl
  split
  · refine FaultKeeps.trans ?_ (.foldl fun _ _ _ => .camUse)
    exact hlanes.trans (.of_fields rfl le_rfl rfl rfl rfl)
  · exact hlanes.trans (.of_fields rfl le_rfl rfl rfl rfl)

theorem FaultKeeps.dropStages : FaultKeeps d d.dropStages := by
  unfold Dev.dropStages
  refine FaultKeeps.trans (.foldl (k := fun d m => d.setf (MBX_Mm_STAT_STAGE m) false) fun d m _ => ?_) (.of_fields rfl le_rfl rfl rfl rfl)
  exact .putMbox (f := MBX_Mm_STAT_STAGE m) (by simp only [MBX_Mm_STAT_STAGE]; omega)

theorem FaultKeeps.discard {code : Nat} {slots : List Nat} : FaultKeeps d (d.discard c code ids slots) := by
  unfold Dev.discard
  refine FaultKeeps.trans ?_ (.foldl fun _ _ _ => .finish)
  refine FaultKeeps.trans ?_ .dropStages
  refine FaultKeeps.trans ?_ .cancel
  refine FaultKeeps.trans ?_ .canDiscard
  exact FaultKeeps.trans (.foldl fun _ _ _ => .dropMotion) (.foldl fun _ _ _ => .discEvent)

/-! Commits that are cancelled (R100, R219, R225, R555). -/

theorem FaultKeeps.cancelCmt {base words : Nat} (hf : ¬ isResultReg f.addr) (hb : ∀ i < words, ¬ isResultReg (base + 4 * i)) :
    FaultKeeps d (d.cancelCmt f base words) := by
  unfold Dev.cancelCmt
  split
  · exact .refl
  · refine FaultKeeps.trans (.setf hf) (.copyRegs fun r hr => ?_)
    obtain ⟨i, hi, hsome⟩ := List.mem_filterMap.mp hr
    obtain ⟨b, -, rfl⟩ := Option.map_eq_some_iff.mp hsome
    exact hb i (List.mem_range.mp hi)

/-- A group of registers outside the converters' blocks. -/
theorem FaultKeeps.cancelCmt_outside {base words : Nat} (hf : f.addr < 0x40050000 ∨ 0x40070000 ≤ f.addr)
    (hb : base + 4 * words ≤ 0x40050000 ∨ 0x40070000 ≤ base) : FaultKeeps d (d.cancelCmt f base words) :=
  .cancelCmt (not_isResultReg (by omega)) fun i hi => not_isResultReg (by omega)

theorem FaultKeeps.cancelUnit : FaultKeeps d (d.cancelUnit u) := by
  have hport (d : Dev) : FaultKeeps d (if u < 24 then d.cancelCmt (FBK_nn_CTL_CMT u) (0x40070000 + 0x200 * u) 11 else d) := by
    split
    · exact .cancelCmt_outside (by simp only [FBK_nn_CTL_CMT]; omega) (by omega)
    · exact .refl
  have hslot (d : Dev) : FaultKeeps d (if u < 64 then d.cancelCmt (TRJ_AXaa_CTL_CMT u) (0x40090000 + 0x100 * u) 16 else d) := by
    split
    · exact .cancelCmt_outside (by simp only [TRJ_AXaa_CTL_CMT]; omega) (by omega)
    · exact .refl
  unfold Dev.cancelUnit
  dsimp only
  split
  · exact ((hport _).trans (hslot _)).trans (.cancelCmt_outside (by simp only [LPB_bb_CTL_CMT]; omega) (by omega))
  · exact (hport _).trans (hslot _)

theorem laneGroupOffs_lt : ∀ r ∈ laneGroupOffs, r.1 < 0x400 := by decide

theorem stpOffs_lt : ∀ r ∈ stpOffs, r.1 < 0x100 := by decide

theorem FaultKeeps.cancelCommit (hl : l < 24) : FaultKeeps d (d.cancelCommit c l) := by
  unfold Dev.cancelCommit
  dsimp only
  split
  · exact .refl
  · refine FaultKeeps.trans ?_ (.copyRegs fun r hr => ?_)
    · refine FaultKeeps.trans (FaultKeeps.trans ?_ (.setf ?_)) (.setf ?_)
      · exact .setPwmX rfl
      · exact not_isResultReg (by simp only [PWM_Lnn_CSTAT_CANCEL]; omega)
      · exact not_isResultReg (by simp only [PWM_Lnn_COMMIT_CMT]; omega)
    · obtain ⟨q, hq, rfl⟩ := List.mem_map.mp hr
      have hlt := laneGroupOffs_lt q hq
      exact not_isResultReg (by simp only [laneBase]; omega)

theorem FaultKeeps.setStpX {x : StpX} : FaultKeeps d (d.setStpX n x) := .of_fields rfl le_rfl rfl rfl rfl

theorem FaultKeeps.cancelStp (hl : l < 8) : FaultKeeps d (d.cancelStp c l) := by
  unfold Dev.cancelStp
  dsimp only
  split
  · exact .refl
  · refine FaultKeeps.trans (FaultKeeps.trans .setStpX (.setf ?_)) (.copyRegs fun r hr => ?_)
    · exact not_isResultReg (by simp only [PWM_Ss_COMMIT_CMT]; omega)
    · obtain ⟨q, hq, rfl⟩ := List.mem_map.mp hr
      have hlt := stpOffs_lt q hq
      exact not_isResultReg (by simp only [stpBase]; omega)

theorem FaultKeeps.cancelLane (hu : u < 32) : FaultKeeps d (d.cancelLane c u) := by
  unfold Dev.cancelLane
  split
  · next h => exact .cancelCommit h
  · exact .cancelStp (by omega)

theorem FaultKeeps.cancelAll : FaultKeeps d (d.cancelAll c) := by
  unfold Dev.cancelAll
  dsimp only
  refine FaultKeeps.trans (d' := Dev.cancelCmt _ CHAIN_CTL_CMT 0x400C0000 640) ?_ (.of_fields rfl le_rfl rfl rfl rfl)
  refine FaultKeeps.trans ?_ (.cancelCmt_outside (by decide) (by decide))
  refine FaultKeeps.trans ?_ (.foldl fun d k hk => .cancelCmt_outside (by simp only [FIO_CHcc_CTL_CMT]; omega) (by omega))
  refine FaultKeeps.trans ?_ (.foldl fun d k hk => .cancelCmt_outside (by simp only [CAN_CHc_CTL_CMT]; omega) (by omega))
  refine FaultKeeps.trans ?_ (.foldl fun d k hk => ?_)
  · refine FaultKeeps.trans (FaultKeeps.trans ?_ (.foldl fun _ _ _ => .cancelUnit)) (.foldl fun d k hk => ?_)
    · exact .foldl fun d k hk => .cancelLane (List.mem_range.mp hk)
    · exact .cancelCmt_outside (by simp only [STR_s_CTL_CMT]; omega) (by omega)
  · have hk := List.mem_range.mp hk
    refine FaultKeeps.trans (.cancelCmt ?_ fun i hi => ?_) (.cancelCmt_outside ?_ ?_)
    · exact not_isResultReg (by simp only [SAR_Gg_CTL_CMT]; omega)
    · exact not_isResultReg (by omega)
    · simp only [PWM_Gg_CTL_CMT]
      omega
    · omega

/-! Faults of a lane (R45, R119, R549, R555). -/

theorem FaultKeeps.discardUnit {code : Nat} : FaultKeeps d (d.discardUnit c code u) := FaultKeeps.discard.trans .cancelUnit

theorem FaultKeeps.laneFault {code : Nat} (hu : u < 32) : FaultKeeps d (d.laneFault c code u) := by
  have hdiscard : FaultKeeps d ((d.discardUnit c code u).cancelLane c u) := FaultKeeps.discardUnit.trans (.cancelLane hu)
  exact hdiscard.trans (.setLane (fun h => h) fun _ => rfl)

theorem Dev.laneFault_faulted {code : Nat} : ((d.laneFault c code u).lane u).faulted = true := by
  rw [Dev.laneFault, Dev.lane_setLane_self]

theorem isPinReg_not_result (h : isPinReg a) : ¬ isResultReg a := by
  refine not_isResultReg (.inl ?_)
  rcases h with ⟨l, hl, rfl⟩ | ⟨k, hk, rfl⟩
  · simp only [PWM_Lnn_OUT_LEVEL]
    omega
  · simp only [PWM_Ss_OUT_LEVEL]
    omega

theorem FaultKeeps.showUnit (hu : u < 32) : FaultKeeps d (d.showUnit c u) := by
  obtain ⟨w, hw⟩ := d.showUnit_eq c u
  rw [hw]
  exact .of_onlyRegs (p := isPinReg) (.setReg (isPinReg_pinAddr hu)) fun _ => isPinReg_not_result

theorem FaultKeeps.activeFault {code info : Nat} (hu : u < 32) : FaultKeeps d (d.activeFault c code u info) := by
  unfold Dev.activeFault
  dsimp only
  split
  · exact FaultKeeps.record.trans (.laneFault hu)
  · exact .record

theorem lt_of_mem_lanesOfGroup (hg : g < 4) (hu : u ∈ lanesOfGroup g) : u < 32 := by
  simp only [lanesOfGroup, List.mem_append, List.mem_map, List.mem_range, List.mem_cons, List.not_mem_nil, or_false] at hu
  omega

/-! Faults of the device and of a DC group's link (R39, R197 to R202, R535). -/

theorem not_isResultReg_capStat : ¬ isResultReg (CAP_Rr_STAT_STATE n).addr := not_isResultReg (by simp only [CAP_Rr_STAT_STATE]; omega)

theorem FaultKeeps.capEnd {x : CapEnd} : FaultKeeps d (d.capEnd n x) := by
  have hreg := not_isResultReg_capStat (n := n)
  unfold Dev.capEnd
  dsimp only
  refine FaultKeeps.trans ?_ (.put (f := CAP_Rr_STAT_FULL n) hreg)
  split
  · exact FaultKeeps.trans (FaultKeeps.wrWords.trans .emit) (.setf (f := CAP_Rr_STAT_DISC n) hreg)
  · exact FaultKeeps.trans (FaultKeeps.wrWords.trans .emit) (.setf (f := CAP_Rr_STAT_REC n) hreg)

theorem FaultKeeps.setCapX {x : CapX} : FaultKeeps d (d.setCapX n x) := .of_fields rfl le_rfl rfl rfl rfl

theorem FaultKeeps.capIdle : FaultKeeps d (d.capIdle n) := (FaultKeeps.put not_isResultReg_capStat).trans .setCapX

theorem FaultKeeps.capDiscard : FaultKeeps d (d.capDiscard c) := by
  unfold Dev.capDiscard
  refine .foldl fun d r _ => ?_
  split
  · exact (FaultKeeps.capEnd.trans .capIdle).trans .record
  · exact .refl

theorem FaultKeeps.showAll : FaultKeeps d (d.showAll c) := .of_onlyRegs Dev.showAll_frame fun _ => isPinReg_not_result

theorem FaultKeeps.showGroup (hg : g < 4) : FaultKeeps d (d.showGroup c g) := .of_onlyRegs (Dev.showGroup_frame hg) fun _ => isPinReg_not_result

theorem not_isResultReg_bstat (hg : g < 4) : ¬ isResultReg (PWM_Gg_BSTAT_CHOP g).addr :=
  not_isResultReg (by simp only [PWM_Gg_BSTAT_CHOP]; omega)

/-- The device's own state is another, its lanes await nothing and its brake carriers end (R39, R228). -/
theorem FaultKeeps.dropToSafe : FaultKeeps d { d.raise 0xFE with
    dst := .safe
    sysStop := none
    pow := { d.pow with sleepAt := none, early := 0 }
    imgs := []
    groups := d.groups.mapV (fun _ => {}) fun x => { x with carrier := none, chopNext := false }
    lanes := d.lanes.mapV (fun _ => {}) fun x => { x with chg := [] }
    her := { d.her with demands := [] }
    mbx := d.mbx.mapV (fun _ => {}) fun x => { x with taken := [], stage := none } } := by
  have hlanes := FaultKeeps.mapLanes (d := d) (k := fun x => { x with chg := [] }) (fun _ => rfl) fun _ => rfl
  have hgroups := FaultKeeps.mapGroups (d := { d with lanes := d.lanes.mapV (fun _ => {}) fun x => { x with chg := [] } })
    (k := fun x => { x with carrier := none, chopNext := false }) fun _ => rfl
  refine (hlanes.trans hgroups).trans ?_
  exact .of_fields rfl le_rfl rfl rfl rfl

theorem FaultKeeps.enterSafe {code : Nat} : FaultKeeps d (d.enterSafe c code) := by
  have hchop : FaultKeeps d ((List.range 4).foldl
      (fun d g => if d.flag (PWM_Gg_BSTAT_CHOP g) then d.setf (PWM_Gg_BSTAT_CHOP g) false else d) d) := by
    refine .foldl fun d g hg => ?_
    split
    · exact .setf (not_isResultReg_bstat (List.mem_range.mp hg))
    · exact .refl
  unfold Dev.enterSafe
  dsimp only
  refine FaultKeeps.trans ?_ .showAll
  refine FaultKeeps.trans ?_ .pairNotice
  refine FaultKeeps.trans ?_ .emit
  refine FaultKeeps.trans ?_ (.putMbox (f := MBX_STAT_EPOCH) (by decide))
  refine FaultKeeps.trans ?_ (.foldl fun d m _ => FaultKeeps.trans (.putMbox (f := MBX_Mm_STAT_SEQV m) ?_) (.putMbox (f := MBX_Mm_STAT_STAGE m) ?_))
  · refine FaultKeeps.trans ?_ .dropToSafe
    exact (hchop.trans .cancelAll).trans .discard
  · simp only [MBX_Mm_STAT_SEQV]
    omega
  · simp only [MBX_Mm_STAT_STAGE]
    omega

theorem FaultKeeps.deviceFault {code info : Nat} {stays inj : Bool} : FaultKeeps d (d.deviceFault c code u info stays inj) := by
  have hinteg : FaultKeeps d (if code = 115 then d.setf HERDER_STAT_INTEG else d) := .ite (.setf (not_isResultReg (by decide))) .refl
  have hreport := (hinteg.trans (.record (c := c) (code := code) (unit := u) (info := info) (inj := inj))).trans (.capDiscard (c := c))
  unfold Dev.deviceFault
  dsimp only
  generalize (Dev.record _ c code u info inj).capDiscard c = x at hreport ⊢
  have hactive : FaultKeeps d (if stays = true ∧ code ∉ x.flt.active
      then { x with flt := { x.flt with active := code :: x.flt.active } } else x) :=
    .ite (hreport.trans (.of_fields rfl le_rfl rfl rfl rfl)) hreport
  split
  · exact hactive.trans .enterSafe
  · exact hactive.trans .enterSafe
  · exact hactive.trans .enterSafe
  · exact hactive

theorem FaultKeeps.groupEvent {t ev : Nat} {x : Int} : FaultKeeps d (d.groupEvent t g ev x) := .emit

theorem FaultKeeps.chopperFailed {t : Nat} {x : Int} (hg : g < 4) : FaultKeeps d (d.chopperFailed c t g x) := by
  have hreg := not_isResultReg_bstat hg
  unfold Dev.chopperFailed
  split
  · exact .refl
  · dsimp only
    refine FaultKeeps.trans ?_ .discard
    refine FaultKeeps.trans ?_ (.trans .groupEvent .groupEvent)
    refine FaultKeeps.trans (FaultKeeps.trans ?_ .record) (.setGroupX rfl)
    exact ((FaultKeeps.setf (f := PWM_Gg_BSTAT_CFAIL g) hreg).trans (.setf (f := PWM_Gg_BSTAT_REGEN g) hreg)).trans (.setf hreg)

/-- The law on a DC-link voltage leaves the voltage itself, and brings no sample under conversion. -/
theorem FaultKeeps.linkLaw {t : Nat} {x : Int} (hg : g < 4) : FaultKeeps d (d.linkLaw c t g x) := by
  have hreg := not_isResultReg_bstat hg
  have hlane {u : Nat} (hu : u ∈ lanesOfGroup g) : u < 32 := lt_of_mem_lanesOfGroup hg hu
  unfold Dev.linkLaw
  extract_lets y runs law on e d1 z rise d2 trip y2 d3 flt3 d4 act d5 low d6 d7
  have hturn : FaultKeeps d e := .setGroupX rfl
  have h1 : FaultKeeps d d1 := .ite .refl (.ite hturn (hturn.trans .groupEvent))
  have h2 : FaultKeeps d d2 := .ite (h1.trans (.chopperFailed hg)) h1
  have h3 : FaultKeeps d d3 := h2.trans (.setGroupX rfl)
  have h4 : FaultKeeps d d4 :=
    .ite ((h3.trans (.setf (f := PWM_Gg_BSTAT_OVT g) hreg)).trans (.showGroup hg)) (h3.trans (.of_fields rfl le_rfl rfl rfl rfl))
  have hover : FaultKeeps d4 ((d4.groupEvent t g 3 x).deviceFault c 77 (0x68 + g) 0 true) := FaultKeeps.groupEvent.trans .deviceFault
  have h5 : FaultKeeps d d5 :=
    .ite ((h4.trans hover).trans (.foldl fun _ _ hu => .laneFault (hlane (List.mem_filter.mp hu).1))) h4
  have h6 : FaultKeeps d d6 := h5.trans (.setf (f := PWM_Gg_BSTAT_UV g) hreg)
  have h7 : FaultKeeps d d7 := .ite h6 (h6.trans .groupEvent)
  refine .ite (h7.trans (.foldl fun e u hu => .ite .record ?_)) h5
  exact FaultKeeps.record.trans (.laneFault (hlane (List.mem_filter.mp hu).1))

/-- The lane's trip holds its pins, and the lane counts as faulted (R119, R221). -/
def Dev.tripped (d : Dev) (u : Nat) : Prop := (d.lane u).trip = true ∧ (d.lane u).faulted = true

theorem FaultKeeps.tripped (h : FaultKeeps d e) (ht : d.tripped u) : e.tripped u := ⟨h.trip u ht.1, h.faulted u ht.2⟩

/-- No servo lane's last transfer can be taken back. -/
def Dev.settled (d : Dev) : Prop := ∀ u < 24, (d.pwmX u).undo = none

theorem FaultKeeps.settled (h : FaultKeeps d e) (hd : d.settled) : e.settled := fun u hu => h.undo u (hd u hu)

theorem Dev.undoReload_settled (hd : d.settled) : d.undoReload c u = d := by
  unfold Dev.undoReload
  split
  · next t old hundo =>
    have hu : 24 ≤ u := by
      by_contra hlt
      rw [hd u (by omega)] at hundo
      cases hundo
    exact if_pos (.inr hu)
  · rfl

theorem Dev.trip_keeps (hu : u < 32) (hd : d.settled) : FaultKeeps d (d.trip c u) ∧ (d.trip c u).tripped u := by
  have hset : FaultKeeps d (d.setLane u { d.lane u with trip := true }) := .setLane (fun _ => rfl) fun hf => hf
  have hfault {e : Dev} : FaultKeeps e (((e.record c 50 u 0).laneFault c 50 u).showUnit c u) :=
    (FaultKeeps.record.trans (.laneFault hu)).trans (.showUnit hu)
  rw [Dev.trip, Dev.undoReload_settled hd]
  refine ⟨hset.trans hfault, hfault.trip u (by rw [Dev.lane_setLane_self]), (FaultKeeps.showUnit hu).faulted u Dev.laneFault_faulted⟩

theorem Dev.trips_keep {us : List Nat} (hu : ∀ u ∈ us, u < 32) (hd : d.settled) :
    FaultKeeps d (us.foldl (fun d u => d.trip c u) d) ∧ ∀ u ∈ us, (us.foldl (fun d u => d.trip c u) d).tripped u := by
  induction us generalizing d with
  | nil => exact ⟨.refl, by simp⟩
  | cons v us ih =>
    obtain ⟨hkeep, htrip⟩ := Dev.trip_keeps (c := c) (hu v (by simp)) hd
    obtain ⟨hkeeps, htrips⟩ := ih (fun u hus => hu u (by simp [hus])) (hkeep.settled hd)
    refine ⟨hkeep.trans hkeeps, fun u hus => ?_⟩
    rcases List.mem_cons.mp hus with rfl | hus
    · exact hkeeps.tripped htrip
    · exact htrips u hus

end FaultFrames

end Sys2Proof.Machine

/-! PROOFS. Signed fields and rounded quotients (R6, R126, R335). -/

namespace Sys2Proof.Machine

section Numbers

variable {d : Dev} {f : Field} {w k r : Nat} {n x : Int}

/-- A number in the range of a signed field reads as itself. -/
theorem sInt_uInt (hlo : -(2 ^ k : Nat) ≤ x) (hhi : x < (2 ^ k : Nat)) : sInt (k + 1) (uInt (k + 1) x) = x := by
  have hpow : 2 ^ (k + 1) = 2 * 2 ^ k := pow_succ' 2 k
  have hlt : uInt (k + 1) x < 2 ^ (k + 1) := uInt_lt
  have hval : ((uInt (k + 1) x : Nat) : Int) = x % (2 ^ (k + 1) : Nat) := Int.toNat_of_nonneg (Int.emod_nonneg _ (by positivity))
  rw [sInt, Nat.mod_eq_of_lt hlt, Nat.add_sub_cancel]
  rw [hpow] at hlt hval ⊢
  generalize 2 ^ k = p at *
  rcases lt_or_ge x 0 with hneg | hpos
  · have hmod : x % ((2 * p : Nat) : Int) = x + (2 * p : Nat) := by
      rw [← Int.add_emod_right, Int.emod_eq_of_lt] <;> omega
    split <;> omega
  · have hmod : x % ((2 * p : Nat) : Int) = x := Int.emod_eq_of_lt hpos (by omega)
    split <;> omega

theorem satS_range : -(2 ^ k : Nat) ≤ satS (k + 1) x ∧ satS (k + 1) x < (2 ^ k : Nat) := by
  have hpos : 0 < 2 ^ k := by positivity
  simp only [satS, clampI, Nat.add_sub_cancel]
  split
  · omega
  · split <;> omega

theorem sInt_uInt_satS : sInt (k + 1) (uInt (k + 1) (satS (k + 1) x)) = satS (k + 1) x := sInt_uInt satS_range.1 satS_range.2

/-- A number clamped to a range and off both ends of it was not clamped. -/
theorem clampI_eq {lo hi : Int} (hlo : lo < clampI lo hi x) (hhi : clampI lo hi x < hi) : clampI lo hi x = x := by
  unfold clampI at *
  split_ifs at hlo hhi ⊢ <;> omega

/-- A field that was written with a clamped number reads as that number. -/
theorem Dev.getI_putI_satS (hw : f.width = k + 1) (hf : f.lo + f.width ≤ 32) : (d.putI f (satS (k + 1) x)).getI f = satS (k + 1) x := by
  rw [Dev.getI, Dev.putI, Dev.get_put_fit hf uInt_lt, hw, sInt_uInt_satS]

/-- A rounded quotient is off by half the divisor at most. -/
theorem roundDiv_near (hr : 0 < r) : |2 * (n - roundDiv n r * r)| ≤ r := by
  have hdiv := Int.emod_add_mul_ediv n r
  have hlo := Int.emod_nonneg n (Int.natCast_pos.mpr hr).ne'
  have hhi := Int.emod_lt_of_pos n (Int.natCast_pos.mpr hr)
  have hrem : n - n / r * r = n % r := by rw [mul_comm]; omega
  rw [abs_le]
  simp only [roundDiv, hrem]
  split
  · next h =>
    have hnext : n - (n / r + 1) * r = n % r - r := by rw [← hrem]; ring
    rw [hnext]
    omega
  · next h =>
    rw [hrem]
    omega

/-- So is a rounded ratio, whatever fraction it is given as. -/
theorem roundQ_near (hr : 0 < r) : |2 * (n - roundQ (mkRat n r) * r)| ≤ r := by
  set q := mkRat n r with hq
  have hden : (0 : Int) < q.den := Int.natCast_pos.mpr q.den_pos
  have hcross : q.num * r = n * q.den := (Rat.mkRat_eq_iff q.den_nz hr.ne').mp (q.mkRat_self.trans hq)
  have hnear : |2 * (q.num - roundQ q * q.den)| ≤ q.den := roundDiv_near q.den_pos
  refine le_of_mul_le_mul_right ?_ hden
  calc |2 * (n - roundQ q * r)| * q.den = |2 * (n - roundQ q * r) * q.den| := by rw [abs_mul _ (q.den : Int), abs_of_pos hden]
    _ = |2 * (q.num - roundQ q * q.den) * r| := by
      congr 1
      linear_combination -2 * hcross
    _ = |2 * (q.num - roundQ q * q.den)| * r := by rw [abs_mul _ (r : Int), Nat.abs_cast]
    _ ≤ q.den * r := mul_le_mul_of_nonneg_right hnear (Int.natCast_nonneg r)
    _ = r * q.den := mul_comm _ _

end Numbers

end Sys2Proof.Machine

/-! PROOFS. Results of the filter bank (R111, R112, R122, R123). -/

namespace Sys2Proof.Machine

section FilterResults

variable {d e : Dev} {c : Clock} {ch g i l : Nat} {w : DsfWindow} {chs : List Nat}

/-- The enabled channels of lane l. -/
def Dev.dsfOn (d : Dev) (l : Nat) : List Nat := ((List.range 3).map (3 * l + ·)).filter fun ch => d.flag (DSF_Cnn_CFG_ACT_EN ch)

theorem Dev.mem_dsfOn : ch ∈ d.dsfOn l ↔ ∃ i < 3, 3 * l + i = ch ∧ d.flag (DSF_Cnn_CFG_ACT_EN ch) = true := by
  simp only [Dev.dsfOn, List.mem_filter, List.mem_map, List.mem_range]
  constructor
  · rintro ⟨⟨i, hi, hch⟩, hon⟩
    exact ⟨i, hi, hch, hon⟩
  · rintro ⟨i, hi, hch, hon⟩
    exact ⟨⟨i, hi, hch⟩, hon⟩

/-- The result of channel i of the lane whose sample gate fired at g, and whether it saturated. -/
def Dev.dsfOf (d : Dev) (l g : Nat) (w : DsfWindow) (i : Nat) : Int × Bool :=
  let ch := 3 * l + i
  let sc := d.dsfScale ch (d.dsfEnd ch g - d.dsfLen ch)
  dsfValue (d.get (DSF_Cnn_CFG_ACT_ORDER ch)) (d.get (DSF_Cnn_CFG_ACT_OSR ch)) (if i = 0 then w.u else if i = 1 then w.v else w.w) sc.1 sc.2

/-- A channel's result into its register, a saturated one into the log. -/
def Dev.dsfNote (d : Dev) (c : Clock) (l ch : Nat) (x : Int × Bool) (align : Int) : Dev :=
  let d' := d.dsfPut ch x.1 x.2 align
  if x.2 then d'.record c 51 l ch else d'

/-- The lane notes that the gate at g has its result. -/
def Dev.dsfDone (d : Dev) (l g : Nat) : Dev := d.setDsfX (3 * l) { d.dsfX (3 * l) with forGate := some g }

/-- The results of the channels, each noted in turn. -/
def Dev.dsfNotes (d : Dev) (c : Clock) (l : Nat) (x : Nat → Int × Bool) (al : Nat → Int) (chs : List Nat) : Dev :=
  chs.foldl (fun e ch => e.dsfNote c l ch (x ch) (al ch)) d

/-- Every enabled channel of lane l with its result for the lane's last sample gate. -/
def Dev.dsfNoted (d : Dev) (c : Clock) (l : Nat) (w : DsfWindow) : Dev :=
  let g := (d.gateX l).last
  (d.dsfDone l g).dsfNotes c l (fun ch => d.dsfOf l g w (ch - 3 * l)) (fun ch => (d.dsfDone l g).dsfAlign ch g) (d.dsfOn l)

theorem Dev.dsfResult_idle (h : (d.gateX l).last = 0 ∨ d.dsfOn l = [] ∨ (d.dsfX (3 * l)).forGate = some (d.gateX l).last ∨
    ∃ ch ∈ d.dsfOn l, c.ns < d.dsfEnd ch (d.gateX l).last + 40) : d.dsfResult c l w = d := by
  refine if_pos ?_
  simpa [Dev.dsfOn, ← List.isEmpty_iff, and_assoc] using h

/-- Every window full: the results of the enabled channels into their registers, then the packet. -/
theorem Dev.dsfResult_full (h0 : (d.gateX l).last ≠ 0) (hon : d.dsfOn l ≠ []) (hnew : (d.dsfX (3 * l)).forGate ≠ some (d.gateX l).last)
    (hdue : ∀ ch ∈ d.dsfOn l, d.dsfEnd ch (d.gateX l).last + 40 ≤ c.ns) (hfull : ∀ ch ∈ d.dsfOn l, d.dsfFull ch (d.gateX l).last = true) :
    ∃ ws, d.dsfResult c l w = (d.dsfNoted c l w).emit l 0x10 none 0 ws := by
  have hidle : ¬ ((d.gateX l).last = 0 ∨ (d.dsfOn l).isEmpty ∨ (d.dsfX (3 * l)).forGate = some (d.gateX l).last ∨
      ((d.dsfOn l).any fun ch => decide (c.ns < d.dsfEnd ch (d.gateX l).last + 40)) = true) := by
    rintro (h | h | h | h)
    · exact h0 h
    · exact hon (List.isEmpty_iff.mp h)
    · exact hnew h
    · obtain ⟨ch, hch, hlt⟩ := List.any_eq_true.mp h
      exact absurd (of_decide_eq_true hlt) (not_lt.mpr (hdue ch hch))
  have hshort : ¬ (!(d.dsfOn l).all fun ch => d.dsfFull ch (d.gateX l).last) = true := by
    rw [List.all_eq_true.mpr hfull]
    decide
  unfold Dev.dsfResult
  dsimp only
  refine ⟨_, (if_neg hidle).trans ((if_neg hshort).trans (congrArg (fun e : Dev => e.emit l 0x10 none 0 _) ?_))⟩
  refine List.foldl_ext _ _ _ fun e ch (hch : ch ∈ d.dsfOn l) => ?_
  obtain ⟨i, -, rfl, -⟩ := Dev.mem_dsfOn.mp hch
  have hin : ¬ (!(d.dsfOn l).contains (3 * l + (3 * l + i - 3 * l))) = true := by
    rw [Nat.add_sub_cancel_left, List.contains_iff_mem.mpr hch]
    decide
  exact congrArg (fun x : Int × Bool => e.dsfNote c l (3 * l + i) x _) (if_neg hin)

/-- The registers that a result of channel ch is noted in. -/
def isDsfNote (ch a : Nat) : Prop := a = (DSF_Cnn_RES_I ch).addr ∨ a = (DSF_Cnn_STAT_SAT ch).addr

theorem not_isDsfNote {k : Nat} (h : ch ≠ k) : ¬ isDsfNote ch (DSF_Cnn_RES_I k).addr ∧ ¬ isDsfNote ch (DSF_Cnn_STAT_SAT k).addr := by
  simp only [isDsfNote, DSF_Cnn_RES_I, DSF_Cnn_STAT_SAT]
  omega

/-- The registers of a result, before the channel notes that it is unread. -/
def Dev.dsfStored (d : Dev) (ch : Nat) (x : Int × Bool) (al : Int) : Dev :=
  let d1 := if (d.dsfX ch).unread then d.setf (DSF_Cnn_STAT_OVR ch) else d
  let d2 := if x.2 then d1.setf (DSF_Cnn_STAT_SAT ch) else d1
  (d2.putI (DSF_Cnn_RES_I ch) x.1).putI (DSF_Cnn_STAT_ALIGN ch) al

theorem Dev.dsfPut_eq {x : Int × Bool} {al : Int} :
    d.dsfPut ch x.1 x.2 al = (d.dsfStored ch x al).setDsfX ch { d.dsfX ch with unread := true } := rfl

theorem Dev.dsfStored_frame {x : Int × Bool} {al : Int} : OnlyRegs (isDsfNote ch) d (d.dsfStored ch x al) := by
  have hovr : OnlyRegs (isDsfNote ch) d (if (d.dsfX ch).unread then d.setf (DSF_Cnn_STAT_OVR ch) else d) := by
    split
    · exact .setf (.inr rfl)
    · exact .refl
  unfold Dev.dsfStored
  dsimp only
  refine OnlyRegs.trans (OnlyRegs.trans ?_ (.put (.inl rfl))) (.put (.inr rfl))
  split
  · exact hovr.trans (.setf (.inr rfl))
  · exact hovr

/-- Channel ch shows this result: its value in RES, and SAT where it saturated. -/
def Dev.dsfShows (d : Dev) (ch : Nat) (x : Int × Bool) : Prop :=
  d.getI (DSF_Cnn_RES_I ch) = x.1 ∧ (x.2 = true → d.flag (DSF_Cnn_STAT_SAT ch) = true)

theorem Dev.dsfShows_congr {x : Int × Bool} (hres : e.reg (DSF_Cnn_RES_I ch).addr = d.reg (DSF_Cnn_RES_I ch).addr)
    (hstat : e.reg (DSF_Cnn_STAT_SAT ch).addr = d.reg (DSF_Cnn_STAT_SAT ch).addr) (h : d.dsfShows ch x) : e.dsfShows ch x := by
  rwa [Dev.dsfShows, Dev.getI, Dev.get_congr hres, Dev.flag_congr hstat]

theorem Dev.dsfStored_shows {k al : Int} {x : Int × Bool} (hx : x.1 = satS 32 k) : (d.dsfStored ch x al).dsfShows ch x := by
  have hne : (DSF_Cnn_STAT_ALIGN ch).addr ≠ (DSF_Cnn_RES_I ch).addr := by
    simp only [DSF_Cnn_STAT_ALIGN, DSF_Cnn_RES_I]
    omega
  have hres : (DSF_Cnn_RES_I ch).Apart (DSF_Cnn_STAT_SAT ch) := .inl hne.symm
  have hsat : (DSF_Cnn_STAT_SAT ch).IsBit := Field.isBit (by decide)
  have halign : (DSF_Cnn_STAT_ALIGN ch).Apart (DSF_Cnn_STAT_SAT ch) := .inr (.inr (by decide : 1 + 1 ≤ 16))
  unfold Dev.dsfStored
  dsimp only
  refine ⟨?_, fun h => ?_⟩
  · rw [Dev.getI, Dev.putI, Dev.get_put_ne hne, ← Dev.getI, hx]
    exact Dev.getI_putI_satS (f := DSF_Cnn_RES_I ch) rfl (Nat.le_refl 32)
  · rw [Dev.putI, Dev.flag_put_apart (f := DSF_Cnn_STAT_ALIGN ch) (g := DSF_Cnn_STAT_SAT ch) (Nat.le_refl 32) halign, Dev.putI,
      Dev.flag_put_apart (f := DSF_Cnn_RES_I ch) (Nat.le_refl 32) hres, if_pos h]
    exact Dev.flag_setf_self hsat

section Note

variable {k : Nat} {y : Int × Bool} {al : Int}

/-- Beside the registers of the result a note writes none of the filter bank. -/
theorem Dev.dsfNote_keeps : KeepsRegs (· = FLT_STAT_UNREAD.addr) (d.dsfStored ch y al) (d.dsfNote c l ch y al) := by
  intro a ha
  unfold Dev.dsfNote
  rw [Dev.dsfPut_eq]
  dsimp only
  split
  · exact (Dev.record_keepsRegs a ha).trans Dev.setDsfX_reg
  · exact Dev.setDsfX_reg

theorem Dev.dsfRegs_apart (ch : Nat) :
    (DSF_Cnn_RES_I ch).addr ≠ FLT_STAT_UNREAD.addr ∧ (DSF_Cnn_STAT_SAT ch).addr ≠ FLT_STAT_UNREAD.addr := by
  simp only [DSF_Cnn_RES_I, DSF_Cnn_STAT_SAT, FLT_STAT_UNREAD]
  omega

theorem Dev.dsfNote_shows {x : Int} (hy : y.1 = satS 32 x) : (d.dsfNote c l ch y al).dsfShows ch y :=
  Dev.dsfShows_congr (Dev.dsfNote_keeps _ (Dev.dsfRegs_apart ch).1) (Dev.dsfNote_keeps _ (Dev.dsfRegs_apart ch).2) (Dev.dsfStored_shows hy)

/-- The note of another channel leaves what channel ch shows. -/
theorem Dev.dsfNote_shows_other {x : Int × Bool} (hk : k ≠ ch) (h : d.dsfShows ch x) : (d.dsfNote c l k y al).dsfShows ch x := by
  obtain ⟨hres, hstat⟩ := not_isDsfNote hk
  refine Dev.dsfShows_congr ((Dev.dsfNote_keeps _ (Dev.dsfRegs_apart ch).1).trans ?_) ((Dev.dsfNote_keeps _ (Dev.dsfRegs_apart ch).2).trans ?_) h
  · exact Dev.dsfStored_frame.1 _ hres
  · exact Dev.dsfStored_frame.1 _ hstat

/-- A note takes no packet from its way and writes no memory. -/
theorem Dev.dsfNote_packets : d.fab.flight.length ≤ (d.dsfNote c l ch y al).fab.flight.length ∧ (d.dsfNote c l ch y al).mem = d.mem := by
  have hput : (d.dsfPut ch y.1 y.2 al).fab = d.fab ∧ (d.dsfPut ch y.1 y.2 al).mem = d.mem := by
    rw [Dev.dsfPut_eq, Dev.setDsfX_fab, Dev.setDsfX_mem, Dev.dsfStored_frame.2]
    exact ⟨rfl, rfl⟩
  obtain ⟨hfab, hmem⟩ := hput
  unfold Dev.dsfNote
  dsimp only
  split
  · obtain ⟨p, hp⟩ := Dev.record_flight (d := d.dsfPut ch y.1 y.2 al) (c := c) (code := 51) (unit := l) (info := ch) (inj := false)
    rw [hp, ReportFrame.record, hmem, hfab]
    exact ⟨by simp, rfl⟩
  · rw [hfab, hmem]
    exact ⟨le_rfl, rfl⟩

end Note

section Notes

variable {al : Nat → Int} {x : Nat → Int × Bool}

theorem Dev.dsfNotes_shows (hx : ∀ k, ∃ v, (x k).1 = satS 32 v) (h : d.dsfShows ch (x ch) ∨ ch ∈ chs) :
    (d.dsfNotes c l x al chs).dsfShows ch (x ch) := by
  induction chs generalizing d with
  | nil => exact h.resolve_right (by simp)
  | cons k chs ih =>
    refine ih (d := d.dsfNote c l k (x k) (al k)) ?_
    by_cases hk : k = ch
    · obtain ⟨v, hv⟩ := hx ch
      exact .inl (hk ▸ Dev.dsfNote_shows (hk ▸ hv))
    · rcases h with h | h
      · exact .inl (Dev.dsfNote_shows_other hk h)
      · exact .inr ((List.mem_cons.mp h).resolve_left fun h => hk h.symm)

theorem Dev.dsfNotes_packets : d.fab.flight.length ≤ (d.dsfNotes c l x al chs).fab.flight.length ∧ (d.dsfNotes c l x al chs).mem = d.mem :=
  List.foldlRecOn (motive := fun e : Dev => d.fab.flight.length ≤ e.fab.flight.length ∧ e.mem = d.mem) chs _ ⟨le_rfl, rfl⟩
    fun _ he _ _ => ⟨he.1.trans Dev.dsfNote_packets.1, Dev.dsfNote_packets.2.trans he.2⟩

end Notes

theorem Dev.dsfOf_range : ∃ v, (d.dsfOf l g w i).1 = satS 32 v := ⟨_, rfl⟩

/-- What a lane's results leave: the enabled channels show theirs, and a packet more is on its way (R111, R112, R122, R123). -/
theorem Dev.dsfResult_shows (h0 : (d.gateX l).last ≠ 0) (hon : d.dsfOn l ≠ []) (hnew : (d.dsfX (3 * l)).forGate ≠ some (d.gateX l).last)
    (hdue : ∀ ch ∈ d.dsfOn l, d.dsfEnd ch (d.gateX l).last + 40 ≤ c.ns) (hfull : ∀ ch ∈ d.dsfOn l, d.dsfFull ch (d.gateX l).last = true) :
    d.fab.flight.length < (d.dsfResult c l w).fab.flight.length ∧ (d.dsfResult c l w).mem = d.mem ∧
      ∀ ch ∈ d.dsfOn l, (d.dsfResult c l w).dsfShows ch (d.dsfOf l (d.gateX l).last w (ch - 3 * l)) := by
  obtain ⟨ws, hws⟩ := Dev.dsfResult_full (w := w) h0 hon hnew hdue hfull
  obtain ⟨hflight, hmem⟩ : d.fab.flight.length ≤ (d.dsfNoted c l w).fab.flight.length ∧ (d.dsfNoted c l w).mem = d.mem :=
    Dev.dsfNotes_packets (d := d.dsfDone l (d.gateX l).last)
  rw [hws]
  refine ⟨Dev.emit_flight_lt hflight, hmem, fun ch hch => ?_⟩
  exact Dev.dsfShows_congr (d := d.dsfNoted c l w) rfl rfl (Dev.dsfNotes_shows (fun _ => Dev.dsfOf_range) (.inr hch))

end FilterResults
end Sys2Proof.Machine

/-! PROOFS. The comparator and its trips (R117, R119 to R121). -/

namespace Sys2Proof.Machine

section Comparator

variable {d : Dev} {c : Clock} {ch n a : Nat}

/-- The comparator is in use and its lane works (R117, R119). -/
def Dev.cmpJudged (d : Dev) (ch n : Nat) : Prop := d.laneActive (ch / 3) = true ∧ (DSF_Cnn_CMP_ACT_CEN ch).of (d.cmpWords ch n).1 ≠ 0

/-- Value of an output with weighted count a. -/
def Dev.cmpOut (d : Dev) (ch a : Nat) : Int := cmpValue (d.get (DSF_Cnn_CMP_ACT_CORD ch)) (d.get (DSF_Cnn_CMP_ACT_COSR ch)) a

/-- The output lies at a threshold or past it. -/
def Dev.cmpPast (d : Dev) (ch n a : Nat) : Prop :=
  sInt 16 ((DSF_Cnn_THR_ACT_HI ch).of (d.cmpWords ch n).2) ≤ d.cmpOut ch a ∨
    d.cmpOut ch a ≤ sInt 16 ((DSF_Cnn_THR_ACT_LO ch).of (d.cmpWords ch n).2)

/-- The output is noted as taken. -/
def Dev.cmpTaken (d : Dev) (ch n : Nat) : Dev := d.setDsfX ch { d.dsfX ch with cmpN := n }

/-- What ACT makes of a trip: FC054, a trip of the lane, or of every lane of its group (R119). -/
def Dev.cmpAct (d : Dev) (c : Clock) (ch act : Nat) : Dev :=
  match act with
  | 0 => d.record c 54 (ch / 3) ch
  | 1 => d.trip c (ch / 3)
  | 2 => (lanesOfGroup (groupOf (ch / 3))).foldl (fun d u => d.trip c u) d
  | _ => d

theorem Dev.comparator_none (h : d.cmpDue c ch = none) : d.comparator c ch a = d := by rw [Dev.comparator, h]

theorem Dev.comparator_idle (h : d.cmpDue c ch = some n) (hj : ¬ d.cmpJudged ch n) : d.comparator c ch a = d.cmpTaken ch n := by
  have hoff : (!d.laneActive (ch / 3) || decide ((DSF_Cnn_CMP_ACT_CEN ch).of (d.cmpWords ch n).1 = 0)) = true := by
    simpa [Dev.cmpJudged, imp_iff_not_or] using hj
  rw [Dev.comparator, h]
  exact if_pos hoff

/-- A judged output, by whether it is to be ignored. -/
theorem Dev.comparator_judged (h : d.cmpDue c ch = some n) (hj : d.cmpJudged ch n) : d.comparator c ch a =
    if (d.dsfX ch).ignore ≠ 0 then (d.cmpTaken ch n).setDsfX ch { d.dsfX ch with cmpN := n, ignore := (d.dsfX ch).ignore - 1 }
    else
      let hi := decide (sInt 16 ((DSF_Cnn_THR_ACT_HI ch).of (d.cmpWords ch n).2) ≤ d.cmpOut ch a)
      let lo := decide (d.cmpOut ch a ≤ sInt 16 ((DSF_Cnn_THR_ACT_LO ch).of (d.cmpWords ch n).2))
      if d.flag (DSF_Cnn_STAT_TRIP ch) || !(hi || lo) then d.cmpTaken ch n
      else Dev.cmpAct (((d.cmpTaken ch n).setf (DSF_Cnn_STAT_TRIP ch)).emit (ch / 3) 0x11 (some (c.ns, c.frac)) 0
        [BitVec.ofNat 64 (ch + (if hi then 0 else 1) * 2 ^ 8 + (DSF_Cnn_CMP_ACT_ACT ch).of (d.cmpWords ch n).1 * 2 ^ 9)]) c ch
        ((DSF_Cnn_CMP_ACT_ACT ch).of (d.cmpWords ch n).1) := by
  have hon : ¬ (!d.laneActive (ch / 3) || decide ((DSF_Cnn_CMP_ACT_CEN ch).of (d.cmpWords ch n).1 = 0)) = true := by
    simpa [Dev.cmpJudged] using hj
  rw [Dev.comparator, h]
  exact if_neg hon

theorem Dev.comparator_ignored (h : d.cmpDue c ch = some n) (hj : d.cmpJudged ch n) (hi : (d.dsfX ch).ignore ≠ 0) :
    d.comparator c ch a = d.setDsfX ch { d.dsfX ch with cmpN := n, ignore := (d.dsfX ch).ignore - 1 } := by
  rw [Dev.comparator_judged h hj, if_pos hi, Dev.cmpTaken, Dev.setDsfX, Dev.setDsfX, Tab.set_set]
  rfl

/-- An output that is already tripped for, or between the thresholds, does no more. -/
theorem Dev.comparator_quiet (h : d.cmpDue c ch = some n) (hj : d.cmpJudged ch n) (hi : (d.dsfX ch).ignore = 0)
    (hq : d.flag (DSF_Cnn_STAT_TRIP ch) = true ∨ ¬ d.cmpPast ch n a) : d.comparator c ch a = d.cmpTaken ch n := by
  rw [Dev.comparator_judged h hj, if_neg (not_not.mpr hi)]
  refine if_pos ?_
  rcases hq with hq | hq
  · simp [hq]
  · simp only [Dev.cmpPast, not_or] at hq
    simp [hq.1, hq.2]

/-- An output past a threshold sets TRIP, sends its packet and acts. -/
theorem Dev.comparator_trips (h : d.cmpDue c ch = some n) (hj : d.cmpJudged ch n) (hi : (d.dsfX ch).ignore = 0)
    (ht : d.flag (DSF_Cnn_STAT_TRIP ch) = false) (hp : d.cmpPast ch n a) : ∃ time ws, d.comparator c ch a =
      (((d.cmpTaken ch n).setf (DSF_Cnn_STAT_TRIP ch)).emit (ch / 3) 0x11 time 0 ws).cmpAct c ch
        ((DSF_Cnn_CMP_ACT_ACT ch).of (d.cmpWords ch n).1) := by
  rw [Dev.comparator_judged h hj, if_neg (not_not.mpr hi)]
  refine ⟨_, _, if_neg ?_⟩
  simpa [ht, Dev.cmpPast, or_iff_not_imp_left] using hp

/-- What the action leaves, and whom it trips. -/
theorem Dev.cmpAct_trips {act : Nat} (hch : ch < 72) (hd : d.settled) : FaultKeeps d (d.cmpAct c ch act) ∧
    (act = 0 → (d.cmpAct c ch act).lanes = d.lanes) ∧ (act = 1 → (d.cmpAct c ch act).tripped (ch / 3)) ∧
    (act = 2 → ∀ u ∈ lanesOfGroup (groupOf (ch / 3)), (d.cmpAct c ch act).tripped u) := by
  have hgroup : groupOf (ch / 3) < 4 := by
    rw [groupOf, if_pos (by omega)]
    omega
  obtain ⟨hkeep, htrip⟩ := Dev.trip_keeps (u := ch / 3) (c := c) (by omega) hd
  obtain ⟨hkeeps, htrips⟩ := Dev.trips_keep (c := c) (fun u hu => lt_of_mem_lanesOfGroup hgroup hu) hd
  match act with
  | 0 => exact ⟨.record, fun _ => by rw [Dev.cmpAct, ReportFrame.record], nofun, nofun⟩
  | 1 => exact ⟨hkeep, nofun, fun _ => htrip, nofun⟩
  | 2 => exact ⟨hkeeps, nofun, nofun, fun _ => htrips⟩
  | _ + 3 => exact ⟨.refl, nofun, nofun, nofun⟩

/-- A trip of channel ch: TRIP set, its packet on the way, the lanes by ACT. -/
theorem Dev.comparator_tripped (hch : ch < 72) (hd : d.settled) (h : d.cmpDue c ch = some n) (hj : d.cmpJudged ch n)
    (hi : (d.dsfX ch).ignore = 0) (ht : d.flag (DSF_Cnn_STAT_TRIP ch) = false) (hp : d.cmpPast ch n a) :
    (d.comparator c ch a).flag (DSF_Cnn_STAT_TRIP ch) = true ∧ d.fab.flight.length < (d.comparator c ch a).fab.flight.length ∧
      ((DSF_Cnn_CMP_ACT_ACT ch).of (d.cmpWords ch n).1 = 0 → (d.comparator c ch a).lanes = d.lanes) ∧
      ((DSF_Cnn_CMP_ACT_ACT ch).of (d.cmpWords ch n).1 = 1 → (d.comparator c ch a).tripped (ch / 3)) ∧
      ((DSF_Cnn_CMP_ACT_ACT ch).of (d.cmpWords ch n).1 = 2 → ∀ u ∈ lanesOfGroup (groupOf (ch / 3)), (d.comparator c ch a).tripped u) := by
  obtain ⟨time, ws, heq⟩ := Dev.comparator_trips h hj hi ht hp
  have hset : ((d.cmpTaken ch n).setf (DSF_Cnn_STAT_TRIP ch)).flag (DSF_Cnn_STAT_TRIP ch) = true := Dev.flag_setf_self (Field.isBit (by decide))
  have hres : isResultReg (DSF_Cnn_STAT_TRIP ch).addr := by
    refine .inl ?_
    simp only [DSF_Cnn_STAT_TRIP]
    omega
  have hflight : d.fab.flight.length ≤ ((d.cmpTaken ch n).setf (DSF_Cnn_STAT_TRIP ch)).fab.flight.length := by
    rw [Dev.setf, Dev.put_fab, Dev.cmpTaken, Dev.setDsfX_fab]
  obtain ⟨hkeep, hlanes, hone, hall⟩ := Dev.cmpAct_trips (d := ((d.cmpTaken ch n).setf (DSF_Cnn_STAT_TRIP ch)).emit (ch / 3) 0x11 time 0 ws)
    (c := c) (act := (DSF_Cnn_CMP_ACT_ACT ch).of (d.cmpWords ch n).1) hch hd
  rw [heq]
  exact ⟨(Dev.flag_congr (hkeep.regs _ hres)).trans hset, (Dev.emit_flight_lt hflight).trans_le hkeep.flight, hlanes, hone, hall⟩

end Comparator

end Sys2Proof.Machine

/-! PROOFS. Codes and conversions of the SAR converters (R126, R128 to R131). -/

namespace Sys2Proof.Machine

section Conversions

variable {d e : Dev} {c : Clock} {m ch t code g : Nat} {v : SarInput} {y : SarX} {rest : List (Nat × Nat × SarHold)}

/-- The reference voltage of the cluster in nV (R126). -/
def Dev.sarRef (d : Dev) (v : SarInput) : Nat := if d.flag SAR_CTRL_REFSEL then v.vref else 2500000000

theorem Dev.sarCode_single (h : ch < 14) : d.sarCode ch v = (clampI 0 0xFFFF (roundQ (mkRat (v.v * 65536) (d.sarRef v)))).toNat :=
  if_neg (Nat.not_le.mpr h)

theorem Dev.sarCode_differential (h : 14 ≤ ch) : d.sarCode ch v = uInt 16 (satS 16 (roundQ (mkRat (v.v * 32768) (d.sarRef v)))) := if_pos h

theorem clampI_range {lo hi x : Int} (h : lo ≤ hi) : lo ≤ clampI lo hi x ∧ clampI lo hi x ≤ hi := by
  unfold clampI
  split
  · omega
  · split <;> omega

theorem Dev.sarCode_lt : d.sarCode ch v < 2 ^ 16 := by
  rcases lt_or_ge ch 14 with h | h
  · have hrange := clampI_range (lo := 0) (hi := 0xFFFF) (x := roundQ (mkRat (v.v * 65536) (d.sarRef v))) (by decide)
    rw [Dev.sarCode_single h]
    omega
  · rw [Dev.sarCode_differential h]
    exact uInt_lt

/-- A single-ended code inside its range is the input's share of the reference, to the nearest step. -/
theorem Dev.sarCode_single_near (h : ch < 14) (hr : 0 < d.sarRef v) (hlo : 0 < d.sarCode ch v) (hhi : d.sarCode ch v < 0xFFFF) :
    |2 * (65536 * v.v - d.sarCode ch v * d.sarRef v)| ≤ d.sarRef v := by
  have hcode := Dev.sarCode_single (d := d) (v := v) h
  have hexact := clampI_eq (lo := 0) (hi := 0xFFFF) (x := roundQ (mkRat (v.v * 65536) (d.sarRef v))) (by omega) (by omega)
  have hround : (d.sarCode ch v : Int) = roundQ (mkRat (v.v * 65536) (d.sarRef v)) := by omega
  rw [hround, mul_comm 65536]
  exact roundQ_near hr

/-- So is a differential code, as two's complement. -/
theorem Dev.sarCode_differential_near (h : 14 ≤ ch) (hr : 0 < d.sarRef v) (hlo : -0x8000 < sInt 16 (d.sarCode ch v))
    (hhi : sInt 16 (d.sarCode ch v) < 0x7FFF) : |2 * (32768 * v.v - sInt 16 (d.sarCode ch v) * d.sarRef v)| ≤ d.sarRef v := by
  have hcode : sInt 16 (d.sarCode ch v) = satS 16 (roundQ (mkRat (v.v * 32768) (d.sarRef v))) := by
    rw [Dev.sarCode_differential h]
    exact sInt_uInt_satS (k := 15)
  have hexact : satS 16 (roundQ (mkRat (v.v * 32768) (d.sarRef v))) = roundQ (mkRat (v.v * 32768) (d.sarRef v)) :=
    clampI_eq (lo := -0x8000) (hi := 0x7FFF) (hlo.trans_eq hcode) (hcode.symm.trans_lt hhi)
  rw [hcode, hexact, mul_comm 32768]
  exact roundQ_near hr

/-- A code stored, and the converter's record after it. -/
def Dev.sarDone (d : Dev) (m ch t code : Nat) (y : SarX) : Dev := ((d.sarStore m ch t code).setSarX m y).sarShow m


theorem Dev.sarX_put {f : Field} {n : Nat} : (d.put f n).sarX m = d.sarX m := rfl

theorem Dev.sarDone_sarX : (d.sarDone m ch t code y).sarX m = y := by
  unfold Dev.sarDone Dev.sarShow
  dsimp only
  rw [Dev.setf, Dev.sarX_put, Dev.sarX_put, Dev.sarX_setSarX_self]

theorem Dev.sarDone_busy : (d.sarDone m ch t code y).flag (SAR_CVm_STAT_BUSY m) = (!y.held.isEmpty || !y.seqs.isEmpty) := by
  have hbit : (SAR_CVm_STAT_BUSY m).IsBit := Field.isBit (by decide)
  unfold Dev.sarDone Dev.sarShow
  dsimp only
  rw [Dev.flag_setf_self hbit, Dev.sarX_setSarX_self]

/-- Nothing but registers and the converters' records differs. -/
def SarFrame (d e : Dev) : Prop := e = { d with regs := e.regs, sar := e.sar }

theorem SarFrame.trans {d' : Dev} (h : SarFrame d d') (h' : SarFrame d' e) : SarFrame d e := Eq.trans h' (by rw [h])

theorem SarFrame.put {f : Field} {n : Nat} : SarFrame d (d.put f n) := (OnlyRegs.put (p := fun _ => True) trivial).2 ▸ rfl

theorem SarFrame.setSarX : SarFrame d (d.setSarX m y) := rfl

theorem SarFrame.sarStore : SarFrame d (d.sarStore m ch t code) := by
  unfold Dev.sarStore
  dsimp only
  refine SarFrame.trans (SarFrame.trans ?_ .put) .setSarX
  split
  · exact .put
  · rfl

theorem SarFrame.sarShow : SarFrame d (d.sarShow m) := by
  unfold Dev.sarShow
  exact SarFrame.put.trans .put

theorem SarFrame.sarDone : SarFrame d (d.sarDone m ch t code y) := (SarFrame.sarStore.trans .setSarX).trans .sarShow

theorem Dev.sarDone_fab : (d.sarDone m ch t code y).fab = d.fab := by rw [SarFrame.sarDone]

theorem Dev.sarDone_code (hch : ch < 16) (hcode : code < 2 ^ 16) : (d.sarDone m ch t code y).get (SAR_CVm_RESc_CODE m ch) = code := by
  have hstat : (SAR_CVm_STAT_HELD m).addr ≠ (SAR_CVm_RESc_CODE m ch).addr := by
    simp only [SAR_CVm_STAT_HELD, SAR_CVm_RESc_CODE]
    omega
  have hbusy : (SAR_CVm_STAT_BUSY m).addr ≠ (SAR_CVm_RESc_CODE m ch).addr := hstat
  have hstored : (d.sarStore m ch t code).get (SAR_CVm_RESc_CODE m ch) = code := by
    unfold Dev.sarStore
    dsimp only
    rw [Dev.get_congr Dev.setSarX_reg]
    exact Dev.get_put_fit (f := SAR_CVm_RESc_CODE m ch) (by decide : 0 + 16 ≤ 32) hcode
  unfold Dev.sarDone Dev.sarShow
  dsimp only
  rw [Dev.setf, Dev.get_put_ne hbusy, Dev.get_put_ne hstat, Dev.get_congr Dev.setSarX_reg, hstored]

theorem Dev.sarStore_seqs : ((d.sarStore m ch t code).sarX m).seqs = (d.sarX m).seqs := by
  unfold Dev.sarStore
  dsimp only
  rw [Dev.sarX_setSarX_self]

/-- A held DC-link sample, converted. -/
def Dev.linkConverted (d : Dev) (m ch t : Nat) (rest : List (Nat × Nat × SarHold)) (v : SarInput) : Dev :=
  d.sarDone m ch t (d.sarCode ch v)
    { (d.sarStore m ch t (d.sarCode ch v)).sarX m with held := rest, freeAt := max (d.sarX m).freeAt t + 200 }

/-- Entry i of list j converted, its gate having fired at g. -/
def Dev.entryConverted (d : Dev) (c : Clock) (m j i g : Nat) (seqs : List (Nat × Nat × Nat)) (v : SarInput) : Dev :=
  let ch := d.seqChan m j i
  d.sarDone m ch (c.ns - 200) (d.sarCode ch v) { (d.sarStore m ch (c.ns - 200) (d.sarCode ch v)).sarX m with
    seqs := (if i + 1 < d.seqLen m j ∧ !(d.sarX m).cut then [(j, i + 1, g)] else []) ++ seqs, freeAt := c.ns, cut := false }

/-- A gate of a hold on converter m is armed and its firing lies in the past. -/
def Dev.holdDue (d : Dev) (c : Clock) (m : Nat) : Prop :=
  ∃ g ∈ d.holdGates m, d.flag (GATE_GTnnn_CTL_ARMED g) = true ∧ d.gateNext g < c.ns

theorem Dev.sarConversion_idle (h : d.sarOn m = false ∨ ((d.sarX m).held = [] ∧ (d.sarX m).seqs = [])) : d.sarConversion c m v = d := by
  unfold Dev.sarConversion
  rcases h with h | ⟨hh, hs⟩
  · simp [h]
  · simp [hh, hs]

section Held

variable (hon : d.sarOn m = true) (hheld : (d.sarX m).held = (ch, t, .link g) :: rest)

include hon hheld

theorem Dev.sarConversion_held_early (h : c.ns < max (d.sarX m).freeAt t + 200) : d.sarConversion c m v = d := by
  unfold Dev.sarConversion
  simp only [hon, hheld, h, Bool.not_true, Bool.false_eq_true, if_false, if_true]

theorem Dev.sarConversion_link (h : max (d.sarX m).freeAt t + 200 ≤ c.ns) : d.sarConversion c m v = d.linkConverted m ch t rest v := by
  have hdue : ¬ c.ns < max (d.sarX m).freeAt t + 200 := not_lt.mpr h
  unfold Dev.sarConversion
  simp only [hon, hheld, hdue, Bool.not_true, Bool.false_eq_true, if_false]
  rfl

end Held

section Listed

variable {j i : Nat} {seqs : List (Nat × Nat × Nat)} (hon : d.sarOn m = true) (hheld : (d.sarX m).held = [])
  (hseqs : (d.sarX m).seqs = (j, i, g) :: seqs)

include hon hheld hseqs

/-- The first entry of a list, by whether it is due and no hold is. -/
theorem Dev.sarConversion_listed [Decidable (d.holdDue c m)] : ∃ offs ws, d.sarConversion c m v =
    if c.ns < max (d.sarX m).freeAt g + 200 ∨ d.holdDue c m then d else (d.entryConverted c m j i g seqs v).emit 0xFE 0x12 none offs ws := by
  have hclash : ((d.holdGates m).any fun g => d.flag (GATE_GTnnn_CTL_ARMED g) && decide (d.gateNext g < c.ns)) = true ↔ d.holdDue c m := by
    simp [Dev.holdDue]
  unfold Dev.sarConversion
  simp only [hon, hheld, hseqs, hclash, Bool.not_true, Bool.false_eq_true, if_false]
  exact ⟨_, _, rfl⟩

end Listed

theorem Dev.linkConverted_fields (hch : ch < 16) : ((d.linkConverted m ch t rest v).sarX m).held = rest ∧
    ((d.linkConverted m ch t rest v).sarX m).freeAt = max (d.sarX m).freeAt t + 200 ∧
    (d.linkConverted m ch t rest v).get (SAR_CVm_RESc_CODE m ch) = d.sarCode ch v ∧
    (d.linkConverted m ch t rest v).flag (SAR_CVm_STAT_BUSY m) = (!rest.isEmpty || !(d.sarX m).seqs.isEmpty) := by
  unfold Dev.linkConverted
  dsimp only
  rw [Dev.sarDone_sarX, Dev.sarDone_busy, Dev.sarDone_code hch Dev.sarCode_lt, Dev.sarStore_seqs]
  exact ⟨rfl, rfl, rfl, rfl⟩

theorem Dev.seqChan_lt {j i : Nat} : d.seqChan m j i < 16 := Nat.mod_lt _ (by decide)

theorem Dev.sarX_emit {unit type offs : Nat} {time : Option (Nat × Nat)} {ws : List W64} {inj : Bool} :
    (d.emit unit type time offs ws inj).sarX m = d.sarX m := rfl

/-- An entry's conversion and its packet. -/
theorem Dev.entrySent_fields {j i offs : Nat} {seqs : List (Nat × Nat × Nat)} {ws : List W64} :
    let e := (d.entryConverted c m j i g seqs v).emit 0xFE 0x12 none offs ws
    e.get (SAR_CVm_RESc_CODE m (d.seqChan m j i)) = d.sarCode (d.seqChan m j i) v ∧ (e.sarX m).freeAt = c.ns ∧
    (e.sarX m).seqs = (if i + 1 < d.seqLen m j ∧ (d.sarX m).cut = false then [(j, i + 1, g)] else []) ++ seqs ∧
    e.fab.flight.length = d.fab.flight.length + 1 := by
  intro e
  obtain ⟨p, hsent⟩ := Dev.emit_flight (d := d.entryConverted c m j i g seqs v) (unit := 0xFE) (type := 0x12) (time := none) (offs := offs)
    (ws := ws) (inj := false)
  have hfab : (d.entryConverted c m j i g seqs v).fab = d.fab := Dev.sarDone_fab
  rw [hsent, hfab, Dev.sarX_emit, Dev.get_congr Dev.reg_emit]
  unfold Dev.entryConverted
  dsimp only
  rw [Dev.sarDone_sarX, Dev.sarDone_code Dev.seqChan_lt Dev.sarCode_lt]
  simp only [Bool.not_eq_true', List.length_append, List.length_singleton, and_self]

end Conversions

end Sys2Proof.Machine

/-! PROOFS. DC-link samples (R132 to R134). -/

namespace Sys2Proof.Machine

section LinkSamples

variable {d : Dev} {c : Clock} {g m t a b k : Nat} {x : Int}

theorem Dev.linkCode_converted (h : (d.sarX m).held = []) : d.linkCode c m g k = some (d.get (SAR_CVm_RESc_CODE m (linkChan g)), d) := by
  rw [Dev.linkCode, h]
  rfl

theorem Dev.linkSample_idle (h : (d.groupX g).dcAt = none ∨ (d.sarOn (g / 2 * 2) = false ∧ d.sarOn (g / 2 * 2 + 1) = false)) :
    d.linkSample c g a b = d := by
  unfold Dev.linkSample
  split
  · rfl
  · next t ht =>
    obtain ⟨ha, hb⟩ := h.resolve_left (by simp [ht])
    simp only [ha, hb]

/-- Both codes in their registers: the voltage is formed from them. -/
theorem Dev.linkSample_both (ht : (d.groupX g).dcAt = some t) (ha : d.sarOn (g / 2 * 2) = true) (hb : d.sarOn (g / 2 * 2 + 1) = true)
    (hha : (d.sarX (g / 2 * 2)).held = []) (hhb : (d.sarX (g / 2 * 2 + 1)).held = []) : d.linkSample c g a b =
      d.linkForm c g t (d.get (SAR_CVm_RESc_CODE (g / 2 * 2) (linkChan g))) (d.get (SAR_CVm_RESc_CODE (g / 2 * 2 + 1) (linkChan g))) none := by
  unfold Dev.linkSample
  simp only [ht, ha, hb, Dev.linkCode_converted hha, Dev.linkCode_converted hhb]

/-- The voltage from two codes: their scaled mean, or the larger where they differ by more than TOL. -/
def Dev.linkValue (d : Dev) (g a b : Nat) : Int :=
  linkVolt (if (sInt 16 a - sInt 16 b).natAbs ≤ d.get SAR_XCHK_TOL then sInt 16 a + sInt 16 b else 2 * max (sInt 16 a) (sInt 16 b))
    (d.reg (SAR_Gg_OFFS_ACT_OFFS g).addr) (d.reg (SAR_Gg_GAIN_ACT_GAIN g).addr)

/-- The sample is formed, and VOLT shows the voltage. -/
def Dev.linkShown (d : Dev) (g : Nat) (x : Int) : Dev := (d.setGroupX g { d.groupX g with dcAt := none }).putI (SAR_Gg_VOLT_V g) x

theorem Dev.linkShown_formed : (d.linkShown g x).linkFormed g := by
  have hset : (d.setGroupX g { d.groupX g with dcAt := none }).linkFormed g := Dev.linkFormed_setGroupX rfl
  rwa [Dev.linkShown, Dev.linkFormed, Dev.putI, Dev.put_groups]

theorem Dev.linkShown_fab : (d.linkShown g x).fab = d.fab := by rw [Dev.linkShown, Dev.putI, Dev.put_fab, Dev.setGroupX_fab]

theorem Dev.linkShown_volt {y : Int} (hx : x = satS 32 y) : (d.linkShown g x).getI (SAR_Gg_VOLT_V g) = x := by
  rw [hx]
  exact Dev.getI_putI_satS (f := SAR_Gg_VOLT_V g) rfl (Nat.le_refl 32)

/-- Two codes that differ by more than TOL (R134): IMPL, XERR and CONSEC, FC055, and FL057 past XLIM. -/
def Dev.linkDoubted (d : Dev) (c : Clock) (g lim : Nat) : Dev :=
  let n := min 15 (d.get (SAR_Gg_XSTAT_CONSEC g) + 1)
  let e := (((d.setf (SAR_Gg_XSTAT_IMPL g)).bump (SAR_Gg_XSTAT_XERR g)).put (SAR_Gg_XSTAT_CONSEC g) n).record c 55 (0x68 + g) 0
  if lim < n then (lanesOfGroup g).foldl (fun d u => d.activeFault c 57 u) e else e

theorem FaultKeeps.linkDoubted (hg : g < 4) : FaultKeeps d (d.linkDoubted c g k) := by
  have hstat : ¬ isResultReg (SAR_Gg_XSTAT_CONSEC g).addr := not_isResultReg (by simp only [SAR_Gg_XSTAT_CONSEC]; omega)
  have hnote : FaultKeeps d ((((d.setf (SAR_Gg_XSTAT_IMPL g)).bump (SAR_Gg_XSTAT_XERR g)).put (SAR_Gg_XSTAT_CONSEC g)
      (min 15 (d.get (SAR_Gg_XSTAT_CONSEC g) + 1))).record c 55 (0x68 + g) 0) :=
    (((FaultKeeps.setf (f := SAR_Gg_XSTAT_IMPL g) hstat).trans (.bump (f := SAR_Gg_XSTAT_XERR g) hstat)).trans (.put hstat)).trans .record
  exact .ite (hnote.trans (.foldl fun _ u hu => .activeFault (lt_of_mem_lanesOfGroup hg hu))) hnote

/-- The voltage shown, and the comparison of the codes. -/
def Dev.linkJudged (d : Dev) (c : Clock) (g a b : Nat) : Dev :=
  let e := d.linkShown g (d.linkValue g a b)
  if (sInt 16 a - sInt 16 b).natAbs ≤ d.get SAR_XCHK_TOL then e.put (SAR_Gg_XSTAT_CONSEC g) 0 else e.linkDoubted c g (d.get SAR_XCHK_XLIM)

theorem FaultKeeps.linkJudged (hg : g < 4) : FaultKeeps (d.linkShown g (d.linkValue g a b)) (d.linkJudged c g a b) :=
  .ite (.put (not_isResultReg (by simp only [SAR_Gg_XSTAT_CONSEC]; omega))) (.linkDoubted hg)

theorem Dev.linkForm_both : ∃ ws, d.linkForm c g t a b none =
    ((d.linkJudged c g a b).emit (0x68 + g) 0x13 none 0 ws).linkLaw c t g (d.linkValue g a b) := by
  unfold Dev.linkForm Dev.linkJudged Dev.linkValue
  by_cases hagree : (sInt 16 a - sInt 16 b).natAbs ≤ d.get SAR_XCHK_TOL
  · simp only [hagree, Option.isNone_none, decide_true, Bool.and_self, if_true]
    exact ⟨_, rfl⟩
  · simp only [hagree, Option.isNone_none, decide_false, Bool.and_false, Bool.false_eq_true, if_false]
    exact ⟨_, rfl⟩

/-- What a sample formed from two codes leaves (R133, R134). -/
theorem Dev.linkForm_shows (hg : g < 4) : ((d.linkForm c g t a b none).groupX g).dcAt = none ∧
    (d.linkForm c g t a b none).getI (SAR_Gg_VOLT_V g) = d.linkValue g a b ∧
    d.fab.flight.length < (d.linkForm c g t a b none).fab.flight.length := by
  obtain ⟨ws, heq⟩ := Dev.linkForm_both (d := d) (c := c) (g := g) (t := t) (a := a) (b := b)
  have hjudged : FaultKeeps (d.linkShown g (d.linkValue g a b)) (d.linkJudged c g a b) := .linkJudged hg
  have hflight : d.fab.flight.length ≤ (d.linkJudged c g a b).fab.flight.length := Dev.linkShown_fab (d := d) ▸ hjudged.flight
  have hlaw : FaultKeeps ((d.linkJudged c g a b).emit (0x68 + g) 0x13 none 0 ws) (d.linkForm c g t a b none) := heq ▸ .linkLaw hg
  have hall := (hjudged.trans .emit).trans hlaw
  have hvolt : (d.linkShown g (d.linkValue g a b)).getI (SAR_Gg_VOLT_V g) = d.linkValue g a b := Dev.linkShown_volt rfl
  refine ⟨Dev.groupX_dcAt (hall.formed g Dev.linkShown_formed), ?_, (Dev.emit_flight_lt hflight).trans_le hlaw.flight⟩
  rw [Dev.getI, Dev.get_congr (hall.regs _ (.inr ⟨g, hg, rfl⟩)), ← Dev.getI, hvolt]

end LinkSamples

end Sys2Proof.Machine

/-! PROOFS. The rows of the converters (R111 to R133). -/

namespace Sys2Proof.Machine

section ConverterRows

variable {s : State}

theorem State.dsfResult_eq (hs : s.dev.dst.serves = true) {l : Fin 24} {w : DsfWindow} :
    exec (.dsfResult l w) s = .next { s with dev := s.dev.dsfResult s.clk l w } :=
  exec_serving (h := fun c d => d.dsfResult c l w) hs rfl

theorem State.comparatorOutput_eq (hs : s.dev.dst.serves = true) {ch : Fin 72} {a : BitVec 16} :
    exec (.comparatorOutput ch a) s = .next { s with dev := s.dev.comparator s.clk ch a.toNat } :=
  exec_serving (h := fun c d => d.comparator c ch a.toNat) hs rfl

/-- What 256 equal bits of channel ch do (R124). -/
def Dev.stuck (d : Dev) (c : Clock) (ch : Nat) : Dev :=
  if (d.clockStart (ch / 12)).isNone then d
  else if d.laneActive (ch / 3) then ((d.setf (DSF_Cnn_STAT_STUCK ch)).record c 52 (ch / 3) ch).laneFault c 52 (ch / 3)
  else d.setf (DSF_Cnn_STAT_STUCK ch)

theorem State.modStuck_eq (hs : s.dev.dst.serves = true) {ch : Fin 72} {level : Bool} :
    exec (.modStuck ch level) s = .next { s with dev := s.dev.stuck s.clk ch } :=
  exec_serving (h := fun c d => d.stuck c ch) hs rfl

theorem State.sarConversion_eq (hs : s.dev.dst.serves = true) {m : Fin 4} {v : SarInput} :
    exec (.sarConversion m v) s = .next { s with dev := s.dev.sarConversion s.clk m v } :=
  exec_serving (h := fun c d => d.sarConversion c m v) hs rfl

theorem State.dcLinkSample_eq (hs : s.dev.dst.serves = true) {g : Fin 4} {a b : SarInput} : exec (.dcLinkSample g a b) s =
    .next { s with dev := s.dev.linkSample s.clk g (s.dev.sarCode (linkChan g) a) (s.dev.sarCode (linkChan g) b) } :=
  exec_serving (h := fun c d => d.linkSample c g (d.sarCode (linkChan g) a) (d.sarCode (linkChan g) b)) hs rfl

theorem Dev.stuck_stopped {d : Dev} {c : Clock} {ch : Nat} (h : (d.clockStart (ch / 12)).isSome = false) : d.stuck c ch = d :=
  if_pos (by simpa using h)

theorem Dev.stuck_idle {d : Dev} {c : Clock} {ch : Nat} (h : (d.clockStart (ch / 12)).isSome = true) (ha : d.laneActive (ch / 3) = false) :
    d.stuck c ch = d.setf (DSF_Cnn_STAT_STUCK ch) := (if_neg (by simpa [Option.isSome_iff_ne_none] using h)).trans (if_neg (by simp [ha]))

theorem Dev.stuck_active {d : Dev} {c : Clock} {ch : Nat} (h : (d.clockStart (ch / 12)).isSome = true) (ha : d.laneActive (ch / 3) = true) :
    d.stuck c ch = ((d.setf (DSF_Cnn_STAT_STUCK ch)).record c 52 (ch / 3) ch).laneFault c 52 (ch / 3) :=
  (if_neg (by simpa [Option.isSome_iff_ne_none] using h)).trans (if_pos ha)

/-- The next state of a row, the device given another way. -/
theorem exec_next_of_eq {i : Instr} {d e : Dev} (hx : exec i s = .next { s with dev := d }) (h : d = e) :
    exec i s = .next { s with dev := e } := h ▸ hx

end ConverterRows

end Sys2Proof.Machine

section
open Sys2Proof Sys2Proof.Machine

/-- Settles O47, row by row: filter results, comparator, stuck bitstream, codes, conversions and DC-link samples, each by the lemmas about it. -/
theorem converterRows : Obligations.ConverterRows := by
  intro s hs
  refine ⟨fun l w => ?filter, fun ch a => ?comparator, fun ch v => ?codes, fun m v => ?conversion, fun g a b => ?link⟩
  case filter =>
    intro g ch on val
    have hin : ∀ i, on i → ch i ∈ s.dev.dsfOn l := fun i hi => Dev.mem_dsfOn.mpr ⟨i, hi.1, rfl, hi.2⟩
    have hall {P : Nat → Prop} (hP : ∀ i, on i → P (ch i)) : ∀ k ∈ s.dev.dsfOn l, P k := by
      intro k hk
      obtain ⟨i, hi, rfl, hen⟩ := Dev.mem_dsfOn.mp hk
      exact hP i ⟨hi, hen⟩
    refine ⟨fun h => exec_next_of_eq (State.dsfResult_eq hs) (Dev.dsfResult_idle ?_), fun h0 hnew hon hdue hfull => ?_⟩
    · rcases h with h | h | h | ⟨i, hi, hlt⟩
      · exact .inl h
      · exact .inr (.inr (.inl h))
      · exact .inr (.inl (List.eq_nil_iff_forall_not_mem.mpr (hall h)))
      · exact .inr (.inr (.inr ⟨ch i, hin i hi, hlt⟩))
    · obtain ⟨i, hi⟩ := hon
      obtain ⟨hflight, hmem, hshow⟩ := Dev.dsfResult_shows (w := w) h0 (List.ne_nil_of_mem (hin i hi)) hnew (hall hdue) (hall hfull)
      refine ⟨_, State.dsfResult_eq hs, rfl, hflight, hmem, fun k hk => ?_⟩
      have hshown := hshow (ch k) (hin k hk)
      rwa [Nat.add_sub_cancel_left] at hshown
  case comparator =>
    have hout {e : Dev} (he : s.dev.comparator s.clk ch a.toNat = e) := exec_next_of_eq (State.comparatorOutput_eq hs) he
    have hstuck {level : Bool} {e : Dev} (he : s.dev.stuck s.clk ch = e) := exec_next_of_eq (State.modStuck_eq (level := level) hs) he
    refine ⟨fun h => hout (Dev.comparator_none h), fun n hn => ?_, fun level => ?_⟩
    · refine ⟨fun hj => hout (Dev.comparator_idle hn hj), fun hj hi => hout (Dev.comparator_ignored hn hj hi),
        fun hj hi hq => hout (Dev.comparator_quiet hn hj hi hq), fun hj hi ht hp hundo => ?_⟩
      obtain ⟨htrip, hflight, hnone, hone, hgroup⟩ := Dev.comparator_tripped ch.isLt hundo hn hj hi ht hp
      exact ⟨_, hout rfl, rfl, htrip, hflight, hnone, hone, hgroup⟩
    · exact ⟨fun h => hstuck (Dev.stuck_stopped h), fun h ha => hstuck (Dev.stuck_idle h ha), fun h ha => hstuck (Dev.stuck_active h ha)⟩
  case codes => exact ⟨Dev.sarCode_lt, Dev.sarCode_single_near, Dev.sarCode_differential_near⟩
  case conversion =>
    have hrow {e : Dev} (he : s.dev.sarConversion s.clk m v = e) := exec_next_of_eq (State.sarConversion_eq hs) he
    refine ⟨fun h => hrow (Dev.sarConversion_idle h), fun ch t g rest hheld hon => ?_, fun j i g0 rest hheld hseqs hon => ?_⟩
    · refine ⟨fun h => hrow (Dev.sarConversion_held_early hon hheld h), fun hch h => ?_⟩
      obtain ⟨hrest, hfree, hcode, hbusy⟩ := Dev.linkConverted_fields (d := s.dev) (m := m) (t := t) (rest := rest) (v := v) hch
      exact ⟨_, hrow (Dev.sarConversion_link hon hheld h), hrest, hfree, hcode, hbusy,
        congrArg (fun d => ({ s with dev := d } : State)) SarFrame.sarDone⟩
    · classical
      obtain ⟨offs, ws, hlist⟩ := Dev.sarConversion_listed (c := s.clk) (v := v) hon hheld hseqs
      exact ⟨fun h => hrow (hlist.trans (if_pos h)),
        fun h hfree => ⟨_, hrow (hlist.trans (if_neg (not_or.mpr ⟨not_lt.mpr h, hfree⟩))), rfl, Dev.entrySent_fields⟩⟩
  case link =>
    have hrow {e : Dev} (he : s.dev.linkSample s.clk g (s.dev.sarCode (linkChan g) a) (s.dev.sarCode (linkChan g) b) = e) :=
      exec_next_of_eq (State.dcLinkSample_eq hs) he
    refine ⟨fun h => hrow (Dev.linkSample_idle h), fun t ht ha hb hha hhb => ?_⟩
    obtain ⟨hdone, hvolt, hflight⟩ := Dev.linkForm_shows (d := s.dev) (c := s.clk) (t := t)
      (a := s.dev.get (SAR_CVm_RESc_CODE (g / 2 * 2) (linkChan g))) (b := s.dev.get (SAR_CVm_RESc_CODE (g / 2 * 2 + 1) (linkChan g))) g.isLt
    exact ⟨_, hrow (Dev.linkSample_both ht ha hb hha hhb), rfl, hdone, hvolt, hflight⟩

end

/-! PROOFS. Commands that note their work and promise its instant: fbk.set_pos, io.set, io.diag, cap.arm, cap.stop and can.send (R69, R157, R437,
R510, R512, R531, R539, R540). -/

namespace Sys2Proof.Machine

section DelayedWork

variable {q : Request} {d : Dev} {c : Clock} {tref g r : Nat}

theorem cmdFbkSetPos_accepts (hn : q.target.toNat < 24) (hl : q.payload.length = 2) (hr : d.isReleased 7 q.target.toNat = false) :
    cmdFbkSetPos c tref q d = .accept (d.firingAhead (24 + q.target.toNat) (q.at_ tref))
      (d.setFbkX q.target.toNat { d.fbkX q.target.toNat with
        setPos := (d.fbkX q.target.toNat).setPos ++ [(posOf (q.pw 0) (q.pw 1), q.at_ tref, some q.id)] }) := by
  rw [cmdFbkSetPos]
  exact refuseIf_pass (by simp [Nat.not_le.mpr hn, hl, hr])

/-! io.set and io.diag (R510, R512). -/

/-- io.set of own output channels: done where the mask is empty, else appended to the sets that wait. -/
theorem cmdIoSet_passes (ht : q.target = 0x6D) (hl : q.payload.length = 1) (hs : d.dst ≠ .safe) (hm : d.dst ≠ .mirror)
    (hown : ∀ cc < 32, (bits64 (q.pw 0) 0 32).testBit cc = true →
      cc < 24 ∧ d.fioMode cc = 3 ∧ d.loopFeeds cc true = false ∧ d.isReleased 0x10 cc = false) :
    cmdIoSet c tref q d = if bits64 (q.pw 0) 0 32 = 0 then .done {} d else
      .accept ((fioAll.filter fun cc => (bits64 (q.pw 0) 0 32).testBit cc).foldl (fun m cc => max m
          (d.fioFiring cc (max (q.at_ tref) (tref + 10000)) (d.imagesOf fun x => x.group = fioBase) 0)) (max (q.at_ tref) (tref + 10000)))
        { d with fio := { d.fio with sets := d.fio.sets ++
          [{ from_ := max (q.at_ tref) (tref + 10000), mask := bits64 (q.pw 0) 0 32, vals := bits64 (q.pw 0) 32 32, work := q.id }] } } := by
  rw [cmdIoSet]
  refine refuseIf_pass ?_
  simp only [List.forall_mem_cons, Bool.or_eq_false_iff, List.any_eq_false]
  refine ⟨by simp [ht, hl], ⟨trivial, fun cc hcc => ?_⟩, by simp⟩
  obtain ⟨hall, hbit⟩ := List.mem_filter.mp hcc
  obtain ⟨hlt, hmode, hfeed, hrel⟩ := hown cc (List.mem_range.mp hall) hbit
  simp [Nat.not_le.mpr hlt, hmode, hfeed, hrel]

/-- io.diag in READY or RUN: the last window's masks where DWIN is 0, else a window from the launch time. -/
theorem cmdIoDiag_passes (ht : q.target = 0x6D) (hl : q.payload.length = 1) (hz : bits64 (q.pw 0) 16 48 = 0) (hd : d.dst = .ready ∨ d.dst = .run) :
    cmdIoDiag c tref q d = if bits64 (q.pw 0) 0 16 = 0 then .done d.diagRsp d else
      .accept (q.at_ tref + bits64 (q.pw 0) 0 16 * 1000000)
        (d.openWindow c.ns (q.at_ tref) (q.at_ tref + bits64 (q.pw 0) 0 16 * 1000000) (some q.id)) := by
  rw [cmdIoDiag]
  refine refuseIf_pass ?_
  simp only [List.forall_mem_cons]
  refine ⟨by simp [ht, hl, hz], ?_, by simp⟩
  rcases hd with hd | hd <;> rw [hd] <;> rfl

/-- Showing whether a window is open writes registers alone. -/
theorem Dev.showWindow_frame {t : Nat} : OnlyRegs (fun _ => True) d (d.showWindow t) := by
  have hclear : OnlyRegs (fun _ => True) d (fioAll.foldl (fun d cc => d.setReg (FIO_CHcc_DIAG_OVL cc).addr 0) d) :=
    List.foldlRecOn (motive := OnlyRegs (fun _ => True) d) _ _ .refl fun _ hb _ _ => hb.trans (.setReg trivial)
  unfold Dev.showWindow
  dsimp only
  split
  · exact hclear.trans (.setf trivial)
  · exact .setf trivial

theorem Dev.openWindow_fio {t a b : Nat} {work : Option Nat} :
    (d.openWindow t a b work).fio = { d.fio with wins := d.fio.wins ++ [(a, b, work)] } := by
  rw [Dev.openWindow, Dev.showWindow_frame.2]

theorem Dev.openWindow_eq {t a b : Nat} {work : Option Nat} :
    d.openWindow t a b work = { d with fio := (d.openWindow t a b work).fio, regs := (d.openWindow t a b work).regs } := by
  rw [Dev.openWindow, Dev.showWindow_frame.2]

/-! cap.arm and cap.stop (R69, R531, R539). -/

/-- The registers that stage gate g's group. -/
def isGateStaged (g a : Nat) : Prop := 0x40030100 + 0x40 * g ≤ a ∧ a ≤ 0x4003010C + 0x40 * g

theorem Dev.gateStage_frame {kind target sub per cmp : Nat} : OnlyRegs (isGateStaged g) d (d.gateStage g kind target sub per cmp) := by
  have hin : isGateStaged g (GATE_GTnnn_CFG_EN g).addr ∧ isGateStaged g (GATE_GTnnn_PER_PER g).addr ∧
      isGateStaged g (GATE_GTnnn_CMP_LO_CMP g).addr ∧ isGateStaged g (GATE_GTnnn_CMP_HI_CMP g).addr := by
    simp only [isGateStaged, GATE_GTnnn_CFG_EN, GATE_GTnnn_PER_PER, GATE_GTnnn_CMP_LO_CMP, GATE_GTnnn_CMP_HI_CMP]
    omega
  obtain ⟨hcfg, hper, hlo, hhi⟩ := hin
  exact ((OnlyRegs.setReg hcfg).trans (.put hper)).trans (.put64 hlo hhi)

/-- A gate that is armed for no firing within the margin. -/
def Dev.gateFree (d : Dev) (c : Clock) (g : Nat) : Prop := d.flag (GATE_GTnnn_CTL_ARMED g) = false ∨ c.ns + d.margin ≤ d.gateNext g

/-- Staging a gate's group leaves its firing and the margin. -/
theorem Dev.gateStage_free {kind target sub per cmp : Nat} (h : d.gateFree c g) : (d.gateStage g kind target sub per cmp).gateFree c g := by
  have hframe : OnlyRegs (isGateStaged g) d (d.gateStage g kind target sub per cmp) := Dev.gateStage_frame
  have hout : ¬ isGateStaged g (GATE_GTnnn_CTL_ARMED g).addr ∧ ¬ isGateStaged g (GATE_GTnnn_NEXT_LO_NEXT g).addr ∧
      ¬ isGateStaged g (GATE_GTnnn_NEXT_HI_NEXT g).addr ∧ ¬ isGateStaged g GATE_MARGIN_MARG.addr := by
    simp only [isGateStaged, GATE_GTnnn_CTL_ARMED, GATE_GTnnn_NEXT_LO_NEXT, GATE_GTnnn_NEXT_HI_NEXT, GATE_MARGIN_MARG]
    omega
  obtain ⟨harmed, hlo, hhi, hmarg⟩ := hout
  unfold Dev.gateFree Dev.margin Dev.gateNext
  rwa [hframe.flag_eq harmed, hframe.get_eq hmarg, Dev.get64_congr (hframe.1 _ hlo) (hframe.1 _ hhi)]

/-- The setup margin is below 2,048 ns. -/
theorem Dev.margin_lt : d.margin < 2048 := by
  have hget : d.get GATE_MARGIN_MARG < 2 ^ 10 := Dev.get_lt
  rw [Dev.margin]
  omega

/-- A one-shot group of a free gate whose compare lies the margin ahead comes into force armed (R69). -/
theorem Dev.gateGroup_once {cfg cmp : Nat} (hfree : d.gateFree c g) (hcfg : cfg % 2 = 1) (hin : c.ns + d.margin ≤ cmp) :
    d.gateGroup c g cfg 0 cmp = (((d.setf (GATE_GTnnn_CTL_CMT g) false).gateGroupIn g cfg 0).put64 (GATE_GTnnn_NEXT_LO_NEXT g)
      (GATE_GTnnn_NEXT_HI_NEXT g) cmp).setf (GATE_GTnnn_CTL_ARMED g) := by
  have hready : ¬ (d.flag (GATE_GTnnn_CTL_ARMED g) = true ∧ d.gateNext g < c.ns + d.margin) := by
    rintro ⟨harmed, hnext⟩
    rcases hfree with h | h
    · exact Bool.false_ne_true (h.symm.trans harmed)
    · omega
  rw [Dev.gateGroup, if_neg hready, Dev.gateInForce, if_neg (by omega), if_pos rfl, if_neg (by omega), Dev.gateGroupIn]

theorem Dev.gateGroup_arms {cfg cmp : Nat} (hfree : d.gateFree c g) (hcfg : cfg % 2 = 1) (hin : c.ns + d.margin ≤ cmp) (hfit : cmp < 2 ^ 64) :
    (d.gateGroup c g cfg 0 cmp).flag (GATE_GTnnn_CTL_ARMED g) = true ∧ (d.gateGroup c g cfg 0 cmp).gateNext g = cmp ∧
      (d.gateGroup c g cfg 0 cmp).get (GATE_GTnnn_PER_ACT_PER g) = 0 := by
  have hne : (GATE_GTnnn_CTL_ARMED g).addr ≠ (GATE_GTnnn_NEXT_LO_NEXT g).addr ∧
      (GATE_GTnnn_CTL_ARMED g).addr ≠ (GATE_GTnnn_NEXT_HI_NEXT g).addr ∧
      (GATE_GTnnn_NEXT_HI_NEXT g).addr ≠ (GATE_GTnnn_NEXT_LO_NEXT g).addr ∧
      (GATE_GTnnn_CTL_ARMED g).addr ≠ (GATE_GTnnn_PER_ACT_PER g).addr ∧ (GATE_GTnnn_NEXT_LO_NEXT g).addr ≠ (GATE_GTnnn_PER_ACT_PER g).addr ∧
      (GATE_GTnnn_NEXT_HI_NEXT g).addr ≠ (GATE_GTnnn_PER_ACT_PER g).addr := by
    simp only [GATE_GTnnn_CTL_ARMED, GATE_GTnnn_NEXT_LO_NEXT, GATE_GTnnn_NEXT_HI_NEXT, GATE_GTnnn_PER_ACT_PER]
    omega
  obtain ⟨hal, hah, hhl, hap, hlp, hhp⟩ := hne
  rw [Dev.gateGroup_once hfree hcfg hin]
  refine ⟨Dev.flag_setf_self (Field.isBit (by decide)), ?_, ?_⟩
  · rw [Dev.gateNext, Dev.get64_congr (Dev.reg_setf_ne hal) (Dev.reg_setf_ne hah), Dev.get64_put64 ⟨rfl, rfl⟩ ⟨rfl, rfl⟩ hhl,
      Nat.mod_eq_of_lt hfit]
  · rw [Dev.get_congr ((Dev.reg_setf_ne hap).trans (Dev.reg_put64_ne hlp hhp))]
    exact Dev.get_put_fit (f := GATE_GTnnn_PER_ACT_PER g) (by decide : 0 + 32 ≤ 32) (by decide : 0 < 2 ^ 32)

/-- Nothing but registers, recorders and the records of gates differs. -/
def CaptureFrame (d e : Dev) : Prop := e = { d with regs := e.regs, cap := e.cap, gates := e.gates }

theorem CaptureFrame.trans {d' e : Dev} (h : CaptureFrame d d') (h' : CaptureFrame d' e) : CaptureFrame d e := Eq.trans h' (by rw [h])

theorem CaptureFrame.of_onlyRegs {p : Nat → Prop} {e : Dev} (h : OnlyRegs p d e) : CaptureFrame d e := h.2 ▸ rfl

theorem CaptureFrame.setGateX {x : GateX} : CaptureFrame d (d.setGateX g x) := rfl

theorem CaptureFrame.setCapX {x : CapX} : CaptureFrame d (d.setCapX r x) := rfl

theorem CaptureFrame.gateGroup {cfg per cmp : Nat} : CaptureFrame d (d.gateGroup c g cfg per cmp) := by
  unfold Dev.gateGroup
  split
  · exact CaptureFrame.setGateX.trans (.of_onlyRegs (OnlyRegs.setf (p := fun _ => True) trivial))
  · exact CaptureFrame.trans (.of_onlyRegs (OnlyRegs.setf (p := fun _ => True) trivial)) (.of_onlyRegs Dev.gateInForce_frame)

/-- Configuration of the CAPTURE gate that cap.arm arms for recorder r. -/
def capGateCfg (r : Nat) : Nat := 1 + 6 * 16 + capUnit r * 256

theorem Dev.gateStage_plain {kind target per cmp : Nat} : d.gateStage g kind target 0 per cmp =
    ((d.setReg (GATE_GTnnn_CFG_EN g).addr (BitVec.ofNat 32 (1 + kind * 16 + target * 256))).put (GATE_GTnnn_PER_PER g) per).put64
      (GATE_GTnnn_CMP_LO_CMP g) (GATE_GTnnn_CMP_HI_CMP g) cmp := by rw [Dev.gateStage, Nat.zero_mul, Nat.add_zero]

/-- The device with recorder r's gate staged and committed for an instant (R531). -/
def Dev.capCommitted (d : Dev) (c : Clock) (r at_ : Nat) : Dev :=
  (d.gateStage (capGate r) 6 (capUnit r) 0 0 at_).gateGroup c (capGate r) (capGateCfg r) 0 at_

/-- The data of recorder r's gate is there, and the recorder waits for the gate on behalf of a work. -/
def Dev.capNoted (d : Dev) (c : Clock) (r work : Nat) : Dev :=
  let d1 := d.setGateX (capGate r) { d.gateX (capGate r) with dataAt := some c.ns }
  d1.setCapX r { d1.capX r with armWork := some work }

theorem cmdCapArm_accepts (hr : q.target.toNat - 0x58 = r) (hlo : 0x58 ≤ q.target.toNat) (hhi : q.target.toNat < 0x60) (hl : q.payload = [])
    (hb : d.capBusy r = false) (hw : (d.capX r).armWork = none) (hm : d.get (CAP_Rr_CFG_ACT_MODE r) ≠ 0) (ht : tref + 10000 ≤ q.at_ tref) :
    cmdCapArm c tref q d = .accept (d.capGrid r (q.at_ tref)) ((d.capCommitted c r (q.at_ tref)).capNoted c r q.id) := by
  subst hr
  rw [cmdCapArm, Dev.capCommitted, Dev.gateStage_plain]
  exact (refuseIf_pass (by simp [capTarget, hlo, hhi, hl, hb, hw, hm, ht])).trans rfl

theorem CaptureFrame.capNoted {work : Nat} : CaptureFrame d (d.capNoted c r work) := CaptureFrame.setGateX.trans .setCapX

theorem CaptureFrame.capCommitted {at_ : Nat} : CaptureFrame d (d.capCommitted c r at_) :=
  CaptureFrame.trans (.of_onlyRegs Dev.gateStage_frame) .gateGroup

/-- The gate of an arming recorder stands armed for the launch time alone (R69, R531). -/
theorem Dev.capCommitted_armed {at_ : Nat} (hfree : d.gateFree c (capGate r)) (hin : c.ns + 10000 ≤ at_) (hfit : at_ < 2 ^ 64) :
    (d.capCommitted c r at_).flag (GATE_GTnnn_CTL_ARMED (capGate r)) = true ∧ (d.capCommitted c r at_).gateNext (capGate r) = at_ ∧
      (d.capCommitted c r at_).get (GATE_GTnnn_PER_ACT_PER (capGate r)) = 0 := by
  have hcfg : capGateCfg r % 2 = 1 := by
    rw [capGateCfg]
    omega
  have hmargin : (d.gateStage (capGate r) 6 (capUnit r) 0 0 at_).margin < 2048 := Dev.margin_lt
  exact Dev.gateGroup_arms (Dev.gateStage_free hfree) hcfg (by omega) hfit

theorem Dev.capNoted_reg {work a : Nat} : (d.capNoted c r work).reg a = d.reg a := rfl

theorem cmdCapStop_accepts (hr : q.target.toNat - 0x58 = r) (hlo : 0x58 ≤ q.target.toNat) (hhi : q.target.toNat < 0x60) (hl : q.payload = [])
    (hb : d.capBusy r = true ∨ (d.capX r).armWork.isSome = true) (hs : (d.capX r).stop = none) :
    cmdCapStop c tref q d = .accept (d.capGrid r (q.at_ tref) + 1000 * d.get (CAP_Rr_CFG_ACT_RLAG r))
      (d.setCapX r { d.capX r with stop := some (q.at_ tref, q.id) }) := by
  subst hr
  have hidle : (!d.capBusy (q.target.toNat - 0x58) && (d.capX (q.target.toNat - 0x58)).armWork.isNone) = false := by
    rcases hb with h | h
    · simp [h]
    · simp [Option.isNone_eq_false_iff.mpr h]
  rw [cmdCapStop]
  exact refuseIf_pass (by simp [capTarget, hlo, hhi, hl, hidle, hs])

/-! can.send (R437, R440). -/

/-- The transmit entry that a payload of can.send spells. -/
def canEntry (q : Request) (tref : Nat) : CanTx :=
  { launch := q.at_ tref, w2 := BitVec.ofNat 32 (bits64 (q.pw 0) 0 32), w3 := BitVec.ofNat 32 (bits64 (q.pw 0) 32 32), work := some q.id
    data := bytesOf 8 (w2Bytes (BitVec.ofNat 32 (bits64 (q.pw 0) 0 32)) (BitVec.ofNat 32 (bits64 (q.pw 0) 32 32)))
      ((q.payload.drop 1).map (·.toNat)) }

theorem cmdCanSend_accepts {ch : Nat} {w2 w3 : W32} (hch : q.target.toNat - 0x60 = ch) (h2 : BitVec.ofNat 32 (bits64 (q.pw 0) 0 32) = w2)
    (h3 : BitVec.ofNat 32 (bits64 (q.pw 0) 32 32) = w3) (hlo : 0x60 ≤ q.target.toNat) (hhi : q.target.toNat < 0x68)
    (hl : q.payload.length = 1 + (w2Bytes w2 w3 + 7) / 8) (hid : w2.getLsbD 31 = false) (hw : w3.toNat / 2 ^ 8 % 2 ^ 8 = 0)
    (hm : d.canMode ch = canNormal) (hd : d.dst ≠ .mirror) (ht : w3.toNat / 2 ^ 16 ≠ 0) (hb : canBad w2 w3 = false)
    (hroom : (d.canX ch).tx.length < 32) :
    cmdCanSend c tref q d = .accept (q.at_ tref + w3.toNat / 2 ^ 16 * 100000) (d.canQueue ch (canEntry q tref)) := by
  subst hch h2 h3
  rw [cmdCanSend]
  refine refuseIf_pass ?_
  simp only [List.forall_mem_cons]
  refine ⟨?_, ?_, ?_, hb, ?_, by simp⟩
  · simp only [Nat.not_lt.mpr hlo, Nat.not_le.mpr hhi, hl, hid, hw]
    simp
  · simp [hm, hd]
  · simpa using ht
  · simpa using hroom

end DelayedWork

end Sys2Proof.Machine

section
open Sys2Proof Sys2Proof.Machine

/-- Settles O22, command by command: its conditions pass, and what it notes is what the command's own lemmas say. -/
theorem delayedWorkCommands : Obligations.DelayedWorkCommands := by
  intro q s n at_
  refine ⟨fun hn hl hr hserved => ?setPos, ?set, ?diag, ?capture, ?send⟩
  case setPos => exact exec_accepts rfl (cmdFbkSetPos_accepts hn hl hr) hserved
  case set =>
    intro mask from_ p ht hl hs hm hown
    have hpass := cmdIoSet_passes (c := s.clk) (tref := s.clk.ns) ht hl hs hm hown
    exact ⟨fun h0 => exec_accepts rfl (hpass.trans (if_neg h0)), fun h0 => exec_done rfl (hpass.trans (if_pos h0))⟩
  case diag =>
    intro dwin p ht hl hz hd
    have hpass := cmdIoDiag_passes (c := s.clk) (tref := s.clk.ns) ht hl hz hd
    exact ⟨fun h0 => exec_done rfl (hpass.trans (if_pos h0)), fun h0 hserved =>
      ⟨_, exec_accepts rfl (hpass.trans (if_neg h0.ne')) hserved, Dev.openWindow_fio, Dev.openWindow_eq⟩⟩
  case capture =>
    intro r g hlo hhi hl
    refine ⟨fun hb hw hm ht hserved => ⟨_, exec_accepts rfl (cmdCapArm_accepts rfl hlo hhi hl hb hw hm ht) hserved, ?_, fun hfit hfree => ?_,
      CaptureFrame.capCommitted.trans .capNoted⟩, fun hb hs => exec_accepts rfl (cmdCapStop_accepts rfl hlo hhi hl hb hs)⟩
    · exact congrArg CapX.armWork Dev.capX_setCapX_self
    · obtain ⟨harmed, hnext, hper⟩ := Dev.capCommitted_armed (r := r) hfree ht hfit
      exact ⟨(Dev.flag_congr Dev.capNoted_reg).trans harmed, (Dev.get64_congr Dev.capNoted_reg Dev.capNoted_reg).trans hnext,
        (Dev.get_congr Dev.capNoted_reg).trans hper⟩
  case send =>
    intro ch w2 w3 p hlo hhi hl hid hw hm hd ht hb hroom hserved
    obtain ⟨htx, hcount, hframe⟩ := Dev.canQueue_shows (d := s.dev) (e := canEntry q s.clk.ns) hroom
    exact ⟨_, _, exec_accepts rfl (cmdCanSend_accepts rfl rfl rfl hlo hhi hl hid hw hm hd ht hb hroom) hserved, htx, rfl, rfl, rfl, rfl, hcount,
      hframe⟩

end

/-! PROOFS. What the Stride outputs that follow a port, the probes and the answers of the mailboxes leave of the feedback ports and of the packets on
their way (R160, R165, R168, R374). -/

namespace Sys2Proof.Machine

section PortAsides

variable {d d' e : Dev} {c : Clock} {f : Field} {a k m n v t : Nat} {p : Nat → Prop}

/-- Nothing but registers, the Stride outputs, the log, the fabric and the pair's link differs, and no packet is taken from its way. -/
structure StrideAside (d e : Dev) : Prop where
  frame : e = { d with regs := e.regs, str := e.str, flt := e.flt, fab := e.fab, pair := e.pair }
  flight : d.fab.flight.length ≤ e.fab.flight.length

theorem StrideAside.refl : StrideAside d d := ⟨rfl, le_rfl⟩

theorem StrideAside.trans (h : StrideAside d d') (h' : StrideAside d' e) : StrideAside d e :=
  ⟨h'.frame.trans (by rw [h.frame]), h.flight.trans h'.flight⟩

theorem StrideAside.ite {b : Prop} [Decidable b] (ht : StrideAside d d') (he : StrideAside d e) : StrideAside d (if b then d' else e) := by
  split
  · exact ht
  · exact he

theorem StrideAside.put : StrideAside d (d.put f v) := ⟨ReportFrame.put ▸ rfl, le_rfl⟩

theorem StrideAside.setf {x : Bool} : StrideAside d (d.setf f x) := .put

theorem StrideAside.setStrX {y : StrX} : StrideAside d (d.setStrX k y) := ⟨rfl, le_rfl⟩

theorem StrideAside.record {code unit info : Nat} {inj : Bool} : StrideAside d (d.record c code unit info inj) :=
  ⟨by rw [ReportFrame.record], FaultKeeps.record.flight⟩

/-- A source that moves changes the output that follows it: its units, registers, and a report of lost units (R165, R167). -/
theorem StrideAside.strideMove {x0 x1 : Int} {t0 t1 : Nat} : StrideAside d (d.strideMove c k x0 x1 t0 t1) := by
  unfold Dev.strideMove
  extract_lets y0 seg y fwd fwdOnly a b crossed keep units fresh lateGuess lag moved u' lost d1 d2 d3
  have h1 : StrideAside d d1 := .ite .setf .refl
  have h2 : StrideAside d d2 := .ite (h1.trans .setf) h1
  have hlost : StrideAside d2 (((d2.bump (STR_s_LOSTC_CNT k) lost).setf (STR_s_STAT_LOST k)).record c 69 (0x50 + k) 0) :=
    (StrideAside.put.trans .setf).trans .record
  have h3 : StrideAside d d3 := .ite h2 (h2.trans hlost)
  exact .ite .setStrX (h3.trans (StrideAside.put.trans .setStrX))

theorem StrideAside.stridesMove {x0 x1 : Int} {t0 t1 : Nat} : StrideAside d (d.stridesMove c n x0 x1 t0 t1) :=
  List.foldlRecOn (motive := StrideAside d) _ _ .refl fun _ hb _ _ => hb.trans (.ite .strideMove .refl)

/-- The feedback ports stay, and no packet is taken from its way. -/
structure PortAside (d e : Dev) : Prop where
  fbk : e.fbk = d.fbk
  flight : d.fab.flight.length ≤ e.fab.flight.length

theorem PortAside.refl : PortAside d d := ⟨rfl, le_rfl⟩

theorem PortAside.trans (h : PortAside d d') (h' : PortAside d' e) : PortAside d e := ⟨h'.fbk.trans h.fbk, h.flight.trans h'.flight⟩

theorem PortAside.ite {b : Prop} [Decidable b] (ht : PortAside d d') (he : PortAside d e) : PortAside d (if b then d' else e) := by
  split
  · exact ht
  · exact he

theorem PortAside.foldl {α : Type} {g : Dev → α → Dev} {xs : List α} (h : ∀ d x, PortAside d (g d x)) : PortAside d (xs.foldl g d) :=
  List.foldlRecOn (motive := PortAside d) xs g .refl fun _ hb x _ => hb.trans (h _ x)

theorem PortAside.of_stride (h : StrideAside d e) : PortAside d e := ⟨by rw [h.frame], h.flight⟩

theorem PortAside.of_onlyRegs (h : OnlyRegs p d e) : PortAside d e := ⟨by rw [h.2], by rw [h.2]⟩

theorem PortAside.put : PortAside d (d.put f v) := ⟨rfl, le_rfl⟩

theorem PortAside.setf {x : Bool} : PortAside d (d.setf f x) := .put

theorem PortAside.putI {x : Int} : PortAside d (d.putI f x) := .put

theorem PortAside.setStrX {y : StrX} : PortAside d (d.setStrX k y) := ⟨rfl, le_rfl⟩

theorem PortAside.setMbox {y : Mbox} : PortAside d (d.setMbox m y) := ⟨rfl, le_rfl⟩

theorem PortAside.emit {unit type offs : Nat} {time : Option (Nat × Nat)} {ws : List W64} {inj : Bool} :
    PortAside d (d.emit unit type time offs ws inj) := ⟨rfl, (Dev.emit_flight_lt le_rfl).le⟩

theorem PortAside.fbkX (h : PortAside d e) : e.fbkX n = d.fbkX n := by rw [Dev.fbkX, h.fbk, Dev.fbkX]

/-! Answers (R374 to R380). -/

theorem PortAside.touchEcc : PortAside d (d.touchEcc a) := by
  unfold Dev.touchEcc
  split <;> exact ⟨rfl, le_rfl⟩

theorem PortAside.wrN : PortAside d (d.wrN a k v) := by
  induction k generalizing d a v with
  | zero => exact .refl
  | succ k ih => exact PortAside.trans (d' := d.setByte a (BitVec.ofNat 8 v)) ⟨rfl, le_rfl⟩ ih

theorem PortAside.wrWords {ws : List W64} : PortAside d (d.wrWords a ws) := by
  induction ws generalizing d a with
  | nil => exact .refl
  | cons w ws ih => exact (PortAside.wrN.trans .touchEcc).trans ih

theorem PortAside.placeRsp {src : Byte} {opc seq rtype : Nat} {r : Rsp} : PortAside d (d.placeRsp m src opc seq rtype t r).2 := by
  have hentry {d : Dev} {ws : List W64} : PortAside d (d.putEntry m ws) := by
    unfold Dev.putEntry
    split
    · exact ⟨rfl, by simp⟩
    · exact .ite .setMbox (PortAside.wrWords.trans .put)
  have htell {d : Dev} {ft : Nat} {ws : List W64} : PortAside d (d.tell ft ws) := .ite ⟨rfl, le_rfl⟩ .refl
  exact (hentry.trans htell).trans .setMbox

theorem PortAside.setTaken {tk : List (Nat × Bool)} : PortAside d (d.setTaken m tk) := by
  unfold Dev.setTaken
  dsimp only
  split
  · exact PortAside.setMbox.trans .put
  · exact .setMbox

theorem PortAside.respond {src : Byte} {opc seq rtype : Nat} {r : Rsp} : PortAside d (d.respond m src opc seq rtype t r) := by
  have hplace : PortAside d (d.placeRsp m src opc seq rtype t r).2 := .placeRsp
  unfold Dev.respond
  split
  next ws d1 heq =>
  rw [heq] at hplace
  extract_lets last d2 d3
  have h2 : PortAside d d2 := .ite (hplace.trans .setMbox) hplace
  have h3 : PortAside d d3 := .ite (h2.trans .put) h2
  exact .ite h3 (h3.trans .setTaken)

theorem PortAside.settle : PortAside d (d.settle m n) := by
  induction n generalizing d with
  | zero => exact .refl
  | succ n ih => exact .ite ((PortAside.wrWords.trans .wrWords).trans ih) .refl

theorem PortAside.finishDone {id : Option Nat} {r : Rsp} : PortAside d (d.finishDone id t r) := by
  unfold Dev.finishDone Dev.finish
  split
  · split
    · exact .refl
    · next w _ =>
      refine PortAside.trans (PortAside.trans ?_ .respond) .settle
      exact PortAside.trans (d' := { d with work := d.work.filter fun w => w.id ≠ _ }) ⟨rfl, le_rfl⟩ .put
  · exact .refl

/-! Latches of the probes, and commits of the Stride groups (R160, R161, R168). -/

theorem PortAside.probeSend {x : Int} {rising extrap : Bool} : PortAside d (d.probeSend m n rising t x extrap) := by
  have hpos {d : Dev} : PortAside d (d.probePos m x) := (PortAside.put.trans .put).trans .put
  have hsend {d : Dev} {b : Prop} [Decidable b] {ws : List W64} : PortAside d (if b then d.emit n 0x22 (some (t, 0)) 0 ws else d) :=
    .ite .emit .refl
  exact .ite (hsend.trans hpos) hsend

theorem PortAside.probesLatch {x0 x1 : Int} {s0 s1 : Nat} {extrap : Bool} : PortAside d (d.probesLatch n x0 x1 s0 s1 extrap) := by
  refine .foldl fun d k => PortAside.trans (.foldl fun d w => .ite .probeSend .refl) ⟨rfl, le_rfl⟩

theorem PortAside.regStore {w : W32} : PortAside d (d.regStore a w) := by
  unfold Dev.regStore
  exact .ite (PortAside.trans (d' := d.setReg a _) ⟨rfl, le_rfl⟩ .touchEcc) ⟨rfl, le_rfl⟩

theorem PortAside.writePairs {ps : List (Nat × Nat)} : PortAside d (d.writePairs ps) := .foldl fun _ _ => .regStore

theorem PortAside.takeImages : PortAside d (d.takeImages a t).2 := by
  have hwrite (imgs ps : List PendImg) : PortAside { d with imgs := imgs } (ps.foldl (fun d p => d.writePairs p.pairs) { d with imgs := imgs }) :=
    .foldl fun _ _ => .writePairs
  have h := hwrite (d.imgs.filter fun p => !(p.group = a ∧ p.from_ ≤ t)) (d.dueImages a t)
  exact ⟨h.fbk, h.flight⟩

theorem PortAside.doneImages {ps : List PendImg} : PortAside d (d.doneImages ps t) := .foldl fun _ _ => .ite .refl .finishDone

theorem PortAside.copyRegs {ps : List (Nat × Nat)} : PortAside d (d.copyRegs ps) :=
  .of_onlyRegs (OnlyRegs.copyRegs (p := fun _ => True) fun _ _ => trivial)

theorem PortAside.strApply {x : Int} : PortAside d (d.strApply k x) := by
  unfold Dev.strApply
  extract_lets d0 was en orgNew ratioNew srcNew n0 m0 off d1 y0 y stopped go runs halted u n1 m1 d2 u2 y1 d3
  have h0 : PortAside d d0 := .setf
  have h1 : PortAside d d1 := (h0.trans .copyRegs).trans .setf
  have horg {x : Int} : PortAside d1 (d1.putOrg k x) := (PortAside.put.trans .put).trans .put
  have h2 : PortAside d d2 := .ite (h1.trans horg) h1
  have h3 : PortAside d d3 := (h2.trans .setStrX).trans .setf
  refine .ite (h0.trans .setf) (.ite (h0.trans .setf) (.ite ((h1.trans .setStrX).trans .setf) (.ite ?_ (.ite (h3.trans .put) h3))))
  exact ((h1.trans .setStrX).trans .setf).trans .put

theorem PortAside.strCommits : PortAside d (d.strCommits n t) := by
  refine .foldl fun d k => ?_
  have htake : PortAside d (d.takeImages (strBase k) t).2 := .takeImages
  exact .ite .refl (.ite (htake.trans (PortAside.strApply.trans .doneImages)) htake)

theorem PortAside.of_fit {w : Nat} {x : Int} {y : Int × Dev} (h : d.fit w x = y) : PortAside d y.2 := by
  subst h
  unfold Dev.fit
  split <;> exact ⟨rfl, le_rfl⟩

end PortAsides

end Sys2Proof.Machine

/-! PROOFS. Counting edges, index events and the alarm of a feedback port (R139, R141 to R143, R155). -/

namespace Sys2Proof.Machine

section Counting

variable {s : State} {d e e' : Dev} {c : Clock} {i : Instr} {n : Nat} {v step : Int} {p : Nat → Prop}

/-- The count of port n becomes v, and memory stays. -/
def CountsTo (n : Nat) (v : Int) (d e : Dev) : Prop := (e.fbkX n).count = v ∧ e.mem = d.mem

theorem CountsTo.refl : CountsTo n (d.fbkX n).count d d := ⟨rfl, rfl⟩

theorem CountsTo.aside (h : CountsTo n v d e) (ha : StrideAside e e') : CountsTo n v d e' :=
  ⟨by rw [(PortAside.of_stride ha).fbkX, h.1], by rw [ha.frame, h.2]⟩

theorem CountsTo.setFbkX {x : FbkX} (h : CountsTo n v d e) (hx : x.count = v) : CountsTo n v d (e.setFbkX n x) :=
  ⟨(congrArg FbkX.count Dev.fbkX_setFbkX_self).trans hx, h.2⟩

theorem CountsTo.onlyRegs (h : CountsTo n v d e) (hr : OnlyRegs p e e') : CountsTo n v d e' :=
  ⟨by rw [(PortAside.of_onlyRegs hr).fbkX, h.1], by rw [hr.2, h.2]⟩

/-- A counting edge adds its step (R142, R143). -/
theorem CountsTo.countEdge {t : Nat} (h : CountsTo n v d e) : CountsTo n (v + step) d (e.countEdge c n step t) :=
  ⟨(congrArg FbkX.count Dev.fbkX_setFbkX_self).trans (congrArg (· + step) h.1), h.2⟩

theorem CountsTo.ite {b : Prop} [Decidable b] (ht : CountsTo n v d e) (he : CountsTo n v d e') : CountsTo n v d (if b then e else e') := by
  split
  · exact ht
  · exact he

theorem CountsTo.exec (hx : exec i s = .next { s with dev := e }) (h : CountsTo n v s.dev e) :
    ∃ t, exec i s = .next t ∧ (t.dev.fbkX n).count = v ∧ t.dev.mem = s.dev.mem ∧ t.clk = s.clk := ⟨_, hx, h.1, h.2, rfl⟩

theorem Dev.portRuns_of (hs : d.dst.serves = true) (hm : d.fbMode n ≠ 0) : d.portRuns n = true := by
  rw [Dev.portRuns, hs, Bool.true_and]
  exact decide_eq_true hm

theorem Dev.portRuns_off (hm : d.fbMode n = 0) : d.portRuns n = false := by
  rw [Dev.portRuns, Bool.and_eq_false_iff]
  exact .inr (decide_eq_false (not_not_intro hm))

/-! Uncertainty (R144, R169). -/

/-- SRC_UNC of a Stride output. -/
def isSrcUnc (a : Nat) : Prop := ∃ k < 8, a = (STR_s_STAT_SRC_UNC k).addr

theorem not_isSrcUnc {a : Nat} (h : a % 0x100 ≠ 0x20) : ¬ isSrcUnc a := by
  rintro ⟨k, hk, rfl⟩
  simp only [STR_s_STAT_SRC_UNC] at h
  omega

theorem Dev.setUnc_follow {b : Bool} : OnlyRegs isSrcUnc (d.setf (FBK_nn_STAT_UNC n) b) (d.setUnc n b) := by
  refine List.foldlRecOn (motive := OnlyRegs isSrcUnc (d.setf (FBK_nn_STAT_UNC n) b)) _ _ .refl fun e he k hk => ?_
  split
  · exact he.trans (.setf ⟨k, List.mem_range.mp hk, rfl⟩)
  · exact he

/-- The device with UNC and ERUN of port n clear. -/
def Dev.uncCleared (d : Dev) (n : Nat) : Dev := (d.setUnc n false).put (FBK_nn_STAT_ERUN n) 0

theorem Dev.uncCleared_frame : OnlyRegs (fun a => isSrcUnc a ∨ a = (FBK_nn_STAT_UNC n).addr) d (d.uncCleared n) :=
  ((OnlyRegs.setf (.inr rfl)).trans (Dev.setUnc_follow.mono fun _ ha => .inl ha)).trans (.put (.inr rfl))

theorem Dev.clearUnc_eq : d.clearUnc n = (d.uncCleared n).setFbkX n { (d.uncCleared n).fbkX n with erun61 := false } := rfl

theorem Dev.uncCleared_fbkX : (d.uncCleared n).fbkX n = d.fbkX n := (PortAside.of_onlyRegs Dev.uncCleared_frame).fbkX

theorem Dev.uncCleared_shows : (d.uncCleared n).flag (FBK_nn_STAT_UNC n) = false ∧ (d.uncCleared n).get (FBK_nn_STAT_ERUN n) = 0 := by
  have hsrc : ¬ isSrcUnc (FBK_nn_STAT_UNC n).addr := not_isSrcUnc (by simp only [FBK_nn_STAT_UNC]; omega)
  refine ⟨?_, Dev.get_put_fit (f := FBK_nn_STAT_ERUN n) (by decide : 16 + 8 ≤ 32) (by decide : 0 < 2 ^ 8)⟩
  rw [Dev.uncCleared, Dev.flag_put_apart (f := FBK_nn_STAT_ERUN n) (by decide : 16 + 8 ≤ 32) (.inr (.inr (by decide : 0 + 1 ≤ 16))),
    Dev.setUnc_follow.flag_eq hsrc]
  exact Dev.flag_setf_self (Field.isBit (by decide))

theorem Dev.reg_clearUnc {a : Nat} : (d.clearUnc n).reg a = (d.uncCleared n).reg a := Dev.setFbkX_reg

theorem Dev.clearUnc_fab : (d.clearUnc n).fab = d.fab := by rw [Dev.clearUnc_eq, Dev.setFbkX_fab, Dev.uncCleared_frame.2]

theorem CountsTo.clearUnc (h : CountsTo n v d e) : CountsTo n v d (e.clearUnc n) :=
  (h.onlyRegs Dev.uncCleared_frame).setFbkX ((congrArg FbkX.count Dev.uncCleared_fbkX).trans h.1)

/-- Noting the run of steps in one direction leaves the count. -/
theorem CountsTo.hallRun {run : Nat} {dir : Int} (h : CountsTo n v d e) :
    CountsTo n v d (e.setFbkX n { e.fbkX n with hallRun := run, hallDir := dir }) := h.setFbkX h.1

/-! Quadrature edges (R142). -/

theorem Dev.dirSign_ne_zero : d.dirSign n ≠ 0 := by
  unfold Dev.dirSign
  split <;> decide

theorem Dev.quadEdge_noted {a b : Bool} (h : d.fbMode n ≠ 1 ∧ d.fbMode n ≠ 5) :
    d.quadEdge c n a b = d.setFbkX n { d.fbkX n with a := a, b := b } := if_pos (.inr h)

section

variable {a b : Bool} (hr : d.portRuns n = true) (hm : d.fbMode n = 1 ∨ d.fbMode n = 5)

include hr hm

theorem Dev.quadEdge_acts : ¬ ((!d.portRuns n) = true ∨ (d.fbMode n ≠ fbQuad ∧ d.fbMode n ≠ fbSinCos)) := by
  rintro (h | ⟨h1, h5⟩)
  · rw [hr] at h
    cases h
  · exact hm.elim h1 h5

theorem Dev.quadEdge_illegal (ha : (d.fbkX n).a ≠ a) (hb : (d.fbkX n).b ≠ b) :
    d.quadEdge c n a b = (d.setFbkX n { d.fbkX n with a := a, b := b }).illegal c n 60 (d.stamp c n) :=
  (if_neg (Dev.quadEdge_acts hr hm)).trans (if_pos ⟨ha, hb⟩)

/-- One edge counts its step, whatever the Stride outputs that follow it do. -/
theorem Dev.quadEdge_counts (hone : ¬ ((d.fbkX n).a ≠ a ∧ (d.fbkX n).b ≠ b)) (hstep : quadStep (d.fbkX n).a (d.fbkX n).b a b ≠ 0) :
    CountsTo n ((d.fbkX n).count + quadStep (d.fbkX n).a (d.fbkX n).b a b * d.dirSign n) d (d.quadEdge c n a b) := by
  have hnoted : CountsTo n (d.fbkX n).count d (d.setFbkX n { d.fbkX n with a := a, b := b }) := CountsTo.refl.setFbkX rfl
  have hcount := hnoted.countEdge (c := c) (step := quadStep (d.fbkX n).a (d.fbkX n).b a b * d.dirSign n) (t := d.stamp c n)
  unfold Dev.quadEdge
  dsimp only
  rw [if_neg (Dev.quadEdge_acts hr hm), if_neg hone, if_neg (mul_ne_zero hstep Dev.dirSign_ne_zero)]
  split
  · exact hcount.aside .stridesMove
  · exact hcount

end

/-! Hall codes (R143). -/

theorem hallIndex_of_get {code k : Nat} (hk : k < 6) (h : [1, 3, 2, 6, 4, 5][k]? = some code) : hallIndex code = some k := by
  have hall : ∀ k : Fin 6, hallIndex ([1, 3, 2, 6, 4, 5].get k) = some k.val := by decide
  rw [List.getElem?_eq_getElem hk, Option.some.injEq] at h
  exact h ▸ hall ⟨k, hk⟩

theorem Dev.hallChange_noted {code : Nat} (h : d.fbMode n ≠ 2 ∨ code = (d.fbkX n).hall) :
    d.hallChange c n code = d.setFbkX n { d.fbkX n with hall := code } := if_pos (.inr h)

/-- A step to a neighbour in the sequence counts 1 or -1, in the sense of DIR. -/
theorem Dev.hallChange_counts {code j k : Nat} {raw : Int} (hr : d.portRuns n = true) (hm : d.fbMode n = 2)
    (hj : hallIndex (d.fbkX n).hall = some j) (hk : hallIndex code = some k)
    (hnext : (k + 6 - j) % 6 = 1 ∧ raw = 1 ∨ (k + 6 - j) % 6 = 5 ∧ raw = -1) :
    CountsTo n ((d.fbkX n).count + raw * d.dirSign n) d (d.hallChange c n code) := by
  have hnew : code ≠ (d.fbkX n).hall := by
    rintro rfl
    obtain rfl := Option.some.inj (hj.symm.trans hk)
    omega
  have hacts : ¬ ((!d.portRuns n) = true ∨ d.fbMode n ≠ fbHall ∨ code = (d.fbkX n).hall) := by
    simp [hr, hm, fbHall, hnew]
  have hstep : (k + 6 - j) % 6 = 1 ∨ (k + 6 - j) % 6 = 5 := hnext.imp And.left And.left
  have hraw : (if (k + 6 - j) % 6 = 1 then (1 : Int) else -1) = raw := by
    rcases hnext with ⟨h, rfl⟩ | ⟨h, rfl⟩ <;> rw [h] <;> rfl
  have hnoted : CountsTo n (d.fbkX n).count d (d.setFbkX n { d.fbkX n with hall := code }) := CountsTo.refl.setFbkX rfl
  have hcount := hnoted.countEdge (c := c) (step := raw * d.dirSign n) (t := d.stamp c n)
  unfold Dev.hallChange
  dsimp only
  rw [if_neg hacts, hj, hk]
  dsimp only
  rw [if_pos hstep, hraw]
  exact CountsTo.aside (.ite hcount.hallRun.clearUnc hcount.hallRun) .stridesMove

/-! Index events (R155). -/

theorem Dev.indexEvent_ignored (h : d.fbMode n = 0 ∨ (d.fbMode n ≠ 1 ∧ d.fbMode n ≠ 5) ∨ d.get (FBK_nn_CFG_ACT_IMODE n) = 0 ∨
    (d.flag (FBK_nn_CFG_ACT_ZQ n) = true ∧ ((d.fbkX n).a && (d.fbkX n).b) = false)) : d.indexEvent c n = d := by
  refine if_pos ?_
  rcases h with h | h | h | ⟨hz, hab⟩
  · exact .inl (by rw [Dev.portRuns_off h]; rfl)
  · exact .inr (.inl h)
  · exact .inr (.inr (.inl h))
  · exact .inr (.inr (.inr ⟨hz, by rw [hab]; rfl⟩))

/-- The deviation of the count from the index reference, folded to half a revolution. -/
def Dev.indexDev (d : Dev) (n : Nat) : Int :=
  let cpr : Int := d.cpr n
  let r := ((d.fbkX n).count - d.get (FBK_nn_IREF_ACT_IREF n)) % cpr
  if cpr < 2 * r then r - cpr else r

theorem Dev.indexCount_quad (hm : d.fbMode n = 1) : d.indexCount n = (d.fbkX n).count := by
  rw [Dev.indexCount, hm]
  rfl

section

variable (hr : d.portRuns n = true) (hm : d.fbMode n = 1) (hi : d.get (FBK_nn_CFG_ACT_IMODE n) ≠ 0)
  (hz : d.flag (FBK_nn_CFG_ACT_ZQ n) = false ∨ ((d.fbkX n).a && (d.fbkX n).b) = true)

include hr hm hi hz

theorem Dev.indexEvent_acts : ¬ ((!d.portRuns n) = true ∨ (d.fbMode n ≠ fbQuad ∧ d.fbMode n ≠ fbSinCos) ∨
    d.get (FBK_nn_CFG_ACT_IMODE n) = 0 ∨ (d.flag (FBK_nn_CFG_ACT_ZQ n) = true ∧ (!((d.fbkX n).a && (d.fbkX n).b)) = true)) := by
  rcases hz with hz | hz <;> simp [hr, hm, fbQuad, hi, hz]

/-- The first event of a learning port sets the reference. -/
theorem Dev.indexEvent_learns (hl : d.get (FBK_nn_CFG_ACT_IMODE n) = 1) (hf : (d.fbkX n).learned = false) :
    d.indexEvent c n = (d.putI (FBK_nn_IREF_ACT_IREF n) ((d.fbkX n).count % (d.cpr n : Int))).setFbkX n { d.fbkX n with learned := true } := by
  have hlearn : d.get (FBK_nn_CFG_ACT_IMODE n) = 1 ∧ (!(d.fbkX n).learned) = true := ⟨hl, by rw [hf]; rfl⟩
  rw [← Dev.indexCount_quad hm]
  exact (if_neg (Dev.indexEvent_acts hr hm hi hz)).trans (if_pos hlearn)

/-- A later event within the window shows its deviation, clears UNC and sends its packet. -/
theorem Dev.indexEvent_passes (hl : d.get (FBK_nn_CFG_ACT_IMODE n) = 1 → (d.fbkX n).learned = true) (hc : d.flag (FBK_nn_CFG_ACT_ICOR n) = false)
    (hill : (d.fbkX n).illAt ≠ some (d.stamp c n)) (hw : (d.indexDev n).natAbs ≤ d.get (FBK_nn_LIM_ACT_IWIN n)) :
    d.indexEvent c n = ((d.putI (FBK_nn_IDEV_D n) (d.indexDev n)).clearUnc n).emit n 0x21 (some (d.stamp c n, 0)) 0
      [BitVec.ofNat 64 (uInt 32 (d.indexDev n) + 2 ^ 32)] := by
  have hlearn : ¬ (d.get (FBK_nn_CFG_ACT_IMODE n) = 1 ∧ (!(d.fbkX n).learned) = true) := by
    rintro ⟨h1, hf⟩
    rw [hl h1] at hf
    cases hf
  refine (if_neg (Dev.indexEvent_acts hr hm hi hz)).trans ((if_neg hlearn).trans ?_)
  unfold Dev.indexDev at hw ⊢
  dsimp only at hw ⊢
  rw [Dev.indexCount_quad hm, hc, decide_eq_true hw, if_neg hill]
  rfl

end

/-- What the learning event shows: the reference, and the port as it was but for its learning. -/
theorem Dev.indexLearned_shows {r : Int} :
    let e := (d.putI (FBK_nn_IREF_ACT_IREF n) r).setFbkX n { d.fbkX n with learned := true }
    (e.fbkX n).learned = true ∧ (e.fbkX n).count = (d.fbkX n).count ∧ e.get (FBK_nn_IREF_ACT_IREF n) = uInt 32 r ∧
      KeepsRegs (· = (FBK_nn_IREF_ACT_IREF n).addr) d e := by
  intro e
  have hport : e.fbkX n = { d.fbkX n with learned := true } := Dev.fbkX_setFbkX_self
  have hput : OnlyRegs (· = (FBK_nn_IREF_ACT_IREF n).addr) d (d.putI (FBK_nn_IREF_ACT_IREF n) r) := .put rfl
  have hget : (d.putI (FBK_nn_IREF_ACT_IREF n) r).get (FBK_nn_IREF_ACT_IREF n) = uInt 32 r :=
    Dev.get_put_fit (f := FBK_nn_IREF_ACT_IREF n) (by decide : 0 + 32 ≤ 32) uInt_lt
  exact ⟨by rw [hport], by rw [hport], (Dev.get_congr Dev.setFbkX_reg).trans hget, fun _ ha => Dev.setFbkX_reg.trans (hput.reg_eq ha)⟩

/-- What a passing event shows: the deviation, no uncertainty, the count as it was, one packet. -/
theorem Dev.indexPassed_shows {x : Int} {ws : List W64} {time : Option (Nat × Nat)}
    (he : e = ((d.putI (FBK_nn_IDEV_D n) x).clearUnc n).emit n 0x21 time 0 ws) :
    e.get (FBK_nn_IDEV_D n) = uInt (FBK_nn_IDEV_D n).width x ∧ e.flag (FBK_nn_STAT_UNC n) = false ∧ e.get (FBK_nn_STAT_ERUN n) = 0 ∧
      (e.fbkX n).count = (d.fbkX n).count ∧ e.fab.flight.length = d.fab.flight.length + 1 := by
  have hdev : ¬ (isSrcUnc (FBK_nn_IDEV_D n).addr ∨ (FBK_nn_IDEV_D n).addr = (FBK_nn_STAT_UNC n).addr) := by
    rintro (h | h)
    · exact not_isSrcUnc (by simp only [FBK_nn_IDEV_D]; omega) h
    · simp only [FBK_nn_IDEV_D, FBK_nn_STAT_UNC] at h
      omega
  have hframe : OnlyRegs (fun a => isSrcUnc a ∨ a = (FBK_nn_STAT_UNC n).addr) (d.putI (FBK_nn_IDEV_D n) x)
    ((d.putI (FBK_nn_IDEV_D n) x).uncCleared n) := Dev.uncCleared_frame
  obtain ⟨hunc, herun⟩ := Dev.uncCleared_shows (d := d.putI (FBK_nn_IDEV_D n) x) (n := n)
  have hreg {a : Nat} : e.reg a = ((d.putI (FBK_nn_IDEV_D n) x).uncCleared n).reg a := by rw [he, Dev.reg_emit, Dev.reg_clearUnc]
  have hcount : CountsTo n (d.fbkX n).count d (d.putI (FBK_nn_IDEV_D n) x) := CountsTo.refl.onlyRegs (p := fun _ => True) (.put trivial)
  refine ⟨?_, (Dev.flag_congr hreg).trans hunc, (Dev.get_congr hreg).trans herun, ?_, ?_⟩
  · rw [Dev.get_congr hreg, hframe.get_eq hdev]
    exact Dev.get_put_fit (f := FBK_nn_IDEV_D n) (by decide : 0 + 32 ≤ 32) uInt_lt
  · rw [he, PortAside.emit.fbkX]
    exact hcount.clearUnc.1
  · obtain ⟨p, hp⟩ := Dev.emit_flight (d := (d.putI (FBK_nn_IDEV_D n) x).clearUnc n) (unit := n) (type := 0x21) (time := time) (offs := 0)
      (ws := ws) (inj := false)
    rw [he, hp, List.length_append, Dev.clearUnc_fab, Dev.putI, Dev.put_fab, List.length_singleton]

/-! The alarm (R141). -/

theorem Dev.alarmInput_noted {level : Bool} (h : d.fbMode n = 0 ∨ d.flag (FBK_nn_CFG_ACT_ALEN n) = false) :
    d.alarmInput c n level = d.setFbkX n { d.fbkX n with alarm := level } := by
  rcases h with h | h
  · exact if_neg (by simp [Dev.portRuns_off h])
  · have hjudged : (d.setFbkX n { d.fbkX n with alarm := level }).judgeAlarm c n = d.setFbkX n { d.fbkX n with alarm := level } :=
      if_pos (by rw [Dev.flag_congr Dev.setFbkX_reg, h]; rfl)
    rw [Dev.alarmInput, hjudged, ite_self]

/-- A fault against a lane that is not active is reported alone. -/
theorem Dev.activeFault_idle {code u info : Nat} (h : d.laneActive u = false) : d.activeFault c code u info = d.record c code u info := by
  unfold Dev.activeFault
  exact if_neg (by simp [h])

/-- With ALEN and no active lane, ALARM follows the level. -/
theorem Dev.alarmInput_shows {level : Bool} (hn : n < 24) (hr : d.portRuns n = true) (ha : d.flag (FBK_nn_CFG_ACT_ALEN n) = true)
    (hl : d.laneActive n = false) : ((d.alarmInput c n level).fbkX n).alarm = level ∧
      (d.alarmInput c n level).flag (FBK_nn_STAT_ALARM n) = decide (level = d.flag (FBK_nn_CFG_ACT_ALPOL n)) ∧
      (d.alarmInput c n level).lanes = d.lanes := by
  set e := d.setFbkX n { d.fbkX n with alarm := level } with he
  have hnoted : (e.fbkX n).alarm = level := congrArg FbkX.alarm Dev.fbkX_setFbkX_self
  have hbit : (FBK_nn_STAT_ALARM n).IsBit := Field.isBit (by decide)
  have hrun : d.alarmInput c n level = e.judgeAlarm c n := if_pos hr
  have hon : ¬ (!e.flag (FBK_nn_CFG_ACT_ALEN n)) = true := by
    rw [Dev.flag_congr Dev.setFbkX_reg, ha]
    exact Bool.false_ne_true
  rw [hrun, Dev.judgeAlarm, if_neg hon, hnoted, Dev.flag_congr (d := e) (d' := d) Dev.setFbkX_reg]
  by_cases hlevel : level = d.flag (FBK_nn_CFG_ACT_ALPOL n)
  · have hlog : (FBK_nn_STAT_ALARM n).addr ≠ FLT_STAT_UNREAD.addr := by
      simp only [FBK_nn_STAT_ALARM, FLT_STAT_UNREAD]
      omega
    rw [if_pos hlevel, Dev.activeFault_idle (show (e.setf (FBK_nn_STAT_ALARM n)).laneActive n = false from hl), decide_eq_true hlevel]
    refine ⟨?_, (Dev.flag_congr (Dev.record_keepsRegs _ hlog)).trans (Dev.flag_setf_self hbit), by rw [ReportFrame.record]; rfl⟩
    rw [(PortAside.of_stride .record).fbkX]
    exact hnoted
  · rw [if_neg hlevel, decide_eq_false hlevel]
    exact ⟨hnoted, Dev.flag_setf_self hbit, rfl⟩

end Counting

end Sys2Proof.Machine

/-! PROOFS. The frames of a serial port and the latch they make (R146 to R148). -/

namespace Sys2Proof.Machine

section SerialFrames

variable {d d' e : Dev} {c : Clock} {f : SerialFrame} {n g : Nat} {x pre : Int} {extrap ampl serr : Bool}

/-- Port n has latched x at gate g, its gate and its field as they were, and a packet more is on its way. -/
structure Latched (n g : Nat) (x : Int) (d e : Dev) : Prop where
  x : (e.fbkX n).x = x
  at_ : (e.fbkX n).at_ = some g
  gate : (e.fbkX n).gate = (d.fbkX n).gate
  raw : (e.fbkX n).raw = (d.fbkX n).raw
  flight : d.fab.flight.length < e.fab.flight.length

theorem Latched.aside (h : Latched n g x d d') (ha : PortAside d' e) : Latched n g x d e where
  x := by rw [ha.fbkX, h.x]
  at_ := by rw [ha.fbkX, h.at_]
  gate := by rw [ha.fbkX, h.gate]
  raw := by rw [ha.fbkX, h.raw]
  flight := h.flight.trans_le ha.flight

theorem Latched.disown (h : Latched n g x d e) : Latched n g x d (e.setFbkX n { e.fbkX n with own := false }) where
  x := (congrArg FbkX.x Dev.fbkX_setFbkX_self).trans h.x
  at_ := (congrArg FbkX.at_ Dev.fbkX_setFbkX_self).trans h.at_
  gate := (congrArg FbkX.gate Dev.fbkX_setFbkX_self).trans h.gate
  raw := (congrArg FbkX.raw Dev.fbkX_setFbkX_self).trans h.raw
  flight := h.flight

/-- The latch's place in the port, before its registers and its packet. -/
theorem Latched.of_noted {v : Int} {fresh : Bool} {lat : List (Nat × Int × Bool)} (h : PortAside d d') {unit type offs : Nat}
    {time : Option (Nat × Nat)} {ws : List W64} {inj : Bool}
    (he : PortAside (d'.setFbkX n { d'.fbkX n with x := x, at_ := some g, v := v, fresh := fresh, lat := lat }) e) :
    Latched n g x d (e.emit unit type time offs ws inj) where
  x := by rw [PortAside.emit.fbkX, he.fbkX, Dev.fbkX_setFbkX_self]
  at_ := by rw [PortAside.emit.fbkX, he.fbkX, Dev.fbkX_setFbkX_self]
  gate := by rw [PortAside.emit.fbkX, he.fbkX, Dev.fbkX_setFbkX_self, ← h.fbkX]
  raw := by rw [PortAside.emit.fbkX, he.fbkX, Dev.fbkX_setFbkX_self, ← h.fbkX]
  flight := Dev.emit_flight_lt (h.flight.trans he.flight)

theorem Dev.finishLatch_latched : Latched n g (sInt 96 (uInt 96 x)) d (d.finishLatch c n g x pre extrap ampl serr) := by
  unfold Dev.finishLatch
  extract_lets y wrapped
  split
  next v d1 heq =>
  have h1 : PortAside d d1 := by
    split at heq
    · split at heq
      · exact .of_fit heq
      · exact (Prod.mk.inj heq).2 ▸ .refl
    · exact (Prod.mk.inj heq).2 ▸ .refl
  extract_lets src d2 d3 d4 d5 d6 src6
  have h3 : PortAside d2 d3 := (PortAside.put.trans .put).trans .put
  have h4 : PortAside d2 d4 := ((h3.trans .put).trans .put).trans .putI
  have h5 : Latched n g wrapped d d5 := .of_noted h1 (h4.trans .setf)
  have h6 : Latched n g wrapped d d6 := by
    unfold d6
    split
    · exact h5.aside ((PortAside.probesLatch.trans (.of_stride .stridesMove)).trans (.of_stride .stridesMove))
    · exact h5
  split
  · exact h5
  split
  · exact h6.disown.aside .strCommits
  · exact h6

/-- A frame that nobody waits for, or that ends before the reading's time, does nothing. -/
theorem Dev.serialFrame_idle (h : (d.fbkX n).gate = none ∨ d.fbMode n = 0 ∨ ∃ g, (d.fbkX n).gate = some g ∧ c.ns + 40 < g + d.dFb n) :
    d.serialFrame c n f = d := by
  unfold Dev.serialFrame
  dsimp only
  split
  · rfl
  next g hg =>
  refine if_pos ?_
  rcases h with h | h | ⟨g', hg', hlate⟩
  · rw [hg] at h
    cases h
  · exact .inl (by rw [Dev.portRuns_off h]; rfl)
  · obtain rfl := Option.some.inj (hg.symm.trans hg')
    exact .inr hlate

/-- Without a position to set, the reading stays what it was. -/
theorem Dev.takeSetPos_none {usable : Bool} {comp : Int} (h : (d.fbkX n).setPos = []) : d.takeSetPos n g x usable comp = (x, d) := by
  unfold Dev.takeSetPos
  dsimp only
  rw [h]
  rfl

/-- The port with its field read, before the latch. -/
def Dev.fieldRead (d : Dev) (n raw : Nat) (xr : Int) : Dev :=
  let d0 := d.setFbkX n { d.fbkX n with gate := none }
  (d0.setFbkX n { d0.fbkX n with raw := some raw, xr := xr }).put (FBK_nn_STAT_CONSEC n) 0

theorem Dev.fieldRead_fbkX {raw : Nat} {xr : Int} : (d.fieldRead n raw xr).fbkX n = { d.fbkX n with gate := none, raw := some raw, xr := xr } := by
  rw [Dev.fieldRead, PortAside.put.fbkX, Dev.fbkX_setFbkX_self, Dev.fbkX_setFbkX_self]

theorem Dev.fieldRead_fab {raw : Nat} {xr : Int} : (d.fieldRead n raw xr).fab = d.fab := by
  rw [Dev.fieldRead, Dev.put_fab, Dev.setFbkX_fab, Dev.setFbkX_fab]

section

variable (hg : (d.fbkX n).gate = some g) (hr : d.portRuns n = true) (ht : g + d.dFb n ≤ c.ns + 40)

include hr ht

theorem Dev.serialFrame_acts : ¬ ((!d.portRuns n) = true ∨ c.ns + 40 < g + d.dFb n) := by
  rintro (h | h)
  · rw [hr] at h
    cases h
  · omega

include hg

/-- A frame without an answer counts, is reported, and the port latches what it extrapolates. -/
theorem Dev.serialFrame_unanswered (ha : f.answered = false) :
    let d0 := d.setFbkX n { d.fbkX n with gate := none }
    let w := d0.takeSetPos n g (d0.extrapolate n) false
    d.serialFrame c n f = ((((w.2.bump (FBK_nn_ERRC_SERR n)).reportLim c 64 n).errPacket c n 64).consecUp c n
      (d.get (FBK_nn_LIM_ACT_SLIM n))).finishLatch c n g w.1 (d0.extrapolate n) true false true := by
  intro d0 w
  have hbad : (!f.answered) = true ∨ f.stuck = true ∨ (!d.frameCrcOk n f.bits) = true := .inl (by rw [ha]; rfl)
  unfold Dev.serialFrame
  dsimp only
  rw [hg]
  dsimp only
  rw [if_neg (Dev.serialFrame_acts hr ht), if_pos hbad]

/-- The first right frame after a commit latches its field, less what the port moved meanwhile. -/
theorem Dev.serialFrame_right (ha : f.answered = true) (hs : f.stuck = false) (hc : d.frameCrcOk n f.bits = true)
    (hraw : (d.fbkX n).raw = none) (hset : (d.fbkX n).setPos = []) :
    let xr : Int := (d.frameField n f.bits : Int) * 2 ^ 32
    let x := xr - (d.fbkX n).v * (d.get (FBK_nn_LAT_ACT_ELAT n) : Nat) / 1000000000
    d.serialFrame c n f = (d.fieldRead n (d.frameField n f.bits) xr).finishLatch c n g x x false false false := by
  intro xr x
  have hread : ((d.fieldRead n (d.frameField n f.bits) xr).fbkX n).setPos = [] := by rw [Dev.fieldRead_fbkX]; exact hset
  have hgood : ¬ ((!f.answered) = true ∨ f.stuck = true ∨ (!d.frameCrcOk n f.bits) = true) := by simp [ha, hs, hc]
  unfold Dev.serialFrame
  extract_lets y d0 pre raw w xr' comp src d1
  have hxr : xr' = xr := by
    unfold xr' y
    rw [hraw]
  have hd1 : d1 = d.fieldRead n raw xr := hxr ▸ rfl
  split
  next heq => exact absurd (hg.symm.trans heq) nofun
  next g' heq =>
  obtain rfl := Option.some.inj (hg.symm.trans heq)
  rw [if_neg (Dev.serialFrame_acts hr ht), if_neg hgood, hxr, hd1, Dev.takeSetPos_none hread]

theorem Dev.serialFrame_shows (ha : f.answered = true) (hs : f.stuck = false) (hc : d.frameCrcOk n f.bits = true)
    (hraw : (d.fbkX n).raw = none) (hset : (d.fbkX n).setPos = []) :
    ((d.serialFrame c n f).fbkX n).gate = none ∧ ((d.serialFrame c n f).fbkX n).raw = some (d.frameField n f.bits) ∧
      ((d.serialFrame c n f).fbkX n).at_ = some g ∧
      ((d.serialFrame c n f).fbkX n).x = sInt 96 (uInt 96 ((d.frameField n f.bits : Int) * 2 ^ 32 -
        (d.fbkX n).v * (d.get (FBK_nn_LAT_ACT_ELAT n) : Nat) / 1000000000)) ∧
      d.fab.flight.length < (d.serialFrame c n f).fab.flight.length := by
  rw [Dev.serialFrame_right hg hr ht ha hs hc hraw hset]
  obtain ⟨hx, hat, hgate, hfield, hflight⟩ : Latched n g _ _ _ := Dev.finishLatch_latched
  rw [Dev.fieldRead_fbkX] at hgate hfield
  rw [Dev.fieldRead_fab] at hflight
  exact ⟨hgate, hfield, hat, hx, hflight⟩

end

end SerialFrames

end Sys2Proof.Machine

/-! PROOFS. The probes' edges (R160, R161). -/

namespace Sys2Proof.Machine

section ProbeEdges

variable {d d' e : Dev} {c : Clock} {p n tp : Nat} {x : Int} {rising : Bool}

/-- A register of probe p's latched position. -/
def isProbePos (p a : Nat) : Prop := a = (FBK_PRBp_POS_LO_V p).addr ∨ a = (FBK_PRBp_POS_HI_V p).addr ∨ a = (FBK_PRBp_POS_FRAC_V p).addr

theorem not_isProbePos_stat : ¬ isProbePos p (0x4007301C + 0x40 * p) := by
  simp only [isProbePos, FBK_PRBp_POS_LO_V, FBK_PRBp_POS_HI_V, FBK_PRBp_POS_FRAC_V]
  omega

theorem not_isProbePos_lo : ¬ isProbePos p (FBK_PRBp_TS_LO_V p).addr := by
  simp only [isProbePos, FBK_PRBp_TS_LO_V, FBK_PRBp_POS_LO_V, FBK_PRBp_POS_HI_V, FBK_PRBp_POS_FRAC_V]
  omega

theorem not_isProbePos_hi : ¬ isProbePos p (FBK_PRBp_TS_HI_V p).addr := by
  simp only [isProbePos, FBK_PRBp_TS_HI_V, FBK_PRBp_POS_LO_V, FBK_PRBp_POS_HI_V, FBK_PRBp_POS_FRAC_V]
  omega

theorem Dev.probePos_frame : OnlyRegs (isProbePos p) d (d.probePos p x) :=
  ((OnlyRegs.put (.inl rfl)).trans (.put (.inr (.inl rfl)))).trans (.put (.inr (.inr rfl)))

theorem Dev.probeSend_keeps {extrap : Bool} : KeepsRegs (isProbePos p) d (d.probeSend p n rising tp x extrap) := by
  unfold Dev.probeSend
  extract_lets d1
  have h1 : ∀ a, d1.reg a = d.reg a := by
    intro a
    unfold d1
    split
    · exact Dev.reg_emit
    · rfl
  intro a ha
  split
  · exact (Dev.probePos_frame.reg_eq ha).trans (h1 a)
  · exact h1 a

theorem KeepsRegs.foldl {α : Type} {q : Nat → Prop} {g : Dev → α → Dev} {xs : List α} (h : ∀ d x, KeepsRegs q d (g d x)) :
    KeepsRegs q d (xs.foldl g d) :=
  List.foldlRecOn (motive := KeepsRegs q d) xs g (fun _ _ => rfl) fun _ hb x _ a ha => (h _ x a ha).trans (hb a ha)

/-- The device with the edge's level, and OVR where NEW was still set. -/
def Dev.probeSeen (d : Dev) (p : Nat) (rising : Bool) : Dev :=
  let d0 := d.setf (FBK_PRBp_STAT_LEVEL p) rising
  if d.flag (FBK_PRBp_STAT_NEW p) then d0.setf (FBK_PRBp_STAT_OVR p) else d0

/-- The device with the edge's stamp, NEW and LAST as well. -/
def Dev.probeStamped (d : Dev) (p tp : Nat) (rising : Bool) : Dev :=
  (((d.probeSeen p rising).put64 (FBK_PRBp_TS_LO_V p) (FBK_PRBp_TS_HI_V p) tp).setf (FBK_PRBp_STAT_NEW p)).setf (FBK_PRBp_STAT_LAST p) (!rising)

theorem Dev.probeSeen_shows : (d.probeSeen p rising).flag (FBK_PRBp_STAT_LEVEL p) = rising ∧
    (d.probeSeen p rising).flag (FBK_PRBp_STAT_OVR p) = (d.flag (FBK_PRBp_STAT_OVR p) || d.flag (FBK_PRBp_STAT_NEW p)) := by
  have hlevel : (d.setf (FBK_PRBp_STAT_LEVEL p) rising).flag (FBK_PRBp_STAT_LEVEL p) = rising := Dev.flag_setf_self (Field.isBit (by decide))
  unfold Dev.probeSeen
  split
  next hnew =>
    rw [hnew, Bool.or_true]
    exact ⟨(Dev.flag_setf_apart (Field.isBit (by decide)) (Field.apart_bits (by decide))).trans hlevel, Dev.flag_setf_self (Field.isBit (by decide))⟩
  next hnew =>
    rw [Bool.eq_false_of_not_eq_true hnew, Bool.or_false]
    exact ⟨hlevel, Dev.flag_setf_apart (Field.isBit (by decide)) (Field.apart_bits (by decide))⟩

/-- The stamp, NEW and LAST change no other flag of the probe. -/
theorem Dev.probeStamped_keeps {m : Nat} (h0 : m ≠ 0) (h3 : m ≠ 3) :
    (d.probeStamped p tp rising).flag ⟨0x4007301C + 0x40 * p, m, 1⟩ = (d.probeSeen p rising).flag ⟨0x4007301C + 0x40 * p, m, 1⟩ := by
  have hlo : (FBK_PRBp_TS_LO_V p).addr ≠ 0x4007301C + 0x40 * p := by
    simp only [FBK_PRBp_TS_LO_V]
    omega
  have hhi : (FBK_PRBp_TS_HI_V p).addr ≠ 0x4007301C + 0x40 * p := by
    simp only [FBK_PRBp_TS_HI_V]
    omega
  rw [Dev.probeStamped, Dev.flag_setf_apart (f := FBK_PRBp_STAT_LAST p) (Field.isBit (by decide)) (Field.apart_bits h3.symm),
    Dev.flag_setf_apart (f := FBK_PRBp_STAT_NEW p) (Field.isBit (by decide)) (Field.apart_bits h0.symm)]
  exact Dev.flag_congr (Dev.reg_put64_ne hlo hhi)

/-- What a selected edge shows, in the registers that e shares with the stamped probe. -/
structure ProbeShows (p tp : Nat) (rising : Bool) (d e : Dev) : Prop where
  level : e.flag (FBK_PRBp_STAT_LEVEL p) = rising
  new : e.flag (FBK_PRBp_STAT_NEW p) = true
  last : e.flag (FBK_PRBp_STAT_LAST p) = !rising
  stamp : e.get64 (FBK_PRBp_TS_LO_V p) (FBK_PRBp_TS_HI_V p) = tp % 2 ^ 64
  ovr : e.flag (FBK_PRBp_STAT_OVR p) = (d.flag (FBK_PRBp_STAT_OVR p) || d.flag (FBK_PRBp_STAT_NEW p))

theorem Dev.probeStamped_shows : ProbeShows p tp rising d (d.probeStamped p tp rising) where
  level := (Dev.probeStamped_keeps (by decide) (by decide)).trans Dev.probeSeen_shows.1
  new := (Dev.flag_setf_apart (Field.isBit (by decide)) (Field.apart_bits (by decide))).trans (Dev.flag_setf_self (Field.isBit (by decide)))
  last := Dev.flag_setf_self (Field.isBit (by decide))
  ovr := (Dev.probeStamped_keeps (by decide) (by decide)).trans Dev.probeSeen_shows.2
  stamp := by
    have hstat {e : Dev} {a b : Bool} {r : Nat} (hr : (FBK_PRBp_STAT_NEW p).addr ≠ r) :
        ((e.setf (FBK_PRBp_STAT_NEW p) a).setf (FBK_PRBp_STAT_LAST p) b).reg r = e.reg r :=
      (Dev.reg_setf_ne (f := FBK_PRBp_STAT_LAST p) hr).trans (Dev.reg_setf_ne hr)
    have hlo : (FBK_PRBp_STAT_NEW p).addr ≠ (FBK_PRBp_TS_LO_V p).addr := by
      simp only [FBK_PRBp_STAT_NEW, FBK_PRBp_TS_LO_V]
      omega
    have hhi : (FBK_PRBp_STAT_NEW p).addr ≠ (FBK_PRBp_TS_HI_V p).addr := by
      simp only [FBK_PRBp_STAT_NEW, FBK_PRBp_TS_HI_V]
      omega
    have hpair : (FBK_PRBp_TS_HI_V p).addr ≠ (FBK_PRBp_TS_LO_V p).addr := by
      simp only [FBK_PRBp_TS_HI_V, FBK_PRBp_TS_LO_V]
      omega
    rw [Dev.probeStamped, Dev.get64_congr (hstat hlo) (hstat hhi)]
    exact Dev.get64_put64 ⟨rfl, rfl⟩ ⟨rfl, rfl⟩ hpair

theorem ProbeShows.keeps (h : ProbeShows p tp rising d d') (hk : KeepsRegs (isProbePos p) d' e) : ProbeShows p tp rising d e where
  level := (Dev.flag_congr (hk _ not_isProbePos_stat)).trans h.level
  new := (Dev.flag_congr (hk _ not_isProbePos_stat)).trans h.new
  last := (Dev.flag_congr (hk _ not_isProbePos_stat)).trans h.last
  stamp := (Dev.get64_congr (hk _ not_isProbePos_lo) (hk _ not_isProbePos_hi)).trans h.stamp
  ovr := (Dev.flag_congr (hk _ not_isProbePos_stat)).trans h.ovr

theorem Dev.probeEvent_unselected (h : (d.get (FBK_PRBp_CFG_EDGE p)).testBit (if rising then 0 else 1) = false) :
    d.probeEvent c p rising = d.setf (FBK_PRBp_STAT_LEVEL p) rising := if_pos (by rw [h]; rfl)

section

variable (h : (d.get (FBK_PRBp_CFG_EDGE p)).testBit (if rising then 0 else 1) = true)

include h

/-- Of a selected edge without ports to send, only the position register follows the stamp. -/
theorem Dev.probeEvent_alone (hm : d.get (FBK_PRBp_MASK_MASK p) = 0) :
    d.probeEvent c p rising = (d.probeStamped p (c.ns - 2 * d.get (FBK_PRBp_CFG_FILT p)) rising).probePos p 0 :=
  (if_neg (by rw [h]; exact Bool.false_ne_true)).trans (if_pos hm)

/-- The latches of a selected edge write the probe's position alone. -/
theorem Dev.probeEvent_keeps :
    KeepsRegs (isProbePos p) (d.probeStamped p (c.ns - 2 * d.get (FBK_PRBp_CFG_FILT p)) rising) (d.probeEvent c p rising) := by
  by_cases hm : d.get (FBK_PRBp_MASK_MASK p) = 0
  · rw [Dev.probeEvent_alone h hm]
    exact Dev.probePos_frame.1
  · unfold Dev.probeEvent
    extract_lets d0 tp mask d1 d2 ports counting sampled d3 known d4 rest
    rw [if_neg (by rw [h]; exact Bool.false_ne_true), if_neg hm]
    have h3 : KeepsRegs (isProbePos p) d2 d3 := .foldl fun _ _ => Dev.probeSend_keeps
    have h4 : KeepsRegs (isProbePos p) d3 d4 := .foldl fun d n => by
      split
      · exact Dev.probeSend_keeps
      · exact fun _ _ => rfl
    intro a ha
    split <;> exact (h4 a ha).trans (h3 a ha)

theorem Dev.probeEvent_shows : ProbeShows p (c.ns - 2 * d.get (FBK_PRBp_CFG_FILT p)) rising d (d.probeEvent c p rising) :=
  Dev.probeStamped_shows.keeps (Dev.probeEvent_keeps h)

theorem Dev.probeEvent_frame (hm : d.get (FBK_PRBp_MASK_MASK p) = 0) : OnlyRegs (fun _ => True) d (d.probeEvent c p rising) := by
  have hseen : OnlyRegs (fun _ => True) d (d.probeSeen p rising) := by
    unfold Dev.probeSeen
    split
    · exact (OnlyRegs.setf trivial).trans (.setf trivial)
    · exact .setf trivial
  rw [Dev.probeEvent_alone h hm]
  exact (((hseen.trans (.put64 trivial trivial)).trans (.setf trivial)).trans (.setf trivial)).trans (Dev.probePos_frame.mono fun _ _ => trivial)

end

end ProbeEdges

end Sys2Proof.Machine

section
open Sys2Proof Sys2Proof.Machine

/-- Settles O48, event by event: each row's effect on the serving device, and what the effect's own lemmas say of it. -/
theorem feedbackRows : Obligations.FeedbackRows := by
  intro s hs
  refine ⟨fun n => ?_, fun p rising => ?probe⟩
  case probe =>
    have hrow : exec (.probeEvent p rising) s = .next { s with dev := s.dev.probeEvent s.clk p rising } :=
      exec_serving (h := fun c d => d.probeEvent c p rising) hs rfl
    refine ⟨fun h => exec_next_of_eq hrow (Dev.probeEvent_unselected h), fun h => ?_⟩
    obtain ⟨hlevel, hnew, hlast, hstamp, hovr⟩ := Dev.probeEvent_shows (c := s.clk) h
    exact ⟨_, hrow, hlevel, hnew, hlast, hstamp, hovr, rfl, fun hm => (Dev.probeEvent_frame h hm).state_eq⟩
  intro x mode sign noted counts
  have hruns : mode ≠ 0 → s.dev.portRuns n = true := Dev.portRuns_of hs
  have hindex : exec (.indexEvent n) s = .next { s with dev := s.dev.indexEvent s.clk n } :=
    exec_serving (h := fun c d => d.indexEvent c n) hs rfl
  refine ⟨fun a b => ?quad, fun code => ?hall, ?ignored, ?learns, ?passes, fun level => ?alarm, fun f => ?idle, fun f g hg hm ht => ?unanswered,
    fun f g hg hm ht => ?right⟩
  case quad =>
    have hrow : exec (.quadratureEdge n a b) s = .next { s with dev := s.dev.quadEdge s.clk n a b } :=
      exec_serving (h := fun c d => d.quadEdge c n a b) hs rfl
    have hon : mode = 1 ∨ mode = 5 → s.dev.portRuns n = true := fun hm => hruns (by omega)
    refine ⟨fun h => exec_next_of_eq hrow (Dev.quadEdge_noted (by omega)),
      fun hm ha hb => exec_next_of_eq hrow (Dev.quadEdge_illegal (hon hm) hm ha hb), fun hm ha hb => ?_, fun hm ha hb => ?_⟩
    · have hstep : quadStep x.a x.b a b = if a = b then -1 else 1 := by rw [quadStep, if_pos ha, hb]
      have hcount := Dev.quadEdge_counts (c := s.clk) (hon hm) hm (fun h => h.2 hb) (hstep.trans_ne (by split <;> decide))
      rw [mul_comm, ← hstep]
      exact CountsTo.exec hrow hcount
    · have hstep : quadStep x.a x.b a b = if a = b then 1 else -1 := by
        rw [quadStep, if_neg (not_not_intro ha), if_pos hb, ha]
        exact if_congr eq_comm rfl rfl
      have hcount := Dev.quadEdge_counts (c := s.clk) (hon hm) hm (fun h => h.1 ha) (hstep.trans_ne (by split <;> decide))
      rw [mul_comm, ← hstep]
      exact CountsTo.exec hrow hcount
  case hall =>
    have hrow : exec (.hallChange n code) s = .next { s with dev := s.dev.hallChange s.clk n code.toNat } :=
      exec_serving (h := fun c d => d.hallChange c n code.toNat) hs rfl
    refine ⟨fun h => exec_next_of_eq hrow (Dev.hallChange_noted h), fun hm i j hi hj hold hnew => ?_⟩
    have hcount {raw : Int} (hnext : (j + 6 - i) % 6 = 1 ∧ raw = 1 ∨ (j + 6 - i) % 6 = 5 ∧ raw = -1) :
        counts (.hallChange n code) (x.count + raw * sign) :=
      CountsTo.exec hrow (Dev.hallChange_counts (hruns (by omega)) hm (hallIndex_of_get hi hold) (hallIndex_of_get hj hnew) hnext)
    refine ⟨fun h => ?_, fun h => ?_⟩
    · rw [← one_mul sign]
      exact hcount (.inl ⟨by omega, rfl⟩)
    · rw [sub_eq_add_neg, ← neg_one_mul sign]
      exact hcount (.inr ⟨by omega, rfl⟩)
  case idle => exact fun h => exec_next_of_eq (exec_serving (h := fun c d => d.serialFrame c n f) hs rfl) (Dev.serialFrame_idle h)
  case unanswered =>
    exact fun ha => exec_next_of_eq (exec_serving (h := fun c d => d.serialFrame c n f) hs rfl) (Dev.serialFrame_unanswered hg (hruns hm) ht ha)
  case right =>
    intro ha hstuck hc hraw hset
    obtain ⟨hgate, hfield, hat, hx, hflight⟩ := Dev.serialFrame_shows hg (hruns hm) ht ha hstuck hc hraw hset
    exact ⟨_, exec_serving (h := fun c d => d.serialFrame c n f) hs rfl, rfl, hgate, hfield, hat, hx, hflight⟩
  case alarm =>
    have hrow : exec (.alarmInput n level) s = .next { s with dev := s.dev.alarmInput s.clk n level } :=
      exec_serving (h := fun c d => d.alarmInput c n level) hs rfl
    exact ⟨fun h => exec_next_of_eq hrow (Dev.alarmInput_noted h), fun hm ha hl => ⟨_, hrow, Dev.alarmInput_shows n.isLt (hruns hm) ha hl⟩⟩
  case ignored => exact fun h => exec_next_of_eq hindex (Dev.indexEvent_ignored h)
  case learns =>
    intro hm hi hz hf
    exact ⟨_, exec_next_of_eq hindex (Dev.indexEvent_learns (hruns (by omega)) hm (by omega) hz hi hf), Dev.indexLearned_shows⟩
  case passes =>
    intro hm hi hz hl hc hill cpr r dv hw
    obtain ⟨hdev, hunc, herun, hcount, hflight⟩ :=
      Dev.indexPassed_shows (Dev.indexEvent_passes (c := s.clk) (hruns (by omega)) hm hi hz hl hc hill hw)
    exact ⟨_, hindex, rfl, hdev, hunc, herun, hcount, hflight⟩

end

/-! PROOFS. The first edge of a command input that measures frequency (R195, R196). -/

namespace Sys2Proof.Machine

section FirstCommandEdge

/-- In READY, command input 0 is in frequency mode with SCALE 1.0 and FSPAN 0, and no edge has come yet. -/
def frequencyInput : State :=
  { clk := { tor := 0 }
    dev := { dst := .ready, regs := [((FBK_CMDc_CFG_MODE 0).addr, 3), ((FBK_CMDc_SCALE_SCALE 0).addr, 0x10000), ((FBK_CMDc_FSPAN_FSPAN 0).addr, 0)] } }

/-- With FSPAN 0 any edge makes the input's value 1 - 2^-16 (R196), so the first one moves CMD. -/
theorem frequencyInput_edge : (frequencyInput.dev.cmdinEdge frequencyInput.clk 0 0).get (FBK_CMDc_VAL_CMD 0) = 65535 := by decide

theorem frequencyInput_before : frequencyInput.dev.get (FBK_CMDc_VAL_CMD 0) = 0 := by decide

end FirstCommandEdge

end Sys2Proof.Machine

section
open Sys2Proof Sys2Proof.Machine

/-- Refutes O49: the statement lets the first edge of a command input in an edge mode change RAW alone, but in frequency mode with FSPAN 0 the
input's value is 1 - 2^-16 at any edge (R196), so the first edge moves VAL as well, here from 0 to 65535. -/
theorem not_strideAndCommandInputRows : ¬ Obligations.StrideAndCommandInputRows := by
  intro h
  obtain ⟨-, -, -, -, -, -, hedge, -⟩ := h frequencyInput rfl 0
  obtain ⟨-, hfirst, -⟩ := hedge 0
  obtain ⟨t, ht, -, -, honly⟩ := hfirst (by decide) rfl
  have hrow : exec (.cmdinEdge 0 0) frequencyInput =
      .next { frequencyInput with dev := frequencyInput.dev.cmdinEdge frequencyInput.clk 0 0 } :=
    exec_serving (h := fun c d => d.cmdinEdge c 0 0) rfl rfl
  obtain rfl := Host.Outcome.next.inj (hrow.symm.trans ht)
  have hstays : (frequencyInput.dev.cmdinEdge frequencyInput.clk 0 0).get (FBK_CMDc_VAL_CMD 0) =
      frequencyInput.dev.get (FBK_CMDc_VAL_CMD 0) := honly.get_eq (f := FBK_CMDc_VAL_CMD 0) (by decide)
  rw [frequencyInput_edge, frequencyInput_before] at hstays
  exact absurd hstays (by decide)

end

/-! PROOFS. The start time-out of a lane that is stopping (R193). -/

namespace Sys2Proof.Machine

section StartTimeout

variable {d : Dev} {c : Clock} {l : Nat}

/-- The lane's loops run, no fault waits for its gate, and it is still in low-side brake, DC injection or wait REVTMO after its enable (R193). -/
structure Dev.StartOverdue (d : Dev) (c : Clock) (l : Nat) : Prop where
  runs : (d.lane l).state.running = true
  sound : (d.lane l).faulted = false
  class_ge : 3 ≤ d.get (PWM_Lnn_CC_STAT_START l)
  class_le : d.get (PWM_Lnn_CC_STAT_START l) ≤ 5
  late : (d.lane l).enabledAt + d.get (PWM_Lnn_CC_REV_ACT_REVTMO l) * 1000000 ≤ c.ns

theorem Dev.startTimeout_overdue (h : d.StartOverdue c l) : d.startTimeout c l = (d.record c 73 l 0).laneFault c 73 l :=
  if_pos ⟨h.runs, by simp [h.sound], h.class_ge, h.class_le, h.late⟩

theorem Dev.startTimeout_faulted (h : d.StartOverdue c l) : ((d.startTimeout c l).lane l).faulted = true := by
  rw [Dev.startTimeout_overdue h, Dev.laneFault_faulted]

/-- An overdue lane faults whether it is ENABLED or STOPPING, so the row does not leave the state as it was. -/
theorem startTimeout_moves {s : State} {l : Fin 24} (hs : s.dev.dst.serves = true) (h : s.dev.StartOverdue s.clk l) :
    exec (.startTimeout l) s ≠ .next s := by
  intro hstays
  have hrow : exec (.startTimeout l) s = .next { s with dev := s.dev.startTimeout s.clk l } :=
    exec_serving (h := fun c d => d.startTimeout c l) hs rfl
  have hdev : s.dev.startTimeout s.clk l = s.dev := congrArg State.dev (Host.Outcome.next.inj (hrow.symm.trans hstays))
  have hfaulted := Dev.startTimeout_faulted h
  rw [hdev, h.sound] at hfaulted
  exact Bool.false_ne_true hfaulted

/-- In RUN at 1 ms, lane 0 is STOPPING in low-side brake, enabled at 0 with REVTMO 1 ms. -/
def brakingStop : State :=
  { clk := { tor := 1000000 * 2 ^ 48 }
    dev := { dst := .run, lanes := [(0, { state := .stopping })],
             regs := [((PWM_Lnn_CC_STAT_START 0).addr, 3 * 2 ^ (PWM_Lnn_CC_STAT_START 0).lo),
                      ((PWM_Lnn_CC_REV_ACT_REVTMO 0).addr, 2 ^ (PWM_Lnn_CC_REV_ACT_REVTMO 0).lo)] } }

theorem brakingStop_overdue : brakingStop.dev.StartOverdue brakingStop.clk 0 :=
  ⟨by decide, by decide, by decide, by decide, by decide⟩

end StartTimeout

end Sys2Proof.Machine

section
open Sys2Proof Sys2Proof.Machine

/-- Refutes O50: the statement lets START_TIMEOUT act on an ENABLED lane only, but R193 holds for any lane that waits in one of its classes, and
a STOPPING lane still in low-side brake REVTMO after its enable faults with FL073 too. -/
theorem not_bridgeAndPinRows : ¬ Obligations.BridgeAndPinRows := by
  intro h
  obtain ⟨-, -, htimeout, -, -⟩ := h brakingStop rfl
  obtain ⟨hstays, -⟩ := htimeout 0
  have hstopping : (brakingStop.dev.lane 0).state ≠ .enabled := by decide
  exact startTimeout_moves rfl brakingStop_overdue (hstays fun hdue => hstopping hdue.1)

end

/-! PROOFS. What the end of a job leaves of the process loops (R269, R293, R294, R300, R313, R330). -/

namespace Sys2Proof.Machine

section LoopAsides

variable {d d' e : Dev} {c : Clock} {f : Field} {a j k n i t v : Nat}

/-- STAT or OUT of a loop block. -/
def isLoopShown (a : Nat) : Prop := 0x400A0000 ≤ a ∧ a < 0x400A4000 ∧ (a % 0x400 = 0x104 ∨ a % 0x400 = 0x110)

/-- STAT and OUT of the loop blocks and what stands behind their registers stay, and no packet is taken from its way. -/
structure LoopAside (d e : Dev) : Prop where
  regs : ∀ a, isLoopShown a → e.reg a = d.reg a
  loops : e.loops = d.loops
  flight : d.fab.flight.length ≤ e.fab.flight.length

theorem LoopAside.refl : LoopAside d d := ⟨fun _ _ => rfl, rfl, le_rfl⟩

theorem LoopAside.trans (h : LoopAside d d') (h' : LoopAside d' e) : LoopAside d e :=
  ⟨fun a ha => (h'.regs a ha).trans (h.regs a ha), h'.loops.trans h.loops, h.flight.trans h'.flight⟩

theorem LoopAside.ite {p : Prop} [Decidable p] (ht : LoopAside d d') (he : LoopAside d e) : LoopAside d (if p then d' else e) := by
  split
  · exact ht
  · exact he

theorem LoopAside.foldl {α : Type} {g : Dev → α → Dev} {xs : List α} (h : ∀ d, ∀ x ∈ xs, LoopAside d (g d x)) :
    LoopAside d (xs.foldl g d) :=
  List.foldlRecOn (motive := LoopAside d) xs g .refl fun _ hb x hx => hb.trans (h _ x hx)

/-- What writes no register, no loop's record and no packet. -/
theorem LoopAside.of_fields (hr : e.regs = d.regs) (hl : e.loops = d.loops) (hf : e.fab = d.fab) : LoopAside d e :=
  ⟨fun _ _ => by rw [Dev.reg, hr, Dev.reg], hl, by rw [hf]⟩

theorem LoopAside.put (h : ¬ isLoopShown f.addr) : LoopAside d (d.put f v) :=
  ⟨fun _ ha => Dev.reg_put_ne fun hf => h (hf ▸ ha), rfl, le_rfl⟩

theorem LoopAside.loopX (h : LoopAside d e) : e.loopX n = d.loopX n := by rw [Dev.loopX, h.loops, Dev.loopX]

theorem not_isLoopShown_of_outside (h : a < 0x400A0000 ∨ 0x400A4000 ≤ a) : ¬ isLoopShown a := by
  rintro ⟨hlo, hhi, -⟩
  omega

theorem isLoopShown_stat {b : Nat} (hb : b < 16) : isLoopShown (LPB_bb_STAT_LATE b).addr := by
  simp only [isLoopShown, LPB_bb_STAT_LATE]
  omega

theorem isLoopShown_out {b : Nat} (hb : b < 16) : isLoopShown (LPB_bb_OUT_VAL b).addr := by
  simp only [isLoopShown, LPB_bb_OUT_VAL]
  omega

/-! Reports, memory and traces (R319 to R321, R549 to R553). -/

theorem LoopAside.emit {unit type offs : Nat} {time : Option (Nat × Nat)} {ws : List W64} {inj : Bool} :
    LoopAside d (d.emit unit type time offs ws inj) := ⟨fun _ _ => rfl, rfl, (Dev.emit_flight_lt le_rfl).le⟩

theorem Dev.reportLim_flight {code u info key : Nat} {inj : Bool} :
    d.fab.flight.length ≤ (d.reportLim c code u info key inj).fab.flight.length := by
  have hrecord (x : Dev) (hx : x.fab = d.fab) : d.fab.flight.length ≤ (x.record c code u info inj).fab.flight.length :=
    hx ▸ FaultKeeps.record.flight
  have hopen : d.fab.flight.length ≤ (Dev.reportLim.open_ d c code u info inj (code * 2 ^ 16 + key)).fab.flight.length := by
    rw [Dev.reportLim.open_]
    exact hrecord _ rfl
  unfold Dev.reportLim
  simp only
  split
  · split
    · rw [Dev.bump, Dev.put_fab]
    · exact hopen
  · exact hopen

theorem LoopAside.reportLim {code u info key : Nat} {inj : Bool} : LoopAside d (d.reportLim c code u info key inj) :=
  ⟨fun a ha => Dev.reportLim_report.2 a (not_isLogReg (by obtain ⟨-, hhi, -⟩ := ha; omega)), by rw [Dev.reportLim_report.1],
    Dev.reportLim_flight⟩

theorem LoopAside.touchEcc : LoopAside d (d.touchEcc a) := by
  unfold Dev.touchEcc
  split <;> exact .of_fields rfl rfl rfl

theorem LoopAside.wrN : LoopAside d (d.wrN a k v) := by
  induction k generalizing d a v with
  | zero => exact .refl
  | succ k ih => exact LoopAside.trans (d' := d.setByte a (BitVec.ofNat 8 v)) (.of_fields rfl rfl rfl) ih

theorem LoopAside.wrWords {ws : List W64} : LoopAside d (d.wrWords a ws) := by
  induction ws generalizing d a with
  | nil => exact .refl
  | cons w ws ih => exact (LoopAside.wrN.trans .touchEcc).trans ih

theorem LoopAside.traceJob {kind slot value : Nat} {late : Bool} : LoopAside d (d.traceJob c kind slot value late) :=
  Dev.trace_rec (P := LoopAside d) .refl (fun _ _ _ h => h.trans (.of_fields rfl rfl rfl)) (fun _ _ _ h => h.trans (LoopAside.wrN.trans .touchEcc))
    (fun _ _ _ hf h => h.trans (.put (not_isLoopShown_of_outside (.inl (by omega))))) fun _ _ h => h.trans (.of_fields rfl rfl rfl)

/-! The lists of the Herder (R293, R295, R297). -/

theorem LoopAside.of_herd (h : HerdStep d e) : LoopAside d e :=
  ⟨fun a ha => h.regs a (by obtain ⟨hlo, -, -⟩ := ha; omega), by rw [h.frame], by rw [h.frame]⟩

theorem HerdStep.jobDec (hj : j < 1024) : HerdStep d (d.jobDec j i t) := by
  have hcnt : HerdStep d (d.put (HERDER_JOBj_CNT_CNT j) (d.get (HERDER_JOBj_CNT_CNT j) - 1)) := .put (jobReg_lt hj (k := 4) (by decide))
  unfold Dev.jobDec
  dsimp only
  split
  · exact .put (by decide)
  · split
    · exact hcnt.trans (.jobReleased hj)
    · exact hcnt

theorem Dev.jobSuccs_lt : ∀ k ∈ d.jobSuccs j, k < 1024 := by
  intro k hk
  obtain ⟨i, -, rfl⟩ := List.mem_map.mp hk
  exact Nat.mod_lt _ (by decide)

/-- The CFG register of a slot is neither STAT nor OUT of a block, whatever the slot's number. -/
theorem not_isLoopShown_jobCfg : ¬ isLoopShown (HERDER_JOBj_CFG_STATE j).addr := by
  rintro ⟨-, -, hreg⟩
  simp only [HERDER_JOBj_CFG_STATE] at hreg
  omega

theorem LoopAside.jobToFree : LoopAside d (d.jobToFree j) := by
  unfold Dev.jobToFree
  extract_lets was d1 her d2 d3
  have h2 : LoopAside d d2 := (LoopAside.put not_isLoopShown_jobCfg).trans (.of_fields rfl rfl rfl)
  have h3 : LoopAside d d3 := .ite (h2.trans (.put (not_isLoopShown_of_outside (.inl (by decide))))) h2
  exact h3.trans (.of_herd (.engStat Dev.jobEng_lt))

/-! The inbox of an engine (R330). -/

theorem LoopAside.snapAgain : LoopAside d (d.snapAgain c k) := by
  unfold Dev.snapAgain
  dsimp only
  split
  · split
    · exact .refl
    · exact .of_fields rfl rfl rfl
  · exact .refl

theorem LoopAside.inboxWrite {pos b : Nat} {p : Packet} : LoopAside d (d.inboxWrite c k pos b p) := by
  unfold Dev.inboxWrite
  extract_lets eng bufs n d1 d2
  have h1 : LoopAside d d1 := LoopAside.wrWords.trans (.of_fields rfl rfl rfl)
  have h2 : LoopAside d d2 := h1.trans .snapAgain
  exact .ite h2 (.ite (h2.trans (.put (not_isLoopShown_of_outside (.inl (by decide))))) (h2.trans (.of_fields rfl rfl rfl)))

theorem LoopAside.inboxPut {pos : Nat} {p : Packet} : LoopAside d (d.inboxPut c k pos p) :=
  .ite .inboxWrite (.ite .inboxWrite (.of_fields rfl rfl rfl))

theorem LoopAside.inboxFlush : LoopAside d (d.inboxFlush c k) :=
  LoopAside.trans (d' := d.setEngine k { d.engine k with waiting := [] }) (.of_fields rfl rfl rfl) (.foldl fun _ _ _ => .inboxPut)

/-! The job leaves its engine (R293, R300, R313, R314). -/

theorem LoopAside.leaveEngine (hk : k < 32) : LoopAside d (d.leaveEngine c k n) := by
  unfold Dev.leaveEngine
  extract_lets x d1 d2 d3
  have h1 : LoopAside d d1 := .of_fields rfl rfl rfl
  have h2 : LoopAside d d2 := by
    unfold d2
    split
    · exact h1.trans (.put not_isLoopShown_jobCfg)
    · exact h1
  have h3 : LoopAside d d3 := .ite h2 (h2.trans .inboxFlush)
  exact h3.trans (.of_herd (.engStat hk))

/-- Normal completion of a job: what comes before its packet, and what comes after. -/
theorem Dev.jobComplete_sends {r : RunJob} (hk : k < 32) (hr : (d.engX k).run = some r) : ∃ (x : Dev) (u : Nat) (ws : List W64),
    LoopAside d x ∧ LoopAside (x.emit u 0x00 none 0xFFFF ws) (d.jobComplete c k) := by
  unfold Dev.jobComplete
  rw [hr]
  dsimp -zeta only
  extract_lets j ex budget pm low late d1 d2 d3 res d4 succs inst d5
  have hstat : ¬ isLoopShown (HERDER_ENGe_STAT_MARGIN_LOW k).addr := by
    simp only [HERDER_ENGe_STAT_MARGIN_LOW]
    exact not_isLoopShown_of_outside (.inl (by omega))
  have hdone : ¬ isLoopShown (HERDER_ENGe_DONE_DONE k).addr := by
    simp only [HERDER_ENGe_DONE_DONE]
    exact not_isLoopShown_of_outside (.inl (by omega))
  have h1 : LoopAside d d1 := .traceJob
  have h2 : LoopAside d d2 := .ite (h1.trans ((LoopAside.put (f := HERDER_ENGe_STAT_MARGIN_LOW k) hstat).trans .reportLim)) h1
  have h3 : LoopAside d d3 := h2.trans (.put hdone)
  have h5 : LoopAside d4 d5 := (LoopAside.leaveEngine hk).trans .jobToFree
  have hdecs : LoopAside d5 (succs.foldl (fun d k => d.jobDec k inst c.ns) d5) :=
    .foldl fun _ k hk => .of_herd (.jobDec (Dev.jobSuccs_lt k hk))
  exact ⟨d3, _, _, h3, .ite h5 (h5.trans hdecs)⟩

theorem LoopAside.jobComplete (hk : k < 32) : LoopAside d (d.jobComplete c k) := by
  cases hr : (d.engX k).run with
  | none =>
    unfold Dev.jobComplete
    rw [hr]
    exact .refl
  | some r =>
    obtain ⟨x, u, ws, hx, he⟩ := Dev.jobComplete_sends (c := c) hk hr
    exact hx.trans (LoopAside.emit.trans he)

/-- A job that completes sends its packet (R293). -/
theorem Dev.jobComplete_flight {r : RunJob} (hk : k < 32) (hr : (d.engX k).run = some r) :
    d.fab.flight.length < (d.jobComplete c k).fab.flight.length := by
  obtain ⟨x, u, ws, hx, he⟩ := Dev.jobComplete_sends (c := c) hk hr
  exact (Dev.emit_flight_lt hx.flight).trans_le he.flight

end LoopAsides

end Sys2Proof.Machine

/-! PROOFS. What the computation of a process loop leaves, its output in MANUAL, and a job that is late (R269, R271 to R275, R280). -/

namespace Sys2Proof.Machine

section LoopLaws

variable {d d' e : Dev} {c : Clock} {f : Field} {a b k r t n v w : Nat} {pv x : Int} {manual bump : Bool}

/-! Signed fields (R6). -/

theorem sInt_range : -(2 ^ k : Nat) ≤ sInt (k + 1) n ∧ sInt (k + 1) n < (2 ^ k : Nat) := by
  have hpow : 2 ^ (k + 1) = 2 * 2 ^ k := pow_succ' 2 k
  have hlt : n % 2 ^ (k + 1) < 2 ^ (k + 1) := Nat.mod_lt _ (by positivity)
  simp only [sInt, Nat.add_sub_cancel]
  split <;> omega

theorem Dev.getI_range (hw : f.width = k + 1) : -(2 ^ k : Nat) ≤ d.getI f ∧ d.getI f < (2 ^ k : Nat) := by
  rw [Dev.getI, hw]
  exact sInt_range

theorem Dev.getI_congr (h : e.reg f.addr = d.reg f.addr) : e.getI f = d.getI f := by rw [Dev.getI, Dev.get_congr h, Dev.getI]

/-- A signed field reads a number that it can hold. -/
theorem Dev.getI_putI (hw : f.width = k + 1) (hf : f.lo + f.width ≤ 32) (hlo : -(2 ^ k : Nat) ≤ x) (hhi : x < (2 ^ k : Nat)) :
    (d.putI f x).getI f = x := by
  rw [Dev.getI, Dev.putI, Dev.get_put_fit hf uInt_lt, hw, sInt_uInt hlo hhi]

/-! What a computation leaves (R271 to R279). -/

/-- OUT of a loop block, or a register of its group in force. -/
def isLoopInput (a : Nat) : Prop := 0x400A0000 ≤ a ∧ a < 0x400A4000 ∧ (a % 0x400 = 0x110 ∨ 0x200 ≤ a % 0x400)

theorem isLoopInput_out (hb : b < 16) : isLoopInput (LPB_bb_OUT_VAL b).addr := by
  simp only [isLoopInput, LPB_bb_OUT_VAL]
  omega

theorem isLoopInput_inForce (hb : b < 16) (hk : k < 0x200) : isLoopInput (0x400A0200 + k + 0x400 * b) := by
  simp only [isLoopInput]
  omega

theorem not_isLoopInput (h : k < 0x200 ∧ k ≠ 0x110) : ¬ isLoopInput (0x400A0000 + k + 0x400 * b) := by
  simp only [isLoopInput]
  omega

/-- OUT and the groups in force of the loop blocks stay, and no packet is taken from its way. -/
structure LoopStep (d e : Dev) : Prop where
  regs : ∀ a, isLoopInput a → e.reg a = d.reg a
  flight : d.fab.flight.length ≤ e.fab.flight.length

theorem LoopStep.refl : LoopStep d d := ⟨fun _ _ => rfl, le_rfl⟩

theorem LoopStep.trans (h : LoopStep d d') (h' : LoopStep d' e) : LoopStep d e :=
  ⟨fun a ha => (h'.regs a ha).trans (h.regs a ha), h.flight.trans h'.flight⟩

theorem LoopStep.ite {p : Prop} [Decidable p] (ht : LoopStep d d') (he : LoopStep d e) : LoopStep d (if p then d' else e) := by
  split
  · exact ht
  · exact he

theorem LoopStep.put (h : ¬ isLoopInput f.addr) : LoopStep d (d.put f v) :=
  ⟨fun _ ha => Dev.reg_put_ne fun hf => h (hf ▸ ha), by rw [Dev.put_fab]⟩

/-- A field of STAT. -/
theorem LoopStep.putStat {lo width : Nat} : LoopStep d (d.put ⟨0x400A0104 + 0x400 * b, lo, width⟩ v) :=
  .put (not_isLoopInput (k := 0x104) (by decide))

theorem LoopStep.putSpeff : LoopStep d (d.putI (LPB_bb_SPEFF_VAL b) x) := .put (not_isLoopInput (k := 0x10C) (by decide))

theorem LoopStep.setLoopX {y : LoopX} : LoopStep d (d.setLoopX b y) := ⟨fun _ _ => rfl, le_rfl⟩

theorem LoopStep.emit {unit type offs : Nat} {time : Option (Nat × Nat)} {ws : List W64} {inj : Bool} :
    LoopStep d (d.emit unit type time offs ws inj) := ⟨fun _ _ => rfl, (Dev.emit_flight_lt le_rfl).le⟩

theorem LoopStep.loopEvent {ev : Nat} : LoopStep d (d.loopEvent b t ev) := .emit

theorem LoopStep.reportLim {code u info key : Nat} {inj : Bool} : LoopStep d (d.reportLim c code u info key inj) :=
  ⟨fun a ha => Dev.reportLim_report.2 a (not_isLogReg (by obtain ⟨-, hhi, -⟩ := ha; omega)), Dev.reportLim_flight⟩

theorem LoopStep.fit : LoopStep d (d.fit w x).2 := by
  unfold Dev.fit
  split
  · exact .refl
  · exact ⟨fun _ _ => rfl, le_rfl⟩

/-- What a pair's device keeps, whatever name it is given. -/
theorem LoopStep.of_pair {α : Type} {z : α} {y : α × Dev} (h : y = (z, e)) (hy : LoopStep d y.2) : LoopStep d e := by
  subst h
  exact hy

theorem LoopStep.getI (h : LoopStep d e) (hf : isLoopInput f.addr) : e.getI f = d.getI f := Dev.getI_congr (h.regs _ hf)

theorem LoopStep.loopRegion : LoopStep d (d.loopRegion c b t).2 := by
  unfold Dev.loopRegion
  dsimp only
  split
  · exact .ite .putStat (LoopStep.putStat.trans (LoopStep.reportLim.trans .loopEvent))
  · have hz {d : Dev} {z : Int} : LoopStep d (d.putI (LPB_bb_Z_VAL b) z) := .put (not_isLoopInput (k := 0x118) (by decide))
    have hregion {d : Dev} {z : Int} {n : Nat} {y : LoopX} :
        LoopStep d ((((d.setf (LPB_bb_STAT_ZBAD b) false).putI (LPB_bb_Z_VAL b) z).put (LPB_bb_STAT_REGION b) n).setLoopX b y) :=
      ((LoopStep.putStat.trans hz).trans .putStat).trans .setLoopX
    exact .ite (hregion.trans .loopEvent) hregion

theorem LoopStep.loopJudgePv {auto : Bool} : LoopStep d (d.loopJudgePv b auto) :=
  .ite .refl (.ite (LoopStep.putStat.trans .putStat) (.ite (LoopStep.putStat.trans .putStat) .refl))

theorem LoopStep.rampSp : LoopStep d (d.rampSp b t) := by
  unfold Dev.rampSp
  extract_lets cur sp rate step new d1
  have h1 : LoopStep d d1 := LoopStep.putSpeff.trans .putStat
  exact .ite (h1.trans .loopEvent) h1

theorem LoopStep.loopHeld {changed : Bool} : LoopStep d (d.loopHeld b t changed) :=
  .ite (LoopStep.setLoopX.trans .putStat) (LoopStep.setLoopX.trans .rampSp)

theorem LoopStep.loopTerms : LoopStep d (d.loopTerms b r pv).2 :=
  (((LoopStep.fit.trans .fit).trans .fit).trans .fit).trans .setLoopX

/-! The output (R273 to R276). -/

/-- The output in MANUAL: MOUT within OMIN and OMAX, moved there by at most OSLEW. -/
def Dev.manualOut (d : Dev) (b : Nat) : Int :=
  slewTo (d.getI (LPB_bb_OUT_VAL b)) (d.getI (LPB_bb_OSLEW_ACT_V b))
    (clampI (d.getI (LPB_bb_OMIN_ACT_V b)) (d.getI (LPB_bb_OMAX_ACT_V b)) (d.getI (LPB_bb_MOUT_ACT_V b)))

theorem LoopStep.manualOut (h : LoopStep d e) (hb : b < 16) : e.manualOut b = d.manualOut b := by
  rw [Dev.manualOut, h.getI (isLoopInput_out hb), h.getI (isLoopInput_inForce hb (k := 0x48) (by decide)),
    h.getI (isLoopInput_inForce hb (k := 0x40) (by decide)), h.getI (isLoopInput_inForce hb (k := 0x44) (by decide)),
    h.getI (isLoopInput_inForce hb (k := 0x38) (by decide)), Dev.manualOut]

/-- Clamping and slewing lead nowhere outside the range of the numbers they start from. -/
theorem slewTo_clampI_range {lo hi prev lim a b x : Int} (hprev : lo ≤ prev ∧ prev < hi) (hlim : 0 ≤ lim) (ha : lo ≤ a ∧ a < hi)
    (hb : lo ≤ b ∧ b < hi) (hx : lo ≤ x ∧ x < hi) : lo ≤ slewTo prev lim (clampI a b x) ∧ slewTo prev lim (clampI a b x) < hi := by
  have hclamp : lo ≤ clampI a b x ∧ clampI a b x < hi := by
    unfold clampI
    split_ifs <;> assumption
  unfold slewTo
  generalize clampI a b x = y at hclamp ⊢
  split_ifs
  · exact hclamp
  · unfold clampI
    split_ifs <;> omega

theorem Dev.manualOut_range (h : 0 ≤ d.getI (LPB_bb_OSLEW_ACT_V b)) : -(2 ^ 31 : Nat) ≤ d.manualOut b ∧ d.manualOut b < (2 ^ 31 : Nat) :=
  slewTo_clampI_range (Dev.getI_range rfl) h (Dev.getI_range rfl) (Dev.getI_range rfl) (Dev.getI_range rfl)

/-- The law writes OUT and then INTEG; in MANUAL it is the output of R275. -/
theorem Dev.loopPid_eq (hb : b < 16) : ∃ (x : Dev) (u n : Int), LoopStep d x ∧
    d.loopPid b r pv manual bump = (x.putI (LPB_bb_OUT_VAL b) u).putI (LPB_bb_INTEG_VAL b) n ∧ (manual = true → u = d.manualOut b) := by
  unfold Dev.loopPid
  extract_lets uPrev n0 ff
  split
  next e p df d1 hterms =>
  split
  next ki d2 hki =>
  split
  next n d3 hn =>
  extract_lets raw u1 u
  split
  next n' d4 hn' =>
  extract_lets d5 d6
  have h1 : LoopStep d d1 := .of_pair hterms .loopTerms
  have h2 : LoopStep d d2 := h1.trans (.of_pair hki .fit)
  have h3 : LoopStep d d3 := h2.trans (.of_pair hn .fit)
  have h4 : LoopStep d d4 := by
    refine h3.trans (.of_pair hn' ?_)
    split
    · exact .fit
    · exact .refl
  have h5 : LoopStep d d5 := .ite (h4.trans .putStat) h4
  have h6 : LoopStep d d6 := .ite (h5.trans .putStat) h5
  refine ⟨d6, u, n', h6, rfl, fun hmanual => ?_⟩
  have hraw : raw = d3.getI (LPB_bb_MOUT_ACT_V b) := if_pos hmanual
  have hprev : uPrev = d3.getI (LPB_bb_OUT_VAL b) := (h3.getI (isLoopInput_out hb)).symm
  rw [← h3.manualOut hb]
  simp only [u, u1, hraw, hprev, Dev.manualOut]

/-- The output for o_j joins the outputs, and its packet goes out (R280). -/
theorem Dev.loopSend_eq {o : Nat} : ∃ (y : LoopX) (adr : Nat) (ws : List W64), y.outs.head?.map (·.at_) = some o ∧
    d.loopSend b o = (d.setLoopX b y).emitTo adr (lpbUnit b) 0x51 (some (o, 0)) 0 ws := by
  unfold Dev.loopSend
  exact ⟨_, _, _, rfl, rfl⟩

theorem Dev.loopX_emitTo {adr unit type offs : Nat} {time : Option (Nat × Nat)} {ws : List W64} {inj : Bool} :
    (d.emitTo adr unit type time offs ws inj).loopX n = d.loopX n := rfl

theorem Dev.reg_emitTo {adr unit type offs : Nat} {time : Option (Nat × Nat)} {ws : List W64} {inj : Bool} :
    (d.emitTo adr unit type time offs ws inj).reg a = d.reg a := rfl

theorem Dev.loopSend_reg {o : Nat} : (d.loopSend b o).reg a = d.reg a := by
  obtain ⟨y, adr, ws, -, hsend⟩ := Dev.loopSend_eq (d := d) (b := b) (o := o)
  rw [hsend, Dev.reg_emitTo, Dev.setLoopX_reg]

theorem Dev.loopSend_outs {o : Nat} : ((d.loopSend b o).loopX b).outs.head?.map (·.at_) = some o := by
  obtain ⟨y, adr, ws, hat, hsend⟩ := Dev.loopSend_eq (d := d) (b := b) (o := o)
  rw [hsend, Dev.loopX_emitTo, Dev.loopX_setLoopX_self, hat]

theorem Dev.loopSend_flight {o : Nat} : d.fab.flight.length < (d.loopSend b o).fab.flight.length := by
  obtain ⟨y, adr, ws, -, hsend⟩ := Dev.loopSend_eq (d := d) (b := b) (o := o)
  rw [hsend]
  simp [Dev.emitTo]

/-- The computation of a MANUAL instant ends in the law and its output (R273, R274). -/
theorem Dev.loopCompute_manual (h : d.loopMode b = loopManual) : ∃ (x : Dev) (r : Nat) (pv : Int), LoopStep d x ∧
    d.loopCompute c b t = ((x.loopPid b r pv true false).putI (LPB_bb_PV_VAL b) pv).loopSend b (t + d.loopT b) := by
  have hauto : ¬ d.loopMode b = loopAuto := by
    rw [h]
    decide
  unfold Dev.loopCompute
  extract_lets x auto hold show_ o first
  split
  next changed d1 hregion =>
  extract_lets d2 r lost d3 d4 bump d5 y d6
  have hmanual : auto = false := decide_eq_false hauto
  have hnot : ¬ auto = true := Bool.eq_false_iff.mp hmanual
  have h2 : LoopStep d d2 := ((LoopStep.of_pair hregion .loopRegion).trans .loopJudgePv).trans .putStat
  have h4 : LoopStep d d4 := h2.trans (.ite (LoopStep.putSpeff.trans .putStat) .rampSp)
  have h5 : d5 = d4.loopPid b r x.pv true false := (if_neg fun h => hnot h.2).trans (by rw [hmanual, Bool.and_false]; rfl)
  have h6 : d6 = d5 := if_neg hnot
  rw [if_neg fun h => hnot h.1, if_neg fun h => hnot h.1, h6, h5]
  exact ⟨d4, r, x.pv, h4, rfl⟩

theorem Dev.loopTo_flight {mode : Nat} : d.fab.flight.length ≤ (d.loopTo b t mode).fab.flight.length := by
  have hputState {d : Dev} {u v : Nat} {f : Field} : (d.putState u f v).fab = d.fab := by
    unfold Dev.putState Dev.raise
    split_ifs <;> rfl
  have hholds {d : Dev} : d.showHolds.fab = d.fab :=
    List.foldlRecOn (motive := fun e : Dev => e.fab = d.fab) _ _ rfl fun _ hb _ _ => hb
  unfold Dev.loopTo
  split
  · exact le_rfl
  · refine le_trans (le_of_eq ?_) LoopStep.loopEvent.flight
    rw [hholds, hputState, Dev.setLoopX_fab]

/-- The event of a lost PV is one more packet (R284). -/
theorem Dev.loopLost_flight : d.fab.flight.length < (d.loopLost c b t).fab.flight.length := by
  have hevent : d.fab.flight.length < ((d.loopTo b t loopOff).loopEvent b t 3).fab.flight.length := Dev.emit_flight_lt Dev.loopTo_flight
  unfold Dev.loopLost
  dsimp only
  split
  · next u hu =>
    have hlane : u < 32 := by
      unfold Dev.loopLane at hu
      dsimp only at hu
      split_ifs at hu <;> cases hu <;> omega
    have hfault {d : Dev} : FaultKeeps d (d.faultLane c 102 u) := .ite .refl (.laneFault hlane)
    exact hevent.trans_le (FaultKeeps.record.trans hfault).flight
  · exact hevent.trans_le FaultKeeps.record.flight

/-- The computation of an instant ends in a packet in every mode: of its output, or of the PV it lost (R280, R284). -/
theorem Dev.loopCompute_flight (hb : b < 16) : d.fab.flight.length < (d.loopCompute c b t).fab.flight.length := by
  unfold Dev.loopCompute
  extract_lets x auto hold show_ o first
  split
  next changed d1 hregion =>
  extract_lets d2 r lost d3 d4 bump d5 y d6
  have h2 : LoopStep d d2 := ((LoopStep.of_pair hregion .loopRegion).trans .loopJudgePv).trans .putStat
  have hlost : LoopStep d lost := h2.trans ((LoopStep.reportLim.trans .loopEvent).trans .loopHeld)
  have hshow {d : Dev} : LoopStep d (show_ d) := .put (not_isLoopInput (k := 0x108) (by decide))
  have hheld : LoopStep d ((if x.acts = true then show_ d3 else d3).loopHeld b t changed) := (h2.trans (.ite hshow .refl)).trans .loopHeld
  have h4 : LoopStep d d4 := h2.trans (.ite (LoopStep.putSpeff.trans .putStat) .rampSp)
  have h5 : d4.fab.flight.length ≤ d5.fab.flight.length := by
    unfold d5
    split
    · rw [Dev.loopBand, Dev.putI, Dev.put_fab]
    · obtain ⟨z, u, n, hz, heq, -⟩ := Dev.loopPid_eq (d := d4) (r := r) (pv := x.pv) (manual := !auto) (bump := bump && auto) hb
      rw [heq, Dev.putI, Dev.put_fab, Dev.putI, Dev.put_fab]
      exact hz.flight
  have h6 : LoopStep d5 (show_ d6) := (LoopStep.ite .setLoopX .refl).trans hshow
  have hlaw : d.fab.flight.length ≤ (show_ d6).fab.flight.length := by
    have hfirst := h4.flight
    have hlast := h6.flight
    clear_value d4 d5
    exact (hfirst.trans h5).trans hlast
  split
  · split
    · exact hlost.flight.trans_lt Dev.loopLost_flight
    · exact hlost.flight.trans_lt Dev.loopSend_flight
  · split
    · exact hheld.flight.trans_lt Dev.loopSend_flight
    · exact hlaw.trans_lt Dev.loopSend_flight

/-- The instant of a MANUAL block: its output, and the instant at which it takes effect (R269, R275). -/
theorem Dev.loopCompute_manualOut (hb : b < 16) (h : d.loopMode b = loopManual) (hs : 0 ≤ d.getI (LPB_bb_OSLEW_ACT_V b)) :
    (d.loopCompute c b t).getI (LPB_bb_OUT_VAL b) = d.manualOut b ∧
    (((d.loopCompute c b t).loopX b).outs.head?.map (·.at_)) = some (t + d.loopT b) := by
  obtain ⟨x, r, pv, hx, hcompute⟩ := Dev.loopCompute_manual (c := c) (t := t) h
  obtain ⟨z, u, n, hz, hpid, hu⟩ := Dev.loopPid_eq (d := x) (r := r) (pv := pv) (manual := true) (bump := false) hb
  obtain ⟨hlo, hhi⟩ := Dev.manualOut_range hs
  have hpv : (LPB_bb_PV_VAL b).addr ≠ (LPB_bb_OUT_VAL b).addr := by
    simp only [LPB_bb_PV_VAL, LPB_bb_OUT_VAL]
    omega
  have hinteg : (LPB_bb_INTEG_VAL b).addr ≠ (LPB_bb_OUT_VAL b).addr := by
    simp only [LPB_bb_INTEG_VAL, LPB_bb_OUT_VAL]
    omega
  have hreg : (d.loopCompute c b t).reg (LPB_bb_OUT_VAL b).addr = (z.putI (LPB_bb_OUT_VAL b) u).reg (LPB_bb_OUT_VAL b).addr := by
    rw [hcompute, Dev.loopSend_reg, hpid, Dev.putI, Dev.reg_put_ne hpv, Dev.putI, Dev.reg_put_ne hinteg]
  refine ⟨?_, by rw [hcompute, Dev.loopSend_outs]⟩
  rw [Dev.getI_congr hreg, hu rfl, hx.manualOut hb]
  exact Dev.getI_putI (k := 31) rfl (Nat.le_refl 32) hlo hhi

end LoopLaws

end Sys2Proof.Machine

/-! PROOFS. The rows of the process loops: an instant in OFF, a job that completes, the output instant (R21, R269, R274, R275). -/

namespace Sys2Proof.Machine

section LoopRows

variable {d e : Dev} {c : Clock} {a b n o t : Nat} {r : RunJob}

/-! An output that is late, and one that is in time (R269). -/

theorem Dev.loopMiss_none (h : (d.loopX b).due = none) : d.loopMiss c b = d := if_neg (by rw [h]; exact Bool.false_ne_true)

theorem Dev.loopMiss_due (h : (d.loopX b).due.isSome = true) :
    d.loopMiss c b = (d.setLoopX b { d.loopX b with due := none }).loopLate c b := if_pos h

/-- A late output is noted with a report, which leaves the loops and their registers. -/
theorem Dev.loopLate_aside : LoopAside (d.setf (LPB_bb_STAT_LATE b)) (d.loopLate c b) := .reportLim

theorem Dev.loopMiss_loopX : (d.loopMiss c b).loopX b = { d.loopX b with due := none } := by
  by_cases h : (d.loopX b).due.isSome = true
  · rw [Dev.loopMiss_due h, Dev.loopLate_aside.loopX]
    exact Dev.loopX_setLoopX_self
  · have hdue : (d.loopX b).due = none := Option.not_isSome_iff_eq_none.mp h
    rw [Dev.loopMiss_none hdue, ← hdue]

theorem Dev.loopMiss_late (hb : b < 16) (h : (d.loopX b).due.isSome = true) : (d.loopMiss c b).flag (LPB_bb_STAT_LATE b) = true := by
  rw [Dev.loopMiss_due h, Dev.flag_congr (Dev.loopLate_aside.regs (LPB_bb_STAT_LATE b).addr (isLoopShown_stat hb))]
  exact Dev.flag_setf_self (Field.isBit (by decide))

theorem Dev.loopMiss_out (hb : b < 16) : (d.loopMiss c b).get (LPB_bb_OUT_VAL b) = d.get (LPB_bb_OUT_VAL b) := by
  have hlate : (LPB_bb_STAT_LATE b).addr ≠ (LPB_bb_OUT_VAL b).addr := by
    simp only [LPB_bb_STAT_LATE, LPB_bb_OUT_VAL]
    omega
  by_cases h : (d.loopX b).due.isSome = true
  · rw [Dev.loopMiss_due h, Dev.get_congr (Dev.loopLate_aside.regs (LPB_bb_OUT_VAL b).addr (isLoopShown_out hb)), Dev.setf,
      Dev.get_put_ne hlate]
    rfl
  · rw [Dev.loopMiss_none (Option.not_isSome_iff_eq_none.mp h)]

theorem Dev.loopMiss_engX : (d.loopMiss c b).engX n = d.engX n := by
  by_cases h : (d.loopX b).due.isSome = true
  · rw [Dev.loopMiss_due h, Dev.loopLate, Dev.engX, Dev.reportLim_report.1]
    rfl
  · rw [Dev.loopMiss_none (Option.not_isSome_iff_eq_none.mp h)]

theorem Dev.loopMiss_flight : d.fab.flight.length ≤ (d.loopMiss c b).fab.flight.length := by
  by_cases h : (d.loopX b).due.isSome = true
  · rw [Dev.loopMiss_due h]
    refine le_trans (le_of_eq ?_) Dev.loopLate_aside.flight
    rw [Dev.setf, Dev.put_fab, Dev.setLoopX_fab]
  · rw [Dev.loopMiss_none (Option.not_isSome_iff_eq_none.mp h)]

theorem Dev.touchWords_frame : d.touchWords a n = { d with ecc := (d.touchWords a n).ecc, flt := (d.touchWords a n).flt } := by
  refine List.foldlRecOn (motive := fun e : Dev => e = { d with ecc := e.ecc, flt := e.flt }) _ _ rfl fun e he i _ => ?_
  have htouch : e.touchEcc (a + 8 * i) = { e with ecc := (e.touchEcc (a + 8 * i)).ecc, flt := (e.touchEcc (a + 8 * i)).flt } := by
    unfold Dev.touchEcc
    split <;> rfl
  refine htouch.trans ?_
  rw [he]

/-- A job that ends in time leaves no output due; the words of the block's state are written, and nothing else differs. -/
theorem Dev.loopStored_frame : d.loopStored b = { d.setLoopX b { d.loopX b with due := none } with
    ecc := (d.loopStored b).ecc, flt := (d.loopStored b).flt } := Dev.touchWords_frame

theorem Dev.loopStored_loopX : (d.loopStored b).loopX b = { d.loopX b with due := none } := by
  rw [Dev.loopStored_frame]
  exact Dev.loopX_setLoopX_self

theorem Dev.loopStored_reg : (d.loopStored b).reg a = d.reg a := by
  rw [Dev.loopStored_frame]
  rfl

theorem Dev.loopStored_fab : (d.loopStored b).fab = d.fab := by
  rw [Dev.loopStored_frame]
  rfl

theorem Dev.loopStored_engX : (d.loopStored b).engX n = d.engX n := by
  rw [Dev.loopStored_frame]
  rfl

/-! A job that completes (R269, R275). -/

/-- What the job of block b did by its end, before the engine counts it. -/
def Dev.loopWorked (d : Dev) (c : Clock) (b j : Nat) : Dev :=
  if d.jobDeadline j < c.ns then d.loopMiss c b
  else if d.loopMode b = loopOff then d.loopStored b else (d.loopCompute c b (d.jobX j).inst).loopStored b

theorem Dev.loopComplete_eq (hr : (d.engX 30).run = some r) (hs : r.slot = slotLoop b) :
    d.loopComplete c b = (d.loopWorked c b r.slot).jobComplete c 30 := by
  unfold Dev.loopComplete
  rw [hr]
  exact if_pos hs

theorem Dev.loopComplete_idle (h : ∀ r, (d.engX 30).run = some r → r.slot ≠ slotLoop b) : d.loopComplete c b = d := by
  unfold Dev.loopComplete
  split
  · next r hr => exact if_neg (h r hr)
  · rfl

theorem Dev.loopWorked_late {j : Nat} (h : d.jobDeadline j < c.ns) : d.loopWorked c b j = d.loopMiss c b := if_pos h

theorem Dev.loopWorked_off {j : Nat} (h : ¬ d.jobDeadline j < c.ns) (hm : d.loopMode b = loopOff) : d.loopWorked c b j = d.loopStored b :=
  (if_neg h).trans (if_pos hm)

theorem Dev.loopWorked_inTime {j : Nat} (h : ¬ d.jobDeadline j < c.ns) (hm : d.loopMode b ≠ loopOff) :
    d.loopWorked c b j = (d.loopCompute c b (d.jobX j).inst).loopStored b := (if_neg h).trans (if_neg hm)

section

variable (hr : (d.engX 30).run = some r) (hs : r.slot = slotLoop b)

include hr hs

theorem Dev.loopComplete_aside : LoopAside (d.loopWorked c b r.slot) (d.loopComplete c b) := by
  rw [Dev.loopComplete_eq hr hs]
  exact .jobComplete (by decide)

theorem Dev.loopComplete_due : ((d.loopComplete c b).loopX b).due = none := by
  rw [(Dev.loopComplete_aside hr hs).loopX]
  by_cases hlate : d.jobDeadline r.slot < c.ns
  · rw [Dev.loopWorked_late hlate, Dev.loopMiss_loopX]
  · by_cases hm : d.loopMode b = loopOff
    · rw [Dev.loopWorked_off hlate hm, Dev.loopStored_loopX]
    · rw [Dev.loopWorked_inTime hlate hm, Dev.loopStored_loopX]

/-- A block that computes sends its output or its lost PV; a block that does not sends no less than its job's completion. -/
theorem Dev.loopComplete_flight (hb : b < 16) : d.fab.flight.length < (d.loopComplete c b).fab.flight.length := by
  by_cases hlate : d.jobDeadline r.slot < c.ns
  · have hrun : ((d.loopMiss c b).engX 30).run = some r := by rw [Dev.loopMiss_engX, hr]
    rw [Dev.loopComplete_eq hr hs, Dev.loopWorked_late hlate]
    exact Dev.loopMiss_flight.trans_lt (Dev.jobComplete_flight (by decide) hrun)
  · by_cases hm : d.loopMode b = loopOff
    · have hrun : ((d.loopStored b).engX 30).run = some r := by rw [Dev.loopStored_engX, hr]
      rw [Dev.loopComplete_eq hr hs, Dev.loopWorked_off hlate hm, ← Dev.loopStored_fab (d := d) (b := b)]
      exact Dev.jobComplete_flight (by decide) hrun
    · have hkeep := (Dev.loopComplete_aside (c := c) hr hs).flight
      rw [Dev.loopWorked_inTime hlate hm, Dev.loopStored_fab] at hkeep
      exact (Dev.loopCompute_flight hb).trans_le hkeep

theorem Dev.loopComplete_late (hb : b < 16) (hlate : d.jobDeadline r.slot < c.ns) (hdue : (d.loopX b).due.isSome = true) :
    (d.loopComplete c b).flag (LPB_bb_STAT_LATE b) = true := by
  rw [Dev.flag_congr ((Dev.loopComplete_aside hr hs).regs (LPB_bb_STAT_LATE b).addr (isLoopShown_stat hb)), Dev.loopWorked_late hlate,
    Dev.loopMiss_late hb hdue]

theorem Dev.loopComplete_out (hb : b < 16) :
    (d.loopComplete c b).get (LPB_bb_OUT_VAL b) = (d.loopWorked c b r.slot).get (LPB_bb_OUT_VAL b) :=
  Dev.get_congr ((Dev.loopComplete_aside hr hs).regs (LPB_bb_OUT_VAL b).addr (isLoopShown_out hb))

/-- A late job and a job of a block in OFF compute no output. -/
theorem Dev.loopComplete_silent (hb : b < 16) (h : d.jobDeadline r.slot < c.ns ∨ d.loopMode b = loopOff) :
    ((d.loopComplete c b).loopX b).outs = (d.loopX b).outs ∧ (d.loopComplete c b).get (LPB_bb_OUT_VAL b) = d.get (LPB_bb_OUT_VAL b) := by
  rw [(Dev.loopComplete_aside hr hs).loopX, Dev.loopComplete_out hr hs hb]
  by_cases hlate : d.jobDeadline r.slot < c.ns
  · rw [Dev.loopWorked_late hlate, Dev.loopMiss_loopX, Dev.loopMiss_out hb]
    exact ⟨rfl, rfl⟩
  · rw [Dev.loopWorked_off hlate (h.resolve_left hlate), Dev.loopStored_loopX, Dev.get_congr Dev.loopStored_reg]
    exact ⟨rfl, rfl⟩

/-- A MANUAL block whose job ends in time shows its output, for the output instant one period after the loop instant. -/
theorem Dev.loopComplete_manual (hb : b < 16) (h : ¬ d.jobDeadline r.slot < c.ns) (hm : d.loopMode b = loopManual)
    (hslew : 0 ≤ d.getI (LPB_bb_OSLEW_ACT_V b)) : (d.loopComplete c b).getI (LPB_bb_OUT_VAL b) = d.manualOut b ∧
    ((d.loopComplete c b).loopX b).outs.head?.map (·.at_) = some ((d.jobX r.slot).inst + d.loopT b) := by
  have hon : d.loopMode b ≠ loopOff := by
    rw [hm]
    decide
  obtain ⟨hout, hat⟩ := Dev.loopCompute_manualOut (c := c) (t := (d.jobX r.slot).inst) hb hm hslew
  rw [(Dev.loopComplete_aside hr hs).loopX, Dev.getI_congr ((Dev.loopComplete_aside hr hs).regs (LPB_bb_OUT_VAL b).addr (isLoopShown_out hb)),
    Dev.loopWorked_inTime h hon, Dev.loopStored_loopX, Dev.getI_congr Dev.loopStored_reg]
  exact ⟨hout, hat⟩

end

/-! The output instant (R269). -/

theorem Dev.loopOutputAt_none (h : (d.loopX b).due = none ∨ ∃ o, (d.loopX b).due = some o ∧ c.ns < o) : d.loopOutputAt c b = d := by
  unfold Dev.loopOutputAt
  rcases h with h | ⟨o, h, ho⟩
  · rw [h]
  · rw [h]
    exact if_pos ho

theorem Dev.loopOutputAt_off (h : (d.loopX b).due = some o) (ho : o ≤ c.ns) (hm : d.loopMode b = loopOff) :
    d.loopOutputAt c b = d.setLoopX b { d.loopX b with due := none } := by
  unfold Dev.loopOutputAt
  rw [h]
  exact (if_neg (Nat.not_lt.mpr ho)).trans (if_pos hm)

theorem Dev.loopOutputAt_late (h : (d.loopX b).due = some o) (ho : o ≤ c.ns) (hm : d.loopMode b ≠ loopOff) :
    d.loopOutputAt c b = d.loopMiss c b := by
  unfold Dev.loopOutputAt
  rw [h]
  exact (if_neg (Nat.not_lt.mpr ho)).trans (if_neg hm)

/-! The instant of a block in OFF (R268, R272, R274). -/

theorem Dev.useWords_clean (h : d.ecc = []) : d.useWords c a n = d := by
  rw [Dev.useWords, h]
  rfl

theorem Dev.takeImages_none (h : d.imgs = []) : d.takeImages a t = ([], d) := by
  have hsame : ({ d with imgs := [] } : Dev) = d := by rw [← h]
  rw [Dev.takeImages, Dev.dueImages, h]
  exact congrArg (Prod.mk []) hsame

theorem Dev.loopTakeDue_none {ok : LoopCmd → Bool} (h : (d.loopX b).pend = []) : d.loopTakeDue b t ok = d.setLoopX b (d.loopX b) := by
  have hsame : ({ d.loopX b with pend := [] } : LoopX) = d.loopX b := by rw [← h]
  rw [Dev.loopTakeDue, h]
  exact congrArg (d.setLoopX b) hsame

/-- The block's record differs, and nothing else. -/
def LoopsOnly (d e : Dev) : Prop := e = { d with loops := e.loops }

theorem LoopsOnly.trans {d' : Dev} (h : LoopsOnly d d') (h' : LoopsOnly d' e) : LoopsOnly d e := Eq.trans h' (by rw [h])

theorem LoopsOnly.setLoopX {x : LoopX} : LoopsOnly d (d.setLoopX n x) := rfl

theorem LoopsOnly.get {f : Field} (h : LoopsOnly d e) : e.get f = d.get f := Dev.get_congr (by rw [h]; rfl)

theorem Dev.loopMark_only : LoopsOnly d (d.loopMark b) ∧ ((d.loopMark b).loopX b).tj = (d.loopX b).tj ∧
    (d.get (LPB_bb_PSRC_ACT_TYPE b) ≠ 4 → (d.loopMark b).loopX b = d.loopX b) := by
  unfold Dev.loopMark
  split
  · next h => exact ⟨rfl, by rw [Dev.loopX_setLoopX_self], fun hne => absurd h hne⟩
  · exact ⟨rfl, rfl, fun _ => rfl⟩

/-- The device with the block's instant noted, its record read and written as the instant does when nothing waits. -/
def Dev.loopNoted (d : Dev) (b t : Nat) : Dev :=
  let d1 := d.setLoopX b (d.loopX b)
  let d2 := d1.setLoopX b { d1.loopX b with tj := t }
  d2.setLoopX b (d2.loopX b)

theorem Dev.loopNoted_loopX : (d.loopNoted b t).loopX b = { d.loopX b with tj := t } := by
  rw [Dev.loopNoted, Dev.loopX_setLoopX_self, Dev.loopX_setLoopX_self, Dev.loopX_setLoopX_self]

theorem Dev.loopNoted_only : LoopsOnly d (d.loopNoted b t) := (LoopsOnly.setLoopX.trans .setLoopX).trans .setLoopX

/-- Nothing waits for the block: no command, image or commit, no inverted bits in its storage, no output. -/
structure Dev.LoopQuiet (d : Dev) (b : Nat) : Prop where
  pend : (d.loopX b).pend = []
  imgs : d.imgs = []
  cmt : d.flag (LPB_bb_CTL_CMT b) = false
  ecc : d.ecc = []
  due : (d.loopX b).due = none

/-- An instant of a block in OFF for which nothing waits is noted, with the newest probe event as seen. -/
theorem Dev.loopInstant_off (hq : d.LoopQuiet b) (hm : d.loopMode b = loopOff) : d.loopInstant c b t = (d.loopNoted b t).loopMark b := by
  have htake : (d.setLoopX b (d.loopX b)).takeImages (lpbBase b) t = ([], d.setLoopX b (d.loopX b)) := Dev.takeImages_none hq.imgs
  have hcmt : ¬ ((d.setLoopX b (d.loopX b)).flag (LPB_bb_CTL_CMT b) = true ∨ (!([] : List PendImg).isEmpty) = true) := by
    rintro (h | h)
    · exact Bool.false_ne_true (hq.cmt.symm.trans h)
    · exact Bool.false_ne_true h
  have hmode : (d.loopNoted b t).loopMode b = loopOff := Dev.loopNoted_only.get.trans hm
  have hpend : ((d.setLoopX b (d.loopX b)).loopX b).pend = [] := by rw [Dev.loopX_setLoopX_self, hq.pend]
  unfold Dev.loopInstant
  rw [Dev.useWords_clean hq.ecc, Dev.loopMiss_none hq.due]
  dsimp only
  rw [Dev.loopTakeDue_none hq.pend, htake]
  dsimp only
  rw [if_neg hcmt, Dev.loopTakeDue_none (by rw [Dev.loopX_setLoopX_self, hpend])]
  exact if_pos (.inl hmode)

/-- Only its record differs, by the instant and by the probe event seen. -/
theorem Dev.loopInstant_off_only (hq : d.LoopQuiet b) (hm : d.loopMode b = loopOff) : LoopsOnly d (d.loopInstant c b t) ∧
    ((d.loopInstant c b t).loopX b).tj = t ∧
    (d.get (LPB_bb_PSRC_ACT_TYPE b) ≠ 4 → (d.loopInstant c b t).loopX b = { d.loopX b with tj := t }) := by
  obtain ⟨honly, htj, hsame⟩ := Dev.loopMark_only (d := d.loopNoted b t) (b := b)
  rw [Dev.loopInstant_off hq hm]
  rw [Dev.loopNoted_only.get, Dev.loopNoted_loopX] at hsame
  rw [Dev.loopNoted_loopX] at htj
  exact ⟨Dev.loopNoted_only.trans honly, htj, hsame⟩

end LoopRows

end Sys2Proof.Machine

/-! PROOFS. The trajectory instant of a slot that tracks its lane's latch while nothing waits for it (R232, R234, R256). -/

namespace Sys2Proof.Machine

section SlotInstants

variable {d d' e : Dev} {c : Clock} {f : Field} {a t v : Nat} {x : AxX}

/-- STAT or MSRC of the slot. -/
def isSlotNote (a r : Nat) : Prop := r = (TRJ_AXaa_STAT_MODE a).addr ∨ r = (TRJ_AXaa_MSRC_TYPE a).addr

theorem not_isSlotNote {k : Nat} (h : k ≠ 0x44 ∧ k ≠ 0x48) : ¬ isSlotNote a (0x40090000 + k + 0x100 * a) := by
  simp only [isSlotNote, TRJ_AXaa_STAT_MODE, TRJ_AXaa_MSRC_TYPE]
  omega

/-- Nothing but the records of slots and STAT and MSRC of slot a differs. -/
structure SlotStep (a : Nat) (d e : Dev) : Prop where
  frame : e = { d with regs := e.regs, ax := e.ax }
  regs : KeepsRegs (isSlotNote a) d e

theorem SlotStep.trans (h : SlotStep a d d') (h' : SlotStep a d' e) : SlotStep a d e :=
  ⟨h'.frame.trans (by rw [h.frame]), fun r hr => (h'.regs r hr).trans (h.regs r hr)⟩

theorem SlotStep.setAxX : SlotStep a d (d.setAxX a x) := ⟨rfl, fun _ _ => rfl⟩

theorem SlotStep.setReg {r : Nat} {w : W32} (h : isSlotNote a r) : SlotStep a d (d.setReg r w) :=
  ⟨rfl, fun _ hb => Dev.reg_setReg_ne fun hr => hb (hr ▸ h)⟩

/-- A field of STAT. -/
theorem SlotStep.putStat {lo width : Nat} : SlotStep a d (d.put ⟨0x40090044 + 0x100 * a, lo, width⟩ v) := .setReg (.inl rfl)

theorem SlotStep.fbkX_eq {n : Nat} (h : SlotStep a d e) : e.fbkX n = d.fbkX n := by rw [Dev.fbkX, h.frame, Dev.fbkX]

theorem SlotStep.lanes_eq (h : SlotStep a d e) : e.lanes = d.lanes := by rw [h.frame]

theorem SlotStep.mem_eq (h : SlotStep a d e) : e.mem = d.mem := by rw [h.frame]

theorem OnlyRegs.axX_eq {p : Nat → Prop} {n : Nat} (h : OnlyRegs p d e) : e.axX n = d.axX n := by rw [Dev.axX, h.2, Dev.axX]

theorem OnlyRegs.lanes_eq {p : Nat → Prop} (h : OnlyRegs p d e) : e.lanes = d.lanes := by rw [h.2]

theorem OnlyRegs.mem_eq {p : Nat → Prop} (h : OnlyRegs p d e) : e.mem = d.mem := by rw [h.2]

theorem HerdStep.axX_eq {n : Nat} (h : HerdStep d e) : e.axX n = d.axX n := by rw [Dev.axX, h.frame, Dev.axX]

theorem HerdStep.lanes_eq (h : HerdStep d e) : e.lanes = d.lanes := by rw [h.frame]

theorem HerdStep.mem_eq (h : HerdStep d e) : e.mem = d.mem := by rw [h.frame]

/-- The slot's lane does not run and nothing waits for the slot: no command, stop, re-planning, image or commit. -/
structure Dev.SlotStill (d : Dev) (a : Nat) : Prop where
  live : (d.axX a).live = false
  pend : (d.axX a).pend = []
  disc : (d.axX a).disc = false
  halt : (d.axX a).halt = false
  replan : (d.axX a).replan = false
  hold31 : (d.axX a).hold31 = false
  imgs : d.imgs = []
  cmt : d.flag (TRJ_AXaa_CTL_CMT a) = false

/-! Its motion, its commands and its group at the instant (R237, R256, R266). -/

theorem Dev.axYield_none (h : (d.axX a).pend = []) : d.axYield a t = d.setAxX a (d.axX a) := by
  have hsame : ({ d.axX a with pend := [] } : AxX) = d.axX a := by rw [← h]
  rw [Dev.axYield, h]
  exact congrArg (d.setAxX a) hsame

theorem Dev.axTakeDue_none {ok : AxCmd → Bool} (h : (d.axX a).pend = []) : d.axTakeDue c a t ok = d.setAxX a (d.axX a) := by
  have hsame : ({ d.axX a with pend := [] } : AxX) = d.axX a := by rw [← h]
  rw [Dev.axTakeDue, h]
  exact congrArg (d.setAxX a) hsame

theorem Dev.axCommit_none (hi : d.imgs = []) (hc : d.flag (TRJ_AXaa_CTL_CMT a) = false) : d.axCommit a t = d := by
  unfold Dev.axCommit
  rw [Dev.takeImages_none hi]
  refine if_neg ?_
  rintro (h | h)
  · exact Bool.false_ne_true (hc.symm.trans h)
  · exact Bool.false_ne_true h

/-- The record of a slot that takes its position from the latch. -/
def Dev.axLatched (d : Dev) (a t : Nat) : AxX :=
  { d.axX a with t0 := t, k0 := { p := posQ (d.fbkX a).x }, segs := [], tc := none, mst := none }

/-- The slot in HOLD at the latch, without a master. -/
def Dev.axTracked (d : Dev) (a t : Nat) : Dev := ((d.setAxX a (d.axLatched a t)).axSetMode a modeHold).showMaster a none

theorem Dev.axTracked_step (ha : a < 24) : SlotStep a d (d.axTracked a t) := by
  rw [Dev.axTracked, Dev.axSetMode, if_neg (by omega)]
  exact (SlotStep.setAxX.trans .putStat).trans (.setReg (.inr rfl))

theorem Dev.axTracked_axX (ha : a < 24) : (d.axTracked a t).axX a = d.axLatched a t := by
  rw [Dev.axTracked, Dev.axSetMode, if_neg (by omega)]
  exact Dev.axX_setAxX_self

theorem Dev.axTracked_yielded (ha : a < 24) : ((d.setAxX a (d.axX a)).axTracked a t).axX a = d.axLatched a t := by
  rw [Dev.axTracked_axX ha, Dev.axLatched, Dev.axX_setAxX_self, Dev.axLatched]
  rfl

theorem Dev.axTracked_mode (ha : a < 24) : (d.axTracked a t).axMode a = modeHold := by
  have hmsrc : (TRJ_AXaa_MSRC_TYPE a).addr ≠ (TRJ_AXaa_STAT_MODE a).addr := by
    simp only [TRJ_AXaa_MSRC_TYPE, TRJ_AXaa_STAT_MODE]
    omega
  rw [Dev.axTracked, Dev.axSetMode, if_neg (by omega), Dev.axMode, Dev.showMaster, Dev.get_congr (Dev.reg_setReg_ne hmsrc)]
  exact Dev.get_put_fit (by decide : 0 + 3 ≤ 32) (by decide : 0 < 2 ^ 3)

/-- The device as the slot's motion leaves it at the instant. -/
def Dev.axSettled (d : Dev) (a t : Nat) : Dev :=
  let w := (d.setAxX a (d.axX a)).axTracked a t
  w.setAxX a { w.axX a with halt := false, haltLane := false }

theorem Dev.axSettle_still (ha : a < 24) (h : d.SlotStill a) : d.axSettle c a t = d.axSettled a t := by
  unfold Dev.axSettle
  extract_lets x e xe d0 y m d1 loose z d2 w d3 w3 d4
  have hyield : e = d.setAxX a (d.axX a) := Dev.axYield_none h.pend
  have hfbk : e.fbkX a = d.fbkX a := by
    rw [hyield]
    rfl
  have hd0 : d0 = (d.setAxX a (d.axX a)).axTracked a t := by
    rw [← hyield, Dev.axTracked, Dev.axLatched, hfbk]
    exact if_pos ⟨ha, by rw [h.live]; rfl⟩
  have hy : y = d.axLatched a t := (congrArg (·.axX a) hd0).trans (Dev.axTracked_yielded ha)
  have hdisc : y.disc = false := (congrArg AxX.disc hy).trans h.disc
  have hhalt : y.halt = false := (congrArg AxX.halt hy).trans h.halt
  have hd1 : d1 = d0 := if_neg (by rw [hdisc]; exact Bool.false_ne_true)
  have hd2 : d2 = d1 := (if_neg (by rw [hdisc, hhalt]; exact Bool.false_ne_true)).trans (if_neg (by rw [hhalt]; exact Bool.false_ne_true))
  have hsettled : d3 = d.axSettled a t := by
    unfold d3 w
    rw [hd2, hd1, hd0]
    rfl
  have hreplan : (d3.axX a).replan = false := by
    rw [hsettled, Dev.axSettled, Dev.axX_setAxX_self, Dev.axTracked_yielded ha]
    exact h.replan
  rw [if_neg (by rw [hreplan]; exact Bool.false_ne_true), hsettled]

/-- What the slot's record and mode are then. -/
structure SlotRests (a t : Nat) (d : Dev) : Prop where
  tj : (d.axX a).tj = t
  live : (d.axX a).live = false
  pend : (d.axX a).pend = []
  mst : (d.axX a).mst = none
  mode : d.axMode a = modeHold

theorem SlotRests.of_axX {n : Nat} (h : SlotRests a n d) (hx : e.axX a = d.axX a) (hm : e.axMode a = d.axMode a) : SlotRests a n e := by
  obtain ⟨htj, hlive, hpend, hmst, hmode⟩ := h
  refine ⟨?_, ?_, ?_, ?_, hm.trans hmode⟩ <;> rw [hx] <;> assumption

theorem Dev.axSettled_rests (ha : a < 24) (h : d.SlotStill a) :
    SlotStep a d (d.axSettled a t) ∧ SlotRests a (d.axX a).tj (d.axSettled a t) := by
  refine ⟨(SlotStep.setAxX.trans (Dev.axTracked_step ha)).trans .setAxX, ?_, ?_, ?_, ?_, Dev.axTracked_mode ha⟩ <;>
    rw [Dev.axSettled, Dev.axX_setAxX_self, Dev.axTracked_yielded ha]
  · rfl
  · exact h.live
  · exact h.pend
  · rfl

/-- The instant leaves the slot in HOLD at the latch, its commands and its group as they are. -/
theorem Dev.axMoment_still (ha : a < 24) (h : d.SlotStill a) :
    SlotStep a d (d.axMoment c a t) ∧ SlotRests a (d.axX a).tj (d.axMoment c a t) := by
  obtain ⟨hstep, hrests⟩ := Dev.axSettled_rests (t := t) ha h
  have hread {w : Dev} {n : Nat} (hw : SlotRests a n w) : SlotRests a n (w.setAxX a (w.axX a)) := hw.of_axX Dev.axX_setAxX_self rfl
  have himgs : ((d.axSettled a t).setAxX a ((d.axSettled a t).axX a)).imgs = [] := by
    rw [Dev.setAxX_imgs, hstep.frame, h.imgs]
  have hcmt : ((d.axSettled a t).setAxX a ((d.axSettled a t).axX a)).flag (TRJ_AXaa_CTL_CMT a) = false := by
    rw [Dev.flag_congr Dev.setAxX_reg, Dev.flag_congr (hstep.regs (TRJ_AXaa_CTL_CMT a).addr (not_isSlotNote (k := 0x40) (by decide))), h.cmt]
  rw [Dev.axMoment, Dev.axSettle_still ha h, Dev.axTakeDue_none hrests.pend, Dev.axCommit_none himgs hcmt,
    Dev.axTakeDue_none (hread hrests).pend]
  exact ⟨(hstep.trans .setAxX).trans .setAxX, hread (hread hrests)⟩

/-! The judgement of the master, the registers, the job for the next instant (R233, R234, R246, R252, R257, R302). -/

/-- Without a master only CAMOUT and OVERLIM are cleared. -/
theorem Dev.masterJudge_none (h : (d.axX a).mst = none) :
    d.masterJudge c a t = (d.setf (TRJ_AXaa_STAT_CAMOUT a) false).setf (TRJ_AXaa_STAT_OVERLIM a) false := by
  rw [Dev.masterJudge, h]

theorem Dev.masterJudge_still {n : Nat} (h : SlotRests a n d) : SlotStep a d (d.masterJudge c a t) ∧ SlotRests a n (d.masterJudge c a t) := by
  rw [Dev.masterJudge_none h.mst]
  refine ⟨SlotStep.putStat.trans .putStat, h.of_axX rfl ?_⟩
  rw [Dev.axMode, Dev.setf, Dev.get_put_apart (by decide : 9 + 1 ≤ 32) (.inr (.inr (by decide : 0 + 3 ≤ 9))), Dev.setf,
    Dev.get_put_apart (by decide : 8 + 1 ≤ 32) (.inr (.inr (by decide : 0 + 3 ≤ 8))), Dev.axMode]

theorem Dev.regenStop_hold (h : d.axMode a = modeHold) : d.regenStop a t = d := if_pos (.inr (.inl (by rw [h]; decide)))

theorem Dev.publish_off (h : d.flag (TRJ_AXaa_CFG_ACT_PUB a) = false) : d.publish a t = d := if_pos (by rw [h]; rfl)

/-- A slot that tracks shows the latched position, at rest. -/
def Dev.latchShown (d : Dev) (a : Nat) : Dev :=
  ((d.put64 (TRJ_AXaa_SP_LO_V a) (TRJ_AXaa_SP_HI_V a) (uInt 64 ((d.fbkX a).x / 2 ^ 32))).put (TRJ_AXaa_SP_FRAC_V a)
    (uInt 32 (d.fbkX a).x)).put64 (TRJ_AXaa_SV_LO_V a) (TRJ_AXaa_SV_HI_V a) 0

theorem Dev.showSp_tracking (ha : a < 24) (h : (d.axX a).live = false) : d.showSp a t = d.latchShown a := by
  unfold Dev.showSp
  rw [if_pos ⟨ha, by rw [h]; rfl⟩]
  rfl

/-- The registers of the set-point. -/
def isSetpointReg (a r : Nat) : Prop := 0x40090060 + 0x100 * a ≤ r ∧ r < 0x40090074 + 0x100 * a

theorem Dev.latchShown_frame : OnlyRegs (isSetpointReg a) d (d.latchShown a) := by
  have hreg {k : Nat} (hk : k < 0x14) : isSetpointReg a (0x40090060 + k + 0x100 * a) := by
    simp only [isSetpointReg]
    omega
  exact ((OnlyRegs.put64 (hreg (k := 0) (by decide)) (hreg (k := 4) (by decide))).trans (.put (hreg (k := 8) (by decide)))).trans
    (.put64 (hreg (k := 12) (by decide)) (hreg (k := 16) (by decide)))

theorem slotReg_ne {k m : Nat} (h : k ≠ m) : 0x40090000 + k + 0x100 * a ≠ 0x40090000 + m + 0x100 * a := by omega

theorem Dev.latchShown_sp : (d.latchShown a).get64 (TRJ_AXaa_SP_LO_V a) (TRJ_AXaa_SP_HI_V a) = uInt 64 ((d.fbkX a).x / 2 ^ 32) := by
  have hlater {e : Dev} {v w k : Nat} (h8 : 0x68 ≠ k) (h12 : 0x6C ≠ k) (h16 : 0x70 ≠ k) :
      ((e.put (TRJ_AXaa_SP_FRAC_V a) v).put64 (TRJ_AXaa_SV_LO_V a) (TRJ_AXaa_SV_HI_V a) w).reg (0x40090000 + k + 0x100 * a) =
        e.reg (0x40090000 + k + 0x100 * a) :=
    (Dev.reg_put64_ne (slotReg_ne h12) (slotReg_ne h16)).trans (Dev.reg_put_ne (slotReg_ne h8))
  rw [Dev.latchShown, Dev.get64_congr (lo := TRJ_AXaa_SP_LO_V a) (hi := TRJ_AXaa_SP_HI_V a) (hlater (k := 0x60) (by decide) (by decide) (by decide))
      (hlater (k := 0x64) (by decide) (by decide) (by decide)),
    Dev.get64_put64 ⟨rfl, rfl⟩ ⟨rfl, rfl⟩ (slotReg_ne (k := 0x64) (m := 0x60) (by decide)), Nat.mod_eq_of_lt uInt_lt]

theorem Dev.latchShown_frac : (d.latchShown a).get (TRJ_AXaa_SP_FRAC_V a) = uInt 32 (d.fbkX a).x := by
  rw [Dev.latchShown, Dev.get_congr (f := TRJ_AXaa_SP_FRAC_V a)
    (Dev.reg_put64_ne (slotReg_ne (k := 0x6C) (m := 0x68) (by decide)) (slotReg_ne (k := 0x70) (m := 0x68) (by decide)))]
  exact Dev.get_put_fit (Nat.le_refl 32) uInt_lt

theorem Dev.latchShown_sv : (d.latchShown a).get64 (TRJ_AXaa_SV_LO_V a) (TRJ_AXaa_SV_HI_V a) = 0 :=
  Dev.get64_put64 ⟨rfl, rfl⟩ ⟨rfl, rfl⟩ (slotReg_ne (k := 0x70) (m := 0x6C) (by decide))

/-- The job for the next instant of a slot whose job is FREE is armed: the Herder's own state, and the samples it will use. -/
theorem Dev.armSetpoint_free (ha : a < 64) (h : d.jobState (slotSetpoint a) = jobFree) : ∃ y : AxX, y.tj = (d.axX a).tj ∧
    HerdStep (d.setAxX a y) (d.armSetpoint c a t) := by
  unfold Dev.armSetpoint
  extract_lets x next keys d0 j st d1 cls d2
  have hj : j < 1024 := by
    unfold j slotSetpoint
    omega
  have hd0 : d0.jobState j = jobFree := h
  have hd1 : d1 = d0 := if_pos hd0
  have hst : ¬ (st = jobRun ∨ st = jobPreempted) := by
    unfold st
    rw [hd0]
    decide
  have hd2 : d2 = d0.put (HERDER_JOBj_CFG_CLS j) cls := (if_neg hst).trans (by rw [hd1])
  have hfree : d2.jobState j = jobFree := by
    rw [hd2, Dev.jobState, Dev.get_put_disjoint (by decide : 16 + 8 ≤ 32) (.inl (by decide : 0 + 3 ≤ 16)), ← Dev.jobState, hd0]
  have hcls : HerdStep d0 d2 := by
    rw [hd2]
    exact .put (jobReg_lt hj (k := 0) (by decide))
  refine ⟨_, ?_, hcls.trans (.jobArm_free hj hfree)⟩
  rfl

theorem Dev.holdoverAt_none (h : (d.axX a).hold31 = false) : d.holdoverAt c a = d := if_pos (by rw [h]; rfl)

/-- The slot at its instant, up to the registers of its set-point. -/
def Dev.axStood (d : Dev) (c : Clock) (a t : Nat) : Dev :=
  ((d.setAxX a { d.axX a with tj := t }).axMoment c a t).masterJudge c a t

theorem Dev.axStood_still (ha : a < 24) (h : d.SlotStill a) : SlotStep a d (d.axStood c a t) ∧ SlotRests a t (d.axStood c a t) := by
  have hnoted : (d.setAxX a { d.axX a with tj := t }).SlotStill a := by
    obtain ⟨hlive, hpend, hdisc, hhalt, hreplan, hhold31, himgs, hcmt⟩ := h
    refine ⟨?_, ?_, ?_, ?_, ?_, ?_, himgs, hcmt⟩ <;> rw [Dev.axX_setAxX_self] <;> assumption
  obtain ⟨hmoment, hrests⟩ := Dev.axMoment_still (c := c) (t := t) ha hnoted
  rw [Dev.axX_setAxX_self] at hrests
  obtain ⟨hjudge, hstood⟩ := Dev.masterJudge_still (c := c) (t := t) hrests
  exact ⟨(SlotStep.setAxX.trans hmoment).trans hjudge, hstood⟩

/-- The instant of a still slot that does not publish and whose job is FREE: the latch shown, then the job for the next instant. -/
theorem Dev.axInstant_still (ha : a < 24) (h : d.SlotStill a) (hi : d.idleHerd t = false) (hm : d.axMode a = modeHold)
    (hp : d.flag (TRJ_AXaa_CFG_ACT_PUB a) = false) (hj : d.jobState (slotSetpoint a) = jobFree) : ∃ y : AxX,
    y.tj = t ∧ HerdStep (((d.axStood c a t).latchShown a).setAxX a y) (d.axInstant c a t) ∧ (d.axInstant c a t).axMode a = modeHold := by
  obtain ⟨hstep, hrests⟩ := Dev.axStood_still (c := c) (t := t) ha h
  have hkeep {r : Nat} (hnote : ¬ isSlotNote a r) (hset : ¬ isSetpointReg a r) : ((d.axStood c a t).latchShown a).reg r = d.reg r :=
    (Dev.latchShown_frame.reg_eq hset).trans (hstep.regs r hnote)
  have hpub : ((d.axStood c a t).latchShown a).flag (TRJ_AXaa_CFG_ACT_PUB a) = false := by
    rw [Dev.flag_congr (f := TRJ_AXaa_CFG_ACT_PUB a) (hkeep (not_isSlotNote (k := 0x80) (by decide)) ?_), hp]
    simp only [isSetpointReg, TRJ_AXaa_CFG_ACT_PUB]
    omega
  have hfree : ((d.axStood c a t).latchShown a).jobState (slotSetpoint a) = jobFree := by
    rw [Dev.jobState, Dev.get_congr (f := HERDER_JOBj_CFG_STATE (slotSetpoint a)) (hkeep ?_ ?_), ← Dev.jobState, hj] <;>
      simp only [isSlotNote, isSetpointReg, HERDER_JOBj_CFG_STATE, TRJ_AXaa_STAT_MODE, TRJ_AXaa_MSRC_TYPE, slotSetpoint] <;> omega
  obtain ⟨y, hy, harm⟩ := Dev.armSetpoint_free (c := c) (t := t) (by omega) hfree
  have hhold : (((d.axStood c a t).latchShown a).armSetpoint c a t).axMode a = modeHold := by
    rw [Dev.axMode, Dev.get_congr (f := TRJ_AXaa_STAT_MODE a) (harm.regs _ ?_), Dev.get_congr Dev.setAxX_reg,
      Dev.latchShown_frame.get_eq ?_, ← Dev.axMode, hrests.mode] <;> simp only [isSetpointReg, TRJ_AXaa_STAT_MODE] <;> omega
  have hcam : ¬ (d.axMode a = modeCam ∨ (((d.axStood c a t).latchShown a).armSetpoint c a t).axMode a = modeCam) := by
    rw [hm, hhold]
    decide
  have hshown : (((d.axStood c a t).regenStop a t).showSp a t).publish a t = (d.axStood c a t).latchShown a := by
    rw [Dev.regenStop_hold hrests.mode, Dev.showSp_tracking ha hrests.live, Dev.publish_off hpub]
  have hinstant : d.axInstant c a t = ((d.axStood c a t).latchShown a).armSetpoint c a t := by
    have hsteady : ((d.setAxX a { d.axX a with tj := t }).axX a).hold31 = false := by rw [Dev.axX_setAxX_self, h.hold31]
    unfold Dev.axInstant
    rw [if_neg (by rw [hi]; exact Bool.false_ne_true), Dev.holdoverAt_none hsteady]
    dsimp only
    rw [← Dev.axStood, hshown, if_neg hcam]
  rw [hinstant]
  exact ⟨y, hy.trans ((congrArg AxX.tj Dev.latchShown_frame.axX_eq).trans hrests.tj), harm, hhold⟩

/-- What a still slot shows after its instant: the latched position at rest, in HOLD; lanes and memory stay. -/
theorem Dev.axInstant_shows (ha : a < 24) (h : d.SlotStill a) (hi : d.idleHerd t = false) (hm : d.axMode a = modeHold)
    (hp : d.flag (TRJ_AXaa_CFG_ACT_PUB a) = false) (hj : d.jobState (slotSetpoint a) = jobFree) :
    ((d.axInstant c a t).axX a).tj = t ∧
    (d.axInstant c a t).get64 (TRJ_AXaa_SP_LO_V a) (TRJ_AXaa_SP_HI_V a) = uInt 64 ((d.fbkX a).x / 2 ^ 32) ∧
    (d.axInstant c a t).get (TRJ_AXaa_SP_FRAC_V a) = uInt 32 (d.fbkX a).x ∧
    (d.axInstant c a t).get64 (TRJ_AXaa_SV_LO_V a) (TRJ_AXaa_SV_HI_V a) = 0 ∧ (d.axInstant c a t).axMode a = modeHold ∧
    (d.axInstant c a t).lanes = d.lanes ∧ (d.axInstant c a t).mem = d.mem := by
  obtain ⟨y, hy, harm, hhold⟩ := Dev.axInstant_still (c := c) (t := t) ha h hi hm hp hj
  have hstood := (Dev.axStood_still (c := c) (t := t) ha h).1
  have hreg {k : Nat} : (d.axInstant c a t).reg (0x40090000 + k + 0x100 * a) = ((d.axStood c a t).latchShown a).reg (0x40090000 + k + 0x100 * a) :=
    (harm.regs _ (by omega)).trans Dev.setAxX_reg
  refine ⟨?_, ?_, ?_, ?_, hhold, ?_, ?_⟩
  · rw [harm.axX_eq, Dev.axX_setAxX_self, hy]
  · rw [Dev.get64_congr (lo := TRJ_AXaa_SP_LO_V a) (hi := TRJ_AXaa_SP_HI_V a) (hreg (k := 0x60)) (hreg (k := 0x64)), Dev.latchShown_sp,
      hstood.fbkX_eq]
  · rw [Dev.get_congr (f := TRJ_AXaa_SP_FRAC_V a) (hreg (k := 0x68)), Dev.latchShown_frac, hstood.fbkX_eq]
  · rw [Dev.get64_congr (lo := TRJ_AXaa_SV_LO_V a) (hi := TRJ_AXaa_SV_HI_V a) (hreg (k := 0x6C)) (hreg (k := 0x70)), Dev.latchShown_sv]
  · rw [harm.lanes_eq, Dev.setAxX_lanes, Dev.latchShown_frame.lanes_eq, hstood.lanes_eq]
  · rw [harm.mem_eq, Dev.setAxX_mem, Dev.latchShown_frame.mem_eq, hstood.mem_eq]

end SlotInstants

end Sys2Proof.Machine

/-! PROOFS. The rows of trajectory instants, loop instants, loop jobs and loop outputs (R39, R232, R268, R269). -/

namespace Sys2Proof.Machine

section InstantRows

variable {s : State} {d : Dev} {c : Clock} {n t : Nat}

/-- The slot's instant where one is due. -/
def Dev.axInstantDue (d : Dev) (c : Clock) (a : Nat) : Dev :=
  match d.axDue c a with
  | some t => d.axInstant c a t
  | none => d

/-- The block's instant where one is due. -/
def Dev.loopInstantDue (d : Dev) (c : Clock) (b : Nat) : Dev :=
  match d.loopDue c b with
  | some t => d.loopInstant c b t
  | none => d

theorem Dev.axInstantDue_none (h : d.axDue c n = none) : d.axInstantDue c n = d := by rw [Dev.axInstantDue, h]

theorem Dev.axInstantDue_some (h : d.axDue c n = some t) : d.axInstantDue c n = d.axInstant c n t := by rw [Dev.axInstantDue, h]

theorem Dev.loopInstantDue_none (h : d.loopDue c n = none) : d.loopInstantDue c n = d := by rw [Dev.loopInstantDue, h]

theorem Dev.loopInstantDue_some (h : d.loopDue c n = some t) : d.loopInstantDue c n = d.loopInstant c n t := by rw [Dev.loopInstantDue, h]

theorem exec_trajectoryInstant {a : Fin 64} (hs : s.dev.dst.serves = true) :
    exec (.trajectoryInstant a) s = .next { s with dev := s.dev.axInstantDue s.clk a } :=
  exec_serving (h := fun c d => d.axInstantDue c a) hs rfl

theorem exec_loopInstant {b : Fin 16} (hs : s.dev.dst.serves = true) :
    exec (.loopInstant b) s = .next { s with dev := s.dev.loopInstantDue s.clk b } :=
  exec_serving (h := fun c d => d.loopInstantDue c b) hs rfl

theorem exec_loopJobComplete {b : Fin 16} (hs : s.dev.dst.serves = true) :
    exec (.loopJobComplete b) s = .next { s with dev := s.dev.loopComplete s.clk b } :=
  exec_serving (h := fun c d => d.loopComplete c b) hs rfl

theorem exec_loopOutput {b : Fin 16} (hs : s.dev.dst.serves = true) :
    exec (.loopOutput b) s = .next { s with dev := s.dev.loopOutputAt s.clk b } :=
  exec_serving (h := fun c d => d.loopOutputAt c b) hs rfl

end InstantRows

end Sys2Proof.Machine

section
open Sys2Proof Sys2Proof.Machine

/-- Settles O51, row by row: each row is one equation on the device, and reports, packets and the end of a job leave the loop's record, STAT and
OUT (`LoopAside`), the computation leaves the group in force (`LoopStep`), and the instant of a still slot changes that slot alone (`SlotStep`). -/
theorem trajectoryAndLoopRows : Obligations.TrajectoryAndLoopRows := by
  intro s hs
  refine ⟨fun a => ⟨fun hdue => ?_, fun t hdue => ⟨fun hidle => ?_, ?_⟩⟩,
    fun b => ⟨fun hdue => ?_, ?_, fun hjob => ?_, ?_, fun hdue => ?_, ?_⟩⟩
  · rw [exec_trajectoryInstant hs, Dev.axInstantDue_none hdue]
  · rw [exec_trajectoryInstant hs, Dev.axInstantDue_some hdue, Dev.axInstant, if_pos hidle]
  · intro x hidle ha hlive hpend hdisc hhalt hreplan hhold31 himgs hcmt hmode hpub hfree
    obtain ⟨htj, hsp, hfrac, hsv, hhold, hlanes, hmem⟩ := Dev.axInstant_shows (c := s.clk) ha
      ⟨hlive, hpend, hdisc, hhalt, hreplan, hhold31, himgs, hcmt⟩ hidle hmode hpub hfree
    rw [exec_trajectoryInstant hs, Dev.axInstantDue_some hdue]
    exact ⟨_, rfl, rfl, rfl, htj, hsp, hfrac, hsv, hhold, hlanes, hmem⟩
  · rw [exec_loopInstant hs, Dev.loopInstantDue_none hdue]
  · intro t hdue hpend himgs hcmt hecc hnone hmode
    obtain ⟨honly, htj, hsame⟩ := Dev.loopInstant_off_only (c := s.clk) (t := t) ⟨hpend, himgs, hcmt, hecc, hnone⟩ hmode
    rw [exec_loopInstant hs, Dev.loopInstantDue_some hdue]
    exact ⟨_, rfl, htj, hsame, congrArg (fun d => { s with dev := d }) honly⟩
  · rw [exec_loopJobComplete hs, Dev.loopComplete_idle hjob]
  · intro r hr hslot late mode
    exact ⟨_, exec_loopJobComplete hs, rfl, rfl, Dev.loopComplete_due hr hslot, Dev.loopComplete_flight hr hslot b.isLt,
      Dev.loopComplete_late hr hslot b.isLt, Dev.loopComplete_silent hr hslot b.isLt, Dev.loopComplete_manual hr hslot b.isLt⟩
  · rw [exec_loopOutput hs, Dev.loopOutputAt_none hdue]
  · intro o hdue ho
    refine ⟨fun hmode => ?_, fun hmode => ⟨_, exec_loopOutput hs, ?_, ?_, ?_, rfl⟩⟩
    · rw [exec_loopOutput hs, Dev.loopOutputAt_off hdue ho hmode]
    · rw [Dev.loopOutputAt_late hdue ho hmode, Dev.loopMiss_loopX]
    · rw [Dev.loopOutputAt_late hdue ho hmode]
      exact Dev.loopMiss_late b.isLt (Option.isSome_iff_exists.mpr ⟨o, hdue⟩)
    · rw [Dev.loopOutputAt_late hdue ho hmode, Dev.loopMiss_loopX]

end
